-- ==== Sys2Proof/Word.lean ====
section
/-! DEFINITION. The word types of the Brynter (R5). -/

namespace Sys2Proof

/-- A byte (R5). -/
abbrev Byte := BitVec 8

/-- A dword: control-core registers, addresses, block scalars (R5, R96). -/
abbrev Word := BitVec 64

/-- The longest vector register: 16 strips × 16 lanes × 32 bytes × fold 4 (R143), as one string of bits with byte 0
lowest. A task uses the first VLENB bytes of it. -/
abbrev VReg := BitVec 262144

/-- A tile register: 64 × 64 accumulators of 32 bits, row-major, accumulator (0, 0) lowest (R268, R346). -/
abbrev Tile := BitVec 131072

end Sys2Proof
end

