-- ==== Sys2Proof/Machine/Bits.lean ====
section
/-! DEFINITION. Bit fields, sign extension and byte order: the readings of `zext`, `sext` and `field` (R96) that
every other file uses. -/

namespace Sys2Proof.Machine

/-- field(w, lo + len − 1, lo) of R96, as a natural number. -/
def fieldN {n : Nat} (w : BitVec n) (lo len : Nat) : Nat := (w.extractLsb' lo len).toNat

/-- Bit i of w. -/
def bitN {n : Nat} (w : BitVec n) (i : Nat) : Bool := w.getLsbD i

/-- w with the field of k bits at bit lo replaced. -/
def setField {n k : Nat} (w : BitVec n) (lo : Nat) (v : BitVec k) : BitVec n :=
  w ^^^ (((w.extractLsb' lo k) ^^^ v).setWidth n <<< lo)

/-- w with the field of len bits at bit lo replaced by v modulo 2^len. -/
def setFieldN {n : Nat} (w : BitVec n) (lo len : Nat) (v : Nat) : BitVec n :=
  setField w lo (BitVec.ofNat len v)

/-- sext(a, n) of R96: the low n bits of a as a two's-complement integer. -/
def sextN (a n : Nat) : Int :=
  let m := a % 2 ^ n
  if n = 0 then 0 else if m < 2 ^ (n - 1) then (m : Int) else (m : Int) - (2 : Int) ^ n

/-- An integer narrowed to n bits, modulo 2^n. -/
def wrapN (y : Int) (n : Nat) : Nat := (y % (2 : Int) ^ n).toNat

/-- Byte k of a little-endian value. -/
def byteOf (v k : Nat) : Byte := BitVec.ofNat 8 (v >>> (8 * k))

/-- The n bytes of a value, lowest first (R5). -/
def bytesOf (v : Nat) : Nat → List Byte
  | 0 => []
  | n + 1 => BitVec.ofNat 8 v :: bytesOf (v >>> 8) n

/-- The value of bytes in little-endian order (R5). -/
def leVal : List Byte → Nat
  | [] => 0
  | b :: bs => b.toNat + 256 * leVal bs

/-- The value of n bytes at an offset. -/
def getN (bs : List Byte) (off n : Nat) : Nat := leVal ((bs.drop off).take n)

/-- n rounded up to a multiple of a. -/
def ceilDiv (n a : Nat) : Nat := (n + a - 1) / a

/-- The indices from lo below hi, ascending. -/
def rangeFrom (lo hi : Nat) : List Nat := (List.range (hi - lo)).map (· + lo)

/-- The first element of a list that meets p, with its place. -/
def findPlace {α : Type} (p : α → Bool) : List α → Nat → Option (Nat × α)
  | [], _ => none
  | a :: as, k => if p a then some (k, a) else findPlace p as (k + 1)

/-- A list with every element that meets p changed by f. -/
def mapIf {α : Type} (p : α → Bool) (f : α → α) (l : List α) : List α :=
  l.map (fun a => if p a then f a else a)

/-- The sum of a measure over a list. -/
def sumBy {α : Type} (f : α → Nat) (l : List α) : Nat := l.foldl (fun a x => a + f x) 0

/-- The least value of a measure over a list, or a default. -/
def leastBy {α : Type} (f : α → Nat) (d : Nat) (l : List α) : Nat := l.foldl (fun a x => min a (f x)) d

/-- An element put into a list sorted by a measure, after its equals. -/
def insertBy {α : Type} (f : α → Nat) (x : α) : List α → List α
  | [] => [x]
  | a :: as => if f x < f a then x :: a :: as else a :: insertBy f x as

/-- A list sorted by a measure; equals keep their order. -/
def sortBy {α : Type} (f : α → Nat) (l : List α) : List α := l.foldl (fun acc x => insertBy f x acc) []

/-- The element of least measure, the earliest among equals. -/
def argLeast {α : Type} (f : α → Nat) : List α → Option α
  | [] => none
  | a :: as =>
    match argLeast f as with
    | none => some a
    | some b => if f b < f a then some b else some a

end Sys2Proof.Machine
end

