-- ==== Sys2Proof/Machine/Sha3.lean ====
section
/-! DEFINITION. SHA3-256 as FIPS 202 gives it, the hash that R345, R396 and R397 name, and the SHAKE functions that FIPS 204 draws from
(log 9). -/

namespace Sys2Proof.Machine

/-- Lane (x, y) of a Keccak state of 25 lanes, its coordinates modulo 5. -/
def laneAt (a : List (BitVec 64)) (x y : Nat) : BitVec 64 := a.getD (x % 5 + 5 * (y % 5)) 0

/-- A Keccak state from the value of each of its lanes. -/
def lanesOf (f : Nat → Nat → BitVec 64) : List (BitVec 64) := (List.range 25).map (fun i => f (i % 5) (i / 5))

/-- Rotation of lane (x, y) in step rho, at place x + 5y. -/
def rhoOffsets : List Nat := [0, 1, 62, 28, 27, 36, 44, 6, 55, 20, 3, 10, 43, 25, 39, 41, 45, 15, 21, 8, 18, 2, 61, 56, 14]

/-- Constants of step iota, in the order of the rounds. -/
def iotaConstants : List (BitVec 64) :=
  [0x1, 0x8082, 0x800000000000808A, 0x8000000080008000, 0x808B, 0x80000001, 0x8000000080008081, 0x8000000000008009, 0x8A, 0x88,
   0x80008009, 0x8000000A, 0x8000808B, 0x800000000000008B, 0x8000000000008089, 0x8000000000008003, 0x8000000000008002,
   0x8000000000000080, 0x800A, 0x800000008000000A, 0x8000000080008081, 0x8000000000008080, 0x80000001, 0x8000000080008008]

/-- Step theta. -/
def keccakTheta (a : List (BitVec 64)) : List (BitVec 64) :=
  let c := (List.range 5).map (fun x => laneAt a x 0 ^^^ laneAt a x 1 ^^^ laneAt a x 2 ^^^ laneAt a x 3 ^^^ laneAt a x 4)
  lanesOf (fun x y => laneAt a x y ^^^ c.getD ((x + 4) % 5) 0 ^^^ (c.getD ((x + 1) % 5) 0).rotateLeft 1)

/-- Steps rho and pi. -/
def keccakRhoPi (a : List (BitVec 64)) : List (BitVec 64) :=
  lanesOf (fun x y => (laneAt a (x + 3 * y) x).rotateLeft (rhoOffsets.getD ((x + 3 * y) % 5 + 5 * x) 0))

/-- Step chi. -/
def keccakChi (a : List (BitVec 64)) : List (BitVec 64) :=
  lanesOf (fun x y => laneAt a x y ^^^ (~~~laneAt a (x + 1) y &&& laneAt a (x + 2) y))

/-- The permutation: 24 rounds. -/
def keccakF (a : List (BitVec 64)) : List (BitVec 64) :=
  iotaConstants.foldl (fun a k =>
    match keccakChi (keccakRhoPi (keccakTheta a)) with
    | [] => []
    | l :: ls => (l ^^^ k) :: ls) a

/-- A message padded to whole blocks of a rate in bytes, after the bits that tell the function from the others. -/
def keccakPad (rate : Nat) (suffix : Byte) (m : List Byte) : List Byte :=
  let free := rate - m.length % rate
  if free = 1 then m ++ [suffix ||| 0x80] else m ++ suffix :: List.replicate (free - 2) 0 ++ [0x80]

/-- Blocks absorbed one after another. -/
def keccakAbsorb (rate : Nat) : Nat → List Byte → List (BitVec 64) → List (BitVec 64)
  | 0, _, a => a
  | n + 1, m, a =>
    let block := m.take rate
    let mixed := a.mapIdx (fun i l => if i < rate / 8 then l ^^^ BitVec.ofNat 64 (leVal ((block.drop (8 * i)).take 8)) else l)
    keccakAbsorb rate n (m.drop rate) (keccakF mixed)

/-- A message absorbed whole. -/
def keccakMessage (rate : Nat) (suffix : Byte) (m : List Byte) : List (BitVec 64) :=
  let padded := keccakPad rate suffix m
  keccakAbsorb rate (padded.length / rate) padded (List.replicate 25 0)

/-- Blocks squeezed one after another. -/
def keccakSqueeze (rate : Nat) : Nat → List (BitVec 64) → List Byte
  | 0, _ => []
  | n + 1, a => (a.take (rate / 8)).flatMap (fun l => bytesOf l.toNat 8) ++ keccakSqueeze rate n (keccakF a)

/-- SHA3-256, its 32 bytes as a little-endian number. -/
def sha3 (m : List Byte) : BitVec 256 :=
  let a := keccakMessage 136 0x06 m
  laneAt a 3 0 ++ laneAt a 2 0 ++ laneAt a 1 0 ++ laneAt a 0 0

/-- The first n bytes of SHAKE128 and of SHAKE256. -/
def shake128 (m : List Byte) (n : Nat) : List Byte := (keccakSqueeze 168 (ceilDiv n 168) (keccakMessage 168 0x1F m)).take n
def shake256 (m : List Byte) (n : Nat) : List Byte := (keccakSqueeze 136 (ceilDiv n 136) (keccakMessage 136 0x1F m)).take n

end Sys2Proof.Machine
end

