-- ==== Sys2Proof/Machine/MlDsa.lean ====
section
/-! DEFINITION. ML-DSA-44 as FIPS 204 gives it: key generation, signing and verification, the scheme that R396, R398 and R401 name
(log 9). -/

namespace Sys2Proof.Machine

/-! ## Polynomials: 256 coefficients modulo q -/

/-- The modulus; d, τ, γ1, γ2, β, η and ω of the parameter set are 13, 39, 2^17, 95232, 78, 2 and 80, and k and l are 4. -/
def mlQ : Nat := 8380417

/-- A polynomial, its coefficients below q, the lowest first. -/
abbrev Poly := List Nat

/-- A sum, a difference and a product of coefficients, and a coefficient of an integer. -/
def mlAdd (a b : Nat) : Nat := (a + b) % mlQ
def mlSub (a b : Nat) : Nat := (a + mlQ - b) % mlQ
def mlMul (a b : Nat) : Nat := a * b % mlQ
def mlOfInt (a : Int) : Nat := (a % (mlQ : Int)).toNat

/-- Polynomials and vectors of polynomials, coefficient by coefficient. -/
def Poly.zip (f : Nat → Nat → Nat) (a b : Poly) : Poly := List.zipWith f a b
def vecZip (f : Nat → Nat → Nat) (a b : List Poly) : List Poly := List.zipWith (Poly.zip f) a b

/-- The remainder of a coefficient in (−α/2, α/2]. -/
def centered (a m : Nat) : Int := if a % m ≤ m / 2 then ((a % m : Nat) : Int) else ((a % m : Nat) : Int) - (m : Int)

/-- The largest magnitude among the coefficients of a vector. -/
def infNorm (v : List Poly) : Nat := v.flatten.foldl (fun a c => max a (centered c mlQ).natAbs) 0

/-! ## The number-theoretic transform -/

/-- a to the n modulo q, over the bits of n, at most 32 of them. -/
def mlPow (a n : Nat) : Nat :=
  ((List.range 32).foldl (fun (r : Nat × Nat) i => (if n.testBit i then mlMul r.1 r.2 else r.1, mlMul r.2 r.2)) (1, a)).1

/-- The 8 bits of a number in the other order. -/
def bitRev8 (m : Nat) : Nat := sumBy (fun i => if m.testBit i then 2 ^ (7 - i) else 0) (List.range 8)

/-- The factor of butterfly m: ζ = 1753 to the bits of m in the other order. -/
def zetaOf (m : Nat) : Nat := mlPow 1753 (bitRev8 m)

/-- The transform of the coefficients under butterfly m of a level, whose halves are those of 2m and 2m + 1. -/
def nttFrom : Nat → Nat → Poly → Poly
  | 0, _, w => w
  | n + 1, m, w =>
    let z := zetaOf m
    let lo := w.take (2 ^ n)
    let t := (w.drop (2 ^ n)).map (mlMul z)
    nttFrom n (2 * m) (Poly.zip mlAdd lo t) ++ nttFrom n (2 * m + 1) (Poly.zip mlSub lo t)

/-- The inverse of that, but for the factor of each level. -/
def nttBackFrom : Nat → Nat → Poly → Poly
  | 0, _, w => w
  | n + 1, m, w =>
    let z := mlPow 1753 (512 - bitRev8 m)
    let lo := nttBackFrom n (2 * m) (w.take (2 ^ n))
    let hi := nttBackFrom n (2 * m + 1) (w.drop (2 ^ n))
    Poly.zip mlAdd lo hi ++ (Poly.zip mlSub lo hi).map (mlMul z)

/-- The transform and its inverse. -/
def ntt (w : Poly) : Poly := nttFrom 8 1 w
def nttBack (w : Poly) : Poly := (nttBackFrom 8 1 w).map (mlMul 8347681)

/-- A polynomial times each of a vector, all transformed. -/
def scaleHat (c : Poly) (v : List Poly) : List Poly := v.map (Poly.zip mlMul c)

/-- A matrix times a vector, transformed. -/
def mulHat (a : List (List Poly)) (v : List Poly) : List Poly :=
  a.map (fun row => (List.zipWith (Poly.zip mlMul) row v).foldl (Poly.zip mlAdd) (List.replicate 256 0))

/-! ## Packing: n bits a coefficient, the lowest first -/

/-- Coefficients of n bits as bytes. -/
def packBits (n : Nat) (p : List Nat) : List Byte :=
  bytesOf (p.foldr (fun c a => c % 2 ^ n + 2 ^ n * a) 0) (p.length * n / 8)

/-- 256 fields of n bits of a string of bytes. -/
def unpackBits (n : Nat) (bs : List Byte) : List Nat :=
  let v := leVal bs
  (List.range 256).map (fun i => v >>> (n * i) % 2 ^ n)

/-- Coefficients packed as their distance below b, and read back. -/
def packBelow (b n : Nat) (p : Poly) : List Byte := packBits n (p.map (fun c => mlSub b c))
def unpackBelow (b n : Nat) (bs : List Byte) : Poly := (unpackBits n bs).map (fun z => mlSub b z)

/-- n pieces of a string, each of m bytes. -/
def pieces (n m : Nat) (bs : List Byte) : List (List Byte) := (List.range n).map (fun i => (bs.drop (m * i)).take m)

/-- Eighty places and four counts: the hints of a vector as bytes. -/
def packHints (h : List (List Bool)) : List Byte :=
  let places := h.map (fun p => (List.range 256).filter (fun j => p.getD j false))
  let ends := (List.range 4).map (fun i => (places.take (i + 1)).flatten.length)
  let flat := places.flatten
  (flat ++ List.replicate (80 - flat.length) 0 ++ ends).map (BitVec.ofNat 8)

/-- The places of a vector's hints, each polynomial's rising; none where the bytes are not what `packHints` gives. -/
def unpackHints (bs : List Byte) : Option (List (List Nat)) :=
  let y := bs.map BitVec.toNat
  let end_ (i : Nat) : Nat := if i = 0 then 0 else y.getD (79 + i) 0
  let part (i : Nat) : List Nat := (y.take (end_ (i + 1))).drop (end_ i)
  if (List.range 4).all (fun i => end_ i ≤ end_ (i + 1) && end_ (i + 1) ≤ 80 && (part i).Pairwise (· < ·))
      && ((y.take 80).drop (end_ 4)).all (· == 0)
  then some ((List.range 4).map part) else none

/-! ## Rounding and hints -/

/-- A coefficient as its high and low part of d bits. -/
def power2Round (r : Nat) : Nat × Int := let r0 := centered r 8192; (((r : Int) - r0).toNat / 8192, r0)

/-- A coefficient as its high part and its low part about 2γ2. -/
def decompose (r : Nat) : Nat × Int :=
  let r0 := centered r 190464
  if (r : Int) - r0 = (mlQ : Int) - 1 then (0, r0 - 1) else (((r : Int) - r0).toNat / 190464, r0)

/-- Whether adding z to r changes its high part. -/
def makeHint (z r : Nat) : Bool := (decompose r).1 != (decompose (mlAdd r z)).1

/-- The high part of r as a hint corrects it. -/
def useHint (h : Bool) (r : Nat) : Nat :=
  match decompose r with
  | (r1, r0) => if !h then r1 else if r0 > 0 then (r1 + 1) % 44 else (r1 + 43) % 44

/-! ## Sampling -/

/-- A polynomial of the transformed matrix, drawn from a seed of 34 bytes: 894 bytes give 256 coefficients. -/
def rejNtt (seed : List Byte) : Poly :=
  let b := shake128 seed 894
  (((pieces 298 3 b).map (fun c => leVal c % 2 ^ 23)).filter (· < mlQ)).take 256

/-- The matrix of a seed. -/
def expandA (rho : List Byte) : List (List Poly) :=
  (List.range 4).map (fun r => (List.range 4).map (fun s => rejNtt (rho ++ [BitVec.ofNat 8 s, BitVec.ofNat 8 r])))

/-- A polynomial with coefficients in −2 to 2, drawn from a seed of 66 bytes: 481 bytes give 256 coefficients. -/
def rejBounded (seed : List Byte) : Poly :=
  let halves := (shake256 seed 481).flatMap (fun b => [b.toNat % 16, b.toNat / 16])
  ((halves.filter (· < 15)).take 256).map (fun b => mlSub 2 (b % 5))

/-- The secret vectors of a seed, from polynomial i on. -/
def expandS (seed : List Byte) (i : Nat) : List Poly := (List.range 4).map (fun r => rejBounded (seed ++ bytesOf (i + r) 2))

/-- The mask of a try. -/
def expandMask (seed : List Byte) (kappa : Nat) : List Poly :=
  (List.range 4).map (fun r => unpackBelow 131072 18 (shake256 (seed ++ bytesOf (kappa + r) 2) 576))

/-- The places at which a challenge's coefficients are swapped in: for each i from 217 on the next byte that is at most i. -/
def ballPlaces : List Byte → Nat → Nat → List Nat
  | _, 0, _ => []
  | [], _ + 1, _ => []
  | b :: bs, n + 1, i => if b.toNat ≤ i then b.toNat :: ballPlaces bs n (i + 1) else ballPlaces bs (n + 1) i

/-- A challenge: 39 coefficients of magnitude 1, drawn from a hash in 221 bytes. -/
def sampleInBall (seed : List Byte) : Poly :=
  let b := shake256 seed 221
  let signs := leVal (b.take 8)
  ((ballPlaces (b.drop 8) 39 217).mapIdx (fun n j => (n, j))).foldl (fun (c : Poly) p =>
    (c.set (217 + p.1) (c.getD p.2 0)).set p.2 (if signs.testBit p.1 then mlQ - 1 else 1)) (List.replicate 256 0)

/-! ## Keys, signatures, verification -/

/-- The high parts of a vector, six bits each. -/
def packHigh (w : List (List Nat)) : List Byte := w.flatMap (packBits 6)

/-- The hash of the message as it is signed, with an empty context. -/
def messageHash (tr m : List Byte) : List Byte := shake256 (tr ++ [0, 0] ++ m) 64

/-- The key pair of a seed of 32 bytes, public and private. -/
def mldsaKeys (seed : List Byte) : List Byte × List Byte :=
  let h := shake256 (seed ++ [4, 4]) 128
  let rho := h.take 32
  let s1 := expandS ((h.drop 32).take 64) 0
  let s2 := expandS ((h.drop 32).take 64) 4
  let t := vecZip mlAdd ((mulHat (expandA rho) (s1.map ntt)).map nttBack) s2
  let pk := rho ++ t.flatMap (fun p => packBits 10 (p.map (fun c => (power2Round c).1)))
  let t0 := t.map (fun p => p.map (fun c => mlOfInt (power2Round c).2))
  (pk, rho ++ h.drop 96 ++ shake256 pk 64 ++ s1.flatMap (packBelow 2 3) ++ s2.flatMap (packBelow 2 3) ++ t0.flatMap (packBelow 4096 13))

/-- What one private key signs with: the matrix, its hashes, and its transformed vectors. -/
structure Signer where
  a : List (List Poly)
  s1 : List Poly
  s2 : List Poly
  t0 : List Poly
  mu : List Byte
  seed : List Byte

/-- A private key opened for a message, with 32 random bytes. -/
def Signer.open_ (sk m rnd : List Byte) : Signer :=
  let mu := messageHash ((sk.drop 64).take 64) m
  let vec (at_ size : Nat) (f : List Byte → Poly) : List Poly := (pieces 4 size (sk.drop at_)).map (fun b => ntt (f b))
  { a := expandA (sk.take 32), s1 := vec 128 96 (unpackBelow 2 3), s2 := vec 512 96 (unpackBelow 2 3),
    t0 := vec 896 416 (unpackBelow 4096 13), mu := mu, seed := shake256 ((sk.drop 32).take 32 ++ rnd ++ mu) 64 }

/-- One try of a signature, none where it must be rejected. -/
def Signer.try_ (g : Signer) (kappa : Nat) : Option (List Byte) :=
  let y := expandMask g.seed kappa
  let w := (mulHat g.a (y.map ntt)).map nttBack
  let hash := shake256 (g.mu ++ packHigh (w.map (fun p => p.map (fun c => (decompose c).1)))) 32
  let c := ntt (sampleInBall hash)
  let z := vecZip mlAdd y ((scaleHat c g.s1).map nttBack)
  let low := vecZip mlSub w ((scaleHat c g.s2).map nttBack)
  let ct0 := (scaleHat c g.t0).map nttBack
  let hints := List.zipWith (List.zipWith (fun t r => makeHint (mlSub 0 t) (mlAdd r t))) ct0 low
  if infNorm z ≥ 131072 - 78 || low.flatten.any (fun r => (decompose r).2.natAbs ≥ 95232 - 78) || infNorm ct0 ≥ 95232
      || (hints.flatten.filter id).length > 80 then none
  else some (hash ++ z.flatMap (packBelow 131072 18) ++ packHints hints)

/-- The first try that is not rejected, of at most some. -/
def Signer.run (g : Signer) : Nat → Nat → List Byte
  | 0, _ => []
  | n + 1, kappa =>
    match g.try_ kappa with
    | some s => s
    | none => g.run n (kappa + 4)

/-- The signature of a message by a private key, with 32 random bytes; FIPS 204 lets an implementation stop after 814 tries. -/
def mldsaSign (sk m rnd : List Byte) : List Byte := (Signer.open_ sk m rnd).run 814 0

/-- Whether a signature of a message is one by a public key. -/
def mldsaVerify (pk m sig : List Byte) : Bool :=
  pk.length == 1312 && sig.length == 2420 &&
    (match unpackHints (sig.drop 2336) with
    | none => false
    | some places =>
      let hash := sig.take 32
      let z := (pieces 4 576 (sig.drop 32)).map (unpackBelow 131072 18)
      let t1 := (pieces 4 320 (pk.drop 32)).map (fun b => ntt ((unpackBits 10 b).map (fun c => mlMul c 8192)))
      let w := (vecZip mlSub (mulHat (expandA (pk.take 32)) (z.map ntt)) (scaleHat (ntt (sampleInBall hash)) t1)).map nttBack
      let high := List.zipWith (fun p h => p.mapIdx (fun j c => useHint (h.contains j) c)) w places
      infNorm z < 131072 - 78 && hash == shake256 (messageHash (shake256 pk 64) m ++ packHigh high) 32)

end Sys2Proof.Machine
end

