-- ==== Sys2Proof/Config.lean ====
section
/-! DEFINITION. What the manual leaves open: opaque free values, applied to `State.freeCtr` or to the operands they
depend on. Nothing can be proved about their values. -/

namespace Sys2Proof

/-- Which of two allowed values an open choice takes (R257), log 5. -/
opaque Config.freeBit : Nat → Bool

/-- What the elements at and above vl of a bound register hold for a word that reads them, since a strip gives only those below (R265), log 5. -/
opaque Config.freeTail : Nat → Nat → BitVec 262144

/-- Whether a transfer between two dies takes a failed link where some shortest path avoids it and some does not (R371), log 5. -/
opaque Config.failedRoute : Nat → Nat → Bool

/-- Arithmetic-clock cycles that one step takes; R74 calls every figure nominal, log 6. -/
opaque Config.freeCycles : Nat → Nat

/-- The code of the boot ROM, which measurement register 0 is for (R397); log 8. -/
opaque Config.romCode : List Byte

/-- The 32 bytes that a part's PUF gives (R398), log 9. -/
opaque Config.pufSeed : BitVec 256

/-- The 32 random bytes that an ML-DSA-44 signature is made with (FIPS 204, R401), log 9. -/
opaque Config.signRandom : Nat → BitVec 256

/-- The port of a peer's mask that carries a line (R384: a hash the manual does not give), log 5. -/
opaque Config.portHash : Nat → Nat

/-- Whether a peer's request comes in at a port of the east I/O die (R384 leaves it to the switch), log 5. -/
opaque Config.inboundEast : Nat → Bool

/-- Where at its partner a rank's data goes: the physical address that the partner's own command names (R389), log 5. -/
opaque Config.partnerAddr : Nat → Nat → Nat

/-- What an engine image of a context's own makes of a command (R25 to R27): its stores in order, the address of the command's token, and
the status that it reports there, from its code, the node's descriptor and a free counter; log 10. -/
opaque Config.engineStores (code : List Byte) (desc : BitVec 1024) (ctr : Nat) : List (Word × Byte)
opaque Config.engineToken (code : List Byte) (desc : BitVec 1024) (ctr : Nat) : Word
opaque Config.engineStatus (code : List Byte) (desc : BitVec 1024) (ctr : Nat) : Word

/-- What the accumulators of a reduce-scatter through FX hold before a rank's share is added (R389), log 5. -/
opaque Config.freeSum : Nat → Nat → Nat

end Sys2Proof
end

