-- ==== Sys2Proof/Machine/Factory.lean ====
section
/-! DEFINITION. What the factory has put into the part of `State.reset` (DESIGN CHOICE, log 8): the public key of its boot ROM, the payload of
its grade record, and the signatures under that key of its four images, of which the other three have an empty payload. -/

namespace Sys2Proof.Machine

/-- The first n bytes of some rows of 64 bytes, each a little-endian number. -/
def rowBytes (n : Nat) (rows : List Nat) : List Byte := (rows.flatMap (fun r => bytesOf r 64)).take n

/-- The public key that the boot ROM holds (R396). -/
def factoryKey : List Byte :=
  rowBytes 1312 [0xDE5C45D380BAA45E0C00C60F26EA395E4833D7E2E5B55DE5346ED5BB26F8441C139801CA66919A53475B49AB3D64181FE6146EBB6F9CFA58EBBA114EF6F971BA,
   0xA54F2184EB9AF7C917D76E52CBC7F2AAACF7A39AEA48670A198B757C7B71E19804C53090188722B59BB32F2444C1F9155DF2A41B2EFC5054FDED2A48346FB453,
   0x631443070B249684DE6B2C671D31C0DA4A9AEA307DCD52E450CA7B0B6B69E87288CEE4D8AE044997AFE524CD96D10877360A05C7120F815815FAC3A092ED8DCD,
   0x607C3FCFEE34EF257E21CFD1EA1E7FE37CD3341B697DEB969CE3C613C4250B0FBA838F3A43A7EC95A4E93D5A307DBFFCDA8F38497639D73216C3AF9BCD958870,
   0xA7A163931729F831F95CE8435077201F5E06B528DFDBDD8E34D4ED3FD353CF5B701446B986F6243995007718DA282F0A8EF91EC67625834F5D40E8DDDF8E4BF8,
   0x74BCD13F089ED4BCF0927711583203A22AAEC36940FC87AF1E7B0AE56E24F8059A0F67ADBF717446D4DD69F7E3574724987C63FE866397B08600C08E834A40E7,
   0x987959655B6B37B546EB55EF8A9E358D651B8A11DAE7B6117AF4D9DBDD0BB44BA8E27895F21507C8E7804ADDFB10A699535216D34E21218B86E494CC29FFAB96,
   0x0F439DB117BA4A75DDAE189B15474C12786DC948C2CA282CA429289E548395BCA40EF5C0D5AF1E7C537B75BAB87D78F0DB72CDDC09530D60CD9BC5BFEE2B924A,
   0x3071A59CFE613F7B416FA6102B1997CA648D5BF8957A26377A03BC5E9A9BB87F50C9561AF1B9BB539CA07E6E9728F89435B7F6D8F850BDA9546FD2A93E638FB7,
   0x22170796007801DC897CBC00034953D4AD283CFB092EE35D68F91F76CDA39430F297C6DBAF763974117E6AF7C1F498D3C10319A5C871D50255ABE2EA25D98FA4,
   0x18E7F508BFE6BD139FDC09E2EA22CC26742CEEB81075D724506E3262EDC4D4A0929B9EBB6C1960F35EB79176D805127638C812C71946CF3B62B0E164F2755794,
   0x87FADC4ACFF112C15D6B88AF6F5A59A5CC783DE5438D3F6E8678DCD886EBAF3BA16F032B82B2BFEDD900DB7059EB30D37DD6215C719A53511A450B4559B4D31B,
   0xC2893E5EA7BB50AA9FE63898CB0AF749A8B656C79FA8AD53A95392824099BFB6AF6619103442D1682822FDCBEA70E557C13F870615FE1673F93A88480BD90058,
   0x31B535036103F1E39B7AEA38EE86CD90A26AB4159546B3349CA4821BAD55D7FF96253087F422873FAFCEA508005EEC4322170907678EA2049BAB88D0867EB5AD,
   0x1F8292822782849054495AF7401D4303B40B5682058432B69E669ED9671988FE05B33FC6A7C7595DBB0DC1924A458C4E68C65FF97EB0F41045B132FEDD33A3CC,
   0xC5323656E38C8F928D60CB99CBE8B194C2C14657ECBE445D333ACB043541CB502662B4A4E6E8287D13159A2EE917D138D7CF6D1436C8E3AE8CA48FE7421EA94E,
   0x42E649B49086D8DCFADBD590E8FDB8F0B66DE9E4E6502B88454C58E843AB21943816C15934FF622A34DD2F5DAA683C4FDB60736CC9F81DC0618F1AC6133DF221,
   0xD244EB54957650843BFCB9899CDA90557285C71153AFE379B4729D87D725E000CB44BF8C1CABA15A0B92D5280615C69F165777A71A303E3608F3473702B2DD40,
   0xAA52C61E7C1A4DD91639552EA8CA5E9014C385934FACFC78201E0A6124CCD6F82E240866F785DF3DA98CE2FF489A290FF0EF44EAC2117023D2CAF9AEBBA2EB03,
   0x94F105CEF92F9C2BDF52B6985ED063FD14CA4337059C7893EC5FD6F008115B647B08268415A3D8C3CA2BB9F1A94E90D77777E21A47BC5F77B1EBA2DA83708908,
   0x00000000000000000000000000000000000000000000000000000000000000000DDBD89D6B5430383C5B04B87B3BFD4C1B980D96A9EC32270E0EF873B2FF0307]

/-- The payload of the grade record (R399): AFB8, clamshell, every die live. -/
def factoryGrade : List Byte := [8, 1, 0xFF]

/-- The signature of the grade record. -/
def factorySignature0 : List Byte :=
  rowBytes 2420 [0x76A5E424379E3B9A0A6F16A6566143F573A5CC92B7E4CB7C78CD3D72AF0AADE5D0C44A80A0282EB47D489637CF07E7D4DB72B6A95F435CCE01CEFB784E3F3D06,
   0x1C0F95A14F266493E11D6E054951E7DC002DAB68DF19A0CCADE5C0B90BE108B24222C4B841FF10B3DED79CF578E741796ADBFAE69F071E43C40360BD89BDD3AE,
   0xE698BBD316D8751B91A3E1430CDF3D7B16A9B7142EB6A598D49E4C8DB1EC8A502766C7D1B04203D44BE5B4383C67D50FF23D5429C0A9DC207BE9680B90DA28B2,
   0x53691F807EDCA7BDE8D18F2222CB0CD93CEDA8D4014D5AC9DDB06F5EA4CFD40581B0AB62533A5D2A57C27EF8895066381A7ED3A0ED4158E2AD5F6C612595EDDB,
   0x66267083FED36806899798A431E68EBAB8ADEAD2066094E1C74B59CD494FE0E38306A3D809087BF19B421E6D49130670679A16EDCA22803C067874F9267AF930,
   0x16D96C8C384FA281762A6DFBDFB9EBF18478091CEFABCFF5D94FAE520029071F474B856B42CEA20A0C7021EC4046496F1DC4B03CD00968FCB5612C80DD7FF475,
   0x114B6BC9C0D66F96C7B425880F926FA5E5EEBD88B7D08D893470842B18798E7A52BB781DE1FF298E18FC90C61D840ABF68ED1435CD9154109C1D043680A28273,
   0x385BB2E4E01F1B82F4D13783B65C68E4CA0ED52C42340618B73B75E48B3838A72702EF414CE430A749DE45CC86F0485C45AB000B77573D72228506F25443E30E,
   0x61C3D40B5501B19C55FD6C434B0890F7D212305E74E351EACFF9A008202B41A522B769C5657439B518C1AA623731414C44153AEEB6A616D9190E76169F4BB38C,
   0x3F7E3A9303D1BD2935350417B0E76A78FFEB21A2CE3A3BCE004F286F2638804F348B72EBF3D46F23A56ABE4708E73535C1DCE91B2DA206DBB54A9FBD221C4B9E,
   0x8C91376E39175DAF270B2B053F0ADE498C225ED91AF30F1671A4B92C9069778F7E9FA5250BF21995919141C49B45CE698B8616F7FC208EAF1B3C7D60CDD8574A,
   0xA5607683F6FC40EE86FFA27EFCF89DDEBE7F2BF2E4555F89038597834D9E8AB18C8E038A70F7CFE844DC2CD81CC36F53E8480B851060E6BCDBFC7742F3B40099,
   0xC7BF3F715A606F98B9F312C942FA96528394F54C732717FE53509DADA165A33EB56BA6799242BB5836021DFE94361634CEF03878746282B839855BFC5CBED2C6,
   0x15BB335920AB81597FA891051B39F57C68B020EAAA26CF75C69D7A55B252FACFEEC8032009694701AAA9C30A3D1146CC38B496C2C10E4933138E7A7A341BEC6F,
   0xB9B5B1E2190311FFC03589727C2079D90FCE2609E81B7D666A61330E9B159DA924F2EB991BE75E6BB966B77E2FF584E54448AA862CF5479C922B924F69A365B1,
   0x2169CF5BD98CECCD48DEA96E5BFE5CF0F81F280DFD1F35BD3677203B6F7AFAC358C0CEB810F5E19B83E59E2EC4EF399A395DF3E6F8A50C2C94FD1B5E8F43BF31,
   0x22E051984B12D4CA4A999A3BBF7E4A9F375D3AC8E41BFFF07FAB970FD116AB1110655CBCFAABB872A6CCA9FE4568D50BE30A138DBDCAD86A36CE1AD326612C27,
   0xD37BEC532ED724DB386BD6777963B8E388BA83B9911757DFD9430D8803BAD7A481CBB3D514AF111809896D25C5CE0C99528B097F1178CF51C0720CB7E32FB0BE,
   0x35439945BD985555EE442EE2F814989967C204313C623E3C15571FA5FB6F1107475E441C0A8C1A119AFEAF25B4D54B761FDDACFD948E9F58D506934E87676793,
   0xD649A1F1566BFCFF983EEB8766B245F51620915B920346AE2EF767AF8B6EB24D9382B94A80DE440E36690B92641BE3093C7A6A98C4049B92B3F9788CC49FF050,
   0xE74D783E43CC46E135738B4C3027B014724E164C1F59AE54C1E26E4688EB94B16A40A66138F16DF8C0D9CE583E902A7312E09FD1CD4FE21AA7A20C1D82F069B3,
   0xCA1D010FE81725251EE3AEA4B72EB934CD0784D026E23EF9F872844D1729ED52391C8C9842713540F8CD8A9DDD719AD2B11FD0ADF45B5DA4ACE009C0E1C19755,
   0xFD41492198F56CB381680512A84889DADCA43470CCD6CB86E42DFDD341B190E72D0A27C97D27842EB92989290387986FB61B500AC67F8CCD6136BBECB0A3F982,
   0x464BAFFF460785F4059170A4DAF2553A13A9A857C9AD7B8A32EF0EA75D89A850A013115905B6B727F88AF4292BD6B4920CE1DF5728C0FF818E74B2C2B63E6492,
   0x8CDF5B244D9AB340DD08878192723E12D68760CA575D972DFD50CDD06927DAF4C10C6A119A8A91B3091CD4D6C35023494D693DD50031FF340330E74DBA9C5212,
   0xECBDB02867F16491EA3F6FC31F32CE291D2992255425C0A252B9B0146287BE69D66C7C867D9B95C922DA80066287DED226C01ED0B890031509A8BD16AD15D72C,
   0x5E569BCF766FF833B2255B6169994C81C876D08D8625B0AAE9F802E178096AFBE42306BF7933FA67098A73FA91390BACCEB5F15A26BE82B30E9C679D6BDED418,
   0xA247F5869E1ADD1E97DC85E2C4ED4FD119FCA008389E697460E9FAF4C361600A9A850E4FA1F99CE955F6368BEE43DD9AF2E9A16B05ADB7EF8A6CA78F784153D0,
   0xA07CD3FDD4D1942D2402A9AD6325C7308A163B7317E8125ADB71B6FE385B95CF46C1F9404E739CC5BAD03F6DE49E89ECE0E19CD7E63E41DBD86E84FFFD2E1775,
   0xDAF9E061E566964A1625FD343C58AB3E2AF9643A90E5D19E0A255CAA720AF697A015228C7654D681C4F4E591F17A42F4937BB39216D38424725EC71891B4A4C9,
   0x321ED5D7DC9098618758E20F4CF38B2D27396F8DFB3E7CD2E58C5F912E3DD4633CB0F1406370682ACE7CEF6FBC73B0415ADEB2592378BBD2CCD292AE85240E54,
   0xD328C74A3092256FC936A3BA47CFEB12149B1A49EF665C28B09B53E2E1672779CC259E7B97202BCD04DE98F405DFC58AAAF76BA7AF2B7F14F043C6E454C92BFC,
   0x418B3BB567795F5D773C377BD21B345FDB6A2AF87411657C2DD102744B93543994FF47F7FB14F1832D4BC095867719AE90AA0307362EBD7C4F85B6AB760BC45C,
   0xEDC5315E3B0F30E7F086A3AEAC16FE6D528C9D273BBC5060699676FEEF5F1FEF1351C2C8B4D66BDC62D20904ACB7664378C04FF36E477C1157301D7DDF558AC1,
   0x82A4C0B03C7FA64B64FC2CC573E9BDCE7CB1AAF2273071E00375FFBAE03DEFB9B03C7E3D8DAACFC5A84B022A0801A8E790D0B2F95CA54328AA7E04195F2CACA8,
   0x9E9DA319CADA7E55AE2637C646A99B7D960872F359E8E433999B3D2E0134EC27A601E3BEA09367E9B54CD274E3793DD1A7005A51A1BEFC8029F7AC07C92517FE,
   0xF8E9E3DDDACB98676558403D2F29270A05FCE2DDCBC0B9999389854743331716404897D7FB9C059541D1F9CDC560DF038A61A71F63B312720FDA98C0A10C71E9,
   0x0000000000000000000000003C2C200F0000000000000000000000000000000000000000D5D1C6A49695777356554A3D230F0901EDE9E1D5CAC6B0A65A524918]

/-- The signature of the Yarrow image. -/
def factorySignature1 : List Byte :=
  rowBytes 2420 [0xABF4E4FFE3BD4AAF7E599AF3A8822B61A4B26C5CDFADA0D5684F6E4AFAE5C5458728D5D8069C43565AE788A43E629B2C2B73CC3625B5B2A8E2D14F5F233553FB,
   0x04BA99731B82479E87216022017111AE12DF369DF8CDB229B8A66E836F9CC7E5946FABEA696E34E5DA8033F32BB590F193D15102C34E47D49D413549C52F0ADE,
   0x720BE11DDDEACD84AA3D956EB456FBA0CF5433D96E8E486588DB766C635B6CFC22C069E116EB59B17FF44593374FEB1016450964A40CEA545C8C14A042607F9B,
   0xA94F576F987117778D6975CFF9F67B3AD0455264096DC8C9648CFAF9CA39C201F7F412545483BBFB927FE2D61925AD0E31DC847D03105E34F0FE03EEB62E3F6E,
   0x83FC257C94F3F44EE3BFDA3D0B1DB663614B8B29D09564490688C24DBA10D77848B0E9BDE42D0145A1D367A9C3A778FD595899083A1F4B2E16E5547F596ED168,
   0x9F54E77BDF9456E3A35C5797D98768AE0690C1180AF2C17EAAB4A67772B2D78E51EE35677DD0C6763BA3999C8A23826BB9B2E5995A793A5D61C275435702D2EB,
   0x06ACE70BEAD4EBAA9F98F65A13E561DEC7D5972A6AA0E893C93EEF1BE86FB2CC918607B9B8A6293513D06E6666ED3AC884C07DF694200859F18103D0245FC081,
   0xB5E8B7388744CAA70B6A38B6FEFA7AD28A50D3D5284CF5A91696BC170704705E9C1B846BCEA52779253B4A93BDE8DF7646E6B4E60D27204F5C75789F56C57248,
   0x374250B599B6083B90D4393F20DB1E2F6893FF69238147C1684C787034BADCD8F46C7306A1AFABA37B5576BE1BAE1ECD88FB2CD9801F0DF63704D3344FE1FBAA,
   0xD0038036D4CF43666726DBECD5ECBF0D6BFB84FC94F618E7A0F6777A777B9BBC83429E8BBBBE60CB3899F1951190A5CDFFD13D57EA6F1E04F755E110186CED39,
   0xB4F7AA14886475156C2DE65737692F914AEA63A0EB1CFAA8E2A4665F1E8DD040328017001C48C97BEA1018F3777BC0AB6F694EE4A29A21BE466BED36650D5017,
   0xB2B039562E8507F323554F46AE49E18FC19D472416BDA00700AD783839AEB3B5E8202070EBDF3D7B481B80D858B0D30F35F4E22676F152A7DD3C1FE40C200839,
   0xF44198A08B1CE3B07B6A8AB39A7ADA92CDECD9A02F0590F62C68C0EF2E1C4F1C69CD5AC4E0C5D5C5DCD410DE49F37B8631E860BDED86D5D2E3FE494D639E4389,
   0x169A303EC9629FFE389D86522714D32114FD853067DBA4751F4C59049C433571FAC847A68399D7367022551FD1CF6CC9F539D40938D2F28B5EAB853013134240,
   0xEF9EEEA7E095C3F2CD070E68B46AF8F6A6A62189D19D8F610899F305B5F45117D23EB074F8E45750EE04B4CB64A4B2F7652E450F12A3ADD2AC245204DB81AE92,
   0x1932635533311CF1ACEC9FE7BE9C41767AAB9529D23229E01239365E630596C87B6F12CB12A5CBFC2B83CCE56584C91EA63FDA0B84A06634340D25C9491229B4,
   0x427C98AEAEF97D4A92B4ACC0C611E394BA7100B3C489DA76941BFEFE1928472F7C4C108A96BDEB397A614753D59EBF0C7C59C911FE0D400BA2B75133B5BBF496,
   0x146A16F1E2CFCF9F49D2D2CD9052ADC19071BC03E5FC5D45941185F3126CF021D45B9F5FB047207D83DAE3A615BA8D2DF593EDDD2634B402F7150786894C0C11,
   0x9D50F454BE40C8C8B1D40E282167B56DB10EE47B138D946B53F256760D14B7AA9577A83AA54670CFC1ADA63A5D6020B868D4082935872183B3EF87BD6655D490,
   0xFFCDFD22E3920B32D4EA7D30005F800212FF3ADC25C958CEAE351B491ADBC60BDF51E8E3CFE6A6AAEFDA4F55A75149E64054FF89F4790C629788EEEBF750DA93,
   0x992496045BDE26DB40B99B930D8A1A79C5C10AAECCB7ED63B4F1DDBCA94DC62AEA6116CE7EC98F48B4652A63FAB87BB1A7430A0A2CB3CD95FB719149A92BEBB8,
   0xDC4FDA59BBFCA1235A58B5DEEB87AAACEBD50F6339E3F2748538A7AA70979D2D14EFE955F463F59F754E7CB40B05906BE1FAA15D98D21BC4D2FE5E65B1F5AFAC,
   0x6BC2101E3DD0AEE42C599BF97EF978F5752F96FEAA4728D9352581201F51C2E3B1A042E29BF403FC65E69A9B3A1C3A9E86530209BBE5D2FA57C7ADFCDC4FB94B,
   0x9F36A5018CAA3D22CC48A0CA3C9BA49C432CD7544970BBBFB62EF3BB5A1FBDB831AFBF63EEDB92A2C79BA2750821DA2959A64300445BE5D5EBDC010EACBEAA6D,
   0x7441E8A4944F957E0D7F94A950E2E64F79A362B7053827A8B1D0B5004A61E83ABEDB836EE629F2471DED2F602D950E5EBB536670C9C8BC0CDF3FE1D0933B8FEA,
   0xB35E9A2B8020213383B400A204044E17385DC8E5B538D4F9973805C29C4F1BBE9D4B19634F76A8C7D42B85F8559D1C1432F5237ECBB4122289472860B224238A,
   0x032C2683F788D5ED84520FCB8CC8C2FDDD6D34DCBB7106DB5D79C0288B334BE378951E7EE737DEA80EF20D0C71A14F70AD2E5D45B3089A92DE4370E447655ECE,
   0xAF1A20973E17999D12A14FEAD0F0E416AD1D9E99F6BEAEB157FCDEE03280E4E3C7D64D07F9E141206B5017EC33CAB42F24E67CE22E619DA91169C912FB1A341F,
   0xF62377F1E37AD933190FBB14590A472769F183C7FC5E22DFBA1A21775D184DF40265D5238D1F618F25303A2E76897A74444B4A31C0E7A3AEA5A87D9A7F93F85F,
   0x955B8AB21DB2A643A820560B550E28907A9F6CD5AC9999157947FE9BC2D11C69FF69736692E186F7100DDDE5B819A3B84A76147043A6EBBCFC44495760CB598D,
   0x46E6707B6057FB8CB7D9C8CEFBED54B9D48CD6EE81E2796E7166448788A8C7B5667A2E9C3754BAD6118116773EE2D2522E4A32A65382F3A27A280878D47E4DD6,
   0xA107C7D39E0A9345F7D02EBAAEFCDC24A89C3C82B2458B28C393391509568054E405408711DCC8EB94248117A09FA368058AD7E775F03B7575DD4B4AD0CAE8C6,
   0x7BE6973EEFA69D3C1F1A8159C083B6DC47A1C087E868EFD4A750E6F3C2754BA0B56C64ABD7FF38D3C8650DAFAFD837B5CAF91B1EBD6EA6BFA444B64BC2D8A6F2,
   0xBE9BC7D259DBECC937F6A0446FE6DC12CCA919D9836D5A8A16AE77C791E70DFDE097D7731723A2CC659CD9AC907937EEAD50C8BADA431CD45F2FCF6A9380D951,
   0xC41A4838B8D40A4424D8D2B6233CC9B4A33A4096A751B34FA95961C36A89DFD829EDA0CCABCCE4344BB1A06DC5581B33CB355B68AC2C97C940378262F980CF6A,
   0x405FD194EB6978A7F6733FC87C38EC81C0DC43494CDD0C3CC21C6CEA087394C08EF24DF6CD582A4B616D44B86EFE14F039C1C6B7C5FA5E4DDB59237733D54225,
   0x2615F9F2CEC1BEB2AA9E7771564C342BDEDACBC9C2B09C827E6D5950423D28173DD34774A6F0ADFE6431A8EB61A027990FBD99413C1333359EF1E7F35011074A,
   0x0000000000000000000000003E2E1E10000000000000000000000000000000000000F2DCD8C2B09F97866D45422A261E1A11FFCDB4A5A194807C7A7871573A2F]

/-- The signature of the clover-core image. -/
def factorySignature2 : List Byte :=
  rowBytes 2420 [0x4DC5B5B4692E5F11B1D9D0EC377EFCC3C43A50523C8CCB3AF7FB442CC0F1068F13E06265A94DCDAFE163141AD1D5BEF597F41BBB08F1ED3BCF83EEFDA68E7E34,
   0xFC21A7BD6B8ACF347B4005CEA37B3BCE5D81FC84DA2D974DC8615F39E5A7E343E4F415E1363C55873E41378A63B0D28761262A001D2BA50A47C1BFE83C508AC9,
   0xBC203BF8E52C5E2948D55C7B43DA3D6A52CDDBB62A71BF83C39048FF85206AAE9EFB7B1E0B1696EA27B96BFAC71E509E44A54EBF588E19EBA728C67F1D562174,
   0xD122E5940A4577B4F104B69645CB418222FE7423F0423785AAB282CEF8E113A230D7A373C5F909A6F471F188F5B5F3CBBB23490791FCE80CFD79907935B5EC06,
   0x98048CB32FFA0DF2979687C28B6DBA031080C4386185411849F04A934F5277657BF5C1FBEE7B33AD9B427585A32BA7914EB08A0B7C4D981C2E431EA7EE8512B6,
   0xC39781029565913C0C36912EF789ECE21D500098A29EAF06E66B5D91AEF3DA3CA73ED1AB42EF060C3A7235B5EBE1D1E774D59E0B0CC8973D25B95D00C05EC0D3,
   0xB5343EBD19C88E72DC3973321B239F8CE9250E9C74329AFBB41C5DDCC066FCE79B321E5E43DF1E64BCC62A72F3A7D2A85B844672050D04169EE7B6E39890783A,
   0x38209E121DB8F669DC2A69A2D0AFF15D39FBDCE9F826F314401B4200A80783987CCC68697E06A85B2739EEB3A140986D07AC3A4D3E6502F6477862FE064E71CD,
   0xB928E52F2E2FA2B77292E5ECDB37B43B002B2687AF5D5400D17C81C3559AA396037F92617BA1F6C3763FA33DD8F3FDFA551B257CA6A80293384674F2D7EE38DD,
   0x810049E3718ECC4A4F59A43BA6D6D23301E364D84AB8DF08CF775C407CF7896CCB9059E765E21D300EB703B182FA3A129776F8C160068F7BFDD07113147A059D,
   0xE35EDDF84E91C307F658ECF50462B4532C294C8AACB0750F128AB0A97965C16F852C366D77C3B623CAF5F18AE7A83157DFFCCA92C4E119BA540FA01721A2E890,
   0x36FC4CD7C721F976CCFE3D9109CB6147C5123144561679F5C4D3457346D3C56308E9E21AE12C20A8CAA5E9AE0C31761994E78475DB0BC86E59E53EB2EE219C25,
   0x91E72D76BC7D306341637964123780AEB3628C2A5B1D01A6B0B22C98194138534F7B04419C376B073D0D265651C05A66C71A60605ED89D4B340B82E13EE76203,
   0x7F1E87FD74996787775C8EF64CAF10D58EBA56DDC573CA5117C669F952BCD67BFCC85F6DAAA24AB710FA19040E4F0FDC027B0699055B466FAFF413FBDDC0A63D,
   0xDE7DAFBF7CC9B19E632E68A5555725CB690C1C31AB4DFFB0FD0024EFD71D0DF7DFB8131A214FF14679B004306C58080E98B39F1C9E400B5AFEA10647F5CB0039,
   0x5CFBC38EABB984643EA3465750CEAC841920A3995CAE700E75AE82EF8C1596643C0994A935E05401984D22E1D1A49B48C0262276C298A558DB50864F58287913,
   0xC7A224F29668EA608C1004D7D5B2DBF50D7328E2C1A0488A4F5C6257DA89067DAF973F6BEC8B0C293D58A114C817207CDCB20931D0DE20D5E2B24F946CE74597,
   0xEAF5D313EAE39B3852F969E1655FB8A39FA3F6320E389CA3E31BEBFB62C03B2F671889C4ED039A2DCAC08F6F7614D25398785D819120C55F4FD859344D692F74,
   0x850DA3EFA59A23313C50C603F200C798FF8F5FB0D82AB4D0F901D33A945517E0D8F7984E56FB5BFF35172987BD2679987E5FBC50B33D418B0EBF27475065CBC6,
   0xCCF07C08C3DDE03F4F400C85D004C6551916140B8A91AF2B052A2C305676809189B21AD55F1D97A38D36A4C3B241AAFAE50E08BE2942C22EAFA92BB8479994C9,
   0x5F9CD836C11B56E061CE9E29215206BC365DD1918CF2B7B01ADE32CBFC16C8F93AA90E96C374478237184ADEF96B0DFD8E8DAC898AB481D3997AD6FF1E051441,
   0xE15DF8B8C1646C1796D78C9303156C540482E00FD9EBB0F242523686C6F30F5AD8212E234A81D1C8D50AE4FAA2407DA0F81EAD35649915257A8C2672CFE4ABD2,
   0x956A4015C6E8B8425999248E3F491E7C49238997881CD8BDF7951D97BF0429F4F020EDAA72F6B01E32E88C1878F9FE9BA6E25306041EC0ABF14551EDF5D7C628,
   0xA74E8BE92AF4D0601AFD716FC1F2F59EA8FCFE96585B787C1B7E3188BF1AB2EC200FF13BA632291C08207C3BEBD03B8B79A79B2135146379FE02FF34DAC05FF3,
   0x35429CD360BC2817E6DCA9026D7CB44AC4326C595421F397AF4BED530DB22DA1262AA02D1F235374CE16516751104B929D028CF3FF470A4490572D8077D1901B,
   0x4F8AB1161E464CD225D65E8D8F8F27C4AAE148790A70C3D7DCD1DE1E87163FBFC50609AA8629BF4140E425648748006FF1976168E963CB4CF8DF132315E3B32B,
   0xC1E83DF4B2AAFBFAABA351CB06142D335957A7A466FCF032BB46CCD25B2BE4AA91730B5591E59501AB6326FC762AE938C7E42614E88C71C98DF78FC336D201B2,
   0x632A57021E7C1E0956315BA05C6BCC46F892072C3492583BE017662FC0C3877057698639306D5A34E0AAB95D142931C29329BF1DD5EB8ECBB65D66354DFB8822,
   0x52B5EF21E19EE1451A5CFB27070204B1A88BA66A5B67436C10FCA1FD3B94A6632F7AD12F6F7CC870A2FEB773076C2C5D59CDA923BD03ABDFF8ED51BD34DE5B6B,
   0x1E900DFBDFF2F408A64CF2611C34B9DA0A866F6615A096E5E1178F8249077C2A044344A5D57A4B4521AD92A6D0B5D48B7D94C6C6D538546C6AF8F168DCBAC807,
   0xA2AA511EF1FC7D2673715DEE0C51E4B0897B618BFE24444E840CB978D986B3341ACD2B73E80DD9AF496ED159EDCB4445F01C2AEDCC7B66F3BAB011B5FF8212DB,
   0x7FCC32FBBA56F4D2D6202287BAA6ECC86239C8FB336134AB160EE72E4FD4AE54EC4D82CA28BEAC9342036FD564F9F076B54C589C4BC99B8656CFCEEC7D8CA6DA,
   0x833AEC32560EF87CAFB317007504D50C91167164C820F09CE82C921C7474BB3F64DBF59CA1B6425CD7D7D47110BD993BAFAF60201A639817625C68A7224B8195,
   0xC2EDA2D1121D6CDCC1F48C072EDCC2C8B9CBB30CCAC4182ED24B83888FA582C2DAB8FB8BDAC7D10369F4190DC65BA40CAFE496AA6CD35F75EE71AC88ECDE72D8,
   0xFD335CBE1403D134A6AF3A919FE408C30EDB2807BA3263505F60E619CA7A505536470C04BC2B979A65809E8FE23875BD60EA6EC27A4BCB84C59BAAD6FA619661,
   0x0F21AD9DA859CB9E4090F24DBEB3614438D68198DCD0910A171BE2C12867D7350A7D81AC3892FABF978ACFDD6593AE7209EA061417A8169E15EC9353B2F52A43,
   0x8C897D6D4B493E31302E2D1F1918F6F4D6C9BBA39B97927B79766D62412F2A11812C4BEB67FE84E7B6641646F2EAA6501475E082AA3E33B1497CCAA8186738AF,
   0x000000000000000000000000462F231200000000000000000000EED7C6BEBBBAB4A6A2998979775D5C554E4C2A28141304D8D7C6C29185716F4C4A3D0CC3A6A1]

/-- The signature of the engine images. -/
def factorySignature3 : List Byte :=
  rowBytes 2420 [0xD38A140D84A76B373BA121CFE206DC55217290A0BABCADE65691AA5A7D5052ED26AF77E539E5BF546964C1E3F770504C2B1B03C31228B1300FE4BDC594DD0604,
   0xFA3452A57150B798240A8463FB6791BF61EE418D0A388C88381F3A790A36FE25271FD1525AE6B03B5AEE2F9B4A2787718756C6BCB78697CCD3869EA592BB8B42,
   0x9B2D6F08D56473C5E6C1D74BF4694752CDDECE27DFE1E7B4C23F2316B34E63D106FD3F67F0EE3EE1E2AA820D95EFE1F894AA303D416CC1F575D56815EFE967C3,
   0xDE3D8C9D911DF05F74910F7C6A8068B3012F484CDF18EE6ACF52B291C915A482C89654EC662B30AE7685BC5616F731F86C654B95288C167297A87EE19861DCDB,
   0xE117FAB9003CB1BB7180A4DBA1048183BBCBD35D61E13B5911BCF3D547D1CB339FC703525800D7AE31F2123475DA353237D64BE64796DE8B0D77F96468FEDDC5,
   0xE090072A7774807CAD0EE95D2832EC0F5918A17A2A59C6AF7E682BA859A94C345D0AA55336A60EA7D9AB7451F7CD432860E92BF939CB86E6938D2565232AF2FD,
   0xBE3BC0E0B875D8D5BA22BB0E7B9A207C292ED57A424D8BD800D83B6032939DE885DD946BFD796576928BAD8CE21BAF5CAA6FE9ED48E9C696CFFECFF788421E64,
   0x7CAA4E70A3D2DADFCBB802B3255FDFE03BBFFB504908729F93BA327EAE3EBACEA216E2F695C5A8CB136DD0FA6CEFDB119FEE43C23DF322571CB1D47DDE8F0E76,
   0x40F9C047904CE5FC90FFCD355A062559AF356141E5DD812FA0D232240E21E36581B32446FC6FF664D75B4B8CF9005E605267DBCDABC0ADD3CA335668A425ACDD,
   0x66CB205A44765F1D6E67A6BAD03FFE1AA14FF55C2858C3B4FEB829FD1EB3034547069A36A46E571E076F87E12AB1B9F3C3D191F2F91CD683A19C427800D205F0,
   0x812F71C1FF7D654AA1FBAB55817E77CBBC26E54DC2E40ED3BEE949110210FAE161268906B7EDE8EDCDDDF69C27C451587880BACC0CB241166FAFFED8DE879D16,
   0xF51FF60704FF435263642BD8CDF9153AAF8C731CA54FC55697B467AA5EF68C126AE2CA14E45173529DDEA54DADCE883DAED4F7E62E7043E995A1E2F45D1BE1B5,
   0xA630EF5A10590A60F070CE5A575EDCC1A6970365209AB9EC39E08CD72EFCCB769863896AF83F144FE3E20BEBF7A29FDC0DCFF6D1E4A5A2986CC45C4B2727EADF,
   0x22DBFD69728E8EA88824B82A16A08B6E7AA6C72A4D7331975D7A09EBF6B7BEEE1AF2578F3F850E01D7B4F1973E274F7C1D6EB5407715747D62A23642CED84CB9,
   0xE422FBD5D967870FD42DE763EF62F56EFB524FC995E35B868B7EC5B5B63A5C70735202A59210694050FF21519A8FC27AFC629DB79C9CFCD1154F02323B7C0833,
   0xD8388BB171367BF977E7FA4A27569BF604A74322F84AD0ED52C03E5AAEF8A9CCE9C974D683C23E474A713D3A768AB9E66841B65C3664945C7348D141DA9BA9E7,
   0xCFE1F2241CAF6F210FD7AC0B9F7DCAD3FAE717A020D9F01F58E99869EAAE7C6F53A67633B96BD6758C3B0195A25B4BE19526E71EA62800C134BF244E80212D94,
   0x43C65D650BAC1762F9D394DB7EE6BC3818B94B90A9C5146C64B0429A635840EB2279B9B6589AA803B86986AA86339B7479683796954E6413E717DE474CD035BC,
   0x881BB087E1A382CFC461AEA27231FC98D8A505CE5568A9D3E438CDD155658F435AEC14AB1B9A829462AA42359250F4D8F137B067469992B2B1994EE5C2219C35,
   0xE619326F738AC9A663462DBF8CE88FC4339DC3F3CEC5399EF2E49EC33D0A21398EEE07182310099361FC70AFC8468094E1C66DCBA7886DC556EE44F29A0DEB96,
   0x91449897BE4449300F3F4F8F8C503498937B97164A256503225B8CF2A03BBB105AD161BBD0C6C2C808B1B6695B1691F9F3A82FDF48AF9B6E03E9D521FF2C4BEF,
   0xCF826A4CFBF6A2D62CF278AF72FDF6D988B12C4B17BBECB94963F846417D56A0626C52D6F4785A97D6C5790549852C1AA81A341AC392252E96E31F6F6DCFE449,
   0xFCD7E704BE6487F61524EC8BDB2E343BD26E91CBA01613EB7AAAC1E1887F353B1D14E98E23CA6A79A4DAC1B5FF6232012F92F9BDDD188E5DB94917D894BD0574,
   0xFCC7DDEFEB777C66BB66143EED1C686927A804339F3C7AB5D81FA9D9CA98CA90616014F91EE289FCF4A18A637F62CE2D2A1EDC75F0543F955459B3CF4B17E0AC,
   0x1CA161B07B0BC5FFC6583ABFBFCE723EAE00EC61E197AE6954233FA62E2902B5F8044F2DB5E0D760A2C7AF281A3B9D07DBB3E568D18E30CACB673EFBAF2EE5BC,
   0xE009908D92774FDAFA8AEA6D32E314351492EC05695DF26C230E46663549778565ADDD0BC6DC3A26A4928D8BDF932F6779FD91791BEE5E3A1ED562A39082E13E,
   0x492DF52756AA05940EEC57A3611728F0F0EDE0F16D8F7F0D6274818A0E9DA0DB49047AD21892C776397573114CC29FB934DA2E1945AA30A0392C42CC071B1C52,
   0x646638BF3DD6372609E6D4DF16E259D917BF955D6A4968F4D89B7D1161FDADB9FC3034E6486E4F292DA94E9135BF0688F4B94C19C6DA72FFFE31627F7B505959,
   0x75BCB3C6B762D3E4C1807E6CA68230B87D30B059E3B720D068A920070A48C8F06629A7A24A9583BF69536CA799FCE575DC2EA23A09F8408CBA2D2FC6F3F79449,
   0xCE0134B265E06B9B8967EFF86F0ECA620D1D12D45BCD895B0938666CEE3AA73F745B3D63F98021C8F7811AF52953FAF9D81F99BBB73CADBB2BC37507C5015D01,
   0x9C83FA78CF5D9701DE1ED0E4D9823A481779BF4EC9C723EDA871BB69C6872EB3B049A73F9BA992B58A8A97B74710704B0760E23D857A9AFD99650F9AF8CD8C08,
   0xADE9525FCA987B02D1DDE956AD4B8E11D26012FDA052969842CB1D1E782D04A06E8A3CC5D87F5FEDA3BE4EA6097643D72408AFF551349923BE57B805E5FF4808,
   0xAB9C4213DE01D968D3CF728A683A521BA006827A688A91FC008763A87FBCB65B6299265B041BDC4B40F395B189F44ABEA439AF52F9A4A33D4D5FBFC87BAA0B9B,
   0xFEFB78DCA781D264199AE0A9CD6B6EF8D86B8D30925A387332965C7AB1C2C1A9B61440CC6C716CFCB25AC994C1DA0F6567597267C5E667303F44CFE99A6093BF,
   0x7313FAFDAE4E6968E8C255B68C8E109AB26086A96C651D2EF604AC2A3A25A6D6DBFD276E448FEBE5F090DDE0A4EA7CA1AF7E0B46F59248F5545FF846DFDB2A49,
   0x97DC640EC11708F6B04353640B116354D12CBCDF580CA6A4094D0E22AEE0C174510A6154039AF057C04181D9FA2DCF9B24E1012689B11856671E4D3106A0A463,
   0x645034331512E2C8C489706A51413E30E3E2C7C6C4B2AEA9A77C734F4C3E34181F5490978B93CA1D88D342493A7C3D12E64C2E52F37417FA0F41ED157F643AE8,
   0x000000000000000000000000412B1A10000000000000000000000000000000F2ECEAE0DDD7D4C2A4A09E908B8A7F7E7B66634F4604FBEEE6E2B8ACA3A17C7870]

/-- The signature of the image of a kind. -/
def factorySignature (kind : Nat) : List Byte :=
  match kind with
  | 0 => factorySignature0
  | 1 => factorySignature1
  | 2 => factorySignature2
  | _ => factorySignature3

end Sys2Proof.Machine
end

