-- ==== Sys2Proof/Syntax.lean ====
section
/-! DEFINITION. The instruction set as syntax: one constructor of `Instr` for each row of spec/opcode_table.json.

317 constructors are 32-bit words; their fields carry the values of the encoding's fields (an immediate that an encoding scatters is put together, bit 0 lowest). The other 77 are steps that have no word: packets (64 raw bytes, R41), command-ring entries (128 raw bytes, R381), host accesses, and events of the part.
-/

namespace Sys2Proof

/-- What a patrol scrub finds in a line (R351). -/
inductive ScrubResult where
  | clean | corrected | uncorrectable
  deriving DecidableEq, Repr

/-- A die link (physical number, R67) or a scale-up port (R384) that flits travel over. -/
inductive FlitPath where
  | port (n : Nat) | link (n : Nat)
  deriving DecidableEq, Repr

/-- How a flit arrives (R386): whole, corrected by FEC, or failing its CRC so that it is replayed. -/
inductive FlitQuality where
  | good | corrected | crcFailed
  deriving DecidableEq, Repr

/-- The shared state in which an uncontained error is found (R351, R354). -/
inductive ErrorSite where
  | directoryLine (line : Nat)
  | poolEntry (g n : Nat)
  | meldSlot (die slot : Nat)
  | path (lane : FlitPath)
  deriving DecidableEq, Repr

/-- A read of n bytes or a write of bytes asked for from outside (R378, R385). -/
inductive Transfer where
  | read (n : Nat) | write (bytes : List (BitVec 8))
  deriving DecidableEq, Repr

/-- The three firmware rings (R376). -/
inductive RingName where
  | event | request | command
  deriving DecidableEq, Repr

/-- The register BARs of the host port (R374). -/
inductive BarName where
  | bar0 | bar4
  deriving DecidableEq, Repr

/-- Every instruction, packet, command, access and event of the opcode table. -/
inductive Instr where
  /-- LUI: Loads a 20-bit upper immediate into rd (R113) -/
  | lui (rd : BitVec 5) (imm : BitVec 20)
  /-- AUIPC: Adds an upper immediate to the pc and writes the sum to rd (R113) -/
  | auipc (rd : BitVec 5) (imm : BitVec 20)
  /-- JAL: Jumps to a pc-relative target and links; a target that is not a multiple of 4 raises 0x03 (R92) -/
  | jal (rd : BitVec 5) (imm : BitVec 20)
  /-- JALR: Jumps to a register-relative target and links; a misaligned target raises 0x03 (R92) -/
  | jalr (rd : BitVec 5) (rs1 : BitVec 5) (imm : BitVec 12)
  /-- BEQ: Branches when rs1 equals rs2 (R113) -/
  | beq (rs1 : BitVec 5) (rs2 : BitVec 5) (imm : BitVec 12)
  /-- BNE: Branches when rs1 differs from rs2 (R113) -/
  | bne (rs1 : BitVec 5) (rs2 : BitVec 5) (imm : BitVec 12)
  /-- BLT: Branches when rs1 is less than rs2, signed (R113) -/
  | blt (rs1 : BitVec 5) (rs2 : BitVec 5) (imm : BitVec 12)
  /-- BGE: Branches when rs1 is greater than or equal to rs2, signed (R113) -/
  | bge (rs1 : BitVec 5) (rs2 : BitVec 5) (imm : BitVec 12)
  /-- BLTU: Branches when rs1 is less than rs2, unsigned (R113) -/
  | bltu (rs1 : BitVec 5) (rs2 : BitVec 5) (imm : BitVec 12)
  /-- BGEU: Branches when rs1 is greater than or equal to rs2, unsigned (R113) -/
  | bgeu (rs1 : BitVec 5) (rs2 : BitVec 5) (imm : BitVec 12)
  /-- LB: Loads a sign-extended byte, with alignment checked before translation (R114) -/
  | lb (rd : BitVec 5) (rs1 : BitVec 5) (imm : BitVec 12)
  /-- LH: Loads a sign-extended half (R114) -/
  | lh (rd : BitVec 5) (rs1 : BitVec 5) (imm : BitVec 12)
  /-- LW: Loads a sign-extended word (R114) -/
  | lw (rd : BitVec 5) (rs1 : BitVec 5) (imm : BitVec 12)
  /-- LD: Loads a dword (R114) -/
  | ld (rd : BitVec 5) (rs1 : BitVec 5) (imm : BitVec 12)
  /-- LBU: Loads a zero-extended byte (R114) -/
  | lbu (rd : BitVec 5) (rs1 : BitVec 5) (imm : BitVec 12)
  /-- LHU: Loads a zero-extended half (R114) -/
  | lhu (rd : BitVec 5) (rs1 : BitVec 5) (imm : BitVec 12)
  /-- LWU: Loads a zero-extended word (R114) -/
  | lwu (rd : BitVec 5) (rs1 : BitVec 5) (imm : BitVec 12)
  /-- SB: Stores a byte (R114) -/
  | sb (rs1 : BitVec 5) (rs2 : BitVec 5) (imm : BitVec 12)
  /-- SH: Stores a half (R114) -/
  | sh (rs1 : BitVec 5) (rs2 : BitVec 5) (imm : BitVec 12)
  /-- SW: Stores a word (R114) -/
  | sw (rs1 : BitVec 5) (rs2 : BitVec 5) (imm : BitVec 12)
  /-- SD: Stores a dword (R114) -/
  | sd (rs1 : BitVec 5) (rs2 : BitVec 5) (imm : BitVec 12)
  /-- ADDI: Adds a sign-extended immediate to rs1 (R113) -/
  | addi (rd : BitVec 5) (rs1 : BitVec 5) (imm : BitVec 12)
  /-- SLTI: Sets rd to 1 when rs1 is less than the immediate, signed (R113) -/
  | slti (rd : BitVec 5) (rs1 : BitVec 5) (imm : BitVec 12)
  /-- SLTIU: Sets rd to 1 when rs1 is less than the immediate, unsigned (R113) -/
  | sltiu (rd : BitVec 5) (rs1 : BitVec 5) (imm : BitVec 12)
  /-- XORI: Exclusive-ors rs1 with an immediate (R113) -/
  | xori (rd : BitVec 5) (rs1 : BitVec 5) (imm : BitVec 12)
  /-- ORI: Ors rs1 with an immediate (R113) -/
  | ori (rd : BitVec 5) (rs1 : BitVec 5) (imm : BitVec 12)
  /-- ANDI: Ands rs1 with an immediate (R113) -/
  | andi (rd : BitVec 5) (rs1 : BitVec 5) (imm : BitVec 12)
  /-- SLLI: Shifts rs1 left by a 6-bit amount (R113) -/
  | slli (rd : BitVec 5) (rs1 : BitVec 5) (shamt : BitVec 6)
  /-- SRLI: Shifts rs1 right logically by a 6-bit amount (R113) -/
  | srli (rd : BitVec 5) (rs1 : BitVec 5) (shamt : BitVec 6)
  /-- SRAI: Shifts rs1 right arithmetically by a 6-bit amount (R113) -/
  | srai (rd : BitVec 5) (rs1 : BitVec 5) (shamt : BitVec 6)
  /-- ADD: Adds rs1 and rs2 (R113) -/
  | add (rd : BitVec 5) (rs1 : BitVec 5) (rs2 : BitVec 5)
  /-- SUB: Subtracts rs2 from rs1 (R113) -/
  | sub (rd : BitVec 5) (rs1 : BitVec 5) (rs2 : BitVec 5)
  /-- SLL: Shifts rs1 left by rs2 (R113) -/
  | sll (rd : BitVec 5) (rs1 : BitVec 5) (rs2 : BitVec 5)
  /-- SLT: Sets rd when rs1 is less than rs2, signed (R113) -/
  | slt (rd : BitVec 5) (rs1 : BitVec 5) (rs2 : BitVec 5)
  /-- SLTU: Sets rd when rs1 is less than rs2, unsigned (R113) -/
  | sltu (rd : BitVec 5) (rs1 : BitVec 5) (rs2 : BitVec 5)
  /-- XOR: Exclusive-ors rs1 and rs2 (R113) -/
  | xor (rd : BitVec 5) (rs1 : BitVec 5) (rs2 : BitVec 5)
  /-- SRL: Shifts rs1 right logically by rs2 (R113) -/
  | srl (rd : BitVec 5) (rs1 : BitVec 5) (rs2 : BitVec 5)
  /-- SRA: Shifts rs1 right arithmetically by rs2 (R113) -/
  | sra (rd : BitVec 5) (rs1 : BitVec 5) (rs2 : BitVec 5)
  /-- OR: Ors rs1 and rs2 (R113) -/
  | or (rd : BitVec 5) (rs1 : BitVec 5) (rs2 : BitVec 5)
  /-- AND: Ands rs1 and rs2 (R113) -/
  | and (rd : BitVec 5) (rs1 : BitVec 5) (rs2 : BitVec 5)
  /-- ADDIW: Adds an immediate in 32 bits and sign-extends (R113) -/
  | addiw (rd : BitVec 5) (rs1 : BitVec 5) (imm : BitVec 12)
  /-- SLLIW: Shifts left in 32 bits by an immediate (R113) -/
  | slliw (rd : BitVec 5) (rs1 : BitVec 5) (shamt : BitVec 5)
  /-- SRLIW: Shifts right logically in 32 bits by an immediate (R113) -/
  | srliw (rd : BitVec 5) (rs1 : BitVec 5) (shamt : BitVec 5)
  /-- SRAIW: Shifts right arithmetically in 32 bits by an immediate (R113) -/
  | sraiw (rd : BitVec 5) (rs1 : BitVec 5) (shamt : BitVec 5)
  /-- ADDW: Adds in 32 bits and sign-extends (R113) -/
  | addw (rd : BitVec 5) (rs1 : BitVec 5) (rs2 : BitVec 5)
  /-- SUBW: Subtracts in 32 bits and sign-extends (R113) -/
  | subw (rd : BitVec 5) (rs1 : BitVec 5) (rs2 : BitVec 5)
  /-- SLLW: Shifts left in 32 bits by rs2 (R113) -/
  | sllw (rd : BitVec 5) (rs1 : BitVec 5) (rs2 : BitVec 5)
  /-- SRLW: Shifts right logically in 32 bits by rs2 (R113) -/
  | srlw (rd : BitVec 5) (rs1 : BitVec 5) (rs2 : BitVec 5)
  /-- SRAW: Shifts right arithmetically in 32 bits by rs2 (R113) -/
  | sraw (rd : BitVec 5) (rs1 : BitVec 5) (rs2 : BitVec 5)
  /-- FENCE: Orders the control thread's own loads and stores of its pred set before its succ set at die scope (R114) -/
  | fence (fm : BitVec 1) (pred : BitVec 4) (succ : BitVec 4)
  /-- ECALL: Raises cause 0x10 at its own address, holding the task (R340) -/
  | ecall
  /-- EBREAK: Raises cause 0x11 at its own address, holding the task (R340) -/
  | ebreak
  /-- MUL: Multiplies and keeps the low 64 bits (R113) -/
  | mul (rd : BitVec 5) (rs1 : BitVec 5) (rs2 : BitVec 5)
  /-- MULH: Keeps the high 64 bits of a signed product (R113) -/
  | mulh (rd : BitVec 5) (rs1 : BitVec 5) (rs2 : BitVec 5)
  /-- MULHSU: Keeps the high 64 bits of a signed by unsigned product (R113) -/
  | mulhsu (rd : BitVec 5) (rs1 : BitVec 5) (rs2 : BitVec 5)
  /-- MULHU: Keeps the high 64 bits of an unsigned product (R113) -/
  | mulhu (rd : BitVec 5) (rs1 : BitVec 5) (rs2 : BitVec 5)
  /-- DIV: Divides signed, with the published results for zero and overflow (R114) -/
  | div (rd : BitVec 5) (rs1 : BitVec 5) (rs2 : BitVec 5)
  /-- DIVU: Divides unsigned (R114) -/
  | divu (rd : BitVec 5) (rs1 : BitVec 5) (rs2 : BitVec 5)
  /-- REM: Takes the signed remainder (R114) -/
  | rem (rd : BitVec 5) (rs1 : BitVec 5) (rs2 : BitVec 5)
  /-- REMU: Takes the unsigned remainder (R114) -/
  | remu (rd : BitVec 5) (rs1 : BitVec 5) (rs2 : BitVec 5)
  /-- MULW: Multiplies in 32 bits and sign-extends (R113) -/
  | mulw (rd : BitVec 5) (rs1 : BitVec 5) (rs2 : BitVec 5)
  /-- DIVW: Divides signed in 32 bits (R114) -/
  | divw (rd : BitVec 5) (rs1 : BitVec 5) (rs2 : BitVec 5)
  /-- DIVUW: Divides unsigned in 32 bits (R114) -/
  | divuw (rd : BitVec 5) (rs1 : BitVec 5) (rs2 : BitVec 5)
  /-- REMW: Takes the signed remainder in 32 bits (R114) -/
  | remw (rd : BitVec 5) (rs1 : BitVec 5) (rs2 : BitVec 5)
  /-- REMUW: Takes the unsigned remainder in 32 bits (R114) -/
  | remuw (rd : BitVec 5) (rs1 : BitVec 5) (rs2 : BitVec 5)
  /-- LR_W: Loads a word and reserves its 128-byte line (R114) -/
  | lrW (rd : BitVec 5) (rs1 : BitVec 5) (aq : BitVec 1) (rl : BitVec 1)
  /-- LR_D: Loads a dword and reserves its 128-byte line (R114) -/
  | lrD (rd : BitVec 5) (rs1 : BitVec 5) (aq : BitVec 1) (rl : BitVec 1)
  /-- SC_W: Stores a word if the reservation holds, writing 0 or 1 to rd (R114) -/
  | scW (rd : BitVec 5) (rs1 : BitVec 5) (rs2 : BitVec 5) (aq : BitVec 1) (rl : BitVec 1)
  /-- SC_D: Stores a dword if the reservation holds, writing 0 or 1 to rd (R114) -/
  | scD (rd : BitVec 5) (rs1 : BitVec 5) (rs2 : BitVec 5) (aq : BitVec 1) (rl : BitVec 1)
  /-- AMOSWAP_W: Atomically swaps a word at die scope (R306) -/
  | amoswapW (rd : BitVec 5) (rs1 : BitVec 5) (rs2 : BitVec 5) (aq : BitVec 1) (rl : BitVec 1)
  /-- AMOSWAP_D: Atomically swaps a dword at die scope (R306) -/
  | amoswapD (rd : BitVec 5) (rs1 : BitVec 5) (rs2 : BitVec 5) (aq : BitVec 1) (rl : BitVec 1)
  /-- AMOADD_W: Atomically adds to a word at die scope (R306) -/
  | amoaddW (rd : BitVec 5) (rs1 : BitVec 5) (rs2 : BitVec 5) (aq : BitVec 1) (rl : BitVec 1)
  /-- AMOADD_D: Atomically adds to a dword at die scope (R306) -/
  | amoaddD (rd : BitVec 5) (rs1 : BitVec 5) (rs2 : BitVec 5) (aq : BitVec 1) (rl : BitVec 1)
  /-- AMOXOR_W: Atomically exclusive-ors a word (R306) -/
  | amoxorW (rd : BitVec 5) (rs1 : BitVec 5) (rs2 : BitVec 5) (aq : BitVec 1) (rl : BitVec 1)
  /-- AMOXOR_D: Atomically exclusive-ors a dword (R306) -/
  | amoxorD (rd : BitVec 5) (rs1 : BitVec 5) (rs2 : BitVec 5) (aq : BitVec 1) (rl : BitVec 1)
  /-- AMOAND_W: Atomically ands a word (R306) -/
  | amoandW (rd : BitVec 5) (rs1 : BitVec 5) (rs2 : BitVec 5) (aq : BitVec 1) (rl : BitVec 1)
  /-- AMOAND_D: Atomically ands a dword (R306) -/
  | amoandD (rd : BitVec 5) (rs1 : BitVec 5) (rs2 : BitVec 5) (aq : BitVec 1) (rl : BitVec 1)
  /-- AMOOR_W: Atomically ors a word (R306) -/
  | amoorW (rd : BitVec 5) (rs1 : BitVec 5) (rs2 : BitVec 5) (aq : BitVec 1) (rl : BitVec 1)
  /-- AMOOR_D: Atomically ors a dword (R306) -/
  | amoorD (rd : BitVec 5) (rs1 : BitVec 5) (rs2 : BitVec 5) (aq : BitVec 1) (rl : BitVec 1)
  /-- AMOMIN_W: Atomically takes the signed minimum of a word (R306) -/
  | amominW (rd : BitVec 5) (rs1 : BitVec 5) (rs2 : BitVec 5) (aq : BitVec 1) (rl : BitVec 1)
  /-- AMOMIN_D: Atomically takes the signed minimum of a dword (R306) -/
  | amominD (rd : BitVec 5) (rs1 : BitVec 5) (rs2 : BitVec 5) (aq : BitVec 1) (rl : BitVec 1)
  /-- AMOMAX_W: Atomically takes the signed maximum of a word (R306) -/
  | amomaxW (rd : BitVec 5) (rs1 : BitVec 5) (rs2 : BitVec 5) (aq : BitVec 1) (rl : BitVec 1)
  /-- AMOMAX_D: Atomically takes the signed maximum of a dword (R306) -/
  | amomaxD (rd : BitVec 5) (rs1 : BitVec 5) (rs2 : BitVec 5) (aq : BitVec 1) (rl : BitVec 1)
  /-- AMOMINU_W: Atomically takes the unsigned minimum of a word (R306) -/
  | amominuW (rd : BitVec 5) (rs1 : BitVec 5) (rs2 : BitVec 5) (aq : BitVec 1) (rl : BitVec 1)
  /-- AMOMINU_D: Atomically takes the unsigned minimum of a dword (R306) -/
  | amominuD (rd : BitVec 5) (rs1 : BitVec 5) (rs2 : BitVec 5) (aq : BitVec 1) (rl : BitVec 1)
  /-- AMOMAXU_W: Atomically takes the unsigned maximum of a word (R306) -/
  | amomaxuW (rd : BitVec 5) (rs1 : BitVec 5) (rs2 : BitVec 5) (aq : BitVec 1) (rl : BitVec 1)
  /-- AMOMAXU_D: Atomically takes the unsigned maximum of a dword (R306) -/
  | amomaxuD (rd : BitVec 5) (rs1 : BitVec 5) (rs2 : BitVec 5) (aq : BitVec 1) (rl : BitVec 1)
  /-- CSRRW: Would write a CSR and therefore always raises 0x01 (R115) -/
  | csrrw (rd : BitVec 5) (rs1 : BitVec 5) (csr : BitVec 12)
  /-- CSRRS: Reads cycle, time or instret when rs1 is x0, otherwise raises 0x01 (R115) -/
  | csrrs (rd : BitVec 5) (rs1 : BitVec 5) (csr : BitVec 12)
  /-- CSRRC: Reads a counter when rs1 is x0, otherwise raises 0x01 (R115) -/
  | csrrc (rd : BitVec 5) (rs1 : BitVec 5) (csr : BitVec 12)
  /-- CSRRWI: Would write a CSR and therefore always raises 0x01 (R115) -/
  | csrrwi (rd : BitVec 5) (uimm : BitVec 5) (csr : BitVec 12)
  /-- CSRRSI: Reads a counter when the immediate is zero, otherwise raises 0x01 (R115) -/
  | csrrsi (rd : BitVec 5) (uimm : BitVec 5) (csr : BitVec 12)
  /-- CSRRCI: Reads a counter when the immediate is zero, otherwise raises 0x01 (R115) -/
  | csrrci (rd : BitVec 5) (uimm : BitVec 5) (csr : BitVec 12)
  /-- VADD_VV: Adds vector vs1 to vs2 elementwise, saturating when vcfg.sat is set (R157) -/
  | vaddVV (vd : BitVec 5) (vs2 : BitVec 5) (vs1 : BitVec 5) (c2 : BitVec 1) (c1 : BitVec 1) (vm : BitVec 1)
  /-- VADD_VX: Adds a block scalar to each element of vs2 (R157) -/
  | vaddVX (vd : BitVec 5) (vs2 : BitVec 5) (xs : BitVec 5) (c2 : BitVec 1) (vm : BitVec 1)
  /-- VADD_VI: Adds a sign-extended 5-bit immediate to each element of vs2 (R157) -/
  | vaddVI (vd : BitVec 5) (vs2 : BitVec 5) (simm : BitVec 5) (c2 : BitVec 1) (vm : BitVec 1)
  /-- VADD_VR: Adds a replicated segment of vs1 to vs2 (R157) -/
  | vaddVR (vd : BitVec 5) (vs2 : BitVec 5) (vs1 : BitVec 5) (rsz : BitVec 2) (vm : BitVec 1)
  /-- VSUB_VV: Subtracts vs1 from vs2 elementwise (R157) -/
  | vsubVV (vd : BitVec 5) (vs2 : BitVec 5) (vs1 : BitVec 5) (c2 : BitVec 1) (c1 : BitVec 1) (vm : BitVec 1)
  /-- VSUB_VX: Subtracts a block scalar from vs2 (R157) -/
  | vsubVX (vd : BitVec 5) (vs2 : BitVec 5) (xs : BitVec 5) (c2 : BitVec 1) (vm : BitVec 1)
  /-- VSUB_VI: Subtracts an immediate from vs2 (R157) -/
  | vsubVI (vd : BitVec 5) (vs2 : BitVec 5) (simm : BitVec 5) (c2 : BitVec 1) (vm : BitVec 1)
  /-- VSUB_VR: Subtracts a replicated segment of vs1 from vs2 (R157) -/
  | vsubVR (vd : BitVec 5) (vs2 : BitVec 5) (vs1 : BitVec 5) (rsz : BitVec 2) (vm : BitVec 1)
  /-- VMUL_VV: Multiplies vs2 by vs1 keeping the low SEW bits (R157) -/
  | vmulVV (vd : BitVec 5) (vs2 : BitVec 5) (vs1 : BitVec 5) (c2 : BitVec 1) (c1 : BitVec 1) (vm : BitVec 1)
  /-- VMUL_VX: Multiplies vs2 by a block scalar (R157) -/
  | vmulVX (vd : BitVec 5) (vs2 : BitVec 5) (xs : BitVec 5) (c2 : BitVec 1) (vm : BitVec 1)
  /-- VMUL_VI: Multiplies vs2 by an immediate (R157) -/
  | vmulVI (vd : BitVec 5) (vs2 : BitVec 5) (simm : BitVec 5) (c2 : BitVec 1) (vm : BitVec 1)
  /-- VMUL_VR: Multiplies vs2 by a replicated segment of vs1 (R157) -/
  | vmulVR (vd : BitVec 5) (vs2 : BitVec 5) (vs1 : BitVec 5) (rsz : BitVec 2) (vm : BitVec 1)
  /-- VGATHERG_VV: Gathers from the long vector formed by the registers from vs2 by vector index (R160) -/
  | vgathergVV (vd : BitVec 5) (vs2 : BitVec 5) (vs1 : BitVec 5) (c2 : BitVec 1) (c1 : BitVec 1) (vm : BitVec 1)
  /-- VGATHERG_VX: Gathers from the long vector at vs2 by a scalar index (R160) -/
  | vgathergVX (vd : BitVec 5) (vs2 : BitVec 5) (xs : BitVec 5) (c2 : BitVec 1) (vm : BitVec 1)
  /-- VGATHERG_VI: Gathers from the long vector at vs2 by an immediate index (R160) -/
  | vgathergVI (vd : BitVec 5) (vs2 : BitVec 5) (simm : BitVec 5) (c2 : BitVec 1) (vm : BitVec 1)
  /-- VGATHERG_VR: Gathers from the long vector at vs2 by a replicated index segment (R160) -/
  | vgathergVR (vd : BitVec 5) (vs2 : BitVec 5) (vs1 : BitVec 5) (rsz : BitVec 2) (vm : BitVec 1)
  /-- VAND_VV: Ands vs2 and vs1 (R157) -/
  | vandVV (vd : BitVec 5) (vs2 : BitVec 5) (vs1 : BitVec 5) (c2 : BitVec 1) (c1 : BitVec 1) (vm : BitVec 1)
  /-- VAND_VX: Ands vs2 with a block scalar (R157) -/
  | vandVX (vd : BitVec 5) (vs2 : BitVec 5) (xs : BitVec 5) (c2 : BitVec 1) (vm : BitVec 1)
  /-- VAND_VI: Ands vs2 with an immediate (R157) -/
  | vandVI (vd : BitVec 5) (vs2 : BitVec 5) (simm : BitVec 5) (c2 : BitVec 1) (vm : BitVec 1)
  /-- VAND_VR: Ands vs2 with a replicated segment (R157) -/
  | vandVR (vd : BitVec 5) (vs2 : BitVec 5) (vs1 : BitVec 5) (rsz : BitVec 2) (vm : BitVec 1)
  /-- VOR_VV: Ors vs2 and vs1 (R157) -/
  | vorVV (vd : BitVec 5) (vs2 : BitVec 5) (vs1 : BitVec 5) (c2 : BitVec 1) (c1 : BitVec 1) (vm : BitVec 1)
  /-- VOR_VX: Ors vs2 with a block scalar (R157) -/
  | vorVX (vd : BitVec 5) (vs2 : BitVec 5) (xs : BitVec 5) (c2 : BitVec 1) (vm : BitVec 1)
  /-- VOR_VI: Ors vs2 with an immediate (R157) -/
  | vorVI (vd : BitVec 5) (vs2 : BitVec 5) (simm : BitVec 5) (c2 : BitVec 1) (vm : BitVec 1)
  /-- VOR_VR: Ors vs2 with a replicated segment (R157) -/
  | vorVR (vd : BitVec 5) (vs2 : BitVec 5) (vs1 : BitVec 5) (rsz : BitVec 2) (vm : BitVec 1)
  /-- VXOR_VV: Exclusive-ors vs2 and vs1 (R157) -/
  | vxorVV (vd : BitVec 5) (vs2 : BitVec 5) (vs1 : BitVec 5) (c2 : BitVec 1) (c1 : BitVec 1) (vm : BitVec 1)
  /-- VXOR_VX: Exclusive-ors vs2 with a block scalar (R157) -/
  | vxorVX (vd : BitVec 5) (vs2 : BitVec 5) (xs : BitVec 5) (c2 : BitVec 1) (vm : BitVec 1)
  /-- VXOR_VI: Exclusive-ors vs2 with an immediate (R157) -/
  | vxorVI (vd : BitVec 5) (vs2 : BitVec 5) (simm : BitVec 5) (c2 : BitVec 1) (vm : BitVec 1)
  /-- VXOR_VR: Exclusive-ors vs2 with a replicated segment (R157) -/
  | vxorVR (vd : BitVec 5) (vs2 : BitVec 5) (vs1 : BitVec 5) (rsz : BitVec 2) (vm : BitVec 1)
  /-- VSLL_VV: Shifts vs2 left by vs1 (R157) -/
  | vsllVV (vd : BitVec 5) (vs2 : BitVec 5) (vs1 : BitVec 5) (c2 : BitVec 1) (c1 : BitVec 1) (vm : BitVec 1)
  /-- VSLL_VX: Shifts vs2 left by a block scalar (R157) -/
  | vsllVX (vd : BitVec 5) (vs2 : BitVec 5) (xs : BitVec 5) (c2 : BitVec 1) (vm : BitVec 1)
  /-- VSLL_VI: Shifts vs2 left by an immediate (R157) -/
  | vsllVI (vd : BitVec 5) (vs2 : BitVec 5) (simm : BitVec 5) (c2 : BitVec 1) (vm : BitVec 1)
  /-- VSLL_VR: Shifts vs2 left by a replicated segment (R157) -/
  | vsllVR (vd : BitVec 5) (vs2 : BitVec 5) (vs1 : BitVec 5) (rsz : BitVec 2) (vm : BitVec 1)
  /-- VSRL_VV: Shifts vs2 right logically by vs1 (R157) -/
  | vsrlVV (vd : BitVec 5) (vs2 : BitVec 5) (vs1 : BitVec 5) (c2 : BitVec 1) (c1 : BitVec 1) (vm : BitVec 1)
  /-- VSRL_VX: Shifts vs2 right logically by a block scalar (R157) -/
  | vsrlVX (vd : BitVec 5) (vs2 : BitVec 5) (xs : BitVec 5) (c2 : BitVec 1) (vm : BitVec 1)
  /-- VSRL_VI: Shifts vs2 right logically by an immediate (R157) -/
  | vsrlVI (vd : BitVec 5) (vs2 : BitVec 5) (simm : BitVec 5) (c2 : BitVec 1) (vm : BitVec 1)
  /-- VSRL_VR: Shifts vs2 right logically by a replicated segment (R157) -/
  | vsrlVR (vd : BitVec 5) (vs2 : BitVec 5) (vs1 : BitVec 5) (rsz : BitVec 2) (vm : BitVec 1)
  /-- VSRA_VV: Shifts vs2 right arithmetically by vs1 (R157) -/
  | vsraVV (vd : BitVec 5) (vs2 : BitVec 5) (vs1 : BitVec 5) (c2 : BitVec 1) (c1 : BitVec 1) (vm : BitVec 1)
  /-- VSRA_VX: Shifts vs2 right arithmetically by a block scalar (R157) -/
  | vsraVX (vd : BitVec 5) (vs2 : BitVec 5) (xs : BitVec 5) (c2 : BitVec 1) (vm : BitVec 1)
  /-- VSRA_VI: Shifts vs2 right arithmetically by an immediate (R157) -/
  | vsraVI (vd : BitVec 5) (vs2 : BitVec 5) (simm : BitVec 5) (c2 : BitVec 1) (vm : BitVec 1)
  /-- VSRA_VR: Shifts vs2 right arithmetically by a replicated segment (R157) -/
  | vsraVR (vd : BitVec 5) (vs2 : BitVec 5) (vs1 : BitVec 5) (rsz : BitVec 2) (vm : BitVec 1)
  /-- VMIN_VV: Takes the signed minimum of vs2 and vs1 (R157) -/
  | vminVV (vd : BitVec 5) (vs2 : BitVec 5) (vs1 : BitVec 5) (c2 : BitVec 1) (c1 : BitVec 1) (vm : BitVec 1)
  /-- VMIN_VX: Takes the signed minimum of vs2 and a block scalar (R157) -/
  | vminVX (vd : BitVec 5) (vs2 : BitVec 5) (xs : BitVec 5) (c2 : BitVec 1) (vm : BitVec 1)
  /-- VMIN_VI: Takes the signed minimum of vs2 and an immediate (R157) -/
  | vminVI (vd : BitVec 5) (vs2 : BitVec 5) (simm : BitVec 5) (c2 : BitVec 1) (vm : BitVec 1)
  /-- VMIN_VR: Takes the signed minimum of vs2 and a replicated segment (R157) -/
  | vminVR (vd : BitVec 5) (vs2 : BitVec 5) (vs1 : BitVec 5) (rsz : BitVec 2) (vm : BitVec 1)
  /-- VMAX_VV: Takes the signed maximum of vs2 and vs1 (R157) -/
  | vmaxVV (vd : BitVec 5) (vs2 : BitVec 5) (vs1 : BitVec 5) (c2 : BitVec 1) (c1 : BitVec 1) (vm : BitVec 1)
  /-- VMAX_VX: Takes the signed maximum of vs2 and a block scalar (R157) -/
  | vmaxVX (vd : BitVec 5) (vs2 : BitVec 5) (xs : BitVec 5) (c2 : BitVec 1) (vm : BitVec 1)
  /-- VMAX_VI: Takes the signed maximum of vs2 and an immediate (R157) -/
  | vmaxVI (vd : BitVec 5) (vs2 : BitVec 5) (simm : BitVec 5) (c2 : BitVec 1) (vm : BitVec 1)
  /-- VMAX_VR: Takes the signed maximum of vs2 and a replicated segment (R157) -/
  | vmaxVR (vd : BitVec 5) (vs2 : BitVec 5) (vs1 : BitVec 5) (rsz : BitVec 2) (vm : BitVec 1)
  /-- VMSEQ_VV: Writes mask bits where vs2 equals vs1 (R158) -/
  | vmseqVV (vd : BitVec 5) (vs2 : BitVec 5) (vs1 : BitVec 5) (c2 : BitVec 1) (c1 : BitVec 1) (vm : BitVec 1)
  /-- VMSEQ_VX: Writes mask bits where vs2 equals a block scalar (R158) -/
  | vmseqVX (vd : BitVec 5) (vs2 : BitVec 5) (xs : BitVec 5) (c2 : BitVec 1) (vm : BitVec 1)
  /-- VMSEQ_VI: Writes mask bits where vs2 equals an immediate (R158) -/
  | vmseqVI (vd : BitVec 5) (vs2 : BitVec 5) (simm : BitVec 5) (c2 : BitVec 1) (vm : BitVec 1)
  /-- VMSEQ_VR: Writes mask bits where vs2 equals a replicated segment (R158) -/
  | vmseqVR (vd : BitVec 5) (vs2 : BitVec 5) (vs1 : BitVec 5) (rsz : BitVec 2) (vm : BitVec 1)
  /-- VMSLT_VV: Writes mask bits where vs2 is less than vs1, signed (R158) -/
  | vmsltVV (vd : BitVec 5) (vs2 : BitVec 5) (vs1 : BitVec 5) (c2 : BitVec 1) (c1 : BitVec 1) (vm : BitVec 1)
  /-- VMSLT_VX: Writes mask bits where vs2 is less than a block scalar, signed (R158) -/
  | vmsltVX (vd : BitVec 5) (vs2 : BitVec 5) (xs : BitVec 5) (c2 : BitVec 1) (vm : BitVec 1)
  /-- VMSLT_VI: Writes mask bits where vs2 is less than an immediate, signed (R158) -/
  | vmsltVI (vd : BitVec 5) (vs2 : BitVec 5) (simm : BitVec 5) (c2 : BitVec 1) (vm : BitVec 1)
  /-- VMSLT_VR: Writes mask bits where vs2 is less than a replicated segment, signed (R158) -/
  | vmsltVR (vd : BitVec 5) (vs2 : BitVec 5) (vs1 : BitVec 5) (rsz : BitVec 2) (vm : BitVec 1)
  /-- VMSLTU_VV: Writes mask bits where vs2 is less than vs1, unsigned (R158) -/
  | vmsltuVV (vd : BitVec 5) (vs2 : BitVec 5) (vs1 : BitVec 5) (c2 : BitVec 1) (c1 : BitVec 1) (vm : BitVec 1)
  /-- VMSLTU_VX: Writes mask bits where vs2 is less than a block scalar, unsigned (R158) -/
  | vmsltuVX (vd : BitVec 5) (vs2 : BitVec 5) (xs : BitVec 5) (c2 : BitVec 1) (vm : BitVec 1)
  /-- VMSLTU_VI: Writes mask bits where vs2 is less than an immediate, unsigned (R158) -/
  | vmsltuVI (vd : BitVec 5) (vs2 : BitVec 5) (simm : BitVec 5) (c2 : BitVec 1) (vm : BitVec 1)
  /-- VMSLTU_VR: Writes mask bits where vs2 is less than a replicated segment, unsigned (R158) -/
  | vmsltuVR (vd : BitVec 5) (vs2 : BitVec 5) (vs1 : BitVec 5) (rsz : BitVec 2) (vm : BitVec 1)
  /-- VGATHER_VV: Picks elements of vs2 by a vector of indices (R159) -/
  | vgatherVV (vd : BitVec 5) (vs2 : BitVec 5) (vs1 : BitVec 5) (c2 : BitVec 1) (c1 : BitVec 1) (vm : BitVec 1)
  /-- VGATHER_VX: Broadcasts the element of vs2 named by a block scalar (R159) -/
  | vgatherVX (vd : BitVec 5) (vs2 : BitVec 5) (xs : BitVec 5) (c2 : BitVec 1) (vm : BitVec 1)
  /-- VGATHER_VI: Broadcasts the element of vs2 named by an immediate (R159) -/
  | vgatherVI (vd : BitVec 5) (vs2 : BitVec 5) (simm : BitVec 5) (c2 : BitVec 1) (vm : BitVec 1)
  /-- VGATHER_VR: Picks elements of vs2 by a replicated index segment (R159) -/
  | vgatherVR (vd : BitVec 5) (vs2 : BitVec 5) (vs1 : BitVec 5) (rsz : BitVec 2) (vm : BitVec 1)
  /-- VFADD_FVV: Adds floats vs2 and vs1 with one rounding (R190) -/
  | vfaddFVV (vd : BitVec 5) (vs2 : BitVec 5) (vs1 : BitVec 5) (c2 : BitVec 1) (c1 : BitVec 1) (vm : BitVec 1)
  /-- VFADD_FVX: Adds a scalar float to vs2 (R190) -/
  | vfaddFVX (vd : BitVec 5) (vs2 : BitVec 5) (xs : BitVec 5) (c2 : BitVec 1) (vm : BitVec 1)
  /-- VFADD_FVR: Adds a replicated float segment to vs2 (R190) -/
  | vfaddFVR (vd : BitVec 5) (vs2 : BitVec 5) (vs1 : BitVec 5) (rsz : BitVec 2) (vm : BitVec 1)
  /-- VFSUB_FVV: Subtracts floats vs1 from vs2 (R190) -/
  | vfsubFVV (vd : BitVec 5) (vs2 : BitVec 5) (vs1 : BitVec 5) (c2 : BitVec 1) (c1 : BitVec 1) (vm : BitVec 1)
  /-- VFSUB_FVX: Subtracts a scalar float from vs2 (R190) -/
  | vfsubFVX (vd : BitVec 5) (vs2 : BitVec 5) (xs : BitVec 5) (c2 : BitVec 1) (vm : BitVec 1)
  /-- VFSUB_FVR: Subtracts a replicated float segment from vs2 (R190) -/
  | vfsubFVR (vd : BitVec 5) (vs2 : BitVec 5) (vs1 : BitVec 5) (rsz : BitVec 2) (vm : BitVec 1)
  /-- VFMUL_FVV: Multiplies floats vs2 and vs1 (R190) -/
  | vfmulFVV (vd : BitVec 5) (vs2 : BitVec 5) (vs1 : BitVec 5) (c2 : BitVec 1) (c1 : BitVec 1) (vm : BitVec 1)
  /-- VFMUL_FVX: Multiplies vs2 by a scalar float (R190) -/
  | vfmulFVX (vd : BitVec 5) (vs2 : BitVec 5) (xs : BitVec 5) (c2 : BitVec 1) (vm : BitVec 1)
  /-- VFMUL_FVR: Multiplies vs2 by a replicated float segment (R190) -/
  | vfmulFVR (vd : BitVec 5) (vs2 : BitVec 5) (vs1 : BitVec 5) (rsz : BitVec 2) (vm : BitVec 1)
  /-- VFDIV_FVV: Divides floats vs2 by vs1 (R190) -/
  | vfdivFVV (vd : BitVec 5) (vs2 : BitVec 5) (vs1 : BitVec 5) (c2 : BitVec 1) (c1 : BitVec 1) (vm : BitVec 1)
  /-- VFDIV_FVX: Divides vs2 by a scalar float (R190) -/
  | vfdivFVX (vd : BitVec 5) (vs2 : BitVec 5) (xs : BitVec 5) (c2 : BitVec 1) (vm : BitVec 1)
  /-- VFDIV_FVR: Divides vs2 by a replicated float segment (R190) -/
  | vfdivFVR (vd : BitVec 5) (vs2 : BitVec 5) (vs1 : BitVec 5) (rsz : BitVec 2) (vm : BitVec 1)
  /-- VFMACC_FVV: Adds vs2 times vs1 to vd with one rounding (R190) -/
  | vfmaccFVV (vd : BitVec 5) (vs2 : BitVec 5) (vs1 : BitVec 5) (c2 : BitVec 1) (c1 : BitVec 1) (vm : BitVec 1)
  /-- VFMACC_FVX: Adds vs2 times a scalar to vd with one rounding (R190) -/
  | vfmaccFVX (vd : BitVec 5) (vs2 : BitVec 5) (xs : BitVec 5) (c2 : BitVec 1) (vm : BitVec 1)
  /-- VFMACC_FVR: Adds vs2 times a replicated segment to vd (R190) -/
  | vfmaccFVR (vd : BitVec 5) (vs2 : BitVec 5) (vs1 : BitVec 5) (rsz : BitVec 2) (vm : BitVec 1)
  /-- VFNMSAC_FVV: Subtracts vs2 times vs1 from vd with one rounding (R190) -/
  | vfnmsacFVV (vd : BitVec 5) (vs2 : BitVec 5) (vs1 : BitVec 5) (c2 : BitVec 1) (c1 : BitVec 1) (vm : BitVec 1)
  /-- VFNMSAC_FVX: Subtracts vs2 times a scalar from vd (R190) -/
  | vfnmsacFVX (vd : BitVec 5) (vs2 : BitVec 5) (xs : BitVec 5) (c2 : BitVec 1) (vm : BitVec 1)
  /-- VFNMSAC_FVR: Subtracts vs2 times a replicated segment from vd (R190) -/
  | vfnmsacFVR (vd : BitVec 5) (vs2 : BitVec 5) (vs1 : BitVec 5) (rsz : BitVec 2) (vm : BitVec 1)
  /-- VFMIN_FVV: Takes the minimumNumber of vs2 and vs1 (R191) -/
  | vfminFVV (vd : BitVec 5) (vs2 : BitVec 5) (vs1 : BitVec 5) (c2 : BitVec 1) (c1 : BitVec 1) (vm : BitVec 1)
  /-- VFMIN_FVX: Takes the minimumNumber of vs2 and a scalar (R191) -/
  | vfminFVX (vd : BitVec 5) (vs2 : BitVec 5) (xs : BitVec 5) (c2 : BitVec 1) (vm : BitVec 1)
  /-- VFMIN_FVR: Takes the minimumNumber of vs2 and a replicated segment (R191) -/
  | vfminFVR (vd : BitVec 5) (vs2 : BitVec 5) (vs1 : BitVec 5) (rsz : BitVec 2) (vm : BitVec 1)
  /-- VFMAX_FVV: Takes the maximumNumber of vs2 and vs1 (R191) -/
  | vfmaxFVV (vd : BitVec 5) (vs2 : BitVec 5) (vs1 : BitVec 5) (c2 : BitVec 1) (c1 : BitVec 1) (vm : BitVec 1)
  /-- VFMAX_FVX: Takes the maximumNumber of vs2 and a scalar (R191) -/
  | vfmaxFVX (vd : BitVec 5) (vs2 : BitVec 5) (xs : BitVec 5) (c2 : BitVec 1) (vm : BitVec 1)
  /-- VFMAX_FVR: Takes the maximumNumber of vs2 and a replicated segment (R191) -/
  | vfmaxFVR (vd : BitVec 5) (vs2 : BitVec 5) (vs1 : BitVec 5) (rsz : BitVec 2) (vm : BitVec 1)
  /-- VFMFEQ_FVV: Writes mask bits where floats vs2 and vs1 are equal (R192) -/
  | vfmfeqFVV (vd : BitVec 5) (vs2 : BitVec 5) (vs1 : BitVec 5) (c2 : BitVec 1) (c1 : BitVec 1) (vm : BitVec 1)
  /-- VFMFEQ_FVX: Writes mask bits where vs2 equals a scalar float (R192) -/
  | vfmfeqFVX (vd : BitVec 5) (vs2 : BitVec 5) (xs : BitVec 5) (c2 : BitVec 1) (vm : BitVec 1)
  /-- VFMFEQ_FVR: Writes mask bits where vs2 equals a replicated segment (R192) -/
  | vfmfeqFVR (vd : BitVec 5) (vs2 : BitVec 5) (vs1 : BitVec 5) (rsz : BitVec 2) (vm : BitVec 1)
  /-- VFMFLT_FVV: Writes mask bits where vs2 is less than vs1 (R192) -/
  | vfmfltFVV (vd : BitVec 5) (vs2 : BitVec 5) (vs1 : BitVec 5) (c2 : BitVec 1) (c1 : BitVec 1) (vm : BitVec 1)
  /-- VFMFLT_FVX: Writes mask bits where vs2 is less than a scalar float (R192) -/
  | vfmfltFVX (vd : BitVec 5) (vs2 : BitVec 5) (xs : BitVec 5) (c2 : BitVec 1) (vm : BitVec 1)
  /-- VFMFLT_FVR: Writes mask bits where vs2 is less than a replicated segment (R192) -/
  | vfmfltFVR (vd : BitVec 5) (vs2 : BitVec 5) (vs1 : BitVec 5) (rsz : BitVec 2) (vm : BitVec 1)
  /-- VFMFLE_FVV: Writes mask bits where vs2 is at most vs1 (R192) -/
  | vfmfleFVV (vd : BitVec 5) (vs2 : BitVec 5) (vs1 : BitVec 5) (c2 : BitVec 1) (c1 : BitVec 1) (vm : BitVec 1)
  /-- VFMFLE_FVX: Writes mask bits where vs2 is at most a scalar float (R192) -/
  | vfmfleFVX (vd : BitVec 5) (vs2 : BitVec 5) (xs : BitVec 5) (c2 : BitVec 1) (vm : BitVec 1)
  /-- VFMFLE_FVR: Writes mask bits where vs2 is at most a replicated segment (R192) -/
  | vfmfleFVR (vd : BitVec 5) (vs2 : BitVec 5) (vs1 : BitVec 5) (rsz : BitVec 2) (vm : BitVec 1)
  /-- VCVTQ4: Converts binary32 elements of vs2 to packed E2M1 using the E8M0 block scales in vs1 (R208) -/
  | vcvtq4 (vd : BitVec 5) (vs2 : BitVec 5) (vs1 : BitVec 5) (c2 : BitVec 1) (c1 : BitVec 1) (vm : BitVec 1)
  /-- VFSGNJ_FVV: Takes the magnitude of vs2 with the sign of vs1 (R194) -/
  | vfsgnjFVV (vd : BitVec 5) (vs2 : BitVec 5) (vs1 : BitVec 5) (c2 : BitVec 1) (c1 : BitVec 1) (vm : BitVec 1)
  /-- VFSGNJ_FVX: Takes the magnitude of vs2 with the sign of a scalar (R194) -/
  | vfsgnjFVX (vd : BitVec 5) (vs2 : BitVec 5) (xs : BitVec 5) (c2 : BitVec 1) (vm : BitVec 1)
  /-- VFSGNJ_FVR: Takes the magnitude of vs2 with the sign of a replicated segment (R194) -/
  | vfsgnjFVR (vd : BitVec 5) (vs2 : BitVec 5) (vs1 : BitVec 5) (rsz : BitVec 2) (vm : BitVec 1)
  /-- VFSGNJN_FVV: Takes the magnitude of vs2 with the inverted sign of vs1 (R194) -/
  | vfsgnjnFVV (vd : BitVec 5) (vs2 : BitVec 5) (vs1 : BitVec 5) (c2 : BitVec 1) (c1 : BitVec 1) (vm : BitVec 1)
  /-- VFSGNJN_FVX: Takes the magnitude of vs2 with the inverted sign of a scalar (R194) -/
  | vfsgnjnFVX (vd : BitVec 5) (vs2 : BitVec 5) (xs : BitVec 5) (c2 : BitVec 1) (vm : BitVec 1)
  /-- VFSGNJN_FVR: Takes the magnitude of vs2 with the inverted sign of a replicated segment (R194) -/
  | vfsgnjnFVR (vd : BitVec 5) (vs2 : BitVec 5) (vs1 : BitVec 5) (rsz : BitVec 2) (vm : BitVec 1)
  /-- VFSGNJX_FVV: Takes the magnitude of vs2 with the XOR of both signs (R194) -/
  | vfsgnjxFVV (vd : BitVec 5) (vs2 : BitVec 5) (vs1 : BitVec 5) (c2 : BitVec 1) (c1 : BitVec 1) (vm : BitVec 1)
  /-- VFSGNJX_FVX: Takes the magnitude of vs2 with its sign XOR a scalar's sign (R194) -/
  | vfsgnjxFVX (vd : BitVec 5) (vs2 : BitVec 5) (xs : BitVec 5) (c2 : BitVec 1) (vm : BitVec 1)
  /-- VFSGNJX_FVR: Takes the magnitude of vs2 with its sign XOR a replicated segment's sign (R194) -/
  | vfsgnjxFVR (vd : BitVec 5) (vs2 : BitVec 5) (vs1 : BitVec 5) (rsz : BitVec 2) (vm : BitVec 1)
  /-- VFSCALE_FVV: Multiplies vs2 by 2 to the signed integer in vs1 (R190) -/
  | vfscaleFVV (vd : BitVec 5) (vs2 : BitVec 5) (vs1 : BitVec 5) (c2 : BitVec 1) (c1 : BitVec 1) (vm : BitVec 1)
  /-- VFSCALE_FVX: Multiplies vs2 by 2 to a scalar integer (R190) -/
  | vfscaleFVX (vd : BitVec 5) (vs2 : BitVec 5) (xs : BitVec 5) (c2 : BitVec 1) (vm : BitVec 1)
  /-- VFSCALE_FVR: Multiplies vs2 by 2 to a replicated integer segment (R190) -/
  | vfscaleFVR (vd : BitVec 5) (vs2 : BitVec 5) (vs1 : BitVec 5) (rsz : BitVec 2) (vm : BitVec 1)
  /-- VMV: Copies active elements of vs2 to vd (R161) -/
  | vmv (vd : BitVec 5) (vs2 : BitVec 5) (c2 : BitVec 1) (vm : BitVec 1)
  /-- VSPLAT: Writes a block scalar into every active element of vd (R161) -/
  | vsplat (vd : BitVec 5) (xs : BitVec 5) (vm : BitVec 1)
  /-- VMVSX: Writes a block scalar into element 0 of vd (R161) -/
  | vmvsx (vd : BitVec 5) (xs : BitVec 5)
  /-- VMVXS: Writes element 0 of vs2 to a block scalar and pushes it to the reply queue (R161) -/
  | vmvxs (xd : BitVec 5) (vs2 : BitVec 5) (c2 : BitVec 1)
  /-- VID: Writes each active element's index into vd (R161) -/
  | vid (vd : BitVec 5) (vm : BitVec 1)
  /-- VREDSUM: Folds the active elements of vs2 into element 0 of vd by modular addition (R162) -/
  | vredsum (vd : BitVec 5) (vs2 : BitVec 5) (c2 : BitVec 1) (vm : BitVec 1)
  /-- VREDMIN: Folds the active elements of vs2 into element 0 of vd by signed minimum (R162) -/
  | vredmin (vd : BitVec 5) (vs2 : BitVec 5) (c2 : BitVec 1) (vm : BitVec 1)
  /-- VREDMAX: Folds the active elements of vs2 into element 0 of vd by signed maximum (R162) -/
  | vredmax (vd : BitVec 5) (vs2 : BitVec 5) (c2 : BitVec 1) (vm : BitVec 1)
  /-- VREDAND: Folds the active elements of vs2 into element 0 of vd by AND (R162) -/
  | vredand (vd : BitVec 5) (vs2 : BitVec 5) (c2 : BitVec 1) (vm : BitVec 1)
  /-- VREDOR: Folds the active elements of vs2 into element 0 of vd by OR (R162) -/
  | vredor (vd : BitVec 5) (vs2 : BitVec 5) (c2 : BitVec 1) (vm : BitVec 1)
  /-- VREDXOR: Folds the active elements of vs2 into element 0 of vd by XOR (R162) -/
  | vredxor (vd : BitVec 5) (vs2 : BitVec 5) (c2 : BitVec 1) (vm : BitVec 1)
  /-- VMPOPC: Counts the active set bits of mask vs2 into element 0 of vd (R163) -/
  | vmpopc (vd : BitVec 5) (vs2 : BitVec 5) (c2 : BitVec 1) (vm : BitVec 1)
  /-- VMFIRST: Writes the lowest active set bit index of mask vs2, or all ones (R163) -/
  | vmfirst (vd : BitVec 5) (vs2 : BitVec 5) (c2 : BitVec 1) (vm : BitVec 1)
  /-- VCOMPRESS: Packs the elements of vs2 whose v0 bit is set into the low elements of vd (R164) -/
  | vcompress (vd : BitVec 5) (vs2 : BitVec 5) (c2 : BitVec 1)
  /-- VRNG: Fills active elements from Philox4x32-10 over the task's counter range and advances rngpos (R165) -/
  | vrng (vd : BitVec 5) (vm : BitVec 1)
  /-- VFRECIP: Writes the table-based approximate reciprocal (R198) -/
  | vfrecip (vd : BitVec 5) (vs2 : BitVec 5) (c2 : BitVec 1) (vm : BitVec 1)
  /-- VFRSQRT: Writes the table-based approximate reciprocal square root (R199) -/
  | vfrsqrt (vd : BitVec 5) (vs2 : BitVec 5) (c2 : BitVec 1) (vm : BitVec 1)
  /-- VFEXP2: Writes the table-based approximate base-2 exponential (R200) -/
  | vfexp2 (vd : BitVec 5) (vs2 : BitVec 5) (c2 : BitVec 1) (vm : BitVec 1)
  /-- VFLOG2: Writes the table-based approximate base-2 logarithm (R201) -/
  | vflog2 (vd : BitVec 5) (vs2 : BitVec 5) (c2 : BitVec 1) (vm : BitVec 1)
  /-- VFSQRT: Writes the correctly rounded square root (R196) -/
  | vfsqrt (vd : BitVec 5) (vs2 : BitVec 5) (c2 : BitVec 1) (vm : BitVec 1)
  /-- VFCLASS: Writes the class code of each float (R196) -/
  | vfclass (vd : BitVec 5) (vs2 : BitVec 5) (c2 : BitVec 1) (vm : BitVec 1)
  /-- VFREDSUM: Sums the active floats of vs2 in a fixed pairwise tree into element 0 of vd (R202) -/
  | vfredsum (vd : BitVec 5) (vs2 : BitVec 5) (c2 : BitVec 1) (vm : BitVec 1)
  /-- VFREDOSUM: Sums the active floats of vs2 strictly in sequence into element 0 of vd (R203) -/
  | vfredosum (vd : BitVec 5) (vs2 : BitVec 5) (c2 : BitVec 1) (vm : BitVec 1)
  /-- VFREDMIN: Folds the active floats into element 0 of vd by minimumNumber (R204) -/
  | vfredmin (vd : BitVec 5) (vs2 : BitVec 5) (c2 : BitVec 1) (vm : BitVec 1)
  /-- VFREDMAX: Folds the active floats into element 0 of vd by maximumNumber (R204) -/
  | vfredmax (vd : BitVec 5) (vs2 : BitVec 5) (c2 : BitVec 1) (vm : BitVec 1)
  /-- VNCVT: Narrows floats from the wide partner format to the format at SEW (R205) -/
  | vncvt (vd : BitVec 5) (vs2 : BitVec 5) (c2 : BitVec 1) (vm : BitVec 1)
  /-- VWCVT: Widens floats exactly to the wide partner format (R205) -/
  | vwcvt (vd : BitVec 5) (vs2 : BitVec 5) (c2 : BitVec 1) (vm : BitVec 1)
  /-- VNCVTI: Narrows integers from 2 × SEW to SEW with saturation (R206) -/
  | vncvti (vd : BitVec 5) (vs2 : BitVec 5) (c2 : BitVec 1) (vm : BitVec 1)
  /-- VWCVTI: Sign-extends integers from SEW to 2 × SEW (R206) -/
  | vwcvti (vd : BitVec 5) (vs2 : BitVec 5) (c2 : BitVec 1) (vm : BitVec 1)
  /-- VWCVTN: Zero-extends integers from SEW to 2 × SEW (R206) -/
  | vwcvtn (vd : BitVec 5) (vs2 : BitVec 5) (c2 : BitVec 1) (vm : BitVec 1)
  /-- VCVTIF: Converts signed integers to the float format at SEW (R207) -/
  | vcvtif (vd : BitVec 5) (vs2 : BitVec 5) (c2 : BitVec 1) (vm : BitVec 1)
  /-- VCVTFI: Converts floats to signed integers with clamping (R207) -/
  | vcvtfi (vd : BitVec 5) (vs2 : BitVec 5) (c2 : BitVec 1) (vm : BitVec 1)
  /-- VBSCALE: Writes one E8M0 scale per 32-element block of binary32 values (R208) -/
  | vbscale (vd : BitVec 5) (vs2 : BitVec 5) (c2 : BitVec 1) (vm : BitVec 1)
  /-- VLE: Loads a unit-stride vector after probing every active element's translation (R243) -/
  | vle (vd : BitVec 5) (rs1 : BitVec 5) (pol : BitVec 2) (eew : BitVec 3) (vm : BitVec 1)
  /-- VLSE: Loads a strided vector after probing every active element (R243) -/
  | vlse (vd : BitVec 5) (rs1 : BitVec 5) (rs2 : BitVec 5) (pol : BitVec 2) (eew : BitVec 3) (vm : BitVec 1)
  /-- VLXE: Loads an indexed vector after probing every active element (R243) -/
  | vlxe (vd : BitVec 5) (vs2 : BitVec 5) (rs1 : BitVec 5) (pol : BitVec 2) (eew : BitVec 3) (c : BitVec 1) (vm : BitVec 1)
  /-- VSE: Stores a unit-stride vector after probing every active element (R243) -/
  | vse (vs3 : BitVec 5) (rs1 : BitVec 5) (pol : BitVec 2) (eew : BitVec 3) (c : BitVec 1) (vm : BitVec 1)
  /-- VSSE: Stores a strided vector after probing every active element (R243) -/
  | vsse (vs3 : BitVec 5) (rs1 : BitVec 5) (rs2 : BitVec 5) (pol : BitVec 2) (eew : BitVec 3) (c : BitVec 1) (vm : BitVec 1)
  /-- VSXE: Stores an indexed vector after probing every active element (R243) -/
  | vsxe (vs3 : BitVec 5) (vs2 : BitVec 5) (rs1 : BitVec 5) (pol : BitVec 2) (eew : BitVec 3) (c : BitVec 1) (vm : BitVec 1)
  /-- VAPPEND: Atomically advances a work vector's tail, writes the active elements and pushes the old tail or all ones (R175) -/
  | vappend (vs3 : BitVec 5) (rs1 : BitVec 5) (pol : BitVec 2) (eew : BitVec 3) (c : BitVec 1) (vm : BitVec 1)
  /-- VAMOADD: Atomically adds each active element to memory at an indexed address, returning old values (R305) -/
  | vamoadd (vd : BitVec 5) (vs2 : BitVec 5) (rs1 : BitVec 5) (eew : BitVec 3) (vm : BitVec 1)
  /-- VAMOMIN: Atomically takes the signed minimum at indexed addresses (R305) -/
  | vamomin (vd : BitVec 5) (vs2 : BitVec 5) (rs1 : BitVec 5) (eew : BitVec 3) (vm : BitVec 1)
  /-- VAMOMAX: Atomically takes the signed maximum at indexed addresses (R305) -/
  | vamomax (vd : BitVec 5) (vs2 : BitVec 5) (rs1 : BitVec 5) (eew : BitVec 3) (vm : BitVec 1)
  /-- VAMOSWAP: Atomically swaps at indexed addresses (R305) -/
  | vamoswap (vd : BitVec 5) (vs2 : BitVec 5) (rs1 : BitVec 5) (eew : BitVec 3) (vm : BitVec 1)
  /-- VAMOXOR: Atomically exclusive-ors at indexed addresses (R305) -/
  | vamoxor (vd : BitVec 5) (vs2 : BitVec 5) (rs1 : BitVec 5) (eew : BitVec 3) (vm : BitVec 1)
  /-- MOPA: Accumulates outer products of A and B into a tile register over the mshape window (R281) -/
  | mopa (md : BitVec 3) (vs2 : BitVec 5) (vs1 : BitVec 5) (c2 : BitVec 1) (c1 : BitVec 1) (vm : BitVec 1)
  /-- MOPD: Accumulates L1 or squared L2 distances under mcfg.metric into a tile register (R281) -/
  | mopd (md : BitVec 3) (vs2 : BitVec 5) (vs1 : BitVec 5) (c2 : BitVec 1) (c1 : BitVec 1) (vm : BitVec 1)
  /-- MZERO: Clears all 4,096 accumulators of a tile register (R282) -/
  | mzero (md : BitVec 3)
  /-- MCUPD: Adds vectors into per-centroid FX accumulator sums and counts (R289) -/
  | mcupd (xb : BitVec 5) (vs2 : BitVec 5) (vs1 : BitVec 5) (c2 : BitVec 1) (c1 : BitVec 1) (vm : BitVec 1)
  /-- MDRAIN: Moves accumulators of a tile into vd row-major, raw or scaled (R284) -/
  | mdrain (vd : BitVec 5) (md : BitVec 3) (xs : BitVec 5) (vm : BitVec 1)
  /-- MDRAINQ: Drains as MDRAIN and atomically raises a per-tensor absmax word (R286) -/
  | mdrainq (vd : BitVec 5) (md : BitVec 3) (xs : BitVec 5) (vm : BitVec 1)
  /-- MBEST: Sends each row through the trump chain and writes the best column and its value (R287) -/
  | mbest (vd : BitVec 5) (md : BitVec 3) (vm : BitVec 1)
  /-- MLD: Loads the mshape window of a tile from memory, all or nothing (R288) -/
  | mld (md : BitVec 3) (xa : BitVec 5) (xs : BitVec 5)
  /-- MST: Stores the mshape window of a tile to memory, all or nothing (R288) -/
  | mst (md : BitVec 3) (xa : BitVec 5) (xs : BitVec 5)
  /-- MFETCH: Accumulates products or distances into a tile with operands read from memory (R283) -/
  | mfetch (md : BitVec 3) (xb : BitVec 5) (xa : BitVec 5)
  /-- VPMUL: Guard-tests then forms packed products into a 128-bit group (R217) -/
  | vpmul (vd : BitVec 5) (fl : BitVec 2) (vs2 : BitVec 5) (vs1 : BitVec 5) (c2 : BitVec 1) (c1 : BitVec 1) (vm : BitVec 1)
  /-- VPMACC: Guard-tests then accumulates packed products into a 128-bit group (R217) -/
  | vpmacc (vd : BitVec 5) (fl : BitVec 2) (vs2 : BitVec 5) (vs1 : BitVec 5) (c2 : BitVec 1) (c1 : BitVec 1) (vm : BitVec 1)
  /-- VPCONV: Accumulates packed products with a replicated B segment of 16 or 32 words (R219) -/
  | vpconv (vd : BitVec 5) (fl : BitVec 2) (vs2 : BitVec 5) (vs1 : BitVec 5) (cb : BitVec 1) (c2 : BitVec 1) (vm : BitVec 1)
  /-- VPGUARD: Runs the guard test and writes a mask bit per failing element without faulting (R218) -/
  | vpguard (vd : BitVec 5) (fl : BitVec 2) (vs2 : BitVec 5) (vs1 : BitVec 5) (c2 : BitVec 1) (c1 : BitVec 1) (vm : BitVec 1)
  /-- VPACK: Builds packed words from k container groups under a plan (R221) -/
  | vpack (vd : BitVec 5) (fl : BitVec 2) (vs2 : BitVec 5) (c2 : BitVec 1) (vm : BitVec 1)
  /-- VUNPACK: Unpacks the fields of packed words into k container groups (R222) -/
  | vunpack (vd : BitVec 5) (fl : BitVec 2) (vs2 : BitVec 5) (c2 : BitVec 1) (vm : BitVec 1)
  /-- VPEXT: Extracts result field j from a 128-bit accumulator group with the borrow correction (R223) -/
  | vpext (vd : BitVec 5) (fl : BitVec 2) (vs2 : BitVec 5) (j : BitVec 3) (c2 : BitVec 1) (vm : BitVec 1)
  /-- FLSET: Writes a field-layout register from a block scalar (R273) -/
  | flset (fl : BitVec 2) (xs : BitVec 5)
  /-- FLGET: Reads a field-layout register into a block scalar (R273) -/
  | flget (xd : BitVec 5) (fl : BitVec 2)
  /-- MSETSHAPE: Writes mshape from a block scalar (R273) -/
  | msetshape (xs : BitVec 5)
  /-- MSETCFG: Writes mcfg from a block scalar (R273) -/
  | msetcfg (xs : BitVec 5)
  /-- MGETSTAT: Waits for earlier array instructions and reads astat (R273) -/
  | mgetstat (xd : BitVec 5)
  /-- MCLRSTAT: Waits for earlier array instructions and clears astat (R273) -/
  | mclrstat
  /-- VBLK: Checks a block header and queues the block with its captured scalars for the vector unit (R117) -/
  | vblk (xs : BitVec 5)
  /-- VREPLY: Waits for and pops the oldest reply queue entry into an x register (R119) -/
  | vreply (xd : BitVec 5)
  /-- VDRAINQ: Completes when every earlier block has completed (R120) -/
  | vdrainq
  /-- VSTRIP: Sets vl to the minimum of a loop counter and vlmax (R155) -/
  | vstrip (lc : BitVec 2)
  /-- VLOOP: Loads a loop counter from a block scalar (R155) -/
  | vloop (lc : BitVec 2) (xs : BitVec 5)
  /-- VLBNZ: Decrements a loop counter by vl and branches back while it is nonzero (R155) -/
  | vlbnz (lc : BitVec 2) (dist : BitVec 10)
  /-- BADDI: Adds a 10-bit immediate to a block scalar (R155) -/
  | baddi (xd : BitVec 5) (simm : BitVec 10)
  /-- BADDVL: Adds vl shifted left by sh to a block scalar (R155) -/
  | baddvl (xd : BitVec 5) (sh : BitVec 3)
  /-- VCOND: Pushes 1 or 0 to the reply queue according to whether an active mask bit is set (R155) -/
  | vcond (vs2 : BitVec 5) (c2 : BitVec 1) (vm : BitVec 1)
  /-- VPOST: Pushes a block scalar to the reply queue (R155) -/
  | vpost (xs : BitVec 5)
  /-- VSPLIT: Turns each active element into a lane thread starting at the target (R166) -/
  | vsplit (off : BitVec 10) (vm : BitVec 1)
  /-- LBEQ: Branches the lane thread when its elements of vs2 and vs1 are equal (R169) -/
  | lbeq (vs2 : BitVec 5) (vs1 : BitVec 5) (off : BitVec 8)
  /-- LBNE: Branches the lane thread when its elements differ (R169) -/
  | lbne (vs2 : BitVec 5) (vs1 : BitVec 5) (off : BitVec 8)
  /-- LBLT: Branches the lane thread when vs2 is less than vs1, signed (R169) -/
  | lblt (vs2 : BitVec 5) (vs1 : BitVec 5) (off : BitVec 8)
  /-- LBGE: Branches the lane thread when vs2 is at least vs1, signed (R169) -/
  | lbge (vs2 : BitVec 5) (vs1 : BitVec 5) (off : BitVec 8)
  /-- LJMP: Moves the lane thread to a relative target (R170) -/
  | ljmp (off : BitVec 10)
  /-- LJOIN: Ends the lane thread and re-forms the vector when the last thread joins (R170) -/
  | ljoin
  /-- VSETCFGI: Writes vcfg from a 14-bit immediate, applies a pending fold and sets vl to vlmax (R147) -/
  | vsetcfgi (rd : BitVec 5) (imm : BitVec 14)
  /-- VSETCFG: Writes vcfg from a register, applies a pending fold and sets vl to vlmax (R147) -/
  | vsetcfg (rd : BitVec 5) (rs1 : BitVec 5)
  /-- VDECL: Declares the register count and sets fold_pending (R148) -/
  | vdecl (code : BitVec 5)
  /-- SYBIND: Releases the old range and binds a new range to a sync object (R300) -/
  | sybind (rs1 : BitVec 5) (rs2 : BitVec 5) (rs3 : BitVec 5)
  /-- ACQ: Acquires a sync object's bound range at a scope (R301) -/
  | acq (rs1 : BitVec 5) (scope : BitVec 3)
  /-- REL: Waits for earlier accesses to the bound range and increments relseq (R301) -/
  | rel (rs1 : BitVec 5) (scope : BitVec 3)
  /-- FENCEV: Orders every earlier access of the party before every later one at its scope (R302) -/
  | fencev (scope : BitVec 3)
  /-- BARA: Releases all data and arrives at a barrier, completing the phase when the count is reached (R303) -/
  | bara (rs1 : BitVec 5) (scope : BitVec 3)
  /-- BARW: Waits until the barrier phase of the matching arrival ends (R303) -/
  | barw (rs1 : BitVec 5) (scope : BitVec 3)
  /-- PUBLISH: Waits for the task's copies into a double-backed range, flips its selector and releases it (R304) -/
  | publish (rs1 : BitVec 5)
  /-- CPY: Queues an unchecked layout copy on the section's copy engine with a token (R250) -/
  | cpy (rd : BitVec 5) (pair : BitVec 4) (rs1 : BitVec 5) (rs2 : BitVec 5)
  /-- CPYC: Queues a copy whose Adler-32 is formed where the engine writes (R250) -/
  | cpyc (rd : BitVec 5) (pair : BitVec 4) (rs1 : BitVec 5) (rs2 : BitVec 5) (trap : BitVec 1)
  /-- CPYX: Queues a copy to a peer whose Adler-32 is formed by the receiving port (R259) -/
  | cpyx (rd : BitVec 5) (pair : BitVec 4) (rs1 : BitVec 5) (rs2 : BitVec 5) (trap : BitVec 1)
  /-- STMAP: Binds a stash window to a virtual range, charging the stash budget (R240) -/
  | stmap (rs1 : BitVec 5) (rs2 : BitVec 5) (rs3 : BitVec 5)
  /-- STUNMAP: Writes back and removes a stash window (R240) -/
  | stunmap (rs1 : BitVec 5)
  /-- STWB: Writes back the task's dirty stash lines in a range at system scope (R241) -/
  | stwb (rs1 : BitVec 5) (rs2 : BitVec 5)
  /-- STDROP: Invalidates the task's stash lines in a range, losing unwritten stores (R241) -/
  | stdrop (rs1 : BitVec 5) (rs2 : BitVec 5)
  /-- L2PIN: Sets a retention register of the die over a virtual range and ways (R238) -/
  | l2pin (n : BitVec 3) (rs1 : BitVec 5) (rs2 : BitVec 5) (ways : BitVec 5)
  /-- L2UNPIN: Releases a retention register (R238) -/
  | l2unpin (n : BitVec 3)
  /-- SBIND: Binds a stream register to a captured stream descriptor with cursor 0 (R264) -/
  | sbind (vd : BitVec 5) (rs1 : BitVec 5)
  /-- SUNBIND: Unbinds a stream register and zeroes it (R264) -/
  | sunbind (vd : BitVec 5)
  /-- VFXADD: Adds each element exactly into an FX accumulator (R327) -/
  | vfxadd (vs2 : BitVec 5) (rs1 : BitVec 5)
  /-- FXRD: Rounds each FX accumulator once into vd (R328) -/
  | fxrd (vd : BitVec 5) (rs1 : BitVec 5) (fmt : BitVec 2)
  /-- FXCLR: Writes +0 to a count of FX accumulators (R329) -/
  | fxclr (rs1 : BitVec 5) (rs2 : BitVec 5)
  /-- TDONE: Waits for blocks and copies, cleans up, merges the write set and retires the node (R361) -/
  | tdone
  /-- TSPAWN: Adds a child node to the task's graph that becomes ready when the spawner retires (R362) -/
  | tspawn (rs1 : BitVec 5)
  /-- TYIELD: Stops the task with reason 5 if a waiting node could take its section (R363) -/
  | tyield
  /-- TINFO: Reads one dword of enumeration, task or part information (R364) -/
  | tinfo (rd : BitVec 5) (rs1 : BitVec 5)
  /-- TRAPC: Raises cause 0x12 with a chosen code, holding the task (R340) -/
  | trapc (rs1 : BitVec 5)
  /-- WRIDX: A doorbell write of a new write index is accepted into wrsnap or puts the queue in error 0x08 (R39) -/
  | wridx (q : Nat) (v : BitVec 64)
  /-- QCTL_SKIP: qctl 1 skips the failed packet where there is one and resumes a queue in error (R40) -/
  | qctlSkip (q : Nat)
  /-- QCTL_DISCARD: qctl 2 discards every unstarted packet and resumes a queue in error (R40) -/
  | qctlDiscard (q : Nat)
  /-- QCTL_STOP: qctl 3 stops a running queue after its started packets (R40) -/
  | qctlStop (q : Nat)
  /-- QCTL_RESUME: qctl 4 resumes a stopped queue from rdidx (R40) -/
  | qctlResume (q : Nat)
  /-- LAUNCH_GRAPH: A packet that checks a graph, captures the seed, chooses a home die and readies its root nodes (R42) -/
  | launchGraph (q : Nat) (p : BitVec 512)
  /-- LAUNCH_NODE: A packet that launches one VECTOR, ARRAY, COPY or COLL node (R42) -/
  | launchNode (q : Nat) (p : BitVec 512)
  /-- WAIT_VALUE: A packet that starts waiting, with acquire at system scope, for a masked word condition (R44) -/
  | waitValue (q : Nat) (p : BitVec 512)
  /-- WAIT_VALUE_MET: The waited condition holds and the WAIT_VALUE packet completes (R44) -/
  | waitValueMet (pid : Nat)
  /-- WAIT_VALUE_TIMEOUT: The WAIT_VALUE timeout expires; the packet completes and the queue goes into error 0x0B (R44) -/
  | waitValueTimeout (pid : Nat)
  /-- WRITE_VALUE: A packet that writes a value with release semantics at system scope (R44) -/
  | writeValue (q : Nat) (p : BitVec 512)
  /-- INDIRECT: A packet that splices the packets of a buffer into the queue's order (R45) -/
  | indirect (q : Nat) (p : BitVec 512)
  /-- SET_SEED: A packet that writes a region's seed and sets its override bit (R49) -/
  | setSeed (q : Nat) (p : BitVec 512)
  /-- REGION_CREATE: A packet that checks and links a new region control block (R48) -/
  | regionCreate (q : Nat) (p : BitVec 512)
  /-- REGION_DESTROY: A packet that closes a region and its subtree (R50) -/
  | regionDestroy (q : Nat) (p : BitVec 512)
  /-- REGION_DESTROY_COMPLETE: The last node of a closed subtree retires and REGION_DESTROY completes (R50) -/
  | regionDestroyComplete (pid : Nat)
  /-- FENCE_PACKET: A packet that completes when every earlier packet has completed and then writes the fence value (R42) -/
  | fencePacket (q : Nat) (p : BitVec 512)
  /-- UNKNOWN_KIND_PACKET: A packet of an unassigned kind puts the queue into error 0x01 (R41) -/
  | unknownKindPacket (q : Nat) (p : BitVec 512)
  /-- PREEMPT: A node capacity-blocked past its partition's threshold pre-empts lower-priority victims in one section (R89) -/
  | preempt (g : Nat) (n : Nat)
  /-- COND_EVAL: The command processor reads a COND predicate and retires the branch not taken (R58) -/
  | condEval (g : Nat) (n : Nat)
  /-- LOOP_EVAL: The command processor reads a LOOP predicate and re-arms the body or retires the loop (R59) -/
  | loopEval (g : Nat) (n : Nat)
  /-- PAGE_ARRIVED: A served page arrives and the waiting task, copy run or predicate read continues (R245) -/
  | pageArrived (ctx : BitVec 32) (va : BitVec 64) (dw0 : BitVec 64) (dw1 : BitVec 64)
  /-- COPY_COMPLETE: A block copy command finishes its runs and writes its status to the token (R251) -/
  | copyComplete (tid : Nat) (k : Nat)
  /-- COPY_NODE_COMPLETE: A COPY node's command finishes, writes its status with release and the node retires (R262) -/
  | copyNodeComplete (g : Nat) (n : Nat)
  /-- COLL_NODE_COMPLETE: A COLL node's collective finishes, writes its status and the node retires (R389) -/
  | collNodeComplete (g : Nat) (n : Nat) (parts : List (List (BitVec 8))) (rank0 : BitVec 512)
  /-- STREAM_REFILL: The copy engine refills a bound stream register ahead of its cursor (R265) -/
  | streamRefill (tid : Nat) (vd : BitVec 5)
  /-- WAIT_WATCHDOG: No party or copy of a task has progressed for the wait limit; 0x0D info 1 ends it (R357) -/
  | waitWatchdog (tid : Nat)
  /-- RUN_WATCHDOG: A task has held a section for the run limit; 0x0D info 2 ends it (R357) -/
  | runWatchdog (tid : Nat)
  /-- SPLIT_WATCHDOG: A split has not joined within the split limit; 0x0D info 3 ends the task (R357) -/
  | splitWatchdog (tid : Nat)
  /-- PATROL_SCRUB: Patrol scrub visits near SRAM lines, correcting or poisoning them as latent (R351) -/
  | patrolScrub (a : Nat) (found : ScrubResult)
  /-- UNCONTAINED_ERROR: An uncorrectable error in shared state is reported and its entries marked to raise 0x0E (R354) -/
  | uncontainedError (site : ErrorSite)
  /-- FLIT_RECEIVE: A flit arrives on a die link or scale-up port and is FEC-corrected and CRC-checked (R386) -/
  | flitReceive (lane : FlitPath) (quality : FlitQuality)
  /-- LINK_FAILED: A flit's seventh failed replay marks the link or port failed and ends its transfer with 0x0E (R386) -/
  | linkFailed (lane : FlitPath)
  /-- PORT_TRAINING_LOST: A scale-up port loses training, ending its flits in flight with 0x0E (R387) -/
  | portTrainingLost (port : Nat)
  /-- SERVICE_REQUEST: A host-assisted item is written to the request ring once there is room (R380) -/
  | serviceRequest (kind : Nat)
  /-- ANSWER: Command op 1 answers a service request by tag (R381) -/
  | answer (e : BitVec 1024)
  /-- RESUME: Trap answer code 1 returns a held task to the ready pool (R339) -/
  | resume (e : BitVec 1024)
  /-- END: Trap answer code 2 ends a held task without a further record (R339) -/
  | endTask (e : BitVec 1024)
  /-- RELEASE_DOMAIN: Trap answer code 3 lets a halted fault domain dispatch again (R339) -/
  | releaseDomain (e : BitVec 1024)
  /-- ABORT_DOMAIN: Trap answer code 4 retires the domain's undispatched nodes, ends its tasks and lifts the halt (R339) -/
  | abortDomain (e : BitVec 1024)
  /-- REMOVE_SECTION: Service action 1 takes a section offline after its tasks leave (R369) -/
  | removeSection (e : BitVec 1024)
  /-- MOVE_SECTIONS: Service action 2 moves a mask of sections between partitions in one update (R370) -/
  | moveSections (e : BitVec 1024)
  /-- LINK_DOWN: Service action 3 takes a die link down and reroutes traffic (R371) -/
  | linkDown (e : BitVec 1024)
  /-- LINK_UP: Service action 4 retrains a link and recomputes the class matrix (R371) -/
  | linkUp (e : BitVec 1024)
  /-- FIRMWARE_UPDATE: Service action 5 checks a firmware image and starts its switch (R372) -/
  | firmwareUpdate (e : BitVec 1024)
  /-- FIRMWARE_SWITCH_COMPLETE: A firmware switch completes, extends its measurement and lets flash take the image (R372) -/
  | firmwareSwitchComplete (target : Nat)
  /-- SERVICE_ACTION_TIMEOUT: A service action's timeout passes before its tasks leave and it ends with status 2 (R369) -/
  | serviceActionTimeout
  /-- EXPORT_IMAGE: Command op 4 copies a held task's image to the host and ends the task (R381) -/
  | exportImage (e : BitVec 1024)
  /-- IMPORT_IMAGE: Command op 5 makes a held task from an image in the part's memory (R381) -/
  | importImage (e : BitVec 1024)
  /-- BIND_CONTEXT: Command op 6 binds a context from its context record (R382) -/
  | bindContext (e : BitVec 1024)
  /-- UNBIND_CONTEXT: Command op 7 unbinds an idle context and releases its retention registers (R382) -/
  | unbindContext (e : BitVec 1024)
  /-- SET_KEY: Command op 8 programs an AES-XTS key into every memory engine (R382) -/
  | setKey (e : BitVec 1024)
  /-- INVALIDATE_TRANSLATIONS: Command op 9 invalidates a context's translations, whole or by range (R233) -/
  | invalidateTranslations (e : BitVec 1024)
  /-- QUEUE_ENABLE: Command op 10 code 1 reads and checks a queue's read-only half and starts the queue (R382) -/
  | queueEnable (e : BitVec 1024)
  /-- QUEUE_DISABLE: Command op 10 code 2 stops a queue at once and ignores its doorbell (R382) -/
  | queueDisable (e : BitVec 1024)
  /-- QUEUE_DISABLE_COMPLETE: The disabled queue's last started packet completes and the status event is posted (R382) -/
  | queueDisableComplete (q : Nat)
  /-- PARTITION_LIMITS: Command op 11 sets a partition's pre-emption threshold and watchdog limits (R382) -/
  | partitionLimits (e : BitVec 1024)
  /-- SET_ENGINE_IMAGE: Command op 12 replaces a context's copy or collective engine image (R382) -/
  | setEngineImage (e : BitVec 1024)
  /-- UNLISTED_COMMAND: A command with an unlisted op or bad fields is ignored and reported as source 5 reason 1 (R381) -/
  | unlistedCommand (e : BitVec 1024)
  /-- DUTY_WRITE: A write to DUTY selects hardware or host-assisted mode per function from the next item (R65) -/
  | dutyWrite (v : BitVec 64)
  /-- RING_CONTROL_WRITE: A write to a ring control register enables or disables the ring (R376) -/
  | ringControlWrite (ring : RingName) (v : BitVec 64)
  /-- QTBASE_WRITE: A write to QTBASE takes effect only while no queue is enabled (R376) -/
  | qtbaseWrite (v : BitVec 64)
  /-- PORTCFG_WRITE: A write to PORTCFG sets coherent caching when the port is CXL and no context is bound (R378) -/
  | portcfgWrite (v : BitVec 64)
  /-- REGISTER_WRITE: A write to any other BAR0 or BAR4 register without behaviour of its own (R376) -/
  | registerWrite (bar : BarName) (off : Nat) (size : Nat) (v : BitVec 64)
  /-- BAR2_READ: A host read through a BAR2 window reaches the home slice, or returns all ones outside a window (R377) -/
  | bar2Read (off : Nat) (n : Nat)
  /-- BAR2_WRITE: A host write through a BAR2 window recalls stash lines and lands in the home slice, or is dropped (R377) -/
  | bar2Write (off : Nat) (bytes : List (BitVec 8))
  /-- PEER_INBOUND_REQUEST: A peer's read or write is admitted by an inbound window or refused with 0x06 (R385) -/
  | peerInboundRequest (src : BitVec 16) (a : Nat) (req : Transfer)
  /-- PUSH_RECOVERY_IMAGE: Mailbox command 1 fetches and checks a host-pushed recovery image in stage 1 (R400) -/
  | pushRecoveryImage
  /-- ATTEST: Mailbox command 2 has Yarrow write a signed attestation report (R401) -/
  | attest
  /-- MODULE_RESET: Power-on, PERST# or a hot reset clears the part and runs the boot stages (R393) -/
  | moduleReset
  /-- THROTTLE_STEP: Each millisecond above the throttle point the arithmetic clock steps down by 100 MHz (R403) -/
  | throttleStep
  /-- THERMAL_TRIP: At the trip temperature the part removes its own power and sets MBTHERM bit 17 (R403) -/
  | thermalTrip
  /-- WORD_NOT_AN_INSTRUCTION: A word that is not an instruction (all-zero, bad length, unlisted opcode or unassigned field) raises 0x02 or 0x01 when it issues (R94) -/
  | wordNotAnInstruction (w : BitVec 32)
  /-- FETCH_FAULT: A word whose fetch failed (page fault, rights, or uncorrectable line after refetch) raises its fault when it would issue (R125) -/
  | fetchFault (cause : BitVec 8) (info : BitVec 32) (a : BitVec 64)
  /-- PORT_TRAINED: A scale-up port's lanes complete training and the port becomes up, so new runs may hash onto it (R387) -/
  | portTrained (port : Nat)
  /-- CXL_MEM_REQUEST: A host read or write through the CXL.mem range goes through the coherent hierarchy (coh 1) or acts as a BAR2 access (coh 0) (R378) -/
  | cxlMemRequest (a : Nat) (req : Transfer)
  /-- FABRIC_ADDRESS_ASSIGNED: The Afura switch's fabric manager gives the device its 16-bit fabric address (R384) -/
  | fabricAddressAssigned (a : BitVec 16)
  deriving DecidableEq, Repr

end Sys2Proof
end

