-- ==== Sys2Proof/Machine/State.lean ====
section
/-! DEFINITION. The state of the machine: tasks, memory and its caches, queues, graphs, the dies, the host port and
the boot state, all as plain data, with the state right after reset. -/

namespace Sys2Proof.Machine

/-! ## Outcomes -/

/-- Why the host-level step ends. The fault records of the manual are no such ends: they are delivered inside a next
state (R334). -/
inductive Fault where
  /-- Raised by `step` once the part has removed its own power at the trip point (R403): only a power cycle leaves
  it. Safe. -/
  | powerOff
  deriving DecidableEq, Repr

/-- Why an instruction has no meaning here. -/
inductive Refusal where
  /-- Answered by an arm of `exec` whose instruction is not modelled. Safe. -/
  | notModelled (mnemonic : String)
  deriving DecidableEq, Repr

/-! ## Turns -/

/-- The parties of a task that fetch words: the control thread, the vector unit in vector mode, the lane thread of
an element (R111, R116, R166). -/
inductive Party where
  | control | vector | lane (e : Nat)
  deriving DecidableEq, Repr

/-- A structure of R351 that an error has struck: a dword of a register (the control thread's x, a block scalar, a vector
or tile register), the word of code that a party is about to issue or a line fetched ahead of it (R125), a granule of the stash or the
L2, or of GDDR-7, an entry of the directory, the ready pool or the meld slots, or other state of a die's dealer. -/
inductive StorageSite where
  | scalar (tid r : Nat)
  | blockScalar (tid r : Nat)
  | vector (tid r dword : Nat)
  | tile (tid r dword : Nat)
  | code (tid : Nat) (p : Party) (ahead : Bool)
  | cached (key : Nat)
  | gddr (key : Nat)
  | entry (site : ErrorSite)
  | dealer (die : Nat)
  deriving DecidableEq, Repr

/-- Which agent moves next (the model's own data, log 3). -/
inductive Turn where
  | party (tid : Nat) (p : Party)
  | clover (q : Nat)
  | yarrow
  | inject (i : Instr)
  /-- The next step of the service action under way (R368). -/
  | action
  /-- Every party of a task reaches the point of a stop that has been asked of it (R341). -/
  | reach (tid : Nat)
  /-- The next stage of the boot, or the end of a mailbox command (R394, R395). -/
  | boot
  /-- The host reads n bytes of BAR0 or BAR4 at an offset (R375, R395). -/
  | hostRead (bar off n : Nat)
  /-- An error in a structure of R351, correctable or not. -/
  | storage (site : StorageSite) (correctable : Bool)
  /-- The module's power removed and restored (R393, R403). -/
  | powerCycle
  /-- The junction comes to a temperature in °C: data of the environment (R403). -/
  | temperature (celsius : Nat)
  /-- The host stores bytes in its own memory, at a bus address (R378, R400). -/
  | hostMemory (a : Nat) (bs : List Byte)
  /-- The device of a fabric address stores bytes in its own memory (R384). -/
  | peerMemory (fab : BitVec 16) (a : Nat) (bs : List Byte)
  /-- The peers and the host's IOMMU set what they admit from then on (R378, R385). -/
  | admits (windows : List (Nat × Nat × Nat × Bool × Bool)) (rejects : List (Nat × Nat))
  /-- The host's loader hands over the SPLICE and REGS sections of a TEXT section that it has placed at an address of a context (R20 to
  R22), or takes the records of n bytes of code back. -/
  | loadRecords (ctx : Nat) (text : Word) (code splice regs : List Byte)
  | unloadRecords (ctx : Nat) (text : Word) (n : Nat)
  deriving DecidableEq, Repr

/-- Whether a turn happens also while the part has no power: the module's power, the mailbox that shows a trip, and what the host and the
peers do in their own memory (R403). -/
def Turn.outside : Turn → Bool
  | .powerCycle => true
  | .hostRead bar _ _ => bar == 4
  | .temperature _ => true
  | .hostMemory _ _ => true
  | .peerMemory _ _ _ => true
  | .admits _ _ => true
  | _ => false

/-! ## Tasks -/

/-- What a fault leaves beside its cause: the fields of R123 that its entry gives. -/
structure Trap where
  cause : Nat
  info : BitVec 32 := 0
  addr : Option Word := none
  elem : Option Nat := none
  /-- For 0x0E, the poisoned register word that was read: the register, numbered as log 22 says, and the word's first byte (R355). -/
  reg : Option (Nat × Nat) := none
  /-- Raised from the status of a copy: the fault service never acts on it (R260, R335). -/
  fromCopy : Bool := false
  /-- The word that the record names, where it is not the word that issued: H0 address and body offset, or a word of the
  control thread (R253, R319, R357). -/
  inBlock : Option (Word × Nat) := none
  ofControl : Bool := false
  pc : Option Word := none
  /-- The whole record, where another rule gives it (R319). -/
  whole : Option (BitVec 512) := none
  deriving DecidableEq, Repr

/-- An entry of the vector queue (R117), with the fold_pending in force at its VBLK (R148). -/
structure QEntry where
  addr : Word
  h0 : BitVec 32
  h1 : BitVec 32
  xs : Vector Word 32
  foldPending : Nat
  serial : Nat
  /-- Poison of the captured scalars (R352). -/
  poison : BitVec 32
  deriving DecidableEq, Repr

/-- The block that the vector unit runs (R116, R118). -/
structure Block where
  addr : Word
  h0 : BitVec 32
  h1 : BitVec 32
  h2 : BitVec 32
  /-- Body offset of the next word. -/
  off : Nat
  xs : Vector Word 32
  lc : Vector Word 4
  serial : Nat
  /-- The fold_pending of its queue entry (R148). -/
  foldPending : Nat
  poison : BitVec 32
  deriving DecidableEq, Repr

/-- A byte of a write set (R318): where it lies, the key material of its page, the address that it was stored at, its
value, and for a meld whether a word of C stored it (R138). Or the mark of a byte that the party has since updated in memory directly (R321):
it has no value and merges with nothing, and says that a later load finds the byte in memory. -/
structure SetByte where
  ofC : Bool
  key : Nat
  km : Option (BitVec 512)
  va : Nat
  byte : Byte
  direct : Bool := false
  deriving DecidableEq, Repr

/-- A lane thread (R166, R167): its element, body offset, VRNG draw count m (R165), stochastic count (R188), and its
write set in a deterministic region (R320). -/
structure LaneThread where
  elem : Nat
  off : Nat
  draws : Nat
  rounds : Nat
  joined : Bool
  wset : List SetByte
  deriving DecidableEq, Repr

/-- A split (R166): the body offsets of the VSPLIT and of its join point, and its threads in ascending element order. -/
structure Split where
  at_ : Nat
  join : Nat
  threads : List LaneThread
  /-- In a deterministic region, what the segment had written and the segments ordered before it at the VSPLIT (R320). -/
  view : List SetByte
  seen : List Nat
  /-- µs at the VSPLIT, for the split watchdog (R357). -/
  since : Nat
  deriving DecidableEq, Repr

/-- A stash window (R239). -/
structure Window where
  base : Nat
  size : Nat
  /-- The first block that it serves, by its serial number (R240). -/
  since : Nat
  deriving DecidableEq, Repr

/-- A stream binding (R264): the captured descriptor and the cursor. -/
structure Stream where
  desc : BitVec 512
  cursor : Nat
  deriving DecidableEq, Repr

/-- A copy command of a block (R250, R346 type 12). -/
structure Copy where
  /-- The copy word, its body offset, and its block: serial number and H0 address. -/
  word : BitVec 32
  off : Nat
  serial : Nat
  block : Word
  op : Nat
  trap : Bool
  tok : Nat
  src : Word
  dst : Word
  srcLay : List (BitVec 64)
  dstLay : List (BitVec 64)
  ctl : Word
  /-- The token's value at issue when it was not pending (R252). -/
  tokIn : Word
  /-- The place of the command it waits on in its chain, if any. -/
  after : Option Nat
  /-- Bytes done and the running Adler-32 (R256, R258). -/
  done : Nat
  running : Nat
  started : Bool
  /-- The home device of its first destination run, once that has been checked (R259). -/
  home : Option Nat
  /-- The arm write of the copy injector for which it is the command to be hit (R391). -/
  flip : Option Nat
  status : Option Word
  /-- The address that R260 puts into a record, and whether it is a destination byte. -/
  failAt : Option (Word × Bool)
  handedOn : Bool
  read : Bool
  /-- Its token has been written by another word since. -/
  overwritten : Bool
  deriving DecidableEq, Repr

/-- A barrier arrival slot (R303). -/
structure Arrival where
  obj : Nat
  phase : Word
  deriving DecidableEq, Repr

/-- A VAPPEND held after its tail advance (R177, R346 type 15). -/
structure HeldAppend where
  desc : Word
  /-- The base of the payload, as the tail advance found it. -/
  base : Word
  t : Word
  elem : Nat
  deriving DecidableEq, Repr

/-- An array word that has not started, with the state that it reads at its place in program order (R347). -/
structure ArrayEntry where
  word : BitVec 32
  off : Nat
  vl : Nat
  vcfg : Word
  mshape : Word
  mcfg : Word
  /-- The plan register that it names, and that plan. -/
  fl : Nat
  plan : Word
  xs : Vector Word 32
  deriving DecidableEq, Repr

/-- What the vector unit puts aside while a saved array word issues: the block, and the state that the word reads from its entry (R347). -/
structure EntrySave where
  block : Option Block
  vl : Nat
  vcfg : Word
  mshape : Word
  mcfg : Word
  fl : Vector Word 4
  deriving DecidableEq, Repr

/-- Why a task stands where it stands (R341 to R343, R350). -/
inductive TaskStatus where
  | vacant
  | running
  /-- Reason 3: waiting for a page, with the record that is delivered if the service refuses it (R335). -/
  | waitPage (record : BitVec 512)
  /-- Reasons 1, 4, 5 and 3 with the page arrived: in the ready pool. -/
  | stopped (reason : Nat)
  /-- Reason 2: held by a trap, or by a refused restore (R350), until the host answers. -/
  | held (cause : Nat)
  deriving DecidableEq, Repr

/-- Where a task stands in its graph and on the part (R54, R60, R83, R123). -/
structure Ident where
  tid : Nat
  ctx : Nat
  gid : Nat
  node : Nat
  region : Word
  /-- 1 VECTOR, 2 ARRAY (R52). -/
  kind : Nat
  grant : Nat
  section_ : Nat
  /-- The control core of the section that it holds, 0 to 7. -/
  core : Nat
  prio : Nat
  seed : Word
  ctrbase : Word
  ctrlen : Nat
  it : Nat
  kernel : Word
  /-- The meld slot, on the task's home die (R130). -/
  meld : Option Nat
  /-- The part's feature word and generation that its image was written under (R345, R349). -/
  feat : BitVec 64
  gen : Nat
  deriving DecidableEq, Repr

/-- A task. The vacant task holds the values of a task start (R54, R145, R272). -/
structure Task where
  status : TaskStatus
  id : Ident
  /-- Control thread: x1 to x31 (x0 is entry 0 and is never read), pc, LR reservation (R54, R92, R114). -/
  x : Vector Word 32
  pc : Word
  resv : Option Nat
  /-- Words retired by its control core since reset (R115), carried while it holds the core. -/
  instret : Word
  /-- Vector state (R145 to R148, R165, R188, R209). -/
  fold : Nat
  foldPending : Nat
  vcfg : Word
  vl : Nat
  vstart : Nat
  v : Vector VReg 32
  rngpos : Word
  srcount : BitVec 32
  fl : Vector Word 4
  /-- Array state (R268 to R272). -/
  m : Vector Tile 8
  mshape : Word
  mcfg : Word
  astat : Word
  /-- Blocks (R117, R118, R119), lane mode (R166). -/
  vq : List QEntry
  block : Option Block
  nextSerial : Nat
  replies : List Word
  split : Option Split
  /-- Stash windows 0 to 7, stream bindings of v24 to v31, copies, barrier slots. -/
  windows : Vector (Option Window) 8
  streams : Vector (Option Stream) 8
  copies : List Copy
  slots : List Arrival
  /-- Deterministic regions (R315 to R318): the segments ordered before the current one, and its write set. -/
  before : List Nat
  segment : Nat
  wset : List SetByte
  /-- For a meld in a deterministic region, C's segment and the segments ordered before it (R138). -/
  second : Option (Nat × List Nat)
  heldAppend : Option HeldAppend
  /-- Array words that a restored image left unstarted, oldest first (R347). -/
  aqueue : List ArrayEntry
  /-- The first of them issues, and this is what it has put aside. -/
  entrySave : Option EntrySave
  /-- R362. -/
  spawned : Bool
  spawnCount : Nat
  /-- R123, R345. -/
  fseq : Nat
  frec : BitVec 512
  /-- The record of a page fault that the service has been given while the task waits in place, since the pool is full (R344). -/
  servicing : Option (BitVec 512)
  /-- Poison (R352): x registers; vector register and tile dwords, as register, dword and the bytes not written since. -/
  xPoison : BitVec 32
  vPoison : List (Nat × Nat × BitVec 8)
  mPoison : List (Nat × Nat × BitVec 8)
  /-- Poisoned dwords of vector and tile registers that have been logged as latent (R352): the register, numbered as log 22 says, and the
  dword. -/
  latent : List (Nat × Nat)
  /-- H2 of the current block could not be read yet (R117). -/
  h2Unread : Bool
  /-- Watchdogs (R357), in µs: the last progress, the times at which it gave its section up and took one again, and the time spent holding
  a section. -/
  progressAt : Nat
  away : List (Nat × Nat)
  runTime : Nat
  runSince : Nat
  /-- µs at its start, at which its run count began (R382). -/
  startAt : Nat
  /-- Dispatch order, for the choice of victims (R89). -/
  dispatched : Nat
  /-- A stop that has been asked of it and that its parties have not reached: the reason (R341, R342). -/
  stopAsked : Option Nat
  /-- Where the save pool of its context holds its image: offset and size (R344). -/
  image : Option (Nat × Nat)
  deriving DecidableEq, Repr

/-- No place in a graph. -/
def Ident.none : Ident :=
  { tid := 0, ctx := 0, gid := 0, node := 0, region := 0, kind := 1, grant := 1, section_ := 0, core := 0, prio := 0, seed := 0,
    ctrbase := 0, ctrlen := 0, it := 0, kernel := 0, meld := .none, feat := 0, gen := 3 }

/-- The values that a task starts with (R54, R145, R272). -/
def Task.vacant : Task :=
  { status := .vacant, id := Ident.none,
    x := Vector.replicate 32 0, pc := 0, resv := none, instret := 0,
    fold := 1, foldPending := 1, vcfg := 0, vl := 0, vstart := 0, v := Vector.replicate 32 0,
    rngpos := 0, srcount := 0, fl := Vector.replicate 4 0,
    m := Vector.replicate 8 0, mshape := 0x0FFF, mcfg := 0, astat := 0,
    vq := [], block := none, nextSerial := 0, replies := [], split := none,
    windows := Vector.replicate 8 none, streams := Vector.replicate 8 none, copies := [], slots := [],
    before := [], segment := 0, wset := [], second := none, heldAppend := none, aqueue := [], entrySave := none, spawned := false, spawnCount := 0,
    fseq := 0, frec := 0, servicing := none, xPoison := 0, vPoison := [], mPoison := [], latent := [], h2Unread := false,
    progressAt := 0, away := [], runTime := 0, runSince := 0, startAt := 0, dispatched := 0, stopAsked := none, image := none }

/-! ## Launch and placement -/

/-- A word of a meld: its origin (R134). -/
structure Origin where
  /-- 1 producer, 2 consumer. -/
  who : Nat
  pc : Word
  deriving DecidableEq, Repr

/-- A formed meld (R130, R134). -/
structure Meld where
  slot : Nat
  gid : Nat
  p : Nat
  c : Nat
  it : Nat
  pKernel : Word
  cKernel : Word
  cCtrbase : Word
  cCtrlen : Nat
  control : List (BitVec 32)
  controlOrigin : List Origin
  h0 : BitVec 32
  h1 : BitVec 32
  h2 : BitVec 32
  body : List (BitVec 32)
  bodyOrigin : List Origin
  /-- The x registers at its start but for the VBLK register, and that register (R133). -/
  starts : Vector Word 32
  vblk : Nat
  poisoned : Bool
  deriving DecidableEq, Repr

/-- A pair that passes R127, R128 and the renumbering and length checks of R129: the meld as it would be formed, its slot not yet
chosen, and whether its matched store is elided. -/
structure Draft where
  meld : Meld
  elided : Bool
  deriving DecidableEq, Repr

/-- Where a node of a graph stands (R56, R82, R336). -/
inductive NodeStatus where
  | waiting | ready | running
  /-- A stopped task of the node stands in the pool (R90). -/
  | resumable
  /-- Its partner runs the meld (R136). -/
  | melded
  | retired | faulted
  /-- Retired without running (R58). -/
  | skipped
  deriving DecidableEq, Repr

/-- A node as the device keeps it (R52, R53, R56). -/
structure Node where
  index : Nat
  desc : BitVec 1024
  ops : List (BitVec 256)
  succ : List Nat
  /-- Edges not yet lost, and edges from outside as counted for a rearm (R56, R59). -/
  edges : Nat
  status : NodeStatus
  it : Nat
  /-- LOOP iterations begun (R59). -/
  loops : Nat
  /-- Spawned children (R362): the spawner's index. -/
  spawner : Option Nat
  /-- Pool bookkeeping (R82, R86, R89): order and µs of readiness, bypasses, capacity-blocked since. -/
  age : Nat
  readyAt : Nat
  bypasses : Nat
  blockedSince : Option Nat
  /-- COPY and COLL: the engine it holds a slot of (R84), and the running time since dispatch. -/
  section_ : Nat
  since : Nat
  /-- The code of the context's own image that its engine command started on (R26, R27). -/
  image : Option (List Byte)
  /-- Its pool entry is damaged: its use raises 0x0E (R354). -/
  poisoned : Bool
  /-- Host-assisted answers awaited or given (R66): a request is out; the range may be dispatched; the pair is
  approved or refused. -/
  asked : Bool
  ctrAnswered : Bool
  spliceAnswer : Option Bool
  /-- The pair that its dispatch has evaluated, while it awaits the host's word on the pair or on a range of it (R126, R141). -/
  draft : Option Draft
  deriving DecidableEq, Repr

/-- A launched graph or node (R42, R52, R62, R81). -/
structure Graph where
  gid : Nat
  ctx : Nat
  q : Nat
  pid : Nat
  region : Word
  die : Nat
  seed : Word
  pcap : Nat
  /-- Launched by LAUNCH_NODE: successors are ignored (R42). -/
  single : Bool
  nodes : List Node
  /-- Segments ordered before every segment of this graph (R316). -/
  before : List Nat
  live : Bool
  deriving DecidableEq, Repr

/-- A merged or pending segment of a deterministic region (R315 to R319). -/
structure Segment where
  sid : Nat
  ctx : Nat
  region : Word
  gid : Nat
  it : Nat
  node : Nat
  /-- The word that ended it, as a record names it (R123, R319): its kernel, its address, its block and offset, its origin. -/
  kernel : Word
  endPc : Word
  endBlock : Option (Word × Nat)
  origin : Nat
  writes : List SetByte
  /-- The bytes it replaced when it merged. -/
  replaced : List Host.Cell
  before : List Nat
  /-- The barrier object and phase of a BARA that ended it, and whether the phase is complete. -/
  bara : Option (Nat × Word)
  merged : Bool
  /-- The fault sequence number of its task when that has ended, for the record of a conflict (R319, R334). -/
  fseq : Nat
  deriving DecidableEq, Repr

/-- A linked region (R47 to R51, R83). The first 128 bytes of its RCB as captured. -/
structure Region where
  ctx : Nat
  addr : Word
  parent : Word
  depth : Nat
  root : Bool
  closed : Bool
  rcb : BitVec 1024
  deficit : Nat
  deriving DecidableEq, Repr

/-- A packet that has started, or that waits for its answer (R43 to R45). -/
structure Packet where
  pid : Nat
  q : Nat
  /-- Its ring index; for a packet of an indirect buffer, the index of the INDIRECT. -/
  index : Nat
  parent : Option Nat
  bytes : BitVec 512
  complete : Bool
  /-- µs at the start, for the timeout of a WAIT_VALUE. -/
  since : Nat
  deriving DecidableEq, Repr

/-- A queue as the device holds it (R36, R37). -/
structure Queue where
  q : Nat
  enabled : Bool
  draining : Bool
  /-- The sequence number of the disable command, for its event (R382). -/
  drainSeq : Nat
  ring : Word
  lsize : Nat
  pcap : Nat
  part : Nat
  keyid : Nat
  msix : Nat
  root : Word
  dbpage : Nat
  mutAddr : Word
  ctx : Nat
  rdidx : Nat
  wrsnap : Nat
  doneidx : Nat
  status : Nat
  errcode : Nat
  erridx : Nat
  errtag : Nat
  fence : Word
  /-- The last error was raised by a packet that had not started (R40). -/
  errUnstarted : Bool
  /-- The INDIRECT being spliced: its packet, the buffer address, the position and the length (R45). -/
  inBuffer : Option (Nat × Word × Nat × Nat)
  /-- A packet or a launch waits for the host's answer (R66): the tag of its request. -/
  waiting : Option Nat
  /-- A packet that the host has returned, whose barrier bit holds it back (R43, R66). -/
  parsed : Option (BitVec 512)
  deriving DecidableEq, Repr

/-- A bound context (R382, R383). -/
structure Context where
  id : Nat
  part : Nat
  ptroot : Nat
  fdtab : Word
  ndom : Nat
  pool : Word
  psize : Nat
  /-- Halted fault-domain entries (R336). -/
  halted : List Nat
  /-- The fault-domain entries whose act was 1 when the context was bound (R333). -/
  halts : List Nat
  /-- Engine images of its own: copy, collective (R26). -/
  copyImage : Option (Word × Nat)
  collImage : Option (Word × Nat)
  deriving DecidableEq, Repr

/-- An engine core (R25, R26): the copy (1) or collective (2) engine of a number within its die, the context whose image it holds, the
image's address and length, its instruction memory, and the offset at which the core begins a command. -/
structure Engine where
  kind : Nat
  pdie : Nat
  index : Nat
  ctx : Nat
  image : Word × Nat
  imem : List Byte
  entry : Nat
  deriving DecidableEq, Repr

/-- A clover core (R64): the queue that it served last, and how many packets in a row it has taken from it. -/
structure Clover where
  queue : Option Nat
  inRow : Nat
  deriving DecidableEq, Repr

/-- A retention register (R237). -/
structure Retention where
  base : Nat
  size : Nat
  ways : Nat
  ctx : Nat
  deriving DecidableEq, Repr

/-- A splice mark, as the loader hands it to the dealer (R20). -/
structure SpliceMark where
  block : Word
  role : Nat
  operand : Nat
  word : Nat
  eligible : Bool
  inner : Nat
  deriving DecidableEq, Repr

/-- What the loader hands over for a kernel: its entry in the context, REGS figures if it has a record, and marks. -/
structure Kernel where
  ctx : Nat
  entry : Word
  hasRegs : Bool
  vdecl : Nat
  lcmask : BitVec 4
  flmask : BitVec 4
  uses : BitVec 3
  xmask : BitVec 32
  marks : List SpliceMark
  deriving DecidableEq, Repr

/-- A die (R71, R89, R130, R140, R237, R331), by physical number. -/
structure Die where
  phys : Nat
  /-- Logical number, or none when disabled by grade (R78). -/
  ldie : Option Nat
  offline : Bool
  smask : BitVec 16
  soff : BitVec 16
  l2mask : BitVec 32
  l2off : BitVec 32
  channels : Nat
  chOff : Nat
  devs : Nat
  /-- Logical number of its first channel (R78). -/
  lchan : Nat
  lsect : Nat
  lslice : Nat
  fsize : Nat
  retention : Vector (Option Retention) 8
  melds : List Meld
  formed : Word
  elided : Word
  kept : Word
  mfaults : Word
  mpreempt : Word
  refused : Vector Word 15
  overlaps : Word
  strictFaults : Word
  /-- A pre-emption in progress (R89): the node that it serves. -/
  preempting : Option (Nat × Nat)
  /-- Rotation order of regions (R83). -/
  rotation : List (Nat × Word)
  deriving DecidableEq, Repr

/-- A die link (R67, R72), by physical number. -/
structure Link where
  phys : Nat
  llink : Option Nat
  a : Nat
  b : Nat
  /-- 0 up, 1 down, 2 absent. -/
  state : Nat
  /-- Marked failed under R386, and the replays of the flit in hand. -/
  failed : Bool
  replays : Nat
  deriving DecidableEq, Repr

/-- A logical section (R75). -/
structure Sect where
  pdie : Nat
  psect : Nat
  offline : Bool
  /-- Its partition, or none (R76). -/
  part : Option Nat
  /-- The node that it is reserved for (R86, R89). -/
  reserved : Option (Nat × Nat)
  /-- A service action is emptying it (R369). -/
  closing : Bool
  /-- Words retired by each of its control cores since reset (R115), as of the last task that left it. -/
  retired : Vector Word 8
  deriving DecidableEq, Repr

/-- Limits of a partition (R89, R357), in ns; 0 for an off run limit. -/
structure Limits where
  preempt : Nat
  wait : Nat
  run : Nat
  split : Nat
  deriving DecidableEq, Repr

/-- An interval in which a region held an array, for the share test of R84. -/
structure ArrayHold where
  ctx : Nat
  region : Word
  tid : Nat
  start : Nat
  stop : Option Nat
  deriving DecidableEq, Repr

/-- A stash line of a section with its unwritten bytes (R239), most recent first in the list. -/
structure StashLine where
  section_ : Nat
  /-- The tasks whose windows have reached it, each with the address of the line. -/
  owners : List (Nat × Nat)
  /-- Memory key of its first byte. -/
  line : Nat
  /-- The key material of its page (R230), or none. -/
  km : Option (BitVec 512)
  dirty : List Host.Cell
  /-- The element positions of its task whose stores stand in it unwritten (R293). -/
  writers : List Nat
  /-- Granules, by key / 64, that a store into the line has covered whole, so that its copy of them is not poisoned (R353). -/
  cleared : List Nat
  deriving DecidableEq, Repr

/-- A bound sync object (R266, R298): context, address of the object, and where its bytes lie. -/
structure Bound where
  ctx : Nat
  obj : Nat
  deriving DecidableEq, Repr

/-! ## The host port, boot and power -/

/-- A ring of the firmware page (R376). -/
structure Ring where
  base : Nat
  en : Bool
  lsize : Nat
  msix : Nat
  wr : Nat
  rd : Nat
  deriving DecidableEq, Repr

/-- A BAR2 window (R377). -/
structure BarWindow where
  en : Bool
  pbase : Nat
  keyid : Nat
  deriving DecidableEq, Repr

/-- An inbound window (R385). -/
structure InboundWindow where
  en : Bool
  rd : Bool
  wr : Bool
  pbase : Nat
  pages : Nat
  keyid : Nat
  src : Nat
  deriving DecidableEq, Repr

/-- An error record of the log (R355). -/
structure ErrorRecord where
  kind : Nat
  unit_ : Nat
  pdie : Nat
  psect : Nat
  count : Nat
  loc : Nat
  region : Word
  node : Nat
  time : Nat
  deriving DecidableEq, Repr

/-- What a host-assisted request is about (R380). -/
inductive Request where
  | parse (q : Nat) (index : Nat) (packet : BitVec 512)
  | place (q : Nat) (index : Nat) (packet : BitVec 512)
  | fltsvc (tid : Nat) (record : BitVec 512)
  /-- A page that a copy run, an engine command or a predicate read waits for (R255, R417), with who waits: a copy of a task by its
  number and the copy's place, with 0; a node by 0, its graph and its index. -/
  | page (who : Nat × Nat × Nat) (ctx va : Nat)
  | splice (die gid p c : Nat)
  | triage (record : ErrorRecord)
  | ctrovl (gid node : Nat) (section_ : Nat)
  | repair (step : Nat)
  deriving DecidableEq, Repr

/-- A request entry that has been posted, or that waits for room (R380). -/
structure Item where
  tag : Nat
  posted : Bool
  kind : Nat
  die : Nat
  ctx : Nat
  req : Request
  payload : BitVec 896
  deriving DecidableEq, Repr

/-- What stands of a wait for a page that no task swapped out waits for (R65, R66, R255, R417): it was begun while the part served faults
itself, or the host has refused the page. -/
structure PageWait where
  who : Nat × Nat × Nat
  ctx : Nat
  page : Nat
  refused : Bool
  deriving DecidableEq, Repr

/-- A service action under way (R368 to R372): its command entry, the step that it carries out next, the µs of its deadline,
and whether the host has been asked for that step and has approved it (R66). -/
structure Action where
  cmd : BitVec 1024
  step : Nat
  deadline : Nat
  asked : Bool
  approved : Bool
  deriving DecidableEq, Repr

/-- An image (R396): its header, its payload, its signature. Whether the flash that holds it can be read is data of the environment. -/
structure Image where
  magic : Nat
  /-- 0 grade record, 1 Yarrow, 2 clover cores, 3 default engine images. -/
  kind : Nat
  version : Nat
  svn : Nat
  length : Nat
  payload : List Byte
  signature : List Byte
  readable : Bool
  deriving DecidableEq, Repr

/-- The identity of a part (R398): the seed that the PUF gives, and the ML-DSA-44 key pair made from it. -/
structure Identity where
  seed : BitVec 256
  publicKey : List Byte
  privateKey : List Byte
  deriving DecidableEq, Repr

/-- The grade record (R399). -/
structure Grade where
  /-- 8, 6 or 4. -/
  grade : Nat
  clamshell : Bool
  live : List Nat
  deriving DecidableEq, Repr

/-- A fault injector (R391). -/
structure FlitInjector where
  point : Nat
  count : Nat
  deriving DecidableEq, Repr

/-- A scale-up port (R384, R387). -/
structure Port where
  trained : Bool
  failed : Bool
  /-- Replays of the flit in hand, up to seven (R386). -/
  replays : Nat
  deriving DecidableEq, Repr

/-- The boot ROM's state and the mailbox (R394 to R401). -/
structure Boot where
  /-- MBSTAT: stage, err, busy. -/
  stage : Nat
  err : Nat
  busy : Bool
  mbaddr : Word
  mblen : Word
  mbnonce : BitVec 256
  mbreport : List Byte
  flash : List Image
  /-- The image whose check failed, by its place in the order of R394. -/
  failedAt : Nat
  /-- Images that flash takes at stage 4, or after a switch (R372, R400). -/
  pendingFlash : List Image
  fused : Vector Nat 4
  /-- Nelgan's public key, which the ROM holds, and its hash, which the fuses hold (R396). -/
  romKey : List Byte
  keyFuse : BitVec 256
  /-- The identity that stage 3 derives, and Nelgan's certificate for its public key in module flash (R398). -/
  identity : Option Identity
  certificate : List Byte
  measured : Vector (BitVec 256) 4
  /-- 1 A0, 2 B0 (R70). -/
  step : Nat
  /-- Junction temperature in °C, throttled, tripped, and the time in µs of the clock's last step down (R395, R403). -/
  junction : Nat
  throttled : Bool
  tripped : Bool
  throttleAt : Nat
  /-- Firmware updates that have been checked and whose switch has not completed (R372). -/
  updates : List (Nat × Image)
  deriving DecidableEq, Repr

/-- The firmware page and the other registers of BAR0 (R65, R374 to R378, R391). -/
structure Port0 where
  duty : BitVec 7
  ev : Ring
  srq : Ring
  cmd : Ring
  evlost : Nat
  evseq : BitVec 32
  qtbase : Nat
  bar2 : Vector BarWindow 16
  cxl : Bool
  coh : Bool
  peertab : Nat
  inbound : Vector InboundWindow 32
  msixTable : List Host.Cell
  msixPending : BitVec 2048
  /-- Copy injector: arm, skip, bit, off, CPYX commands counted since the arm write, whether the command to be hit has been found, and the
  arm writes so far. -/
  injArm : Bool
  injSkip : Nat
  injBit : Nat
  injOff : Nat
  injSeen : Nat
  injChosen : Bool
  injArms : Nat
  flits : Vector FlitInjector 28
  items : List Item
  nextTag : Nat
  /-- Vectors fired, oldest first (the model's output log). -/
  msixLog : List Nat
  /-- Writes of the host to a mutable half that were dropped, as the firmware complex logs them: queue and byte offset (R37). -/
  attempts : List (Nat × Nat)
  /-- Bytes that the last access from outside returned, and the cause that its sender saw where it was refused. -/
  lastRead : List Byte
  lastRefused : Option Nat
  deriving DecidableEq, Repr

/-! ## The machine -/

/-- The whole state. -/
structure State where
  /-- The model's own schedule and free-value counter (log 3, log 5). -/
  sched : List Turn
  cur : Party
  freeCtr : Nat
  /-- Arithmetic-clock cycles and 100 MHz ticks since reset, the clock in MHz (R70, R115). -/
  cycle : Word
  ticks : Nat
  clock : Nat
  /-- The task on stage, and every other task (R341). -/
  task : Task
  parked : List Task
  nextTid : Nat
  /-- Memory: bytes keyed by home device × 2^52 + physical address (R225, R226). -/
  mem : List Host.Cell
  /-- Key material that a 16-byte block was last written under (R230). -/
  tags : List (Nat × BitVec 512)
  keys : List (Nat × BitVec 512)
  /-- Poisoned 64-byte granules (R353), by key / 64. -/
  poison : List Nat
  stash : List StashLine
  /-- Pages that the fault service refuses to map: context, virtual page number (data of the environment, R335). -/
  unservable : List (Nat × Nat)
  pageWaits : List PageWait
  bounds : List Bound
  /-- Launch and placement. -/
  queues : List Queue
  packets : List Packet
  nextPid : Nat
  regions : List Region
  graphs : List Graph
  nextGid : Nat
  nextAge : Nat
  segments : List Segment
  nextSegment : Nat
  contexts : List Context
  kernels : List Kernel
  arrays : List ArrayHold
  /-- Limits of each partition, newest first, each with the µs from which it holds; before the first of them the defaults (R89, R357,
  R382). -/
  limits : Vector (List (Nat × Limits)) 8
  engines : List Engine
  clovers : Vector Clover 6
  /-- The part (R69 to R80). -/
  gen : Nat
  dies : Vector Die 8
  links : Vector Link 10
  sects : List Sect
  epoch : Word
  /-- The outside. -/
  port0 : Port0
  ports : Vector Port 18
  fabric : BitVec 16
  /-- Requests by which peers answer: the windows through which they admit this part, as device (`peerDevice` of its fabric address), first byte, size,
  rights to read and to write (data of the environment, R385). -/
  peerWindows : List (Nat × Nat × Nat × Bool × Bool)
  /-- Ranges of bus addresses that the host's IOMMU rejects: first byte, size (data of the environment, R378). -/
  hostRejects : List (Nat × Nat)
  errors : List ErrorRecord
  action : Option Action
  actionQueue : List Action
  boot : Boot
  deriving DecidableEq, Repr

/-! ## Reset -/

/-- A die before enumeration. -/
def Die.absent (p : Nat) : Die :=
  { phys := p, ldie := none, offline := false, smask := 0, soff := 0, l2mask := 0, l2off := 0, channels := 0, chOff := 0,
    devs := 0, lchan := 0, lsect := 0, lslice := 0, fsize := 0, retention := Vector.replicate 8 none, melds := [], formed := 0,
    elided := 0, kept := 0, mfaults := 0, mpreempt := 0, refused := Vector.replicate 15 0, overlaps := 0,
    strictFaults := 0, preempting := none, rotation := [] }

/-- The dies that a die link joins (R67). -/
def linkEnds (l : Nat) : Nat × Nat :=
  match l with
  | 0 => (0, 1)
  | 1 => (1, 2)
  | 2 => (2, 3)
  | 3 => (4, 5)
  | 4 => (5, 6)
  | 5 => (6, 7)
  | 6 => (0, 4)
  | 7 => (1, 5)
  | 8 => (2, 6)
  | _ => (3, 7)

/-- A link before training. -/
def Link.absent (l : Nat) : Link :=
  { phys := l, llink := none, a := (linkEnds l).1, b := (linkEnds l).2, state := 2, failed := false, replays := 0 }

/-- The limits of a partition after reset (R89, R357). -/
def Limits.reset : Limits := { preempt := 50000, wait := 1000000000, run := 0, split := 10000000 }

/-- A ring after reset (R376). -/
def Ring.reset : Ring := { base := 0, en := false, lsize := 0, msix := 0, wr := 0, rd := 0 }

/-- The registers of BAR0 after reset (R65, R376, R378, R391). -/
def Port0.reset : Port0 :=
  { duty := 0, ev := Ring.reset, srq := Ring.reset, cmd := Ring.reset, evlost := 0, evseq := 0, qtbase := 0,
    bar2 := Vector.replicate 16 { en := false, pbase := 0, keyid := 0 }, cxl := false, coh := false, peertab := 0,
    inbound := Vector.replicate 32 { en := false, rd := false, wr := false, pbase := 0, pages := 0, keyid := 0, src := 0 },
    msixTable := [], msixPending := 0, injArm := false, injSkip := 0, injBit := 0, injOff := 0, injSeen := 0,
    injChosen := false, injArms := 0,
    flits := Vector.replicate 28 { point := 0, count := 0 }, items := [], nextTag := 0, msixLog := [],
    attempts := [], lastRead := [], lastRefused := none }

/-- An image of a kind as the factory has signed it (DESIGN CHOICE, log 8). -/
def Image.signed (kind : Nat) (payload : List Byte) : Image :=
  { magic := 0, kind := kind, version := 0, svn := 0, length := payload.length, payload := payload, signature := factorySignature kind,
    readable := true }

/-- An image with an empty payload. -/
def Image.plain (kind : Nat) : Image := Image.signed kind []

/-- What the fuses of the part of `State.reset` hold: the hash of the key of its ROM (log 8). -/
def keyFuseValue : BitVec 256 := 0x6A1D1CD904061F3F41A2AD33E4FD2D458D9885B135BFD703C36ED4DC99F63C0F

/-- The boot state after reset: stage 0, no error (R395), every measurement register zero (R397). The flash
and the unlisted registers are DESIGN CHOICES (logs 7 and 8). -/
def Boot.reset : Boot :=
  { stage := 0, err := 0, busy := false, mbaddr := 0, mblen := 0, mbnonce := 0, mbreport := [],
    flash := [Image.signed 0 factoryGrade, Image.plain 1, Image.plain 2, Image.plain 3],
    failedAt := 0, pendingFlash := [], fused := Vector.replicate 4 0, romKey := factoryKey, keyFuse := keyFuseValue,
    identity := none, certificate := [],
    measured := Vector.replicate 4 0, step := 2, junction := 25, throttled := false, tripped := false, throttleAt := 0, updates := [] }

/-- The machine right after a module reset (R393): boot stage 0, everything cleared, memory with nothing listed. -/
def State.reset : State :=
  { sched := [], cur := .control, freeCtr := 0, cycle := 0, ticks := 0, clock := 2400,
    task := Task.vacant, parked := [], nextTid := 1,
    mem := [], tags := [], keys := [], poison := [], stash := [], unservable := [], pageWaits := [], bounds := [],
    queues := [], packets := [], nextPid := 1, regions := [], graphs := [], nextGid := 1, nextAge := 0,
    segments := [], nextSegment := 1, contexts := [], kernels := [], arrays := [],
    limits := Vector.replicate 8 [], engines := [], clovers := Vector.replicate 6 { queue := none, inRow := 0 }, gen := 3,
    dies := Vector.ofFn (fun (i : Fin 8) => Die.absent i.val),
    links := Vector.ofFn (fun (i : Fin 10) => Link.absent i.val), sects := [], epoch := 0,
    port0 := Port0.reset, ports := Vector.replicate 18 { trained := true, failed := false, replays := 0 }, fabric := 0,
    peerWindows := [], hostRejects := [], errors := [], action := none, actionQueue := [], boot := Boot.reset }

end Sys2Proof.Machine
end

