-- ==== Sys2Proof/Machine/Geometry.lean ====
section
/-! DEFINITION. The fields of vcfg, the geometry of the vector registers (R61, R143, R146, R148), the values that vcfg may hold (R147), the
headers of a block that VBLK admits (R117), and the vector unit's way through a block (R118). -/

namespace Sys2Proof.Machine

/-! ## vcfg and geometry -/

/-- Fields of vcfg (R146). -/
def Task.sewCode (t : Task) : Nat := fieldN t.vcfg 0 3
def Task.sew (t : Task) : Nat := 8 * 2 ^ t.sewCode
def Task.lmul (t : Task) : Nat := 2 ^ fieldN t.vcfg 3 2
def Task.fk (t : Task) : Nat := fieldN t.vcfg 5 2
def Task.scope (t : Task) : Nat := fieldN t.vcfg 7 3
def Task.rm (t : Task) : Nat := fieldN t.vcfg 10 3
def Task.sat (t : Task) : Bool := t.vcfg.getLsbD 13

/-- VLENB (R143). -/
def Task.vlenb (t : Task) : Nat := t.id.grant * 512 * t.fold

/-- Elements of a width in one register (R143). -/
def Task.perReg (t : Task) (bits : Nat) : Nat := t.vlenb * 8 / bits

/-- vlmax (R61, R143). -/
def Task.vlmax (t : Task) : Nat := t.perReg t.sew * t.lmul

/-- The registers that the fold in force leaves: 32, 12 or 6 (R148, R150). -/
def Task.regCount (t : Task) : Nat := if t.fold = 1 then 32 else if t.fold = 2 then 12 else 6

/-- A value that vcfg may hold (R146, R147). -/
def vcfgOk (v : Word) : Bool :=
  fieldN v 14 50 == 0 && fieldN v 0 3 ≤ 3 && fieldN v 5 2 != 3 && !(fieldN v 5 2 == 1 && fieldN v 0 3 > 1)
    && !(fieldN v 5 2 == 2 && fieldN v 0 3 != 0) && fieldN v 7 3 ≤ 5 && fieldN v 10 3 ≤ 5

/-! ## Block headers -/

/-- The header checks of VBLK (R117). -/
def headerOk (h0 h1 : BitVec 32) : Bool :=
  fieldN h0 24 8 == 0xB1 && 1 ≤ fieldN h0 0 8 && fieldN h0 0 8 ≤ 253 && fieldN h0 8 3 ≤ 4 && fieldN h0 14 10 == 0
    && !h1.getLsbD 0

/-! ## Moving on in a block -/

/-- The length of a block's body (R116). -/
def Block.len (b : Block) : Nat := fieldN b.h0 0 8

/-- The registers of a dead mask freed: they read zero until written (R118). -/
def Task.freeDead (t : Task) (h2 : BitVec 32) : Task :=
  if t.fold = 1 then
    { t with v := t.v.mapIdx (fun i r => if h2.getLsbD i then 0 else r)
             vPoison := t.vPoison.filter (fun p => !h2.getLsbD p.1) }
  else t

/-- The vector unit moved to a body offset in vector mode; past the last word the block ends (R118). -/
def Task.moveVector (t : Task) (off : Nat) : Task :=
  match t.block with
  | none => t
  | some b =>
    if off < b.len then { t with block := some { b with off := off }, vstart := 0 }
    else { t.freeDead b.h2 with block := none, vstart := 0 }

end Sys2Proof.Machine
end

