-- ==== Sys2Proof/Machine/Aes.lean ====
section
/-! DEFINITION. AES-256 as FIPS 197 gives it and its XTS mode as IEEE 1619 does, the cipher that R230 names (log 9). -/

namespace Sys2Proof.Machine

/-! ## The field of bytes -/

/-- A byte times x. -/
def gfDouble (a : Byte) : Byte := (a <<< 1) ^^^ (if a.msb then 0x1B else 0)

/-- The product of two bytes. -/
def gfMul (a b : Byte) : Byte :=
  ((List.range 8).foldl (fun (r : Byte × Byte) i => (if b.getLsbD i then r.1 ^^^ r.2 else r.1, gfDouble r.2)) (0, a)).1

/-- The inverse of a byte, 0 for 0: its 254th power. -/
def gfInverse (a : Byte) : Byte :=
  ((List.range 7).foldl (fun (r : Byte × Byte) _ => (gfMul r.1 (gfMul r.2 r.2), gfMul r.2 r.2)) (1, a)).1

/-- The substitution of a byte, and its inverse. -/
def aesSub (a : Byte) : Byte :=
  let x := gfInverse a
  x ^^^ x.rotateLeft 1 ^^^ x.rotateLeft 2 ^^^ x.rotateLeft 3 ^^^ x.rotateLeft 4 ^^^ 0x63
def aesSubInverse (a : Byte) : Byte := gfInverse (a.rotateLeft 1 ^^^ a.rotateLeft 3 ^^^ a.rotateLeft 6 ^^^ 0x05)

/-! ## Rounds, over the 16 bytes of a block in their order -/

/-- Two lists of bytes, byte by byte. -/
def xorBytes (a b : List Byte) : List Byte := List.zipWith (· ^^^ ·) a b

/-- The next four bytes of an expanded key, whose 4-byte words stand newest first, after i of them. -/
def nextKeyWord (ws : List (List Byte)) (i : Nat) : List Byte :=
  let last := ws.headD []
  let mixed :=
    if i % 8 = 0 then xorBytes ((last.drop 1 ++ last.take 1).map aesSub) [BitVec.ofNat 8 (2 ^ (i / 8 - 1)), 0, 0, 0]
    else if i % 8 = 4 then last.map aesSub
    else last
  xorBytes (ws.getD 7 []) mixed

/-- The fifteen round keys of a key of 32 bytes. -/
def aesRoundKeys (key : List Byte) : List (List Byte) :=
  let first := (List.range 8).map (fun i => (key.drop (4 * i)).take 4)
  let all := ((rangeFrom 8 60).foldl (fun ws i => nextKeyWord ws i :: ws) first.reverse).reverse
  (List.range 15).map (fun r => ((all.drop (4 * r)).take 4).flatten)

/-- Byte r of column c moved to the column that d gives. -/
def aesShift (d : Nat → Nat) (b : List Byte) : List Byte :=
  (List.range 16).map (fun i => b.getD (4 * ((i / 4 + d (i % 4)) % 4) + i % 4) 0)

/-- Each column multiplied by a circulant matrix, its first row m. -/
def aesMix (m : List Byte) (b : List Byte) : List Byte :=
  (List.range 16).map (fun i =>
    (List.range 4).foldl (fun a j => a ^^^ gfMul (m.getD ((j + 4 - i % 4) % 4) 0) (b.getD (i / 4 * 4 + j) 0)) 0)

/-- A block enciphered under round keys. -/
def aesEncipher (ks : List (List Byte)) (b : List Byte) : List Byte :=
  let start := xorBytes b (ks.headD [])
  let mid := ((ks.drop 1).take 13).foldl (fun b k => xorBytes (aesMix [2, 3, 1, 1] (aesShift id (b.map aesSub))) k) start
  xorBytes (aesShift id (mid.map aesSub)) (ks.getD 14 [])

/-- A block deciphered under round keys. -/
def aesDecipher (ks : List (List Byte)) (b : List Byte) : List Byte :=
  let undo (b : List Byte) : List Byte := (aesShift (4 - ·) b).map aesSubInverse
  let start := undo (xorBytes b (ks.getD 14 []))
  let mid := ((ks.drop 1).take 13).reverse.foldl (fun b k => undo (aesMix [14, 11, 13, 9] (xorBytes b k))) start
  xorBytes mid (ks.headD [])

/-! ## XTS -/

/-- The mask of block j of a data unit: its number enciphered under the second half of the key material, times x to the j. -/
def xtsMask (km : BitVec 512) (unit_ j : Nat) : List Byte :=
  let t : BitVec 128 := BitVec.ofNat 128 (leVal (aesEncipher (aesRoundKeys (bytesOf (fieldN km 256 256) 32)) (bytesOf unit_ 16)))
  bytesOf ((List.range j).foldl (fun (t : BitVec 128) _ => (t <<< 1) ^^^ (if t.msb then 0x87 else 0)) t).toNat 16

/-- Block j of a data unit under a block cipher and its mask. -/
def xtsBlock (cipher : List (List Byte) → List Byte → List Byte) (km : BitVec 512) (unit_ j : Nat) (b : BitVec 128) : BitVec 128 :=
  let mask := xtsMask km unit_ j
  let out := cipher (aesRoundKeys (bytesOf (fieldN km 0 256) 32)) (xorBytes (bytesOf b.toNat 16) mask)
  BitVec.ofNat 128 (leVal (xorBytes out mask))

/-- A block as it lies in memory under key material, none being the unencrypted key ID 0, and as it comes back. -/
def enciphered (km : Option (BitVec 512)) (unit_ j : Nat) (b : BitVec 128) : BitVec 128 :=
  match km with
  | none => b
  | some k => xtsBlock aesEncipher k unit_ j b
def deciphered (km : Option (BitVec 512)) (unit_ j : Nat) (b : BitVec 128) : BitVec 128 :=
  match km with
  | none => b
  | some k => xtsBlock aesDecipher k unit_ j b

/-- The 16-byte block at a key, read under one key material when it was written under another (R230): the tweak is the physical address of
its 128-byte line, and the block has its place in the line. -/
def recrypt (written read : Option (BitVec 512)) (k : Nat) (block : BitVec 128) : BitVec 128 :=
  let unit_ := k % 2 ^ 52 / 128 * 128
  let j := k / 16 % 8
  deciphered read unit_ j (enciphered written unit_ j block)

end Sys2Proof.Machine
end

