-- ==== Sys2Proof/Machine/Memory.lean ====
section
/-! DEFINITION. Memory: the list of cells in its canonical form, the ranges of the part, links and paths, key material,
the stash, and poison. -/

namespace Sys2Proof.Machine

/-! ## Cells -/

/-- What an unlisted address reads as (R393 leaves it open; DESIGN CHOICE, log 1). -/
def Memory.blank : Byte := 0

/-- The byte at an address. -/
def Memory.get : List Host.Cell → Nat → Byte
  | [], _ => Memory.blank
  | c :: m, a => if c.1 = a then c.2 else Memory.get m a

/-- A byte that is not blank written at an address; the list stays sorted. -/
def Memory.put : List Host.Cell → Nat → Byte → List Host.Cell
  | [], a, b => [(a, b)]
  | c :: m, a, b =>
    if a < c.1 then (a, b) :: c :: m
    else if a = c.1 then (a, b) :: m
    else c :: Memory.put m a b

/-- A byte written at an address; a blank byte is listed nowhere. -/
def Memory.set (m : List Host.Cell) (a : Nat) (b : Byte) : List Host.Cell :=
  if b = Memory.blank then m.filter (fun c => c.1 != a) else Memory.put m a b

/-- The canonical form: addresses strictly rising, no entry equal to what an unlisted address reads as. -/
abbrev Memory.wf (m : List Host.Cell) : Prop :=
  m.Pairwise (fun a b => a.1 < b.1) ∧ ∀ c ∈ m, c.2 ≠ Memory.blank

/-- Bytes written at rising addresses. -/
def Memory.setMany : List Host.Cell → Nat → List Byte → List Host.Cell
  | m, _, [] => m
  | m, a, b :: bs => Memory.setMany (Memory.set m a b) (a + 1) bs

/-- Every cell of a list written. -/
def Memory.setCells (m : List Host.Cell) (cs : List Host.Cell) : List Host.Cell :=
  cs.foldl (fun m c => Memory.set m c.1 c.2) m

/-- The byte that an overlay holds for an address. -/
def overlayGet (o : List Host.Cell) (a : Nat) : Option Byte := (o.find? (fun c => c.1 == a)).map (·.2)

/-- An overlay with a byte written; the latest write of an address is the only one listed. -/
def overlaySet (o : List Host.Cell) (a : Nat) (b : Byte) : List Host.Cell :=
  (a, b) :: o.filter (fun c => c.1 != a)

/-- What a write set holds for an address: the latest of its bytes and marks. -/
def setFind (w : List SetByte) (k : Nat) : Option SetByte := w.find? (fun c => c.key == k)

/-- The byte that a write set holds for an address, to be merged. -/
def setGet (w : List SetByte) (k : Nat) : Option Byte := (w.find? (fun c => c.key == k && !c.direct)).map (·.byte)

/-- A write set with a byte written. -/
def setPut (w : List SetByte) (c : SetByte) : List SetByte := c :: w.filter (fun o => o.key != c.key || o.ofC != c.ofC)

/-- A write set with the mark of a direct update; the byte that it holds still merges. -/
def setMark (w : List SetByte) (c : SetByte) : List SetByte := c :: w.filter (fun o => o.key != c.key || o.ofC != c.ofC || !o.direct)

/-- A write set over another; a mark hides a byte and does not replace it. -/
def setOver (w base : List SetByte) : List SetByte :=
  w ++ base.filter (fun o => !w.any (fun c => c.key == o.key && c.ofC == o.ofC && !c.direct))

/-- The key of a physical address of a home device (R226). -/
def memKey (home pa : Nat) : Nat := home * 2 ^ 52 + pa

/-- The number of the peer that the switch gives a fabric address, behind the 4,096 home-device indices (R384). -/
def peerDevice (fab : Nat) : Nat := 4096 + fab

/-! ## Dies, links and paths -/

/-- Die p of the part. -/
def State.die (s : State) (p : Nat) : Die := s.dies[p]?.getD (Die.absent p)

/-- The state with die p changed. -/
def State.modDie (s : State) (p : Nat) (f : Die → Die) : State :=
  { s with dies := s.dies.mapIdx (fun i d => if i = p then f d else d) }

/-- Whether die p is live (R71, R225). -/
def State.dieLive (s : State) (p : Nat) : Bool := p < 8 && (s.die p).ldie.isSome && !(s.die p).offline

/-- The physical die of a logical die. -/
def State.physDie (s : State) (l : Nat) : Option Nat := (List.range 8).find? (fun p => (s.die p).ldie == some l)

/-- The die in whose range of R225 a physical address of this Brynter lies: a disabled die has none, an offline one keeps its ranges. -/
def State.rangeDie (s : State) (pa : Nat) : Option Nat :=
  if pa < 8 * 0x40000000 then
    let p := pa / 0x40000000
    if (s.die p).ldie.isSome then some p else none
  else
    let p := (pa - 0x1000000000) / 0x1000000000
    if 0x1000000000 ≤ pa && p < 8 && (s.die p).ldie.isSome && (pa - 0x1000000000) % 0x1000000000 < (s.die p).fsize then some p else none

/-- The memory of this Brynter that serves a physical address: its home die, which is not offline, nor for GDDR-7 a channel of it, or
none (R225). -/
def State.homeDie (s : State) (pa : Nat) : Option Nat :=
  (s.rangeDie pa).filter (fun p => s.dieLive p && (pa < 8 * 0x40000000 || (s.die p).chOff == 0))

/-- Distances in links from a die over the links that pass a test; 99 where there is no path. -/
def linkDist (links : List Link) (ok : Link → Bool) (src : Nat) : List Nat :=
  let start := (List.range 8).map (fun p => if p = src then 0 else 99)
  (List.range 8).foldl (fun d _ =>
    (List.range 8).map (fun p =>
      links.foldl (fun best l =>
        if ok l && l.a == p then min best ((d[l.b]?.getD 99) + 1)
        else if ok l && l.b == p then min best ((d[l.a]?.getD 99) + 1)
        else best) (d[p]?.getD 99))) start

/-- Hops between two dies over links that are up; 99 or more where there is no path (R73). -/
def State.hops (s : State) (a b : Nat) : Nat :=
  (linkDist s.links.toList (fun l => l.state == 0) a)[b]?.getD 99

/-- Hops over the links that are up and have not failed. -/
def State.goodHops (s : State) (a b : Nat) : Nat :=
  (linkDist s.links.toList (fun l => l.state == 0 && !l.failed) a)[b]?.getD 99

/-- Whether some shortest path between two dies takes a link. -/
def State.onShortest (s : State) (a b : Nat) (l : Link) : Bool :=
  s.hops a l.a + 1 + s.hops l.b b == s.hops a b || s.hops a l.b + 1 + s.hops l.a b == s.hops a b

/-- Whether a transfer from one die to another, by whatever shortest path, meets a failed link (R371, R386). Which of several shortest paths
it takes is not stated: where some but not all of them take a failed link, a free bit chooses (log 5). -/
def State.meetsFailed (s : State) (a b : Nat) : Bool :=
  s.links.toList.any (fun l => l.state == 0 && l.failed && s.onShortest a b l) && (s.goodHops a b > s.hops a b || Config.failedRoute a b)

/-- What a transfer between two dies meets: nothing, no path (0x06, R371), or a failed link on its path (0x0E, R371, R386). -/
def State.pathCause (s : State) (a b : Nat) : Option Nat :=
  if a = b then none
  else if s.hops a b ≥ 99 then some 0x06
  else if s.meetsFailed a b then some 0x0E
  else none

/-- What a transfer from a die to an I/O die meets, which attaches to some dies (R67): it takes the nearest of them that no grade has
disabled, itself where it is one, and where two are as near and only one path fails, a free bit chooses (log 5). -/
def State.exitCause (s : State) (a : Nat) (exits : List Nat) : Option Nat :=
  let live := exits.filter (fun e => (s.die e).ldie.isSome)
  let near := leastBy (s.hops a) 99 live
  let causes := (live.filter (fun e => s.hops a e == near)).map (s.pathCause a)
  if live.contains a then none
  else if near ≥ 99 then some 0x06
  else if causes.all Option.isSome || (causes.any Option.isSome && Config.failedRoute a 8) then some 0x0E
  else none

/-- The dies that the west and the east I/O die attach to (R67). -/
def westExits : List Nat := [0, 4]
def eastExits : List Nat := [3, 7]

/-- What a transfer between a die of this Brynter and whoever issues it meets on its way: a die, or none for the firmware complex on the
west I/O die (R67, R371, R386). -/
def State.wayFrom (s : State) (issuer : Option Nat) (d : Nat) : Option Nat :=
  match issuer with
  | none => s.exitCause d westExits
  | some i => s.pathCause i d

/-- What an access to a physical address of this Brynter meets: no memory behind it, or its way (R225, R371). -/
def State.homeCause (s : State) (issuer : Option Nat) (pa : Nat) : Option Nat :=
  match s.homeDie pa with
  | none => some 0x06
  | some d => s.wayFrom issuer d

/-! ## Key material -/

/-- The key material that a key ID selects (R230): none for key ID 0; an ID that no command has set selects an all-zero
key (log 9). -/
def State.keyMaterial (s : State) (keyid : Nat) : Option (BitVec 512) :=
  if keyid = 0 then none else some (((s.keys.find? (fun k => k.1 == keyid)).map (·.2)).getD 0)

/-- The key material that the 16-byte block of an address was last written under. -/
def State.tagOf (s : State) (k : Nat) : Option (BitVec 512) :=
  (s.tags.find? (fun t => t.1 == k / 16)).map (·.2)

/-- The 16-byte block that holds an address, as it is stored. -/
def State.rawBlock (s : State) (k : Nat) : BitVec 128 :=
  BitVec.ofNat 128 (leVal ((List.range 16).map (fun i => Memory.get s.mem (k / 16 * 16 + i))))

/-- The byte at a key, read under key material km (R230). -/
def State.readPlain (s : State) (km : Option (BitVec 512)) (k : Nat) : Byte :=
  if s.tagOf k = km then Memory.get s.mem k
  else (recrypt (s.tagOf k) km k (s.rawBlock k)).extractLsb' (8 * (k % 16)) 8

/-- A byte written at a key under key material km. A block last written under other material is read with the new
material, changed, and stored under it (R230). -/
def State.writePlain (s : State) (km : Option (BitVec 512)) (k : Nat) (b : Byte) : State :=
  if s.tagOf k = km then { s with mem := Memory.set s.mem k b }
  else
    let blk := recrypt (s.tagOf k) km k (s.rawBlock k)
    let m := Memory.setMany s.mem (k / 16 * 16) (bytesOf blk.toNat 16)
    let tags := s.tags.filter (fun t => t.1 != k / 16)
    { s with mem := Memory.set m k b, tags := match km with
        | none => tags
        | some x => (k / 16, x) :: tags }

/-- Bytes written at rising keys. -/
def State.writePlainMany (s : State) (km : Option (BitVec 512)) (k : Nat) : List Byte → State
  | [] => s
  | b :: bs => (s.writePlain km k b).writePlainMany km (k + 1) bs

/-! ## The stash -/

/-- Stash lines of a section (R239): 1,984 KiB in lines of 256 bytes. -/
def stashLines : Nat := 7936

/-- A line's unwritten bytes written to memory (R239), with the poison that they carry or have cleared (R353). -/
def State.writeBackLine (s : State) (l : StashLine) : State :=
  let s1 := l.dirty.foldl (fun s c => s.writePlain l.km c.1 c.2) s
  { s1 with poison := s1.poison.filter (fun p => !l.cleared.contains p) }

/-- The unwritten bytes of the lines that meet a test written back; the lines stay, clean. -/
def State.cleanLines (s : State) (p : StashLine → Bool) : State :=
  let s1 := (s.stash.filter p).foldl State.writeBackLine s
  { s1 with stash := mapIf p (fun l => { l with dirty := [], writers := [], cleared := [] }) s1.stash }

/-- The lines that meet a test dropped, their unwritten bytes lost. -/
def State.dropLines (s : State) (p : StashLine → Bool) : State :=
  { s with stash := s.stash.filter (fun l => !p l) }

/-- The lines that meet a test written back and invalidated. -/
def State.flushLines (s : State) (p : StashLine → Bool) : State := (s.cleanLines p).dropLines p

/-- Whether a stash line holds some of n bytes at key k. -/
def StashLine.holds (k n : Nat) (l : StashLine) : Bool := l.line < k + n && k < l.line + 256

/-- What a coherent read of n bytes at key k does to the stash: dirty lines are written back and stay, clean (R239). -/
def State.recallForRead (s : State) (k n : Nat) : State :=
  if s.stash.any (fun l => l.holds k n && !l.dirty.isEmpty) then s.cleanLines (StashLine.holds k n) else s

/-- What a coherent write of n bytes at key k does to the stash: lines are written back and then invalidated (R239,
R377). -/
def State.recallForWrite (s : State) (k n : Nat) : State :=
  if s.stash.any (StashLine.holds k n) then s.flushLines (StashLine.holds k n) else s

/-- The byte that a coherent reader sees at a key: a dirty stash line's byte, or memory's (R239, R296). A line is tagged with
its key, and a reader under another key sees what its write-back leaves (R230). -/
def State.peekByte (s : State) (km : Option (BitVec 512)) (k : Nat) : Byte :=
  match s.stash.find? (fun l => (overlayGet l.dirty k).isSome) with
  | some l => if l.km = km then (overlayGet l.dirty k).getD 0 else (s.writeBackLine l).readPlain km k
  | none => s.readPlain km k

/-- The n bytes that a coherent reader sees from key k on. -/
def State.peekBytes (s : State) (km : Option (BitVec 512)) (k n : Nat) : List Byte :=
  (List.range n).map (fun i => s.peekByte km (k + i))

/-- A stash line filled into a section for a task at most recent; the least recent line of the section is evicted first when the
stash is full (R239). -/
def State.fillLine (s : State) (sec : Nat) (owner : Nat × Nat) (km : Option (BitVec 512)) (k : Nat) : State :=
  let s1 := s.recallForRead (k / 256 * 256) 256
  let mine := s1.stash.filter (fun l => l.section_ == sec)
  let s2 :=
    match mine.getLast? with
    | some v => if mine.length < stashLines then s1 else s1.flushLines (fun l => l.section_ == sec && l.line == v.line)
    | none => s1
  { s2 with stash := { section_ := sec, owners := [owner], line := k / 256 * 256, km := km, dirty := [], writers := [], cleared := [] } :: s2.stash }

/-- An access of element e of a task to the stash line that holds key k (R239): a hit moves the line to most recent. Where another task holds
the line, a read writes it back and a write takes it away. A read writes it back too where another element position of the task has stored
into it, for that is another party (R293); a store into a line of its own task is a hit whichever element stores (DESIGN CHOICE, log 35). A line
tagged with another key is no hit (R230). -/
def State.touchLine (s : State) (sec tid va : Nat) (km : Option (BitVec 512)) (k : Nat) (wr : Bool) (e : Nat) : State :=
  let owner := (tid, va / 256 * 256)
  let here : StashLine → Bool := fun l => l.section_ == sec && l.line == k / 256 * 256
  match s.stash.find? here with
  | none => s.fillLine sec owner km k
  | some l =>
    let alone := l.owners.all (fun o => o.1 == tid)
    if l.km != km || (wr && !alone) then (s.flushLines here).fillLine sec owner km k
    else
      let s1 := if alone && (wr || l.writers.all (· == e)) then s else s.cleanLines here
      let moved := (s1.stash.filter here).map (fun l => { l with owners := owner :: l.owners.filter (· != owner) })
      { s1 with stash := moved ++ s1.stash.filter (fun o => !here o) }

/-- A byte stored by element e into the stash line that holds key k (R239). -/
def State.stashStore (s : State) (sec k : Nat) (b : Byte) (e : Nat) : State :=
  let hit : StashLine → Bool := fun l => l.section_ == sec && l.line == k / 256 * 256
  { s with stash := mapIf hit (fun l =>
      { l with dirty := overlaySet l.dirty k b, writers := if l.writers.contains e then l.writers else e :: l.writers }) s.stash }

/-! ## Poison -/

/-- Whether some of n bytes at key k lie in a granule that a coherent reader finds poisoned (R353). -/
def State.poisoned (s : State) (k n : Nat) : Bool :=
  s.poison.any (fun p => p * 64 < k + n && k < p * 64 + 64 && !s.stash.any (fun l => l.cleared.contains p))

/-- The poison of the granules that meet a test, each covered whole by a store, cleared: in the stash line of a section that took the
store, or else in memory (R353). -/
def State.curePoison (s : State) (sec : Option Nat) (covered : Nat → Bool) : State :=
  if s.poison.isEmpty then s
  else
    let inLine (p : Nat) (l : StashLine) : Bool := some l.section_ == sec && l.line == p / 4 * 256
    let (kept, cured) := (s.poison.filter covered).partition (fun p => s.stash.any (inLine p))
    { s with poison := s.poison.filter (fun p => !cured.contains p)
             stash := s.stash.map (fun l => { l with cleared := kept.filter (fun p => inLine p l) ++ l.cleared }) }

/-- The poison of every granule whose 64 bytes a store wrote cleared (R353). -/
def State.clearPoison (s : State) (sec : Option Nat) (written : List Nat) : State :=
  s.curePoison sec (fun p => (List.range 64).all (fun i => written.contains (p * 64 + i)))

/-- The poison of every granule inside n bytes at key k cleared (R353). -/
def State.coverPoison (s : State) (k n : Nat) : State := s.curePoison none (fun p => k ≤ p * 64 && p * 64 + 64 ≤ k + n)

/-- A coherent write of bytes at key k. -/
def State.writeCoherent (s : State) (km : Option (BitVec 512)) (k : Nat) (bs : List Byte) : State :=
  ((s.recallForWrite k bs.length).writePlainMany km k bs).coverPoison k bs.length

end Sys2Proof.Machine
end

