-- ==== Sys2Proof/Machine/Translate.lean ====
section
/-! DEFINITION. Regions and their effective values (R47), address translation (R224 to R231), and the accesses that the
parties of a task make: checks, views of deterministic regions (R317), stash service (R239), stores. -/

namespace Sys2Proof.Machine

/-! ## Contexts, regions, tasks -/

/-- A bound context. -/
def State.context (s : State) (c : Nat) : Option Context := s.contexts.find? (fun x => x.id == c)

/-- A linked region. -/
def State.region (s : State) (c : Nat) (a : Word) : Option Region :=
  s.regions.find? (fun r => r.ctx == c && r.addr == a)

/-- A region and its ancestors, innermost first (at most eight levels, R48). -/
def State.lineage (s : State) (c : Nat) (a : Word) : Nat → List Region
  | 0 => []
  | n + 1 =>
    match s.region c a with
    | none => []
    | some r => r :: (if r.root then [] else s.lineage c r.parent n)

/-- A region and its ancestors. -/
def State.chain (s : State) (c : Nat) (a : Word) : List Region := s.lineage c a 9

/-- Whether a region overrides the field of an override bit (R47). -/
def Region.overrides (r : Region) (bit : Nat) : Bool := r.rcb.getLsbD (64 + bit)

/-- The effective value of an RCB field of len bits at byte off, whose override bit is bit (R47). It comes from the bytes that were captured at
the link, and SET_SEED has changed since, for as long as the region is linked: a value that the host has written over them meanwhile is never
used, though R49 leaves open from when on it may be (DESIGN CHOICE, log 4). -/
def State.effField (s : State) (c : Nat) (a : Word) (bit off len : Nat) : Nat :=
  match (s.chain c a).find? (fun r => r.overrides bit) with
  | some r => fieldN r.rcb (8 * off) len
  | none => 0

/-- The effective budget of a region in a field that takes the least of its own and its parent's (R47). -/
def State.effMin (s : State) (c : Nat) (a : Word) (bit off len : Nat) : Nat :=
  leastBy (fun r => fieldN r.rcb (8 * off) len) (2 ^ len - 1) ((s.chain c a).filter (fun r => r.overrides bit))

/-- Effective priority, flags, fault domain, strip budget, array share, stash budget, seed (R47). -/
def State.effPrio (s : State) (c : Nat) (a : Word) : Nat := s.effField c a 0 0x0A 8
def State.effFlags (s : State) (c : Nat) (a : Word) : Nat := s.effField c a 1 0x0B 8
def State.effFdom (s : State) (c : Nat) (a : Word) : Nat := s.effField c a 2 0x0C 16
def State.effStrips (s : State) (c : Nat) (a : Word) : Nat := s.effMin c a 3 0x0E 16
def State.effShare (s : State) (c : Nat) (a : Word) : Nat := s.effField c a 4 0x10 16
def State.effStash (s : State) (c : Nat) (a : Word) : Nat := s.effMin c a 5 0x18 64
def State.effSeed (s : State) (c : Nat) (a : Word) : Nat := s.effField c a 6 0x20 64

/-- Effective placement mask: own AND parent's (R47). -/
def State.effPlace (s : State) (c : Nat) (a : Word) : BitVec 128 :=
  ((s.chain c a).filter (fun r => r.overrides 7)).foldl (fun m r => m &&& r.rcb.extractLsb' (8 * 0x28) 128)
    (BitVec.allOnes 128)

/-- The deterministic, strict and migratable flags of a region (R47). -/
def State.isDet (s : State) (c : Nat) (a : Word) : Bool := (s.effFlags c a) % 2 == 1
def State.isStrict (s : State) (c : Nat) (a : Word) : Bool := (s.effFlags c a) / 2 % 2 == 1
def State.isMigratable (s : State) (c : Nat) (a : Word) : Bool := (s.effFlags c a) / 4 % 2 == 1

/-- Whether region b lies in the subtree of region a (a itself included). -/
def State.inSubtree (s : State) (c : Nat) (a b : Word) : Bool := (s.chain c b).any (fun r => r.addr == a)

/-- Every task that exists, the one on stage first. -/
def State.tasks (s : State) : List Task := (s.task :: s.parked).filter (fun t => t.status != .vacant)

/-- The task with a number. -/
def State.findTask (s : State) (tid : Nat) : Option Task := s.tasks.find? (fun t => t.id.tid == tid)

/-- The state with the task of a number changed. -/
def State.modTask (s : State) (tid : Nat) (f : Task → Task) : State :=
  let g : Task → Task := fun t => if t.status != .vacant && t.id.tid == tid then f t else t
  { s with task := g s.task, parked := s.parked.map g }

/-- The section of a logical number. -/
def State.sect (s : State) (n : Nat) : Option Sect := s.sects[n]?

/-- The state with logical section n changed. -/
def State.modSect (s : State) (n : Nat) (f : Sect → Sect) : State :=
  { s with sects := s.sects.mapIdx (fun i x => if i = n then f x else x) }

/-- The physical die of a task's section. -/
def State.dieOf (s : State) (t : Task) : Nat :=
  match s.sect t.id.section_ with
  | some x => x.pdie
  | none => 0

/-- The 128-byte lines that a write set touches; P's and C's writes in a meld are two sets (R138, R318). -/
def setLines (w : List SetByte) : List (Bool × Nat) := ((w.filter (fun c => !c.direct)).map (fun c => (c.ofC, c.key / 128))).eraseDups

/-- The bytes of stash budget that a task counts: its windows (R240) and its write sets, that of its segment and those of its lane
threads, 128 bytes for each line that one touches (R318). -/
def Task.stashBytes (t : Task) : Nat :=
  sumBy (fun w => match w with
    | some w => w.size
    | none => 0) t.windows.toList
  + 128 * ((setLines t.wset).length + (match t.split with
    | some sp => sumBy (fun (th : LaneThread) => (setLines th.wset).length) sp.threads
    | none => 0))

/-- The bytes of stash budget that the write set of an ended segment holds until it merges (R318). -/
def Segment.stashBytes (g : Segment) : Nat := if g.merged then 0 else 128 * (setLines g.writes).length

/-- Whether a region and every ancestor admits more bytes of stash (R240, R318). -/
def State.stashRoom (s : State) (c : Nat) (a : Word) (more : Nat) : Bool :=
  (s.chain c a).all (fun r =>
    sumBy Task.stashBytes (s.tasks.filter (fun t => t.id.ctx == c && s.inSubtree c r.addr t.id.region))
      + sumBy Segment.stashBytes (s.segments.filter (fun g => g.ctx == c && s.inSubtree c r.addr g.region)) + more
      ≤ s.effStash c r.addr)

/-! ## Translation -/

/-- What an access does (R229); an update reads and writes without being an atomic (R326). -/
inductive Access where
  | read | write | atomic | fetch | update
  deriving DecidableEq, Repr

/-- Whether an access writes. -/
def Access.writes (a : Access) : Bool := a == .write || a == .atomic || a == .update

/-- A page as a leaf gives it (R227, R228). -/
structure Page where
  base : Nat
  size : Nat
  rd : Bool
  wr : Bool
  ex : Bool
  uncached : Bool
  dbl : Bool
  owner : Nat
  keyid : Nat
  home : Nat
  deriving DecidableEq, Repr

/-- Where the bytes of an access lie: the key of its first byte, the key material, the page. -/
structure Place where
  key : Nat
  km : Option (BitVec 512)
  va : Nat
  page : Page
  deriving DecidableEq, Repr

/-- The two dwords of a page-table entry. -/
def State.pageEntry (s : State) (table idx : Nat) : BitVec 128 :=
  BitVec.ofNat 128 (leVal (s.peekBytes none (memKey 0 (table + 16 * idx)) 16))

/-- The size of a page that a leaf maps at a level (R227). -/
def leafSize (level : Nat) (big : Bool) : Nat :=
  match level with
  | 0 => if big then 0x10000 else 0x1000
  | 1 => 0x200000
  | _ => 0x40000000

/-- Whether an entry with v set is malformed at a level (R229). -/
def State.malformed (s : State) (table idx level : Nat) (e : BitVec 128) : Bool :=
  let leaf := e.getLsbD 1
  let ppn := fieldN e 12 40 * 0x1000
  if leaf then
    fieldN e 52 12 != 0 || fieldN e 92 36 != 0 || level == 3 || (level != 0 && e.getLsbD 5)
      || fieldN e 6 2 ≥ 2 || fieldN e 64 16 > 4095 || ppn % leafSize level (e.getLsbD 5) != 0
      || (level == 0 && e.getLsbD 5 && !((List.range 16).all (fun i => s.pageEntry table (idx / 16 * 16 + i) == e)))
  else
    level == 0 || fieldN e 2 10 != 0 || fieldN e 52 12 != 0 || fieldN e 64 64 != 0 || ppn % 0x2000 != 0
      || (s.rangeDie ppn).isNone

/-- How a walk ends without a page: at an entry with v clear, at a malformed one (R229), or before a table that cannot be reached, for a cause
of R225, R371 or R386. -/
inductive WalkEnd where
  | absent
  | malformed
  | lost (cause : Nat)
  deriving DecidableEq, Repr

/-- The walk from a table of a level (R227 to R229) for a die or the firmware complex. Each table is read over the paths that an access takes:
one in the range of a die that is offline or cannot be reached ends it with the cause that an access there has, as R229 calls only a table
outside R225 malformed (DEDUCED, log 15). -/
def State.walk (s : State) (issuer : Option Nat) (va : Nat) : Nat → Nat → Except WalkEnd Page
  | level, table =>
    let idx := va / 2 ^ (12 + 9 * level) % 512
    let e := s.pageEntry table idx
    if let some c := s.homeCause issuer table then .error (.lost c)
    else if !e.getLsbD 0 then .error .absent
    else if s.malformed table idx level e then .error .malformed
    else if e.getLsbD 1 then
      .ok { base := fieldN e 12 40 * 0x1000, size := leafSize level (e.getLsbD 5), rd := e.getLsbD 2, wr := e.getLsbD 3,
            ex := e.getLsbD 4, uncached := fieldN e 6 2 == 1, dbl := e.getLsbD 8, owner := fieldN e 9 3,
            keyid := fieldN e 64 16, home := fieldN e 80 12 }
    else
      match level with
      | 0 => .error .malformed
      | l + 1 => s.walk issuer va l (fieldN e 12 40 * 0x1000)

/-- The page of an address of a context, before any check of rights. -/
def State.pageOf (s : State) (issuer : Option Nat) (c : Context) (va : Nat) : Except WalkEnd Page :=
  if (s.rangeDie c.ptroot).isNone then .error .malformed else s.walk issuer va 3 c.ptroot

/-- The key of a byte of a page that is not double-backed, or of its first backing. -/
def Page.keyAt (p : Page) (va : Nat) : Nat := memKey p.home (p.base + va % p.size)

/-- The key material of a page: pages of peers and of the host are plain (R230). -/
def State.pageKm (s : State) (p : Page) : Option (BitVec 512) := if p.home = 0 then s.keyMaterial p.keyid else none

/-- The selector bit of the double-backed range that covers an address, if a bound range does (R266): that of the covering object at the
lowest address. The fields of an object are read without rights checks from the visible backing of their own bytes, which the fuel bounds
where objects cover one another; an object that cannot be read here, by the firmware complex, covers nothing (log 15). -/
def State.selectorFrom (s : State) (c : Context) : Nat → Nat → Option Bool
  | 0, _ => none
  | n + 1, va =>
    let byteAt (a : Nat) : Option Byte :=
      match s.pageOf none c a with
      | .error _ => none
      | .ok p =>
        let hidden := p.dbl && p.home == 0 && s.selectorFrom c n a == some true
        let k := if hidden then p.keyAt a + p.size else p.keyAt a
        if p.home == 0 && (s.homeCause none k).isNone then some (s.peekByte (s.pageKm p) k) else none
    let get (a len : Nat) : Option Nat := ((List.range len).mapM (fun i => byteAt (a + i))).map leVal
    let covering := (s.bounds.filter (fun b => b.ctx == c.id)).filter (fun b =>
      match get b.obj 8, get (b.obj + 0x10) 8 with
      | some base, some size => base ≤ va && va < base + size
      | _, _ => false)
    match argLeast (fun b => b.obj) covering with
    | none => none
    | some b => (get (b.obj + 8) 8).map (fun v => v % 2 == 1)

/-- The selector bit of an address. -/
def State.selector (s : State) (c : Context) (va : Nat) : Option Bool := s.selectorFrom c (s.bounds.length + 1) va

/-- The entry of a peer in the peer table (R384); v = 0 when it cannot be read, which the west I/O die does (DESIGN CHOICE, log 33). -/
def State.peerEntry (s : State) (h : Nat) : BitVec 64 :=
  let a := s.port0.peertab + 8 * h
  if (s.homeCause none a).isSome || s.poisoned (memKey 0 a) 8 then 0
  else BitVec.ofNat 64 (leVal (s.peekBytes none (memKey 0 a) 8))

/-- The device that an access to a home device reaches: this Brynter and the host under their own indices, a peer under the fabric address
that its entry gives (R384), numbered behind the 4,096 indices. Two entries of one fabric address reach one device. -/
def State.deviceOf (s : State) (home : Nat) : Nat :=
  if home = 0 ∨ home = 0xFFF then home else peerDevice (fieldN (s.peerEntry home) 0 16)

/-- The key of a byte of a page without a second backing. -/
def State.plainKey (s : State) (p : Page) (va : Nat) : Nat := memKey (s.deviceOf p.home) (p.base + va % p.size)

/-- The key of a byte of a page: the visible backing, or the hidden one for the writes of copies (R231, R266). -/
def State.backedKey (s : State) (c : Context) (p : Page) (va : Nat) (hidden : Bool) : Nat :=
  if p.dbl && p.home == 0 then
    match s.selector c va with
    | none => p.keyAt va
    | some sel => if sel != hidden then p.keyAt va + p.size else p.keyAt va
  else s.plainKey p va

/-- Whether a page is cached: one of this Brynter as its cache field says, one of the host only over CXL with coherent caching, one of
a peer never (R226). -/
def State.cached (s : State) (p : Page) : Bool :=
  !p.uncached && (p.home == 0 || (p.home == 0xFFF && s.port0.cxl && s.port0.coh))

/-- The ports, of those given, that the 128-byte lines of n bytes at a physical address take (R384). -/
def linePorts (ups : List Nat) (pa n : Nat) : List Nat :=
  (rangeFrom (pa / 128) ((pa + n + 127) / 128)).map (fun line => (ups[Config.portHash line % ups.length]?).getD 0)

/-- The ports of a peer's mask that are up (R384, R387). -/
def State.upPorts (s : State) (home : Nat) : List Nat :=
  (List.range 18).filter (fun i => (s.peerEntry home).getLsbD (16 + i) && (s.ports[i]?.map (·.trained)).getD false)

/-- What an access to n bytes of a peer or of the host meets (R378, R384, R385, R387): the cause, if it is refused or
lost. -/
def State.outsideCause (s : State) (home pa n : Nat) (wr : Bool) : Option Nat :=
  if home = 0xFFF then
    if s.hostRejects.any (fun w => w.1 < pa + n && pa < w.1 + w.2) then some 0x06 else none
  else
    let ups := s.upPorts home
    if !(s.peerEntry home).getLsbD 34 || ups.isEmpty then some 0x06
    else if (linePorts ups pa n).any (fun i => (s.ports[i]?.map (·.failed)).getD false) then some 0x0E
    else if s.peerWindows.any (fun w => w.1 == s.deviceOf home && w.2.1 ≤ pa && pa + n ≤ w.2.1 + w.2.2.1
        && (if wr then w.2.2.2.2 else w.2.2.2.1)) then none
    else some 0x06

/-- What an access from a die to n bytes of a peer or of the host meets on its way to the I/O die that carries its port (R67, R371, R384):
ports 0 to 8 and the host port lie on the west one. -/
def State.wayOut (s : State) (issuer : Nat) (home pa n : Nat) : Option Nat :=
  if home = 0xFFF then s.exitCause issuer westExits
  else (linePorts (s.upPorts home) pa n).findSome? (fun i => s.exitCause issuer (if i < 9 then westExits else eastExits))

/-- The way between the two I/O dies, over whichever die the west one attaches to (R67). -/
def State.acrossCause (s : State) : Option Nat :=
  let ways := (westExits.filter (fun e => (s.die e).ldie.isSome)).map (fun e => s.exitCause e eastExits)
  if ways.any Option.isNone then none else some (if ways.all (· == some 0x06) then 0x06 else 0x0E)

/-- What an access of the firmware complex, on the west I/O die, meets on its way to a peer or to the host (R67, R371, R386). -/
def State.firmwareWay (s : State) (home pa n : Nat) : Option Nat :=
  if home = 0xFFF then none
  else if (linePorts (s.upPorts home) pa n).any (fun i => 9 ≤ i) then s.acrossCause else none

/-- Whether n bytes at a physical address lie in one range of R225, the home die's. -/
def State.inRange (s : State) (pa n : Nat) : Bool :=
  (s.homeDie pa).isSome && (n == 0 || s.homeDie (pa + n - 1) == s.homeDie pa)

/-- What a physical access meets beyond its page's rights: no memory under one of its bytes, an unreachable die, a failed link, a peer's
or the host's refusal (R225, R371, R384). It is issued by a die, or by the firmware complex on the west I/O die. -/
def State.reachCause (s : State) (issuer : Option Nat) (home pa n : Nat) (wr : Bool) : Option Nat :=
  if home = 0 then
    match (s.homeDie pa).filter (fun _ => s.inRange pa n) with
    | none => some 0x06
    | some d => s.wayFrom issuer d
  else (s.outsideCause home pa n wr).orElse (fun _ =>
    match issuer with
    | none => s.firmwareWay home pa n
    | some i => s.wayOut i home pa n)

/-- A byte of a context read by the firmware complex without rights checks, from its visible backing; none if its page does not translate or
cannot be reached. -/
def State.objectByte (s : State) (c : Context) (va : Nat) : Option Byte :=
  match s.pageOf none c va with
  | .ok p =>
    let k := s.backedKey c p va false
    if (s.reachCause none p.home (k % 2 ^ 52) 1 false).isNone then some (s.peekByte (s.pageKm p) k) else none
  | .error _ => none

/-- n bytes of a context read so; none if one of them is. -/
def State.objectNat (s : State) (c : Context) (va n : Nat) : Option Nat :=
  ((List.range n).mapM (fun i => s.objectByte c (va + i))).map leVal

/-- The info of a translation fault: bit 0 for a write, bit 1 for a malformed entry (R229). -/
def walkInfo (acc : Access) (malformed : Bool) : BitVec 32 :=
  (if acc.writes then 1 else 0) + (if malformed then 2 else 0)

/-- Whether a page grants what an access does (R229). -/
def Page.grants (p : Page) (acc : Access) : Bool :=
  match acc with
  | .read => p.rd
  | .write => p.wr
  | .atomic => p.rd && p.wr
  | .fetch => p.ex
  | .update => p.rd && p.wr

/-- Translation and the checks of the page's rights (R224 to R229); an atomic reaches only memory homed here (R297). -/
def State.translatePage (s : State) (ctx : Nat) (issuer : Option Nat) (va : Word) (acc : Access) (hidden : Bool := false) : Except Trap Place :=
  let bad (cause : Nat) (info : BitVec 32) : Except Trap Place := .error { cause := cause, info := info, addr := some va }
  let fetch := acc == .fetch
  if fieldN va 48 16 ≠ 0 then bad (if fetch then 0x04 else 0x06) (walkInfo acc false)
  else
    match s.context ctx with
    | none => bad (if fetch then 0x04 else 0x05) (walkInfo acc false)
    | some c =>
      match s.pageOf issuer c va.toNat with
      | .error (.lost cause) => bad cause (walkInfo acc false)
      | .error m => bad (if fetch then 0x04 else 0x05) (walkInfo acc (m == .malformed))
      | .ok p =>
        if !p.grants acc || p.owner != c.part || (acc == .atomic && p.home != 0) then bad 0x06 (walkInfo acc false)
        else .ok { key := s.backedKey c p va.toNat hidden, km := s.pageKm p, va := va.toNat, page := p }

/-- The memory behind a place reached for n bytes (R225, R371, R384). -/
def State.reach (s : State) (issuer : Option Nat) (p : Place) (n : Nat) (acc : Access) : Except Trap Place :=
  match s.reachCause issuer p.page.home (p.key % 2 ^ 52) n acc.writes with
  | some cause => .error { cause := cause, info := walkInfo acc false, addr := some (BitVec.ofNat 64 p.va) }
  | none => .ok p

/-- Translation and every check of an access of n bytes within one page (R224 to R229). -/
def State.translate (s : State) (ctx : Nat) (issuer : Option Nat) (va : Word) (n : Nat) (acc : Access)
    (hidden : Bool := false) : Except Trap Place :=
  match s.translatePage ctx issuer va acc hidden with
  | .error t => .error t
  | .ok p => s.reach issuer p n acc

/-! ## Accesses of a task -/

/-- Whether the task on stage runs in a deterministic region. -/
def State.det (s : State) : Bool := s.isDet s.task.id.ctx s.task.id.region

/-- An access of the task on stage: translation from its section's die. -/
def State.locate (s : State) (va : Word) (n : Nat) (acc : Access) : Except Trap Place :=
  s.translate s.task.id.ctx (some (s.dieOf s.task)) va n acc

/-- The lane thread whose word issues, if any. -/
def State.curThread (s : State) : Option LaneThread :=
  match s.cur, s.task.split with
  | .lane e, some sp => sp.threads.find? (fun t => t.elem == e)
  | _, _ => none

/-- The physical die of a logical one, for event fields. -/
def State.graphDie (s : State) (gid : Nat) : Nat :=
  match s.graphs.find? (fun g => g.gid == gid) with
  | some g => (s.physDie g.die).getD 0
  | none => 0

/-- The meld of a task. -/
def State.meldOf (s : State) (t : Task) : Option Meld :=
  match t.id.meld with
  | none => none
  | some k => (s.die (s.graphDie t.id.gid)).melds.find? (fun m => m.slot == k)

/-- The address of a meld slot (log 26). -/
def meldAddr (slot : Nat) : Word := BitVec.ofNat 64 (0xFFFF00000000 + 4096 * slot)

/-- The body offset of the issuing party's word. -/
def State.offset (s : State) : Nat :=
  match s.cur, s.task.block with
  | .control, _ => 0
  | .vector, some b => b.off
  | .vector, none => 0
  | .lane _, _ =>
    match s.curThread with
    | some th => th.off
    | none => 0

/-- Where a word of a meld comes from (R134): node, kernel, origin, original address. -/
def Meld.originOf (m : Meld) (inBlock : Bool) (k : Nat) : Nat × Word × Nat × Word :=
  match (if inBlock then m.bodyOrigin else m.controlOrigin)[k]? with
  | some o => if o.who = 2 then (m.c, m.cKernel, 2, o.pc) else (m.p, m.pKernel, 1, o.pc)
  | none => (m.p, m.pKernel, 1, 0)

/-- Whether the issuing word is one of C's in a meld (R134). -/
def State.ofC (s : State) : Bool :=
  match s.meldOf s.task with
  | none => false
  | some m =>
    match s.cur with
    | .control => false
    | _ => (m.originOf true s.offset).2.2.1 == 2

/-- Whether a segment that has ended is one of a task's, of P's or C's in a meld. -/
def State.segmentOf (s : State) (t : Task) (g : Segment) : Bool :=
  g.gid == t.id.gid && g.it == t.id.it && (g.node == t.id.node || (s.meldOf t).map (·.c) == some g.node)

/-- What the segments of a task that have ended have written, merged or not, the latest first (R317). -/
def State.earlierWrites (s : State) (t : Task) : List SetByte :=
  (sortBy (fun (g : Segment) => s.nextSegment - g.sid) (s.segments.filter (s.segmentOf t))).flatMap (·.writes)

/-- The last write to a key that the issuing party's own task has made, or the mark of a direct update after it (R317, R321): a lane thread's
own over the view at the VSPLIT (R320). In a meld, P's words see no write of C, and C's see what P has written so far, not what P writes only after them (R138; DESIGN CHOICE between
the snapshot of R138 and the program order of R137, log 19). -/
def State.ownRecord (s : State) (k : Nat) : Option SetByte :=
  let (lane, all) :=
    match s.curThread, s.task.split with
    | some th, some sp => (setFind th.wset k, sp.view)
    | _, _ => (none, s.task.wset ++ s.earlierWrites s.task)
  let mine := if s.ofC then (all.filter (·.ofC)) ++ all else all.filter (fun c => !c.ofC)
  lane.orElse (fun _ => setFind mine k)

/-- The byte that the issuing party's own task has written last, unless it has updated the byte in memory directly since (R317, R321). -/
def State.ownByte (s : State) (k : Nat) : Option Byte := ((s.ownRecord k).filter (fun c => !c.direct)).map (·.byte)

/-- The segments ordered before the one that the issuing word belongs to (R316, R138); a lane thread sees those of the VSPLIT
(R320). -/
def State.orderedSegments (s : State) : List Nat :=
  match s.ofC, s.task.second, s.curThread, s.task.split with
  | true, some x, _, _ => x.2
  | _, _, some _, some sp => sp.seen
  | _, _, _, _ => s.task.before

/-- Whether a read of n bytes meets a poisoned granule (R353); bytes that a segment has written itself come from its write
set. -/
def State.readPoisoned (s : State) (k n : Nat) : Bool :=
  s.poisoned k n && (!s.det || (List.range n).any (fun i => s.poisoned (k + i) 1 && (s.ownByte (k + i)).isNone))

/-- The check of a read for poison (R353). -/
def State.unpoisoned (s : State) (p : Place) (n : Nat) : Except Trap Place :=
  if s.readPoisoned p.key n then .error { cause := 0x0E, addr := some (BitVec.ofNat 64 p.va) } else .ok p

/-- The check for poison of a read that keeps out of views (R321, R353). -/
def State.cleanDirect (s : State) (p : Place) (n : Nat) : Except Trap Place :=
  if s.poisoned p.key n then .error { cause := 0x0E, addr := some (BitVec.ofNat 64 p.va) } else .ok p

/-- The checks of a read: translation, then poison (R353). -/
def State.locateRead (s : State) (va : Word) (n : Nat) (acc : Access := .read) : Except Trap Place :=
  match s.locate va n acc with
  | .error t => .error t
  | .ok p => s.unpoisoned p n

/-- The checks of an access whose page must meet a test, which comes after its rights and before the memory behind it is reached; a page
that fails it raises 0x06 with the info given (R297, R299, R326). -/
def State.locateIf (s : State) (va : Word) (n : Nat) (acc : Access) (need : Place → Bool) (info : BitVec 32) : Except Trap Place :=
  match s.translatePage s.task.id.ctx (some (s.dieOf s.task)) va acc with
  | .error t => .error t
  | .ok p =>
    if !need p then .error { cause := 0x06, info := info, addr := some va }
    else
      match s.reach (some (s.dieOf s.task)) p n acc with
      | .error t => .error t
      | .ok p => if acc == .write then .ok p else s.unpoisoned p n

/-- Whether the task ID of a segment is the higher one: launch order, then iteration, then node index (R315). -/
def Segment.above (a b : Segment) : Bool :=
  b.gid < a.gid || (b.gid == a.gid && (b.it < a.it || (b.it == a.it && b.node < a.node)))

/-- The segment, of some that wrote one byte and of which the oldest stands first, whose value the byte has: a later one in
their order, and of two that are unordered the one with the higher task ID (R317, R319). -/
def lastWriter : List Segment → Option Segment → Option Segment
  | [], w => w
  | g :: gs, none => lastWriter gs (some g)
  | g :: gs, some w => lastWriter gs (some (if g.before.contains w.sid || (!w.before.contains g.sid && g.above w) then g else w))

/-- The merged segments of the region of the task on stage that have written a byte, or updated it directly; newest first. -/
def State.mergedWriters (s : State) (k : Nat) : List Segment :=
  s.segments.filter (fun g => g.merged && g.ctx == s.task.id.ctx && g.region == s.task.id.region && (setFind g.writes k).isSome)

/-- A byte in memory as no unordered segment has changed it, which a party outside the region, or a direct update, may have written since
(R317, R321). -/
def State.memoryByte (s : State) (km : Option (BitVec 512)) (k : Nat) : Byte :=
  match ((s.mergedWriters k).filter (fun g => !s.orderedSegments.contains g.sid)).reverse.findSome? (fun g => overlayGet g.replaced k) with
  | some b => b
  | none => s.peekByte km k

/-- A byte as a segment of a deterministic region reads it: its own last write, then the merged write ordered before it, then memory (R317);
memory too where the last of these is a direct update (R321). -/
def State.viewByte (s : State) (km : Option (BitVec 512)) (k : Nat) : Byte :=
  let last := (s.ownRecord k).orElse (fun _ =>
    (lastWriter ((s.mergedWriters k).filter (fun g => s.orderedSegments.contains g.sid)).reverse none).bind (fun g => setFind g.writes k))
  match last with
  | some c => if c.direct then s.memoryByte km k else c.byte
  | none => s.memoryByte km k

/-- The n bytes at a place that the task on stage reads. -/
def State.viewBytes (s : State) (p : Place) (n : Nat) : List Byte :=
  (List.range n).map (fun i => if s.det then s.viewByte p.km (p.key + i) else s.peekByte p.km (p.key + i))

/-- The value that the task on stage reads at a place. -/
def State.viewNat (s : State) (p : Place) (n : Nat) : Nat := leVal (s.viewBytes p n)

/-- Whether a stash window of the task on stage covers an address, for the block that runs (R239, R240). -/
def State.inWindow (s : State) (va : Nat) : Bool :=
  let serial := (s.task.block.map (·.serial)).getD 0
  s.task.windows.toList.any (fun w =>
    match w with
    | some w => w.base ≤ va && va < w.base + w.size && w.since ≤ serial
    | none => false)

/-- Whether an access with a policy is served from the stash (R239). -/
def State.stashServed (s : State) (p : Place) (pol : Nat) : Bool :=
  pol == 3 && s.cached p.page && !s.det && s.inWindow p.va

/-- What a read by element e does to the caches: a stash fill or touch, or a recall (R239); one that a task's own writes answer whole reaches none. -/
def State.afterRead (s : State) (p : Place) (n pol : Nat) (e : Nat := 0) : State :=
  if s.det then
    if (List.range n).all (fun i => (s.ownByte (p.key + i)).isSome) then s else s.recallForRead p.key n
  else if s.stashServed p pol then s.touchLine s.task.id.section_ s.task.id.tid p.va p.km p.key false e
  else s.recallForRead p.key n

/-- The LR reservation of a task ended by a write of n bytes at key k (R114). -/
def Task.dropReservation (t : Task) (k n : Nat) : Task :=
  match t.resv with
  | some l => if l * 128 < k + n && k < l * 128 + 128 then { t with resv := none } else t
  | none => t

/-- A segment without the record of what it replaced among n bytes at key k, which a party outside its region has written since (R317). -/
def Segment.forget (k n : Nat) (g : Segment) : Segment :=
  { g with replaced := g.replaced.filter (fun c => c.1 < k || k + n ≤ c.1) }

/-- LR reservations that a write of n bytes at key k by another party ends (R114), and the records that it makes stale (R317). -/
def State.breakReservations (s : State) (k n : Nat) : State :=
  let own := if s.cur = .control then s.task else s.task.dropReservation k n
  { s with task := own, parked := s.parked.map (fun t => t.dropReservation k n), segments := s.segments.map (Segment.forget k n) }

/-- The LR reservation of the task on stage, ended by a write that one of its own other parties keeps in a write set (R321). -/
def State.breakOwn (s : State) (k n : Nat) : State :=
  if s.cur = .control then s else { s with task := s.task.dropReservation k n }

/-- A coherent write by an agent that is no party of a task. -/
def State.agentWrite (s : State) (km : Option (BitVec 512)) (k : Nat) (bs : List Byte) : State :=
  ({ s with task := s.task.dropReservation k bs.length
            parked := s.parked.map (fun t => t.dropReservation k bs.length)
            segments := s.segments.map (Segment.forget k bs.length) } : State).writeCoherent km k bs

/-- The write set that the issuing party writes to changed (R318, R320). What a saved array word writes before the lane threads run stands in
the view that they begin with (R347). -/
def State.onSet (s : State) (f : List SetByte → List SetByte) : State :=
  match s.cur, s.task.split with
  | .lane e, some sp =>
    let ths := mapIf (fun (t : LaneThread) => t.elem == e) (fun t => { t with wset := f t.wset }) sp.threads
    { s with task := { s.task with split := some { sp with threads := ths } } }
  | .vector, some sp => { s with task := { s.task with wset := f s.task.wset, split := some { sp with view := f sp.view } } }
  | _, _ => { s with task := { s.task with wset := f s.task.wset } }

/-- A byte added to the write set that the issuing party writes to. -/
def State.writeSetByte (s : State) (c : SetByte) : State := s.onSet (fun w => setPut w c)

/-- Bytes added to the write set, from offset i of a place on. -/
def State.writeSetMany (s : State) (p : Place) (i : Nat) : List Byte → State
  | [] => s
  | b :: bs =>
    (s.writeSetByte { ofC := s.ofC, key := p.key + i, km := p.km, va := p.va + i, byte := b }).writeSetMany p (i + 1) bs

/-- The write set that the issuing party writes to (R318, R320). -/
def State.curSet (s : State) : List SetByte :=
  match s.curThread with
  | some th => th.wset
  | none => s.task.wset

/-- The 128-byte lines that n bytes at key k would add to the write set that the issuing party writes to. -/
def State.newSetLines (s : State) (k n : Nat) : Nat :=
  let held := setLines s.curSet
  (((List.range n).map (fun i => (s.ofC, (k + i) / 128))).eraseDups.filter (fun l => !held.contains l)).length

/-- A store of the task on stage at a place that has been checked. In a deterministic region it goes to the write set
and may exceed the stash budget (R318); else it is a coherent write, or a stash store under policy st (R239). -/
def State.storeAt (s : State) (p : Place) (bs : List Byte) (pol : Nat := 0) (e : Nat := 0) : Except Trap State :=
  if s.det then
    if s.stashRoom s.task.id.ctx s.task.id.region (128 * s.newSetLines p.key bs.length) then
      .ok ((s.breakOwn p.key bs.length).writeSetMany p 0 bs)
    else .error { cause := 0x0C }
  else
    let s1 := s.breakReservations p.key bs.length
    if s.stashServed p pol then
      let sec := s.task.id.section_
      let s2 := s1.flushLines (fun l => l.section_ != sec && l.line == p.key / 256 * 256)
      let s3 := s2.touchLine sec s.task.id.tid p.va p.km p.key true e
      .ok ((List.range bs.length).foldl (fun s i => s.stashStore sec (p.key + i) (bs[i]?.getD 0) e) s3)
    else .ok (s1.writeCoherent p.km p.key bs)

/-- The poison of every granule that the stores of the task on stage have covered whole cleared (R353); a store into a write set clears
none before its merge. -/
def State.cleanStored (s : State) (keys : List Nat) : State :=
  if s.det then s else s.clearPoison (some s.task.id.section_) keys

/-- The marks of a direct update of n bytes at a place, for the loads of the party's task and of segments ordered after it (R317, R321). -/
def State.markDirect (s : State) (p : Place) (n : Nat) : State :=
  s.onSet (fun w => (List.range n).foldl (fun w i =>
    setMark w { ofC := s.ofC, key := p.key + i, km := p.km, va := p.va + i, byte := 0, direct := true }) w)

/-- A write that keeps out of write sets (R321): the sync group's fields, FX accumulators, absmax. -/
def State.writeDirect (s : State) (p : Place) (bs : List Byte) : State :=
  let s1 := (s.breakReservations p.key bs.length).writeCoherent p.km p.key bs
  if s.det then s1.markDirect p bs.length else s1

/-- A read that keeps out of views (R321). -/
def State.readDirect (s : State) (p : Place) (n : Nat) : Nat := leVal (s.peekBytes p.km p.key n)

/-- What a fetch of a word at an address does to the stash: a line that it reads is written back (R239). -/
def State.afterFetch (s : State) (va : Word) : State :=
  if s.stash.isEmpty then s
  else
    match s.locate va 4 .fetch with
    | .ok p => s.recallForRead p.key 4
    | .error _ => s

/-- What a read by a command processor or by the firmware complex, which are parties (R293), of n bytes at an address of a context does to the
stash: dirty lines are written back (R239). -/
def State.recallAt (s : State) (ctx : Nat) (a : Word) (n : Nat) : State :=
  if s.stash.isEmpty then s
  else
    match s.translate ctx none a n .read with
    | .ok p => s.recallForRead p.key n
    | .error _ => s

/-- The same for bytes of a context that are read without rights checks. -/
def State.recallObject (s : State) (c : Context) (va n : Nat) : State :=
  if s.stash.isEmpty then s
  else
    (List.range n).foldl (fun s i =>
      match s.pageOf none c (va + i) with
      | .ok p => s.recallForRead (s.backedKey c p (va + i) false) 1
      | .error _ => s) s

/-- The checks of R299 and R326 on a page that must be cacheable and homed here. -/
def Place.atHome (p : Place) : Bool := !p.page.uncached && p.page.home == 0

end Sys2Proof.Machine
end

