-- ==== Sys2Proof/Machine/HostPort.lean ====
section
/-! DEFINITION. What the part tells the outside: MSI-X messages, the event ring (R379), the error log (R355), the
request ring (R380). -/

namespace Sys2Proof.Machine

/-- µs since reset, from the 100 MHz ticks (R115, R355). -/
def State.micros (s : State) : Nat := s.ticks / 100

/-- The limits of a partition that govern a pass or a count that began at a time in µs (R382): the newest that held then. -/
def State.limitsAt (s : State) (part t : Nat) : Limits :=
  (((((s.limits[part]?).getD []).find? (fun h => h.1 ≤ t))).map (·.2)).getD Limits.reset

/-- A message of a vector sent (R366, R334). -/
def State.fireMsix (s : State) (v : Nat) : State :=
  { s with port0 := { s.port0 with msixLog := s.port0.msixLog ++ [v] } }

/-- Fields of the given widths in bytes, laid out one after another (R5). -/
def layBytes : List (Nat × Nat) → List Byte
  | [] => []
  | (v, n) :: fs => bytesOf v n ++ layBytes fs

/-- The key of an address of the host's bus (R226, R378). -/
def hostKey (a : Nat) : Nat := memKey 0xFFF a

/-- Bytes that the part writes into host memory. -/
def State.writeHost (s : State) (a : Nat) (bs : List Byte) : State := s.agentWrite none (hostKey a) bs

/-- n bytes of host memory as the part reads them. -/
def State.readHost (s : State) (a n : Nat) : List Byte := s.peekBytes none (hostKey a) n

/-- The address of entry n of a ring (R376). -/
def Ring.slot (r : Ring) (n size : Nat) : Nat := r.base + n % 2 ^ r.lsize * size

/-- Whether a ring that the part writes is enabled and has room. -/
def Ring.hasRoom (r : Ring) : Bool := r.en && r.wr - r.rd < 2 ^ r.lsize

/-- An event posted on the event ring, or dropped on a full or disabled one (R379). -/
def State.postEvent (s : State) (source pdie : Nat) (record : List Byte) : State :=
  let p := s.port0
  let seq := p.evseq
  if p.ev.hasRoom then
    let entry := layBytes [(source, 1), (pdie, 1), (0, 2), (seq.toNat, 4)]
      ++ (record ++ List.replicate (32 - record.length) 0) ++ List.replicate 24 0
    let s1 := s.writeHost (p.ev.slot p.ev.wr 64) entry
    let s2 := { s1 with port0 := { s1.port0 with ev := { p.ev with wr := p.ev.wr + 1 }, evseq := seq + 1 } }
    s2.fireMsix p.ev.msix
  else { s with port0 := { p with evlost := p.evlost + 1, evseq := seq + 1 } }

/-- An event of source 5: a rejected command or access (R379). -/
def State.reject (s : State) (reason index : Nat) : State :=
  s.postEvent 5 0xFF (layBytes [(reason, 1), (0, 3), (index, 8)])

/-- An event of source 4: the status of an action or a command (R379, R382). -/
def State.actionStatus (s : State) (code status seq : Nat) : State :=
  s.postEvent 4 0xFF (layBytes [(code, 1), (status, 1), (0, 2), (seq, 4)])

/-- The key of a request's host-visible entry: its first 16 bytes (R380). -/
def Item.entry (i : Item) : List Byte :=
  layBytes [(i.kind, 1), (i.die, 1), (0, 2), (i.tag, 4), (i.ctx, 4), (0, 4)] ++ bytesOf i.payload.toNat 112

/-- The first request that may be written to the ring: none that waits stands before it on its function (R380). -/
def firstUnposted : List Item → List Nat → Option Item
  | [], _ => none
  | i :: is, seen =>
    if !i.posted && !seen.contains i.kind then some i
    else firstUnposted is (if i.posted then seen else i.kind :: seen)

/-- A waiting request written to the ring (R380). -/
def State.postItem (s : State) (i : Item) : State :=
  let r := s.port0.srq
  let s1 := s.writeHost (r.slot r.wr 128) i.entry
  let items := mapIf (fun (j : Item) => j.tag == i.tag) (fun j => { j with posted := true }) s1.port0.items
  ({ s1 with port0 := { s1.port0 with srq := { r with wr := r.wr + 1 }, items := items } } : State).fireMsix r.msix

/-- Waiting requests written while the ring has room (R380). -/
def State.drainRequests (s : State) : Nat → State
  | 0 => s
  | n + 1 =>
    if s.port0.srq.hasRoom then
      match firstUnposted s.port0.items [] with
      | none => s
      | some i => (s.postItem i).drainRequests n
    else s

/-- A request of a host-assisted function posted, or left waiting for room (R66, R380). -/
def State.postRequest (s : State) (kind die ctx : Nat) (req : Request) (payload : BitVec 896) : State :=
  let i : Item := { tag := s.port0.nextTag, posted := false, kind := kind, die := die, ctx := ctx, req := req,
                    payload := payload }
  let s1 := { s with port0 := { s.port0 with items := s.port0.items ++ [i], nextTag := (s.port0.nextTag + 1) % 2 ^ 32 } }
  s1.drainRequests s1.port0.items.length

/-- The 32 bytes of an error record (R355). -/
def ErrorRecord.bytes (r : ErrorRecord) : List Byte :=
  layBytes [(r.kind, 1), (r.unit_, 1), (r.pdie, 1), (r.psect, 1), (r.count, 4), (r.loc, 8), (r.region.toNat, 8), (r.node, 4),
    (r.time, 4)]

/-- A record put into the error log, coalesced with one of its kind, unit and location, and posted on the event ring (R355). -/
def State.fileError (s : State) (r : ErrorRecord) : State :=
  let same : ErrorRecord → Bool := fun o =>
    o.kind == r.kind && o.unit_ == r.unit_ && o.pdie == r.pdie && o.psect == r.psect && o.loc == r.loc
  let r1 : ErrorRecord :=
    match s.errors.find? same with
    | some o => { o with count := o.count + r.count }
    | none => r
  ({ s with errors := s.errors.filter (fun o => !same o) ++ [r1] } : State).postEvent 3 r.pdie r1.bytes

/-- An error logged, or under TRIAGE sent to the host and logged when it answers (R66, R355, R380). What an unclassified record holds is
not stated: it is the record with its kind (DESIGN CHOICE, log 22). -/
def State.logError (s : State) (kind unit_ pdie psect loc : Nat) (region : Word := 0) (node : Nat := 0xFFFFFFFF) : State :=
  let r : ErrorRecord := { kind := kind, unit_ := unit_, pdie := pdie, psect := psect, count := 1, loc := loc, region := region,
                           node := node, time := s.micros % 2 ^ 32 }
  if s.port0.duty.getLsbD 4 then s.postRequest 5 pdie 0 (.triage r) (BitVec.ofNat 896 (leVal r.bytes)) else s.fileError r

end Sys2Proof.Machine
end

