-- ==== Sys2Proof/Machine/Launch.lean ====
section
/-! DEFINITION. Queues, packets in flight and graphs: queue errors, completion of packets (R37, R40, R41, R365), edges,
retirement of nodes (R56 to R59, R336, R362). -/

namespace Sys2Proof.Machine

/-! ## Queues -/

/-- A queue that the device holds. -/
def State.queue (s : State) (q : Nat) : Option Queue := s.queues.find? (fun x => x.q == q)

/-- The state with a queue changed. -/
def State.modQueue (s : State) (q : Nat) (f : Queue → Queue) : State :=
  { s with queues := mapIf (fun (x : Queue) => x.q == q) f s.queues }

/-- The first 0x38 bytes of a mutable half (R37). -/
def Queue.half (x : Queue) : List Byte :=
  layBytes [(x.rdidx, 8), (x.wrsnap, 8), (x.status, 4), (x.errcode, 4), (x.erridx, 8), (x.errtag, 4), (0, 4),
    (x.fence.toNat, 8), (x.doneidx, 8)]

/-- The mutable half of a queue written; a queue whose mutable half can no longer be written stops (R36, R37). For a queue that has stopped
already nothing is posted (DESIGN CHOICE, log 34). -/
def State.syncQueue (s : State) (q : Nat) : State :=
  match s.queue q with
  | none => s
  | some x =>
    let lost := if x.status = 0 then s else (s.modQueue q (fun x => { x with status := 0 })).reject 6 q
    match s.translate x.ctx none x.mutAddr 56 .write with
    | .ok p => if p.atHome then s.agentWrite p.km p.key x.half else lost
    | .error _ => lost

/-- A queue error (R41): the queue stops, the error fields are written, the vector fires. -/
def State.queueError (s : State) (q code idx tag : Nat) (unstarted : Bool) : State :=
  match s.queue q with
  | none => s
  | some x =>
    let s1 := s.modQueue q (fun x =>
      { x with status := 2, errcode := code, erridx := idx, errtag := tag, errUnstarted := unstarted })
    (s1.syncQueue q).fireMsix x.msix

/-- The index below which every packet of a queue has completed (R37). -/
def State.doneIndex (s : State) (x : Queue) : Nat :=
  leastBy (fun p => p.index) x.rdidx (s.packets.filter (fun p => p.q == x.q && !p.complete))

/-! ## Packets -/

/-- Fields of a packet (R41): kind, flags, tag. -/
def Packet.kind (p : Packet) : Nat := fieldN p.bytes 0 8
def Packet.flags (p : Packet) : Nat := fieldN p.bytes 8 8
def Packet.tag (p : Packet) : Nat := fieldN p.bytes 32 32

/-- A packet taken off the list of those in flight; its vector fires if its flags ask for it (R365). -/
def State.endPacket (s : State) (p : Packet) : State :=
  let s1 := { s with packets := s.packets.filter (fun x => x.pid != p.pid) }
  if p.flags / 2 % 2 == 1 then
    match s1.queue p.q with
    | some x => s1.fireMsix x.msix
    | none => s1
  else s1

/-- Packets of a queue that complete because earlier ones have: FENCE packets, and an INDIRECT whose buffer has run
(R42, R45): one sweep in start order. -/
def State.sweepQueue (s : State) (q : Nat) : State :=
  (s.packets.filter (fun p => p.q == q)).foldl (fun s p =>
    if p.kind == 9 then
      if s.packets.any (fun o => o.q == q && o.pid < p.pid && some o.pid != p.parent) then s
      else (s.modQueue q (fun x => { x with fence := p.bytes.extractLsb' 128 64 })).endPacket p
    else if p.kind == 5 then
      let busy := match s.queue q with
        | some x => (match x.inBuffer with
          | some b => b.1 == p.pid
          | none => false)
        | none => false
      if busy || s.packets.any (fun o => o.parent == some p.pid) then s else s.endPacket p
    else s) s

/-- Completions of a queue carried through, sweep after sweep as long as one may complete a packet, and its mutable half brought up
to date. -/
def State.settleQueue (s : State) (q : Nat) : State :=
  let s1 := s.packets.foldl (fun s _ => s.sweepQueue q) s
  let s2 := s1.modQueue q (fun x => { x with doneidx := s1.doneIndex x })
  s2.syncQueue q

/-- A packet in flight completed. -/
def State.completePacket (s : State) (pid : Nat) : State :=
  match s.packets.find? (fun p => p.pid == pid) with
  | none => s
  | some p => (s.endPacket p).settleQueue p.q

/-! ## Graphs -/

/-- Fields of a node descriptor (R52, R57). -/
def Node.kind (n : Node) : Nat := fieldN n.desc 0 8
def Node.flags (n : Node) : Nat := fieldN n.desc 24 8
def Node.smin (n : Node) : Nat := fieldN n.desc 32 8
def Node.smax (n : Node) : Nat := fieldN n.desc 40 8
def Node.code (n : Node) : Word := n.desc.extractLsb' 64 64
def Node.ctrbase (n : Node) : Word := n.desc.extractLsb' 192 64
def Node.ctrlen (n : Node) : Nat := fieldN n.desc 256 32
def Node.slot (n : Node) (i : Nat) : Word := n.desc.extractLsb' (320 + 64 * i) 64
def Node.cval (n : Node) : Nat := fieldN n.desc 896 64
def Node.cop (n : Node) : Nat := fieldN n.desc 960 8
def Node.splitAt (n : Node) : Nat := fieldN n.desc 968 8
def Node.first (n : Node) : Nat := fieldN n.desc 896 16
def Node.last (n : Node) : Nat := fieldN n.desc 912 16
def Node.maxit (n : Node) : Nat := fieldN n.desc 928 32

/-- Whether a node has retired, in whichever way. -/
def Node.over (n : Node) : Bool := n.status == .retired || n.status == .faulted || n.status == .skipped

/-- Whether a node runs on an engine: a COPY or COLL node that has been dispatched. -/
def Node.onEngine (n : Node) : Bool := n.status == .running && 3 ≤ n.kind && n.kind ≤ 4

/-- A launched graph. -/
def State.graph (s : State) (gid : Nat) : Option Graph := s.graphs.find? (fun g => g.gid == gid)

/-- A node of a graph. -/
def State.node (s : State) (gid n : Nat) : Option Node :=
  match s.graph gid with
  | some g => g.nodes.find? (fun x => x.index == n)
  | none => none

/-- The state with a node changed. -/
def State.modNode (s : State) (gid n : Nat) (f : Node → Node) : State :=
  let fg : Graph → Graph := fun g => { g with nodes := mapIf (fun (x : Node) => x.index == n) f g.nodes }
  { s with graphs := mapIf (fun (g : Graph) => g.gid == gid) fg s.graphs }

/-- The LOOP node whose body holds an index or a child's spawner (R57, R362). -/
def Graph.loopOf (g : Graph) (n : Node) : Option Node :=
  let i := n.spawner.getD n.index
  g.nodes.find? (fun l => l.kind == 6 && l.first ≤ i && i ≤ l.last)

/-- The nodes of a LOOP's body, spawned children included. -/
def Graph.body (g : Graph) (l : Node) : List Node :=
  g.nodes.filter (fun n =>
    let i := n.spawner.getD n.index
    l.first ≤ i && i ≤ l.last)

/-- Whether an edge from a node to an index leaves the LOOP body that holds the node (R57). -/
def Graph.leavesBody (g : Graph) (n : Node) (m : Nat) : Bool :=
  match g.loopOf n with
  | none => false
  | some l => !(l.first ≤ m && m ≤ l.last)

/-- A node made ready (R56, R82). -/
def State.makeReady (s : State) (gid n : Nat) : State :=
  let age := s.nextAge
  let s1 := s.modNode gid n (fun x =>
    { x with status := .ready, age := age, readyAt := s.micros, bypasses := 0, blockedSince := none, asked := false,
             ctrAnswered := false, spliceAnswer := none, draft := none })
  { s1 with nextAge := age + 1 }

/-- One edge of a node lost; it becomes ready with its last (R56). -/
def State.loseEdge (s : State) (gid m : Nat) : State :=
  match s.node gid m with
  | none => s
  | some x =>
    let s1 := s.modNode gid m (fun x => { x with edges := x.edges - 1 })
    if x.edges ≤ 1 && x.status == .waiting then s1.makeReady gid m else s1

/-- The interrupt of a node that retires (R366). -/
def State.nodeInterrupt (s : State) (g : Graph) (n : Node) : State :=
  if n.flags % 2 == 1 then
    match s.queue g.q with
    | some x => s.fireMsix x.msix
    | none => s
  else s

/-- The indices whose edges a retiring node gives up: its own successors that stay in its body, and for a LOOP the edges
that leave its body (R57). -/
def Graph.released (g : Graph) (n : Node) : List Nat :=
  if g.single then []
  else
    let own := n.succ.filter (fun m => !g.leavesBody n m)
    if n.kind == 6 then
      own ++ (g.body n).flatMap (fun b => b.succ.filter (fun m => !(n.first ≤ m && m ≤ n.last)))
    else own

/-- The descendants of an index by successor edges, the bodies of LOOP nodes among them included (R336). -/
def Graph.descend (g : Graph) : Nat → List Nat → List Nat
  | 0, seen => seen
  | k + 1, seen =>
    let next := seen.flatMap (fun i =>
      match g.nodes.find? (fun x => x.index == i) with
      | none => []
      | some x => x.succ ++ (if x.kind == 6 then (g.body x).map (·.index) else []))
    g.descend k (seen ++ next).eraseDups

/-- Every node that descends from the successors of a node. -/
def Graph.descendants (g : Graph) (n : Node) : List Nat :=
  if g.single then [] else g.descend g.nodes.length n.succ.eraseDups

/-- Nodes that have not been dispatched retired without running (R336). A reservation and a pre-emption of such a node stay as they are:
the manual does not end them (DESIGN CHOICE, log 39). -/
def State.skipAll (s : State) (gid : Nat) (idx : List Nat) : State :=
  idx.foldl (fun s i =>
    match s.graph gid, s.node gid i with
    | some g, some x =>
      if x.status == .waiting || x.status == .ready then
        (s.modNode gid i (fun x => { x with status := .skipped })).nodeInterrupt g x
      else s
    | _, _ => s) s

/-- A node retired with a status: its interrupt, its edges, its children, the nodes that a fault skips (R56, R336,
R362). -/
def State.retireNode (s : State) (gid n : Nat) (st : NodeStatus) : State :=
  match s.graph gid, s.node gid n with
  | some g, some x =>
    if x.over then s
    else
      let s1 := (s.modNode gid n (fun x => { x with status := st })).nodeInterrupt g x
      let s2 := if st == .faulted then s1.skipAll gid (g.descendants x) else s1
      let s3 := (g.released x).foldl (fun s m => s.loseEdge gid m) s2
      let unrun := if x.kind == 6 then ((g.body x).filter (fun b => !b.over)).map (·.index) else []
      let s4 := s3.skipAll gid unrun
      let kids := ((g.nodes.filter (fun c => c.spawner == some n && c.it == x.it && c.status == .waiting)).map (·.index))
      if st == .retired then kids.foldl (fun s c => s.makeReady gid c) s4 else s4.skipAll gid kids
  | _, _ => s

/-- A LOOP whose body has retired evaluates again, or retires when a body node faulted (R59, R336). -/
def State.checkLoop (s : State) (gid n : Nat) : State :=
  match s.graph gid, s.node gid n with
  | some g, some x =>
    match g.loopOf x with
    | none => s
    | some l =>
      if l.status == .running && (g.body l).all (fun b => b.over || (b.spawner.isSome && b.it != x.it)) then
        if (g.body l).any (fun b => b.status == .faulted && b.it == x.it) then
          (s.skipAll gid (g.descendants l)).retireNode gid l.index .retired
        else s.makeReady gid l.index
      else s
  | _, _ => s

/-- The completion record of a launch packet, or the error of R365 where it cannot be written: its page is gone, its granule holds an error
that nothing corrects, or its way is lost (log 36). -/
def State.writeRecord (s : State) (p : Packet) (g : Graph) : State :=
  let a : Word := p.bytes.extractLsb' 256 64
  if a = 0 then s
  else
    let faulted := (g.nodes.filter (fun n => n.status == .faulted)).length
    let loops := match argLeast (fun n => n.index) (g.nodes.filter (fun n => n.kind == 6)) with
      | some l => l.loops
      | none => 0
    match s.translate g.ctx none a 16 .write with
    | .ok pl =>
      if s.poisoned pl.key 16 then s.queueError p.q 0x03 p.index p.tag false
      else s.agentWrite pl.km pl.key (layBytes [(fieldN p.bytes 320 64, 8), (faulted, 4), (loops, 4)])
    | .error _ => s.queueError p.q 0x03 p.index p.tag false

/-- Whether a node of a region's subtree is queued or running (R50). -/
def State.subtreeBusy (s : State) (c : Nat) (a : Word) : Bool :=
  s.graphs.any (fun g => g.live && g.ctx == c && s.inSubtree c a g.region)

/-- Roots with their subtrees released: those that no queue names and whose subtree has no node left (R51). -/
def State.releaseRoots (s : State) : State :=
  let spent (r : Region) : Bool :=
    r.root && !s.queues.any (fun x => x.ctx == r.ctx && x.root == r.addr) && !s.subtreeBusy r.ctx r.addr
  let roots := s.regions.filter spent
  { s with regions := s.regions.filter (fun r => !roots.any (fun o => o.ctx == r.ctx && s.inSubtree r.ctx o.addr r.addr)) }

/-- A graph whose nodes have all retired completes its packet (R42, R365); a root that no queue names is released with the last of its
subtree (R51). -/
def State.checkGraph (s : State) (gid : Nat) : State :=
  match s.graph gid with
  | none => s
  | some g =>
    if g.live && g.nodes.all Node.over then
      let s1 := { s with graphs := mapIf (fun (x : Graph) => x.gid == gid) (fun x => { x with live := false }) s.graphs }
      match s1.packets.find? (fun p => p.pid == g.pid) with
      | none => s1.releaseRoots
      | some p => ((s1.writeRecord p g).completePacket p.pid).releaseRoots
    else s

/-- A node retired, with what follows for its LOOP and its graph. -/
def State.retire (s : State) (gid n : Nat) (st : NodeStatus) : State :=
  ((s.retireNode gid n st).checkLoop gid n).checkGraph gid

end Sys2Proof.Machine
end

