-- ==== Sys2Proof/Machine/Deliver.lean ====
section
/-! DEFINITION. Delivery of fault records to fault domains (R333, R334), halted domains (R336), and the faults of nodes
that have no task (R330, R354, R417). -/

namespace Sys2Proof.Machine

/-- The table entry that a fault domain selects (R333). -/
def Context.entry (c : Context) (fdom : Nat) : Nat := if fdom < c.ndom then fdom else 0

/-- The address of a fault-domain entry (R333). -/
def Context.entryAddr (c : Context) (fdom : Nat) : Word := c.fdtab + BitVec.ofNat 64 (64 * c.entry fdom)

/-- A place on a cacheable page of the context homed here, as R333 requires, for an access by Yarrow; a read of a poisoned byte fails, and a
write meets no poison (R353). -/
def State.yarrowPlace (s : State) (ctx : Nat) (va : Word) (n : Nat) (acc : Access) : Option Place :=
  match s.translate ctx none va n acc with
  | .ok p => if p.atHome && (acc == .write || !s.poisoned p.key n) then some p else none
  | .error _ => none

/-- The act field of a fault domain: 1 halts (R333). Of an entry that can no longer be read Yarrow goes by the act that it held at the bind,
since a fault keeps its effect whether or not its record is written (R334; which act it goes by then is a DESIGN CHOICE, log 36). -/
def State.domainHalts (s : State) (ctx fdom : Nat) : Bool :=
  match s.context ctx with
  | none => false
  | some c =>
    match s.yarrowPlace ctx (c.entryAddr fdom + 9) 1 .read with
    | some p => s.peekByte p.km p.key == 1
    | none => c.halts.contains (c.entry fdom)

/-- Whether a fault domain takes records of latent errors too: bit 0 of its flags (R333). -/
def State.domainLatent (s : State) (ctx fdom : Nat) : Bool :=
  match s.context ctx with
  | none => false
  | some c =>
    match s.yarrowPlace ctx (c.entryAddr fdom + 0x0C) 1 .read with
    | some p => (s.peekByte p.km p.key).getLsbD 0
    | none => false

/-- What the read of those flags does to the stash (R239). -/
def State.recallFlags (s : State) (ctx fdom : Nat) : State :=
  match s.context ctx with
  | none => s
  | some c => s.recallAt ctx (c.entryAddr fdom + 0x0C) 1

/-- A record delivered to its domain (R334): written to the ring, or counted as lost, or neither when the entry or the
ring has become unusable. The answer says whether it was written. -/
def State.deliverRecord (s : State) (ctx fdom : Nat) (record : BitVec 512) : State × Bool :=
  match s.context ctx with
  | none => (s, false)
  | some c =>
    let va := c.entryAddr fdom
    let s := s.recallAt ctx va 64
    match s.yarrowPlace ctx va 64 .read, s.yarrowPlace ctx va 64 .write with
    | some p, some _ =>
      let get (off n : Nat) : Nat := leVal (s.peekBytes p.km (p.key + off) n)
      let wr := get 0x10 8
      if wr - get 0x18 8 < 2 ^ get 8 1 then
        let slot : Word := BitVec.ofNat 64 (get 0 8 + wr % 2 ^ get 8 1 * 64)
        match s.yarrowPlace ctx slot 64 .write with
        | none => (s.reject 5 fdom, false)
        | some q =>
          let s1 := s.agentWrite q.km q.key (bytesOf record.toNat 64)
          let s2 := s1.agentWrite p.km (p.key + 0x10) (bytesOf (wr + 1) 8)
          (s2.fireMsix (get 0x0A 2), true)
      else (s.agentWrite p.km (p.key + 0x20) (bytesOf (get 0x20 8 + 1) 8), false)
    | _, _ => (s.reject 5 fdom, false)

/-- A record with flags bit 2 counted among the faults of the melds of its graph's die (R140). -/
def State.countMeld (s : State) (gid : Nat) (record : BitVec 512) : State :=
  if record.getLsbD 10 then s.modDie (s.graphDie gid) (fun d => { d with mfaults := d.mfaults + 1 }) else s

/-- A record delivered of a fault met in a graph, and counted where it is written (R140, R334). -/
def State.deliverCounted (s : State) (gid ctx fdom : Nat) (record : BitVec 512) : State :=
  let d := s.deliverRecord ctx fdom record
  if d.2 then d.1.countMeld gid record else d.1

/-- A domain halted (R336). -/
def State.haltDomain (s : State) (ctx fdom : Nat) : State :=
  let halt : Context → Context := fun c =>
    { c with halted := if c.halted.contains (c.entry fdom) then c.halted else c.halted ++ [c.entry fdom] }
  { s with contexts := mapIf (fun (c : Context) => c.id == ctx) halt s.contexts }

/-- Whether the domain of a region is halted. -/
def State.halted (s : State) (ctx : Nat) (region : Word) : Bool :=
  match s.context ctx with
  | none => false
  | some c => c.halted.contains (c.entry (s.effFdom ctx region))

/-- The record of a node that faults without a task. -/
def nodeRecord (flags fdom node : Nat) (region kernel : Word) (cause : Nat) (addr : Word) (info : Nat) : BitVec 512 :=
  BitVec.ofNat 512 (leVal (layBytes [(cause, 1), (flags, 1), (fdom, 2), (node, 4), (region.toNat, 8), (kernel.toNat, 8),
    (kernel.toNat, 8), (0, 8), (0, 2), (0, 2), (0, 4), (addr.toNat, 8), (info, 4), (0, 4)]))

/-- A node that faults without a task: its record, the domain's act, its retirement (R330, R336, R417). -/
def State.faultNode (s : State) (gid n flags : Nat) (kernel : Word) (cause : Nat) (addr : Word) (info : Nat) : State :=
  match s.graph gid with
  | none => s
  | some g =>
    let fdom := s.effFdom g.ctx g.region
    let halts := s.domainHalts g.ctx fdom
    let s1 := (s.deliverRecord g.ctx fdom (nodeRecord flags fdom n g.region kernel cause addr info)).1
    let s2 := if halts then s1.haltDomain g.ctx fdom else s1
    s2.retire gid n .faulted

end Sys2Proof.Machine
end

