-- ==== Sys2Proof/Machine/Meld.lean ====
section
/-! DEFINITION. Melding (R126 to R141): candidates, the single-block shape, the match of the shared operand, renumbering, the meld's
words with their origins, refusals and their events. The words are read at their places in the encodings (R93 to R110). -/

namespace Sys2Proof.Machine

/-! ## Registers that a block word names -/

/-- The kind of a register field. -/
inductive RegKind where
  | v | x | fl
  deriving DecidableEq, Repr

/-- A register field of a word: its kind, the place of its lowest bit, the registers of its group, whether the word writes it, whether
they are a row of groups that asks no alignment of its whole length: the long vector of a VGATHERG (R160), the containers of a VPACK or
VUNPACK (R221, R222). -/
structure Use where
  kind : RegKind
  lo : Nat
  size : Nat
  writes : Bool
  row : Bool := false
  deriving DecidableEq, Repr

/-- Field shapes: a group that is written or read, a scalar that is written or read, a plan. -/
def dstAt (lo n : Nat) : Use := { kind := .v, lo := lo, size := n, writes := true }
def srcAt (lo n : Nat) : Use := { kind := .v, lo := lo, size := n, writes := false }
def xdAt (lo : Nat) : Use := { kind := .x, lo := lo, size := 1, writes := true }
def xsAt (lo : Nat) : Use := { kind := .x, lo := lo, size := 1, writes := false }
def rowAt (lo n : Nat) (wr : Bool) : Use := { kind := .v, lo := lo, size := n, writes := wr, row := true }
def flAt (lo : Nat) : Use := { kind := .fl, lo := lo, size := 1, writes := false }

/-- The fields of a VA word (R98 to R101) under an LMUL; a VGATHERG reads the table of up to eight registers from its vs2 on (R160). -/
def usesVA (l table f3 f4 sub : Nat) : List Use :=
  let mask := (f3 < 4 && 12 ≤ f4 && f4 ≤ 14) || (4 ≤ f3 && f3 < 7 && 8 ≤ f4 && f4 ≤ 10)
  let d := if mask then 1 else l
  let s := if f4 = 3 then rowAt 20 table false else srcAt 20 l
  match f3 with
  | 0 => [dstAt 7 d, s, srcAt 15 l]
  | 1 => [dstAt 7 d, s, xsAt 15]
  | 2 => [dstAt 7 d, s]
  | 3 => [dstAt 7 d, s, srcAt 15 1]
  | 4 => if f4 = 11 then [dstAt 7 1, srcAt 20 l, srcAt 15 1] else [dstAt 7 d, srcAt 20 l, srcAt 15 l]
  | 5 => [dstAt 7 d, srcAt 20 l, xsAt 15]
  | 6 => [dstAt 7 d, srcAt 20 l, srcAt 15 1]
  | _ =>
    match f4, sub with
    | 0, 1 => [dstAt 7 l, xsAt 20]
    | 0, 2 => [dstAt 7 l, xsAt 20]
    | 0, 3 => [xdAt 7, srcAt 20 1]
    | 0, 4 => [dstAt 7 l]
    | 0, 14 => [dstAt 7 l]
    | 0, k => if k = 11 ∨ k = 12 then [dstAt 7 1, srcAt 20 1] else if 5 ≤ k ∧ k ≤ 10 then [dstAt 7 1, srcAt 20 l] else [dstAt 7 l, srcAt 20 l]
    | 1, k => if 6 ≤ k then [dstAt 7 1, srcAt 20 l] else [dstAt 7 l, srcAt 20 l]
    | _, k =>
      if k = 0 ∨ k = 2 then [dstAt 7 l, srcAt 20 (2 * l)]
      else if k = 1 ∨ k = 3 ∨ k = 4 then [dstAt 7 (2 * l), srcAt 20 l]
      else if k = 7 then [dstAt 7 1, srcAt 20 l]
      else [dstAt 7 l, srcAt 20 l]

/-- The fields of a VM word (R102). -/
def usesVM (l mop : Nat) : List Use :=
  match mop with
  | 0 => [dstAt 7 l, xsAt 15]
  | 1 => [dstAt 7 l, xsAt 15, xsAt 20]
  | 2 => [dstAt 7 l, xsAt 15, srcAt 20 l]
  | 3 => [dstAt 7 l, xsAt 15, srcAt 20 l]
  | 4 => [srcAt 7 l, xsAt 15]
  | 5 => [srcAt 7 l, xsAt 15, xsAt 20]
  | 6 => [srcAt 7 l, xsAt 15, srcAt 20 l]
  | _ => [srcAt 7 l, xsAt 15]

/-- The fields of an XA word (R104 to R109); k is the field count of the plan that a VPACK or VUNPACK names, whose containers lie in k
groups one after another (R221, R222). -/
def usesXA (l k f3 f4 : Nat) : List Use :=
  match f3, f4 with
  | 0, 0 => [srcAt 20 l, srcAt 15 l]
  | 0, 1 => [srcAt 20 l, srcAt 15 l]
  | 0, 3 => [xsAt 7, srcAt 20 l, srcAt 15 1]
  | 1, 2 => [dstAt 7 2]
  | 1, _ => [dstAt 7 l, xsAt 15]
  | 2, _ => [xsAt 20, xsAt 15]
  | 3, n =>
    flAt 28 :: (match n / 4 with
      | 2 => [dstAt 7 (2 * l), srcAt 20 l, srcAt 15 1]
      | 3 => [dstAt 7 1, srcAt 20 l, srcAt 15 l]
      | _ => [dstAt 7 (2 * l), srcAt 20 l, srcAt 15 l])
  | 4, 0 => [dstAt 7 l, rowAt 20 (k * l) false, flAt 15]
  | 4, 1 => [rowAt 7 (k * l) true, srcAt 20 l, flAt 15]
  | 4, 2 => [dstAt 7 l, srcAt 20 (2 * l), flAt 15]
  | 4, 8 => [xsAt 20, flAt 7]
  | 4, 9 => [xdAt 7, flAt 15]
  | 4, 10 => [xsAt 20]
  | 4, 11 => [xsAt 20]
  | 4, 12 => [xdAt 7]
  | 5, 4 => [xsAt 15]
  | 5, 6 => [xdAt 7]
  | 5, 7 => [xdAt 7]
  | 5, 8 => [srcAt 20 1]
  | 5, 9 => [xsAt 15]
  | 6, n => if 1 ≤ n ∧ n ≤ 4 then [srcAt 20 l, srcAt 15 l] else []
  | _, _ => []

/-- The register fields of a block word under an LMUL and a number of registers, with the field count of each plan register. -/
def wordUses (l top : Nat) (plans : Nat → Nat) (w : BitVec 32) : List Use :=
  let f3 := fieldN w 12 3
  let f4 := fieldN w 28 4
  match fieldN w 0 7 with
  | 0x0B => usesVA l (min 8 (top - fieldN w 20 5)) f3 f4 (fieldN w 15 5)
  | 0x2B => usesVM l (fieldN w 29 3)
  | 0x5B => usesXA l (plans (fieldN w 15 2)) f3 f4
  | _ => []

/-- Whether a word has a vm field, and it is 0: it then names v0 (R131). -/
def masked (w : BitVec 32) : Bool :=
  let f3 := fieldN w 12 3
  let f4 := fieldN w 28 4
  let has : Bool := match fieldN w 0 7 with
    | 0x0B => true
    | 0x2B => true
    | 0x5B => (f3 == 0 && f4 != 2) || f3 == 1 || f3 == 3 || (f3 == 4 && f4 ≤ 2) || (f3 == 5 && f4 == 8) || (f3 == 6 && f4 == 0)
    | _ => false
  has && !w.getLsbD 25

/-- The number in a field of a word. -/
def Use.num (u : Use) (w : BitVec 32) : Nat := fieldN w u.lo (if u.kind == .fl then 2 else 5)

/-- Registers that some words name together: the first, how many, the alignment that they keep. -/
structure Span where
  first : Nat
  size : Nat
  align : Nat
  deriving DecidableEq, Repr

/-- The groups of vector registers that a word names; a masked word names v0. -/
def spansOf (l top : Nat) (plans : Nat → Nat) (w : BitVec 32) : List Span :=
  ((wordUses l top plans w).filter (fun u => u.kind == .v)).map (fun u =>
      { first := u.num w, size := u.size, align := if u.row then l else max l u.size })
    ++ (if masked w then [{ first := 0, size := 1, align := l }] else [])

/-- The groups as first register and size. -/
def groupsOf (l top : Nat) (plans : Nat → Nat) (w : BitVec 32) : List (Nat × Nat) := (spansOf l top plans w).map (fun g => (g.first, g.size))

/-- The registers of a kind, other than vectors, that a word names; x0 is none. -/
def namesOf (k : RegKind) (w : BitVec 32) : List Nat :=
  (((wordUses 1 32 (fun _ => 1) w).filter (fun u => u.kind == k)).map (fun u => u.num w)).filter (fun n => k != .x || n != 0)

/-- Whether a word writes block scalar r, or some of a group of vector registers. -/
def writesX (r : Nat) (w : BitVec 32) : Bool := (wordUses 1 32 (fun _ => 1) w).any (fun u => u.kind == .x && u.writes && u.num w == r)
def writesV (l : Nat) (plans : Nat → Nat) (first n : Nat) (w : BitVec 32) : Bool :=
  (wordUses l 32 plans w).any (fun u => u.kind == .v && u.writes && u.num w < first + n && first < u.num w + u.size)

/-! ## Words that the shape names (R127) -/

/-- Whether a word has the fixed bits of an encoding. -/
def wordIs (mask bits w : BitVec 32) : Bool := w &&& mask == bits

def isVdecl (w : BitVec 32) : Bool := wordIs 0xFE0FFFFF 0x0200107B w && fieldN w 20 5 < 3
def isVsetcfgi : BitVec 32 → Bool := wordIs 0x000E707F 0x0000007B
def isVblk : BitVec 32 → Bool := wordIs 0xFFF07FFF 0x0000505B
def isVloop (w : BitVec 32) : Bool := wordIs 0xFFF07FFF 0x4000505B w
def isVstrip (w : BitVec 32) : Bool := w == 0x3000505B
def isVlbnz (w : BitVec 32) : Bool := wordIs 0xFE007FFF 0x5000505B w
def isVle : BitVec 32 → Bool := wordIs 0xE5F0007F 0x0000002B
def isVse : BitVec 32 → Bool := wordIs 0xE1F0007F 0x8000002B
def isBaddvl : BitVec 32 → Bool := wordIs 0xFFFC707F 0x7000505B

/-- The words that a melded block does not hold: VPOST, VCOND, VMVXS, VRNG, VAMO, VAPPEND, any custom-3 instruction. -/
def barred (w : BitVec 32) : Bool :=
  wordIs 0xFFF07FFF 0x9000505B w || wordIs 0xF40FFFFF 0x8000505B w || wordIs 0xF40FF07F 0x0001F00B w || wordIs 0xFDFFF07F 0x0007700B w
    || wordIs 0xE000007F 0x6000002B w || wordIs 0xE000007F 0xE000002B w || fieldN w 0 7 == 0x7B

/-- A kernel in the single-block shape, for one of its marks. -/
structure Shape where
  node : Node
  mark : SpliceMark
  kernel : Kernel
  control : List (BitVec 32)
  decl : Option (BitVec 32)
  cfg : BitVec 32
  vblk : Nat
  h1 : BitVec 32
  h2 : BitVec 32
  body : List (BitVec 32)
  /-- Offsets of the VLOOP, the VSTRIP and the VLBNZ. -/
  loop : Nat
  strip : Nat
  back : Nat
  deriving DecidableEq, Repr

/-- A word of code as the dealer reads it (R128), or 0x0E. -/
def State.dealerWord (s : State) (ctx die : Nat) (a : Word) : Except Nat (BitVec 32) :=
  match s.translate ctx (some die) a 4 .fetch with
  | .error _ => .error 0x0E
  | .ok p => if s.poisoned p.key 4 then .error 0x0E else .ok (BitVec.ofNat 32 (leVal (s.peekBytes p.km p.key 4)))

/-- n words of code from an address on. -/
def State.dealerWords (s : State) (ctx die : Nat) (a : Word) : Nat → Except Nat (List (BitVec 32))
  | 0 => .ok []
  | n + 1 =>
    match s.dealerWord ctx die a with
    | .error c => .error c
    | .ok w =>
      match s.dealerWords ctx die (a + 4) n with
      | .error c => .error c
      | .ok ws => .ok (w :: ws)

/-- The place of the one word of a body that meets a test, if there is exactly one. -/
def only (p : BitVec 32 → Bool) (body : List (BitVec 32)) : Option Nat :=
  if (body.filter p).length = 1 then (findPlace p body 0).map (·.1) else none

/-- The slot value of launch-slot register r (R54). -/
def Node.slotReg (n : Node) (r : Nat) : Word := n.slot (r - 10)

/-- The shape of a kernel for one of its marks (R127), or the code of its refusal. A mark whose block is not the one that the VBLK's slot
names is of another block than the one dispatched, and the kernel is refused as out of shape (DESIGN CHOICE, log 34). -/
def State.shapeOf (s : State) (g : Graph) (die : Nat) (n : Node) (k : Kernel) (m : SpliceMark) : Except Nat Shape :=
  match s.dealerWord g.ctx die n.code with
  | .error c => .error c
  | .ok w0 =>
    let decl := if isVdecl w0 then some w0 else none
    let skip := if decl.isSome then 1 else 0
    match s.dealerWords g.ctx die (n.code + BitVec.ofNat 64 (4 * skip)) 4 with
    | .error c => .error c
    | .ok ctl =>
      match ctl with
      | [cfg, vb, dq, td] =>
        let xs := fieldN vb 15 5
        if !isVsetcfgi cfg || fieldN cfg 7 5 ≠ 0 || !isVblk vb || dq ≠ 0x2000505B || td ≠ 0x0000607B || xs < 10 || 15 < xs
            || n.slotReg xs ≠ m.block then .error 0x02
        else
          match s.dealerWords g.ctx die m.block 3 with
          | .error c => .error c
          | .ok hs =>
            match hs with
            | [h0, h1, h2] =>
              if fieldN h0 24 8 ≠ 0xB1 || fieldN h0 8 16 ≠ 1 || fieldN h0 0 8 = 0 || 253 < fieldN h0 0 8 || h1.getLsbD 0 || h1.getLsbD xs
                  || k.xmask.getLsbD xs || !k.hasRegs || k.uses ≠ 0 then .error 0x02
              else
                match s.dealerWords g.ctx die (m.block + 12) (fieldN h0 0 8) with
                | .error c => .error c
                | .ok body =>
                  match only isVloop body, only isVstrip body, only isVlbnz body with
                  | some lp, some st, some bk =>
                    if st ≠ m.inner || !(lp < st && st < bk) || bk ≠ st + fieldN ((body[bk]?).getD 0) 15 10 || body.any barred then .error 0x02
                    else
                      .ok { node := n, mark := m, kernel := k, control := (match decl with
                              | some d => d :: ctl
                              | none => ctl),
                            decl := decl, cfg := cfg, vblk := xs, h1 := h1, h2 := h2, body := body, loop := lp, strip := st, back := bk }
                  | _, _, _ => .error 0x02
            | _ => .error 0x02
      | _ => .error 0x02

/-- LMUL of a kernel's VSETCFGI: vcfg bits [4:3] stand in bits [24:23] of the word (R110, R146). -/
def Shape.lmul (k : Shape) : Nat := 2 ^ fieldN k.cfg 23 2

/-- The word that a kernel's mark names. -/
def Shape.matched (k : Shape) : BitVec 32 := (k.body[k.mark.word]?).getD 0

/-- The slot value that a block scalar captures, if it captures a launch-slot register. -/
def Shape.captured (k : Shape) (r : Nat) : Option Word := if 10 ≤ r ∧ r ≤ 15 ∧ k.h1.getLsbD r then some (k.node.slotReg r) else none

/-- The offset of the BADDVL on the base of the matched word, if the base keeps the row Bases of R128. -/
def Shape.bump (k : Shape) (buf : Nat) (esize : Nat) : Option Nat :=
  let r := fieldN k.matched 15 5
  match k.captured r, only (writesX r) k.body with
  | some v, some j =>
    let w := (k.body[j]?).getD 0
    if v.toNat = buf ∧ k.strip < j ∧ j < k.back ∧ isBaddvl w ∧ fieldN w 15 3 = esize then some j else none
  | _, _ => none

/-! ## The match (R128) -/

/-- Fields of an operand record (R53). -/
def opBuf (r : BitVec 256) : Nat := fieldN r 0 64
def opMode (r : BitVec 256) : Nat := fieldN r 64 8
def opTransient (r : BitVec 256) : Bool := r.getLsbD 72
def opRank (r : BitVec 256) : Nat := fieldN r 80 8
def opEsize (r : BitVec 256) : Nat := fieldN r 88 8
def opExt0 (r : BitVec 256) : Nat := fieldN r 96 16
def opStride0 (r : BitVec 256) : Nat := fieldN r 160 32

/-- Whether two records describe the same tile: buf, rank, esize, extents and strides. -/
def sameTile (a b : BitVec 256) : Bool :=
  opBuf a == opBuf b && opRank a == opRank b && opEsize a == opEsize b && fieldN a 96 48 == fieldN b 96 48 && fieldN a 160 96 == fieldN b 160 96

/-- The trip count of a kernel's loop: the slot value that its VLOOP reads. -/
def Shape.trips (k : Shape) : Option Word :=
  let r := fieldN ((k.body[k.loop]?).getD 0) 15 5
  if (k.body.take k.loop).any (writesX r) then none else k.captured r

/-- The field count of a plan register that a block sets once, from a launch slot that no word of it writes (R209); else the greatest
that a plan can have, 7, because the dealer cannot know it (log 34). -/
def Shape.plans (k : Shape) (fl : Nat) : Nat :=
  let sets (w : BitVec 32) : Bool := wordIs 0xF000707F 0x8000405B w && fieldN w 7 2 == fl
  match only sets k.body with
  | none => 7
  | some i =>
    let r := fieldN ((k.body[i]?).getD 0) 20 5
    if k.body.any (writesX r) then 7
    else match k.captured r with
      | some v => min 7 (fieldN v 3 3 + 1)
      | none => 7

/-- The rows of R128 in table order, for the records that the marks name: the code of the first that fails. -/
def matchFailure (p c : Shape) (po co : BitVec 256) : Option Nat :=
  let e := opEsize po
  let l := p.lmul
  let eew (k : Shape) : Nat := fieldN k.matched 12 3
  let inLoop (k : Shape) : Bool := k.strip < k.mark.word && k.mark.word < k.back
  let others := p.body.drop (p.mark.word + 1)
  let rows : List (Bool × Nat) :=
    [(sameTile po co, 0x03), (opMode po == 2 && opMode co == 1, 0x03), (opRank po == 1 && opStride0 po == 2 ^ e, 0x03),
     (isVse p.matched && isVle c.matched && eew p == e && eew c == e, 0x03), (p.matched.getLsbD 25 && c.matched.getLsbD 25, 0x03),
     (inLoop p && inLoop c, 0x03), ((p.bump (opBuf po) e).isSome && (c.bump (opBuf co) e).isSome, 0x03),
     (p.trips.isSome && p.trips == c.trips && p.trips.map (·.toNat) == some (opExt0 po), 0x04),
     (!(others.take (p.back - p.mark.word - 1)).any (writesV l p.plans (fieldN p.matched 7 5) l)
        && !(c.body.take c.mark.word ++ c.body.drop (c.mark.word + 1)).any (writesV c.lmul c.plans (fieldN c.matched 7 5) c.lmul), 0x03),
     (!(p.node.ops.mapIdx (fun i r => (i, r))).any (fun q => q.1 != p.mark.operand && (opMode q.2 == 2 || opMode q.2 == 3)
        && c.node.ops.any (fun r => opBuf r == opBuf q.2)), 0x0A),
     (p.cfg == c.cfg && p.decl == c.decl && p.kernel.vdecl == c.kernel.vdecl, 0x05),
     (max p.node.smin c.node.smin ≤ min p.node.smax c.node.smax, 0x09)]
  (rows.find? (fun r => !r.1)).map (·.2)

/-! ## Renumbering (R131) -/

/-- New numbers: a vector group's first register, size and new first register; old and new scalars and plans. -/
structure Renumbering where
  vs : List (Nat × Nat × Nat)
  xs : List (Nat × Nat)
  fls : List (Nat × Nat)
  deriving DecidableEq, Repr

/-- Whether a group meets one of some groups. -/
def meets (first n : Nat) (gs : List (Nat × Nat)) : Bool := gs.any (fun g => g.1 < first + n && first < g.1 + g.2)

/-- Groups given their new places one after another, lowest first; none when no place is left. R131 aligns a group to the LMUL of the
VSETCFGI, a single register too; a group that its words ask to be aligned to more keeps its place in that greater alignment, in whole
LMULs (DESIGN CHOICE, log 34). -/
def placeGroups (l top : Nat) : List Span → List (Nat × Nat) → List (Nat × Nat × Nat) → Option (List (Nat × Nat × Nat))
  | [], _, acc => some acc
  | g :: gs, taken, acc =>
    let rest := g.first % g.align / l * l
    match (rangeFrom 1 top).find? (fun k => k % g.align == rest && k + g.size ≤ top && !meets k g.size taken) with
    | none => none
    | some k => placeGroups l top gs ((k, g.size) :: taken) (acc ++ [(g.first, g.size, k)])

/-- Two groups that overlap, the first starting no higher, as one. -/
def Span.with (a b : Span) : Span :=
  { first := a.first, size := max (a.first + a.size) (b.first + b.size) - a.first, align := max a.align b.align }

/-- Groups in ascending order, those that overlap as one. -/
def joinSpans : List Span → List Span → List Span
  | [], acc => acc.reverse
  | g :: gs, [] => joinSpans gs [g]
  | g :: gs, a :: acc => if g.first < a.first + a.size then joinSpans gs (a.with g :: acc) else joinSpans gs (g :: a :: acc)

/-- The groups that some words name, with some more. -/
def groupsNamed (l top : Nat) (plans : Nat → Nat) (ws : List (BitVec 32)) (extra : List Span) : List Span :=
  joinSpans (sortBy (fun g => g.first) (extra ++ ws.flatMap (spansOf l top plans))) []

/-- Registers given the lowest numbers that are free, in ascending order. -/
def placeLow (old free : List Nat) : Option (List (Nat × Nat)) := if old.length ≤ free.length then some (old.zip free) else none

/-- The register numbers of a kind that some words name, ascending. -/
def regsNamed (k : RegKind) (ws : List (BitVec 32)) : List Nat := sortBy (fun (n : Nat) => n) ((ws.flatMap (namesOf k)).eraseDups)

/-- The renumbering of the words of C that remain, or the code of its refusal. C names v0 where a register field other than one of the
matched group's holds it, and where a word is masked. That the matched VLE's destination lies inside a group of C that starts lower, or
starts a group too wide to lie on P's registers beside the VSE's, is refused as a lack of groups: R131 does not speak of it (DESIGN CHOICE,
log 34). Nor of a group of more than one register that starts at v0: it keeps its place there, and is refused in the same way where P names one
of its other registers, or where they are not all there or meet those of the VSE's group (DESIGN CHOICE, log 34). -/
def renumbering (p c : Shape) (rest : List (BitVec 32)) : Except Nat Renumbering :=
  let l := p.lmul
  let top := match p.decl with
    | none => 32
    | some d => if fieldN d 20 5 = 1 then 12 else if fieldN d 20 5 = 2 then 6 else 32
  let mine := p.body.flatMap (groupsOf l top p.plans)
  let vle := fieldN c.matched 7 5
  let vse := fieldN p.matched 7 5
  let dest : Span := { first := vle, size := l, align := l }
  let gs := groupsNamed l top c.plans rest [dest]
  -- the group that starts at the VLE's destination; past LMUL it must lie on registers that P does not name
  let wide := (gs.find? (fun g => g.first == vle)).getD dest
  let low := if vle = 0 then [] else gs.filter (fun g => g.first == 0)
  let fixed : List (Nat × Nat × Nat) := (vle, wide.size, vse) :: low.map (fun g => (0, g.size, 0))
  let namesV0 := if vle = 0 then rest.any masked else !low.isEmpty
  if namesV0 ∧ mine.any (fun g => g.1 == 0) then .error 0x07
  else if gs.any (fun g => g.first < vle && vle < g.first + g.size) || (l < wide.size && (vse % wide.align != vle % wide.align
      || top < vse + wide.size || meets (vse + l) (wide.size - l) mine))
      || low.any (fun g => top < g.size || meets 1 (g.size - 1) ((vse, wide.size) :: mine)) then .error 0x06
  else
    let taken := mine ++ fixed.map (fun f => (f.2.2, f.2.1))
    match placeGroups l top (gs.filter (fun g => !fixed.any (fun f => f.1 == g.first))) taken fixed with
    | none => .error 0x06
    | some vs =>
      let px := p.vblk :: regsNamed .x p.body
      let pf := regsNamed .fl p.body
      match placeLow (regsNamed .x rest) ((rangeFrom 1 32).filter (fun r => !px.contains r)),
            placeLow (regsNamed .fl rest) ((List.range 4).filter (fun r => !pf.contains r)) with
      | some xs, some fls => .ok { vs := vs, xs := xs, fls := fls }
      | _, _ => .error 0x07

/-- The new number of a vector register. -/
def Renumbering.v (m : Renumbering) (r : Nat) : Option Nat :=
  (m.vs.find? (fun g => g.1 ≤ r && r < g.1 + g.2.1)).map (fun g => g.2.2 + (r - g.1))

/-- The new number of a scalar or a plan. -/
def newNumber (l : List (Nat × Nat)) (r : Nat) : Nat := ((l.find? (fun q => q.1 == r)).map (·.2)).getD r

/-- A word of C with its register fields rewritten in place. The mask of a masked word is v0, which no field names: where the matched VLE's
destination was v0, the word reads the meld's v0 and not P's data register (DESIGN CHOICE, log 34). -/
def Renumbering.word (m : Renumbering) (l : Nat) (w : BitVec 32) : BitVec 32 :=
  (wordUses l 32 (fun _ => 1) w).foldl (fun a u =>
    match u.kind with
    | .v => setFieldN a u.lo 5 ((m.v (u.num w)).getD (u.num w))
    | .x => setFieldN a u.lo 5 (newNumber m.xs (u.num w))
    | .fl => setFieldN a u.lo 2 (newNumber m.fls (u.num w))) w

/-- A mask of registers renumbered; a register that no remaining word names has no bit. -/
def maskOf (f : Nat → Option Nat) (h : BitVec 32) : BitVec 32 :=
  (List.range 32).foldl (fun a r =>
    match (if h.getLsbD r then f r else none) with
    | some k => a ||| (1#32 <<< k)
    | none => a) 0

/-! ## The meld (R130, R132 to R134) -/

/-- The words of a body at some offsets, with their origins. -/
def Shape.items (k : Shape) (who : Nat) (f : BitVec 32 → BitVec 32) (js : List Nat) : List (BitVec 32 × Origin) :=
  js.map (fun j => (f ((k.body[j]?).getD 0), { who := who, pc := k.mark.block + 12 + BitVec.ofNat 64 (4 * j) }))

/-- The meld of two kernels that match, or the code of its refusal with the length that was built. -/
def buildMeld (g : Graph) (det : Bool) (p c : Shape) (po co : BitVec 256) : Except (Nat × Nat) Draft :=
  let l := p.lmul
  let bump := (c.bump (opBuf co) (opEsize po)).getD 0
  let cHead := (List.range c.strip).filter (fun j => j != c.loop)
  let cLoop := (rangeFrom (c.strip + 1) c.back).filter (fun j => j != c.mark.word && j != bump)
  let cTail := rangeFrom (c.back + 1) c.body.length
  let rest := (cHead ++ cLoop ++ cTail).map (fun j => (c.body[j]?).getD 0)
  match renumbering p c rest with
  | .error code => .error (code, 0)
  | .ok m =>
    let elided := opTransient co && !det
    let ours := p.items 1 (fun w => w)
    let theirs := c.items 2 (m.word l)
    let pLoop := (rangeFrom (p.strip + 1) p.back).filter (fun j => !(elided && j == p.mark.word))
    let d := 1 + pLoop.length + cLoop.length
    let body := ours (List.range p.strip) ++ theirs cHead ++ ours [p.strip] ++ ours pLoop ++ theirs cLoop
      ++ p.items 1 (fun w => setFieldN w 15 10 d) [p.back] ++ ours (rangeFrom (p.back + 1) p.body.length) ++ theirs cTail
    if 253 < body.length then .error (0x08, body.length)
    else
      let slots := (List.range 6).foldl (fun (x : Vector Word 32) i => x.set! (10 + i) (p.node.slot i)) (Vector.replicate 32 0)
      let starts := m.xs.foldl (fun (x : Vector Word 32) q =>
        x.setIfInBounds q.2 (if 10 ≤ q.1 ∧ q.1 ≤ 15 then c.node.slotReg q.1 else 0)) slots
      let newX (r : Nat) : Option Nat := (m.xs.find? (fun q => q.1 == r)).map (·.2)
      .ok
        { elided := elided
          meld :=
            { slot := 0, gid := g.gid, p := p.node.index, c := c.node.index, it := p.node.it, pKernel := p.node.code,
              cKernel := c.node.code, cCtrbase := c.node.ctrbase, cCtrlen := c.node.ctrlen, control := p.control,
              controlOrigin := p.control.mapIdx (fun i _ => { who := 1, pc := p.node.code + BitVec.ofNat 64 (4 * i) }),
              h0 := BitVec.ofNat 32 (body.length + 0x100 + 0xB1000000), h1 := p.h1 ||| maskOf newX c.h1,
              h2 := p.h2 ||| maskOf m.v c.h2, body := body.map (·.1), bodyOrigin := body.map (·.2), starts := starts,
              vblk := p.vblk, poisoned := false } }

/-- The x registers at the start of a meld: the VBLK register holds the address of its block (R133). -/
def meldRegs (m : Meld) : Vector Word 32 := m.starts.setIfInBounds m.vblk (meldAddr m.slot + 0x40)

/-- The lowest of the 512 slots of a die that is free (R130). -/
def firstFreeSlot (ms : List Meld) : Option Nat := (List.range 512).find? (fun k => !ms.any (fun m => m.slot == k))

/-! ## Candidates and refusals (R126, R139, R140) -/

/-- A refused pair: C's index, the code, the body length if it was built, whether the host has had a part in it. -/
structure Refused where
  c : Nat
  code : Nat
  words : Nat
  host : Bool := false
  deriving DecidableEq, Repr

/-- What the candidates of a node come to. -/
inductive MeldChoice where
  | none (refusals : List Refused)
  | pair (refusals : List Refused) (c : Nat) (draft : Draft)

/-- The loader's data of a kernel. -/
def State.kernelOf (s : State) (ctx : Nat) (n : Node) : Option Kernel := s.kernels.find? (fun k => k.ctx == ctx && k.entry == n.code)

/-- The eligible marks of a kernel with a role, in record order. -/
def Kernel.eligible (k : Option Kernel) (role : Nat) : List (Kernel × SpliceMark) :=
  match k with
  | none => []
  | some k => (k.marks.filter (fun m => m.role == role && m.eligible)).map (fun m => (k, m))

/-- One pair of marks judged by R127 and R128. Where both kernels are out of shape or cannot be read, or one kernel is for two reasons, the
code is that of P before that of C, and in each that of the first word which gives one, in the order in which the words are read: the manual
does not order them (DESIGN CHOICE, log 34). -/
def State.judgePair (s : State) (g : Graph) (die : Nat) (p c : Node) (mp mc : Kernel × SpliceMark) :
    Except Nat (Shape × Shape × BitVec 256 × BitVec 256) :=
  match s.shapeOf g die p mp.1 mp.2, s.shapeOf g die c mc.1 mc.2 with
  | .error e, _ => .error e
  | _, .error e => .error e
  | .ok a, .ok b =>
    match p.ops[mp.2.operand]?, c.ops[mc.2.operand]? with
    | some po, some co =>
      match matchFailure a b po co with
      | some e => .error e
      | none => .ok (a, b, po, co)
    | _, _ => .error 0x03

/-- The first pair of marks that passes, or the code of the first pair tried. -/
def firstPair {α : Type} : List (Except Nat α) → Nat → Except Nat α
  | [], code => .error code
  | .ok a :: _, _ => .ok a
  | .error e :: rest, code => firstPair rest (if code = 0 then e else code)

/-- A candidate evaluated: a draft, or its refusal. -/
def State.evaluate (s : State) (g : Graph) (die : Nat) (p c : Node) : Except (Nat × Nat) Draft :=
  let ps := Kernel.eligible (s.kernelOf g.ctx p) 1
  let cs := Kernel.eligible (s.kernelOf g.ctx c) 2
  if ps.isEmpty || cs.isEmpty then .error (0x01, 0)
  else
    match firstPair (ps.flatMap (fun a => cs.map (fun b => s.judgePair g die p c a b))) 0 with
    | .error e => .error (e, 0)
    | .ok (a, b, po, co) => buildMeld g (s.isDet g.ctx g.region) a b po co

/-- The candidates of a node: successors that only it holds back, in ascending index (R126); one outside a LOOP body that holds the
node loses its edge only with the LOOP (R57). -/
def Graph.partners (g : Graph) (p : Node) : List Node :=
  (sortBy (fun (n : Nat) => n) p.succ.eraseDups).filterMap (fun i =>
    match g.nodes.find? (fun n => n.index == i) with
    | none => none
    | some c =>
      if c.kind == 1 && c.status == .waiting && c.edges == p.succ.count i && !g.leavesBody p i && c.index != p.index then some c else none)

/-- Candidates tried in order up to the first that passes. -/
def State.tryPartners (s : State) (g : Graph) (die : Nat) (p : Node) : List Node → List Refused → MeldChoice
  | [], rs => .none rs
  | c :: cs, rs =>
    match s.evaluate g die p c with
    | .ok d => .pair rs c.index d
    | .error (code, words) => s.tryPartners g die p cs (rs ++ [{ c := c.index, code := code, words := words }])

/-- The pair that a node would form at its dispatch (R126). -/
def State.meldChoice (s : State) (g : Graph) (n : Node) : MeldChoice :=
  s.tryPartners g ((s.physDie g.die).getD 0) n (g.partners n) []

/-- The 32 bytes of a splice event (R139). -/
def spliceEvent (reason : Nat) (host : Bool) (p c words : Nat) (region : Word) : List Byte :=
  layBytes [(reason, 1), (if host then 1 else 0, 1), (0, 2), (p, 4), (c, 4), (words, 4), (region.toNat, 8), (0, 8)]

/-- A refused pair counted, and reported where the region's priority is at least 1, as host-assisted where the host has refused it or had
approved it (R139 to R141). -/
def State.refusePair (s : State) (g : Graph) (n : Node) (r : Refused) : State :=
  let p := (s.physDie g.die).getD 0
  let bump (d : Die) : Die := { d with refused := d.refused.setIfInBounds (r.code - 1) ((d.refused[r.code - 1]?).getD 0 + 1) }
  let s1 := s.modDie p bump
  if 1 ≤ s.effPrio g.ctx g.region then s1.postEvent 1 p (spliceEvent r.code r.host n.index r.c r.words g.region) else s1

end Sys2Proof.Machine
end

