-- ==== Sys2Proof/Machine/Objects.lean ====
section
/-! DEFINITION. Sync objects as places in memory (R298, R299), the destinations of copies (R248), and the copies that a wait of the sync group
is for (R304, R318). -/

namespace Sys2Proof.Machine

/-! ## Sync objects -/

/-- The place of a field of an object. -/
def Place.at_ (p : Place) (off : Nat) : Place := { p with key := p.key + off, va := p.va + off }

/-- The checks of an object (R299): its alignment, its page as for an atomic, memory behind it. -/
def State.syncObject (s : State) (o : Word) : Except Trap Place :=
  if o.toNat % 64 ≠ 0 then .error { cause := 0x03, addr := some o }
  else
    match s.translatePage s.task.id.ctx (some (s.dieOf s.task)) o .atomic with
    | .error t => .error t
    | .ok p =>
      if p.atHome then s.reach (some (s.dieOf s.task)) p 64 .atomic
      else .error { cause := 0x06, info := 1, addr := some o }

/-- A field of an object read and written (R298); these keep out of write sets (R321). -/
def State.field (s : State) (p : Place) (off n : Nat) : Nat := s.readDirect (p.at_ off) n
def State.setField (s : State) (p : Place) (off n v : Nat) : State := s.writeDirect (p.at_ off) (bytesOf v n)

/-! ## Copies -/

/-- The address of byte k of a walk (R248). -/
def walkAddr (base : Word) : List (BitVec 64) → Nat → Word
  | [], _ => base
  | l :: ls, k =>
    let ext := fieldN l 0 24
    walkAddr (base + BitVec.ofInt 64 ((k % ext : Nat) * (l.extractLsb' 24 40).toInt)) ls (k / ext)

/-- The product of the extents of a layout (R248). -/
def layoutTotal (ls : List (BitVec 64)) : Nat := ls.foldl (fun n l => n * fieldN l 0 24) 1

/-- Whether a copy has a destination byte in a range (R304). -/
def Copy.writesInto (c : Copy) (b z : Nat) : Bool :=
  (List.range (layoutTotal c.dstLay)).any (fun k =>
    let a := (walkAddr c.dst c.dstLay k).toNat
    b ≤ a && a < b + z)

/-- Whether copies that the task has issued are under way, or earlier blocks may still issue some (R304, R318). -/
def State.copiesLeft (s : State) (hit : Copy → Bool) : Bool :=
  s.task.copies.any (fun c => c.status.isNone && hit c)
    || (s.cur == .control && (s.task.block.isSome || !s.task.vq.isEmpty))

end Sys2Proof.Machine
end

