-- ==== Sys2Proof/Machine/SavedImage.lean ====
section
/-! DEFINITION. The context image as bytes (R345 to R349): its segments, header, directory and digest, the place that it takes in the save
pool (R344), the poison that it carries (R352), and what a restore loads of it (R348). Widths that the manual leaves open are those of
log 30. -/

namespace Sys2Proof.Machine

/-! ## Segments (R346) -/

/-- Dwords one after another. -/
def dwords (vs : List Nat) : List Byte := vs.flatMap (fun v => bytesOf v 8)

/-- The scalars x1 to x31. -/
def scalars (x : Vector Word 32) : List Byte := dwords (((x.toList).drop 1).map BitVec.toNat)

/-- The word at which the control thread of a task stands. -/
def State.standingWord (s : State) (t : Task) : BitVec 32 :=
  match s.meldOf t with
  | some m => (m.control[(t.pc - meldAddr m.slot).toNat / 4]?).getD 0
  | none =>
    match s.context t.id.ctx with
    | none => 0
    | some c => BitVec.ofNat 32 ((s.objectNat c t.pc.toNat 4).getD 0)

/-- Whether a word of the sync group, at which the control thread stands, waits there: BARW for its phase, PUBLISH for the copies into its
range, REL and BARA in a deterministic region for every copy (R303, R304, R318). -/
def State.syncWaits (s : State) (w : BitVec 32) : Bool :=
  let o := (s.task.x[fieldN w 15 5]?).getD 0
  match s.syncObject o with
  | .error _ => false
  | .ok p =>
    let mine := s.task.slots.find? (fun a => a.obj == o.toNat)
    if wordIs 0xFF807FFF 0x0A00207B w then mine.any (fun a => s.field p 0x28 8 == a.phase.toNat)
    else if wordIs 0xFFF07FFF 0x0C00207B w then
      !s.det && s.field p 0x10 8 != 0 && s.copiesLeft (fun c => c.writesInto (s.field p 0x00 8) (s.field p 0x10 8))
    else if wordIs 0xFF807FFF 0x0400207B w then s.det && s.copiesLeft (fun _ => true)
    else wordIs 0xFF807FFF 0x0800207B w && s.det && s.copiesLeft (fun _ => true) && s.field p 0x20 4 != 0 && mine.isNone
      && s.task.slots.length < 4

/-- The waiting state of the control thread (R341): 0 between words, else the word that waits: 1 VBLK on a full queue, 2 VREPLY, 3
VDRAINQ, 4 the wait of VSETCFG, 5 a wait of the sync group, 6 TDONE's wait (log 30). The word at the pc waits again after the restore. -/
def State.waitState (s : State) (t : Task) : Nat :=
  let w := s.standingWord t
  let busy := t.block.isSome || !t.vq.isEmpty || !t.aqueue.isEmpty
  if wordIs 0xFFF07FFF 0x0000505B w && 32 ≤ t.vq.length then 1
  else if wordIs 0xFFFFF07F 0x1000505B w && t.replies.isEmpty then 2
  else if wordIs 0xFFFFFFFF 0x2000505B w && busy then 3
  else if (wordIs 0x000E707F 0x0000007B w || wordIs 0xFFF0707F 0x0000107B w) && busy then 4
  else if ({ s with task := t, cur := .control } : State).syncWaits w then 5
  else if wordIs 0xFFFFFFFF 0x0000607B w && (busy || t.copies.any (fun c => c.status.isNone)) then 6
  else 0

/-- CTRL: x1 to x31, the pc, the waiting state. -/
def State.segCtrl (s : State) (t : Task) : List Byte := scalars t.x ++ dwords [t.pc.toNat, s.waitState t]

/-- VQUEUE. -/
def Task.segQueue (t : Task) : List Byte :=
  t.vq.flatMap (fun q => layBytes [(q.addr.toNat, 8), (q.h0.toNat, 4), (q.h1.toNat, 4)] ++ scalars q.xs)

/-- BLOCK: address, offset, vstart, scalars, loop counters, vl, vcfg, astat, lane-mode flag. -/
def Task.segBlock (t : Task) : List Byte :=
  let body : List Byte := match t.block with
    | some b => dwords [b.addr.toNat, b.off, t.vstart] ++ scalars b.xs ++ dwords (b.lc.toList.map BitVec.toNat)
    | none => dwords [0, 0, t.vstart] ++ List.replicate (8 * (31 + 4)) 0
  body ++ dwords [t.vl, t.vcfg.toNat, t.astat.toNat, if t.split.isSome then 1 else 0]

/-- VREGS: the registers of the fold in force, VLENB bytes each. -/
def Task.segRegs (t : Task) : List Byte :=
  (List.range t.regCount).flatMap (fun i => bytesOf ((t.v[i]?).getD 0).toNat t.vlenb)

/-- LANE: offset, draw count and stochastic count of each element below vl, then the joined set. An element that has no thread counts as
joined. -/
def Task.segLane (t : Task) : List Byte :=
  match t.split with
  | none => []
  | some sp =>
    let thread (e : Nat) : Option LaneThread := sp.threads.find? (fun th => th.elem == e)
    (List.range t.vl).flatMap (fun e => match thread e with
      | some th => layBytes [(th.off, 2), (th.draws, 2), (th.rounds, 2)]
      | none => layBytes [(0, 6)])
    ++ bytesOf (sumBy (fun e => match thread e with
      | some th => if th.joined then 2 ^ e else 0
      | none => 2 ^ e) (List.range t.vl)) (ceilDiv t.vl 8)

/-- REPLY. -/
def Task.segReply (t : Task) : List Byte := dwords (t.replies.length :: t.replies.map BitVec.toNat)

/-- PLANS. -/
def Task.segPlans (t : Task) : List Byte := dwords (t.fl.toList.map BitVec.toNat)

/-- ARRAY. -/
def Task.segArray (t : Task) : List Byte :=
  dwords [t.mshape.toNat, t.mcfg.toNat] ++ t.m.toList.flatMap (fun m => bytesOf m.toNat 16384)

/-- The block scalars that an array word may read: those that its register fields name, and for MDRAINQ the pair that xs begins (R286). -/
def ArrayEntry.scalarsRead (e : ArrayEntry) : List Nat :=
  let xs := fieldN e.word 15 5
  let named := if wordIs 0xFC00707F 0x1000105B e.word then [xs, xs + 1] else [fieldN e.word 7 5, xs, fieldN e.word 20 5]
  (named.filter (fun r => r != 0 && r < 32)).eraseDups

/-- AQUEUE (R347): 128 bytes for each array word that has not started. -/
def Task.segArrayQueue (t : Task) : List Byte :=
  t.aqueue.flatMap (fun e =>
    let rs := e.scalarsRead
    let at_ (i : Nat) : Nat := (rs[i]?).getD 0
    layBytes [(e.word.toNat, 4), (e.off, 2), (e.fl, 1), (rs.length, 1), (e.vl, 8), (e.vcfg.toNat, 8), (e.mshape.toNat, 8), (e.mcfg.toNat, 8),
      (e.plan.toNat, 8), (at_ 0, 1), (at_ 1, 1), (at_ 2, 1), (0, 5), (((e.xs[at_ 0]?).getD 0).toNat, 8), (((e.xs[at_ 1]?).getD 0).toNat, 8),
      (((e.xs[at_ 2]?).getD 0).toNat, 8), (0, 48)])

/-- STASH. -/
def Task.segStash (t : Task) : List Byte :=
  t.windows.toList.flatMap (fun w => match w with
    | some w => dwords [w.base, w.size]
    | none => dwords [0, 0])

/-- STREAM. -/
def Task.segStream (t : Task) : List Byte :=
  t.streams.toList.flatMap (fun b => match b with
    | some b => dwords [1] ++ bytesOf b.desc.toNat 64 ++ dwords [b.cursor]
    | none => List.replicate 80 0)

/-- Sixteen layout dwords, those that a layout lacks zero. -/
def layoutBytes (l : List (BitVec 64)) : List Byte :=
  dwords ((List.range 16).map (fun i => ((l[i]?).getD 0).toNat))

/-- COPY: word, token register, ctl, both bases, both layouts, offset, running value, pending flag; then what else a command carries: the bits
that say how far it has come, the home device of its first run, its status and the token's value at its issue, the address of the byte that
failed, its block and offset with how many blocks ago that was, the place of the command it waits on, and its mark of the injector (log 30). -/
def Task.segCopy (t : Task) : List Byte :=
  let last := (t.block.map (·.serial)).getD t.nextSerial
  let bit (b : Bool) (k : Nat) : Nat := if b then 2 ^ k else 0
  t.copies.flatMap (fun c =>
    let flags := bit c.status.isNone 0 + bit c.started 1 + bit c.read 2 + bit c.overwritten 3 + bit c.handedOn 4 + bit c.failAt.isSome 5
      + bit ((c.failAt.map (fun (f : Word × Bool) => f.2)).getD false) 6 + bit c.flip.isSome 7
    layBytes [(c.word.toNat, 4), (c.tok, 4), (c.ctl.toNat, 8), (c.src.toNat, 8), (c.dst.toNat, 8)] ++ layoutBytes c.srcLay
      ++ layoutBytes c.dstLay ++ layBytes [(c.done, 8), (c.running, 4), (flags, 1), (bit c.home.isSome 0, 1), (c.home.getD 0, 2),
        ((c.status.getD 0).toNat, 8), (c.tokIn.toNat, 8), (((c.failAt.map (fun (f : Word × Bool) => f.1)).getD 0).toNat, 8), (c.block.toNat, 8), (c.off, 2), (0, 2),
        (last - c.serial, 4), ((c.after.map (· + 1)).getD 0, 4), (0, 4), (c.flip.getD 0, 8)])

/-- BARRIER: four slots. -/
def Task.segBarrier (t : Task) : List Byte :=
  (List.range 4).flatMap (fun i => match t.slots[i]? with
    | some a => dwords [a.obj, a.phase.toNat]
    | none => dwords [0, 0])

/-- The bytes of a write set: address, byte, whether C of a meld stored it, 1 more than the element of its lane thread, or 0, and whether it is
the mark of a direct update. -/
def setBytes (owner : Nat) (w : List SetByte) : List Byte :=
  w.flatMap (fun c => layBytes [(c.va, 8), (c.byte.toNat, 1), (if c.ofC then 1 else 0, 1), (owner, 4), (if c.direct then 1 else 0, 1), (0, 1)])

/-- Whether a task, or one of its lane threads, holds a write set. -/
def Task.hasSet (t : Task) : Bool :=
  !t.wset.isEmpty || (match t.split with
    | some sp => sp.threads.any (fun th => !th.wset.isEmpty)
    | none => false)

/-- WSET: the write set of the current segment, with those of its lane threads. -/
def Task.segSet (t : Task) : List Byte :=
  setBytes 0 t.wset ++ (match t.split with
    | some sp => sp.threads.flatMap (fun th => setBytes (th.elem + 1) th.wset)
    | none => [])

/-- SPLITV. -/
def Task.segAppend (t : Task) : List Byte :=
  match t.heldAppend with
  | some h => dwords [h.desc.toNat, h.t.toNat, h.elem]
  | none => []

/-- The segments of an image: those that its task needs; CTRL and BLOCK always. -/
def State.imageSegments (s : State) (t : Task) : List (Nat × List Byte) :=
  let when_ (b : Bool) (k : Nat) (bs : List Byte) : List (Nat × List Byte) := if b then [(k, bs)] else []
  [(1, s.segCtrl t)] ++ when_ (!t.vq.isEmpty) 2 t.segQueue ++ [(3, t.segBlock), (4, t.segRegs)] ++ when_ t.split.isSome 5 t.segLane
    ++ when_ (!t.replies.isEmpty) 6 t.segReply ++ [(7, t.segPlans)] ++ when_ (t.id.kind == 2) 8 t.segArray
    ++ when_ (!t.aqueue.isEmpty) 9 t.segArrayQueue ++ when_ (t.windows.toList.any Option.isSome) 10 t.segStash
    ++ when_ (t.streams.toList.any Option.isSome) 11 t.segStream ++ when_ (!t.copies.isEmpty) 12 t.segCopy
    ++ when_ (!t.slots.isEmpty) 13 t.segBarrier ++ when_ t.hasSet 14 t.segSet ++ when_ t.heldAppend.isSome 15 t.segAppend

/-- A length rounded up to the alignment of a segment. -/
def up64 (n : Nat) : Nat := ceilDiv n 64 * 64

/-- Bytes padded with zeros to a length. -/
def padTo (n : Nat) (bs : List Byte) : List Byte := bs ++ List.replicate (n - bs.length) 0

/-- Directory entries and the segments' bytes from an offset on. -/
def placeSegments : List (Nat × List Byte) → Nat → List Byte × List Byte
  | [], _ => ([], [])
  | (k, bs) :: rest, off =>
    let r := placeSegments rest (off + up64 bs.length)
    (layBytes [(k, 2), (0, 2), (bs.length, 4), (off, 8)] ++ r.1, padTo (up64 bs.length) bs ++ r.2)

/-! ## Header and digest (R345, R349) -/

/-- The reason of an image: what its task was stopped for. -/
def Task.imageReason (t : Task) : Nat :=
  match t.status with
  | .held _ => 2
  | .waitPage _ => 3
  | .stopped r => r
  | _ => 0

/-- The feature bits of an image (R349). Bit 5 stays as an image of another part has brought it: the opcode map holds no experimental
opcode (R14), so nothing of this model's own sets it. -/
def Task.feature (t : Task) (det : Bool) : BitVec 64 :=
  (if t.id.kind == 2 then 1 else 0) + (if t.streams.toList.any Option.isSome then 2 else 0)
    + (if t.split.isSome then 4 else 0) + (if det then 8 else 0) + (if t.mcfg.getLsbD 9 then 16 else 0)
    + (t.id.feat &&& 32) + (if t.id.meld.isSome then 64 else 0)

/-- The header (R345) with a digest. -/
def State.imageHeader (s : State) (t : Task) (nseg size : Nat) (digest : BitVec 256) : List Byte :=
  layBytes [(0x49584341, 4), (1, 2), (nseg, 2), (size, 8), (t.id.feat.toNat, 8), (t.id.gen, 1), (s.boot.step, 1), (t.id.grant, 1),
    (t.fold + 16 * t.foldPending, 1), (t.imageReason, 1), (t.id.kind, 1), (0, 2), (t.id.region.toNat, 8), (t.id.node, 4),
    (t.id.meld.getD 0xFFFFFFFF, 4), (t.id.ctrbase.toNat, 8), (t.id.ctrlen, 4), (t.id.it, 4), (t.id.seed.toNat, 8), (t.rngpos.toNat, 8),
    (t.srcount.toNat, 4), (t.fseq, 4), (0, 8), (t.frec.toNat, 64), (digest.toNat, 32), (0, 64)]

/-- Segments that the host may edit (R348). -/
def editable (k : Nat) : Bool := k == 1 || k == 3 || k == 4 || k == 6 || k == 7

/-- The digest of a header, its digest field zero, and the segments that are not editable (R345). -/
def imageDigest (header : List Byte) (segs : List (Nat × List Byte)) : BitVec 256 :=
  sha3 (header.take 160 ++ List.replicate 32 0 ++ header.drop 192 ++ (segs.filter (fun g => !editable g.1)).flatMap (·.2))

/-- The image of a task that has been stopped (R345, R346). -/
def State.imageBytes (s : State) (t : Task) : List Byte :=
  let segs := s.imageSegments t
  let first := up64 (256 + 16 * segs.length)
  let r := placeSegments segs first
  let size := first + r.2.length
  let digest := imageDigest (s.imageHeader t segs.length size 0) segs
  padTo first (s.imageHeader t segs.length size digest ++ r.1) ++ r.2

/-- The bytes that the image of a task takes. -/
def State.imageSize (s : State) (t : Task) : Nat :=
  let segs := s.imageSegments t
  up64 (256 + 16 * segs.length) + sumBy (fun g => up64 g.2.length) segs

/-! ## The save pool (R344) -/

/-- Where a byte of a context's pool lies: on a cacheable page homed here, under the page's own key. -/
def State.poolPlace (s : State) (c : Context) (va : Nat) : Option (Nat × Option (BitVec 512)) :=
  match s.pageOf none c va with
  | .error _ => none
  | .ok p =>
    let k := s.backedKey c p va false
    if p.uncached || p.home != 0 || (s.homeCause none (k % 2 ^ 52)).isSome then none else some (k, s.pageKm p)

/-- Whether the pages of n bytes of a pool can be reached. -/
def State.poolPages (s : State) (c : Context) (va n : Nat) : Bool :=
  (rangeFrom (va / 4096) (ceilDiv (va + n) 4096)).all (fun p => (s.poolPlace c (4096 * p)).isSome)

/-- Bytes written into a pool, page after page. -/
def State.writePool (s : State) (c : Context) : Nat → Nat → List Byte → State
  | 0, _, _ => s
  | n + 1, va, bs =>
    let k := 4096 - va % 4096
    let s1 := match s.poolPlace c va with
      | some (key, km) => s.agentWrite km key (bs.take k)
      | none => s
    if bs.length ≤ k then s1 else s1.writePool c n (va + k) (bs.drop k)

/-- n bytes of a pool, none where a page of it cannot be reached. -/
def State.readPool (s : State) (c : Context) (va n : Nat) : Option (List Byte) :=
  if s.poolPages c va n then
    some ((List.range n).map (fun i => match s.poolPlace c (va + i) with
      | some (key, km) => s.peekByte km key
      | none => 0))
  else none

/-- What the read of a task's image in its pool does to the stash (R239). -/
def State.recallImage (s : State) (t : Task) : State :=
  match s.context t.id.ctx, t.image with
  | some c, some (o, n) => s.recallObject c (c.pool.toNat + o) n
  | _, _ => s

/-- The parts of a context's pool that images take. -/
def State.poolTaken (s : State) (ctx tid : Nat) : List (Nat × Nat) :=
  (s.tasks.filter (fun t => t.id.ctx == ctx && t.id.tid != tid)).filterMap (·.image)

/-- The lowest offset of a pool at which n bytes are free (which one an image takes is not stated: DESIGN CHOICE, log 11). -/
def poolOffset (psize n : Nat) (taken : List (Nat × Nat)) : Option Nat :=
  let starts := sortBy (fun (o : Nat) => o) (0 :: taken.map (fun r => up64 (r.1 + r.2)))
  starts.find? (fun o => o + n ≤ psize && !taken.any (fun r => r.1 < o + n && o < r.1 + r.2))

/-- Where the pool of its context would hold an image of a task (R344). -/
def State.poolRoom (s : State) (t : Task) : Option (Context × Nat × Nat) :=
  match s.context t.id.ctx with
  | none => none
  | some c =>
    let n := s.imageSize t
    match poolOffset c.psize n (s.poolTaken t.id.ctx t.id.tid) with
    | none => none
    | some o => if s.poolPages c (c.pool.toNat + o) n then some (c, o, n) else none

/-- Whether the save pool of a context holds one more image (R344). -/
def State.poolHolds (s : State) (t : Task) : Bool := (s.poolRoom t).isSome

/-! ## Poison (R352) -/

/-- A register word that an image holds: an x register of the control thread, of the block, or of a queue entry; a dword of a vector or
tile register. -/
inductive ImageSite where
  | scalar (r : Nat)
  | blockScalar (r : Nat)
  | queued (k r : Nat)
  | vector (r dword : Nat)
  | tile (r dword : Nat)
  deriving DecidableEq, Repr

/-- Types, offsets and sizes of the segments of an image, from its directory. -/
def directory (img : List Byte) : List (Nat × Nat × Nat) :=
  let at_ (o n : Nat) : Nat := leVal ((img.drop o).take n)
  (List.range (at_ 6 2)).map (fun i => (at_ (256 + 16 * i) 2, at_ (256 + 16 * i + 8) 8, at_ (256 + 16 * i + 4) 4))

/-- The register word that the dword at an offset of an image holds. -/
def siteAt (dir : List (Nat × Nat × Nat)) (vlenb off : Nat) : Option ImageSite :=
  match dir.find? (fun g => g.2.1 ≤ off && off < g.2.1 + g.2.2) with
  | none => none
  | some (k, o, _) =>
    let d := (off - o) / 8
    match k with
    | 1 => if d < 31 then some (.scalar (d + 1)) else none
    | 2 => if d % 33 < 2 then none else some (.queued (d / 33) (d % 33 - 1))
    | 3 => if 3 ≤ d && d < 34 then some (.blockScalar (d - 2)) else none
    | 4 => some (.vector ((off - o) / vlenb) ((off - o) % vlenb / 8))
    | 8 => if d < 2 then none else some (.tile ((d - 2) / 2048) ((d - 2) % 2048))
    | _ => none

/-- Whether a register word of a task is poisoned. -/
def Task.badSite (t : Task) (x : ImageSite) : Bool :=
  match x with
  | .scalar r => t.xPoison.getLsbD r
  | .blockScalar r => (t.block.map (fun b => b.poison.getLsbD r)).getD false
  | .queued k r => ((t.vq[k]?).map (fun q => q.poison.getLsbD r)).getD false
  | .vector r d => t.vPoison.any (fun m => m.1 == r && m.2.1 == d)
  | .tile r d => t.mPoison.any (fun m => m.1 == r && m.2.1 == d)

/-- A register word of a task poisoned (R352): one that had been written since it was logged as latent is logged anew. -/
def Task.spoil (t : Task) (x : ImageSite) : Task :=
  match x with
  | .scalar r => { t with xPoison := t.xPoison ||| (1#32 <<< r) }
  | .blockScalar r => { t with block := t.block.map (fun b => { b with poison := b.poison ||| (1#32 <<< r) }) }
  | .queued k r => { t with vq := t.vq.mapIdx (fun i q => if i = k then { q with poison := q.poison ||| (1#32 <<< r) } else q) }
  | .vector r d =>
    { t with vPoison := (r, d, 0xFF#8) :: t.vPoison.filter (fun m => !(m.1 == r && m.2.1 == d))
             latent := if t.badSite x then t.latent else t.latent.filter (· != (64 + r, d)) }
  | .tile r d =>
    { t with mPoison := (r, d, 0xFF#8) :: t.mPoison.filter (fun m => !(m.1 == r && m.2.1 == d))
             latent := if t.badSite x then t.latent else t.latent.filter (· != (96 + r, d)) }

/-- Whether any register word of a task is poisoned. -/
def Task.anyPoison (t : Task) : Bool :=
  t.xPoison != 0 || !t.vPoison.isEmpty || !t.mPoison.isEmpty || (t.block.map (fun b => b.poison != 0)).getD false
    || t.vq.any (fun q => q.poison != 0)

/-- The register words of a task made clean. -/
def Task.cleanAll (t : Task) : Task :=
  { t with xPoison := 0, vPoison := [], mPoison := [], block := t.block.map (fun b => { b with poison := 0 }),
           vq := t.vq.map (fun q => { q with poison := 0 }) }

/-- The register words in a granule of an image. -/
def granuleSites (dir : List (Nat × Nat × Nat)) (vlenb g : Nat) : List ImageSite :=
  (List.range 8).filterMap (fun i => siteAt dir vlenb (64 * g + 8 * i))

/-- Granules marked as poisoned (R353). -/
def State.addPoison (s : State) (ps : List Nat) : State := { s with poison := s.poison ++ ps.filter (fun p => !s.poison.contains p) }

/-- The poison of a task's registers carried into the granules of its image. -/
def State.savePoison (s : State) (t : Task) (c : Context) (va : Nat) (img : List Byte) : State :=
  if !t.anyPoison then s
  else
    let dir := directory img
    let bad := (List.range (ceilDiv img.length 64)).filter (fun g => (granuleSites dir t.vlenb g).any t.badSite)
    s.addPoison (bad.filterMap (fun g => (s.poolPlace c (va + 64 * g)).map (fun p => p.1 / 64)))

/-- The image of a task written into the save pool of its context, if that holds it (R344). -/
def State.saveImage (s : State) (tid : Nat) : State :=
  match s.findTask tid with
  | none => s
  | some t =>
    match s.poolRoom t with
    | none => s
    | some (c, o, n) =>
      let va := c.pool.toNat + o
      let img := s.imageBytes t
      let s1 := s.writePool c (n / 4096 + 2) va img
      (s1.savePoison t c va img).modTask tid (fun t => { t with image := some (o, n) })

/-! ## Reading an image -/

/-- The scalars x1 to x31 at an offset. -/
def getScalars (bs : List Byte) (off : Nat) : Vector Word 32 :=
  Vector.ofFn (fun (i : Fin 32) => if i.val = 0 then 0 else BitVec.ofNat 64 (getN bs (off + 8 * (i.val - 1)) 8))

/-- Every segment of an image, in the order of its directory. -/
def getSegments (img : List Byte) : List (Nat × List Byte) :=
  (directory img).map (fun g => (g.1, (img.drop g.2.1).take g.2.2))

/-- The segment of a type. -/
def getSegment (img : List Byte) (k : Nat) : List Byte := (((getSegments img).find? (fun g => g.1 == k)).map (·.2)).getD []

/-- The headers of a block, read again from its code. -/
def State.headersAt (s : State) (c : Context) (a : Word) : BitVec 32 × BitVec 32 × BitVec 32 :=
  let h (k : Nat) : BitVec 32 := BitVec.ofNat 32 ((s.objectNat c (a.toNat + 4 * k) 4).getD 0)
  (h 0, h 1, h 2)

/-- What that does to the stash (R239). -/
def State.recallHeaders (s : State) (c : Context) (a : Nat) : State := if a = 0 then s else s.recallObject c a 12

/-- What the restore of a task does to the stash beside the read of its image: where the host has written another block into it, the headers of
that block are read (R239, R348). -/
def State.recallRestore (s : State) (t : Task) : State :=
  match s.context t.id.ctx, t.image with
  | some c, some (o, n) =>
    match s.readPool c (c.pool.toNat + o) n with
    | none => s
    | some img =>
      let a := getN (getSegment img 3) 0 8
      if t.block.map (fun b => b.addr.toNat) == some a then s else s.recallHeaders c a
  | _, _ => s

/-- The block of a BLOCK segment; address 0 is none. The block that the task had keeps its headers and what the image does not hold; at
another address they are read from the code. -/
def State.getBlock (s : State) (c : Context) (bs : List Byte) (old : Option Block) (foldPending : Nat) : Option Block :=
  let a : Word := BitVec.ofNat 64 (getN bs 0 8)
  if a = 0 then none
  else
    let h := s.headersAt c a
    let base : Block :=
      match old.filter (fun b => b.addr == a) with
      | some b => b
      | none => { addr := a, h0 := h.1, h1 := h.2.1, h2 := h.2.2, off := 0, xs := Vector.replicate 32 0, lc := Vector.replicate 4 0,
                  serial := (old.map (·.serial)).getD 1, foldPending := foldPending, poison := 0 }
    some { base with off := getN bs 8 8, xs := getScalars bs 24,
                     lc := Vector.ofFn (fun (i : Fin 4) => BitVec.ofNat 64 (getN bs (272 + 8 * i.val) 8)) }

/-- Statuses of copies that stand no more in their tokens, since the host has written another value there (R260, R348). -/
def Task.noteEdits (t : Task) : Task :=
  match t.block with
  | none => t
  | some b =>
    { t with copies := t.copies.map (fun c =>
        { c with overwritten := c.overwritten || (c.serial == b.serial && c.status.isSome && c.status != b.xs[c.tok]?) }) }

/-- The split of a stopped task under the lane-mode flag of its BLOCK segment (R346, R348). A flag that the host has cleared ends lane mode;
what the lane threads had stored in a deterministic region then joins the segment of their task in ascending element order, as at their join
(DESIGN CHOICE, log 30). -/
def Task.withLaneFlag (t : Task) (flag : Bool) : Task :=
  match t.split with
  | none => t
  | some sp => if flag then t else { t with split := none, wset := sp.threads.foldl (fun w th => setOver th.wset w) t.wset }

/-- The segments of an image that the host may edit, loaded into a task (R348). -/
def State.loadEdits (s : State) (c : Context) (t : Task) (img : List Byte) : Task :=
  let ctrl := getSegment img 1
  let blockSeg := getSegment img 3
  let regs := getSegment img 4
  let reply := getSegment img 6
  let plans := getSegment img 7
  Task.noteEdits { t.withLaneFlag (getN blockSeg 328 8 != 0) with
    x := getScalars ctrl 0
    pc := BitVec.ofNat 64 (getN ctrl 248 8)
    block := s.getBlock c blockSeg t.block t.foldPending
    vstart := getN blockSeg 16 8
    vl := getN blockSeg 304 8
    vcfg := BitVec.ofNat 64 (getN blockSeg 312 8)
    astat := BitVec.ofNat 64 (getN blockSeg 320 8)
    v := t.v.mapIdx (fun i r => if i < t.regCount then BitVec.ofNat 262144 (getN regs (t.vlenb * i) t.vlenb) else r)
    replies := (List.range (getN reply 0 8)).map (fun i => BitVec.ofNat 64 (getN reply (8 + 8 * i) 8))
    fl := Vector.ofFn (fun (i : Fin 4) => BitVec.ofNat 64 (getN plans (8 * i.val) 8)) }

/-- Whether astat keeps its rules: reserved bits 0, and in a task without the array its array bits 0 too (R271, R272). -/
def Task.astatOk (t : Task) : Bool := t.astat &&& (if t.id.kind == 2 then 0x1F else 0x02) == t.astat

/-- Whether the lane-mode flag of a BLOCK segment may stand: 0 or 1, and 1 only where the image has the threads of a split (R346; DESIGN CHOICE,
log 30). -/
def laneFlagOk (flag : Nat) (split : Bool) : Bool := flag == 0 || (flag == 1 && split)

/-- Whether what an image holds in the registers that the host may edit keeps their own rules (R348): those of R92 and R147, the bound of
vl (R61), the reserved bits of a plan (R209), astat (R271, R272), the length of the reply queue (R119), and for a block at another address the
checks of VBLK (R117). -/
def Task.rulesHold (t : Task) (block : Option Block) : Bool :=
  vcfgOk t.vcfg && t.vl ≤ t.vlmax && t.pc.toNat % 4 == 0 && t.fl.toList.all (fun f => fieldN f 47 17 == 0) && t.astatOk && t.replies.length ≤ 16
    && (match t.block with
      | none => true
      | some b => block.map (·.addr) == some b.addr || (b.addr.toNat % 4 == 0 && headerOk b.h0 b.h1))

/-- The poison that a restore meets: the words that the save put there again, every word of a granule that has been struck since, and none
where a whole write has cleared it (R352, R353). A granule without a register word cannot be loaded. -/
def State.loadPoison (s : State) (c : Context) (old t : Task) (va : Nat) (img : List Byte) : Option Task :=
  if s.poison.isEmpty then some t.cleanAll
  else
    let dir := directory img
    let struck := (List.range (ceilDiv img.length 64)).filter (fun g =>
      match s.poolPlace c (va + 64 * g) with
      | some p => s.poisoned p.1 64
      | none => false)
    if struck.any (fun g => (granuleSites dir old.vlenb g).isEmpty) then none
    else
      let sites := struck.flatMap (fun g =>
        let all := granuleSites dir old.vlenb g
        let own := all.filter old.badSite
        if own.isEmpty then all else own)
      let marked := sites.foldl Task.spoil t.cleanAll
      -- bytes of a register word that had been written since it was struck stay written
      let keep (ms os : List (Nat × Nat × BitVec 8)) : List (Nat × Nat × BitVec 8) :=
        ms.map (fun m => (os.find? (fun o => o.1 == m.1 && o.2.1 == m.2.1)).getD m)
      let logged := old.latent.filter (fun w =>
        old.badSite (if w.1 < 96 then .vector (w.1 - 64) w.2 else .tile (w.1 - 96) w.2))
      some { marked with vPoison := keep marked.vPoison old.vPoison, mPoison := keep marked.mPoison old.mPoison, latent := logged }

/-- The word after a trapping word (R339, R340): of the control thread, or of the block that a TRAPC stopped. -/
def Task.afterTrap (t : Task) (inBlock : Bool) : Task :=
  if inBlock then
    match t.block with
    | some b => t.moveVector (b.off + 1)
    | none => t
  else { t with pc := t.pc + 4 }

/-- The record of the trap that an image was saved for, if it was one of R340. -/
def trapRecord (img : List Byte) : Option (BitVec 512) :=
  let c := getN img 0x60 1
  if getN img 0x1C 1 = 2 ∧ 0x10 ≤ c ∧ c ≤ 0x12 then some (BitVec.ofNat 512 (getN img 0x60 64)) else none

/-- The task that a restore makes of a stopped task and its image, or what refuses it: 0x0F for a generation or a feature that the part
lacks, with the features missing (R350); 0x08 for a wrong digest, for a register that breaks its rules, and for an image that can no
longer be read (R348, log 30); 0x0E for an image poisoned outside its registers. A trapped task goes on at the word after the one where
its image stands (R339). -/
def State.restored (s : State) (t : Task) (miss : BitVec 64) : Except (Nat × BitVec 32) Task :=
  if s.gen < t.id.gen || miss != 0 then .error (0x0F, miss.setWidth 32)
  else
    match s.context t.id.ctx, t.image with
    | some c, some (o, n) =>
      let va := c.pool.toNat + o
      match s.readPool c va n with
      | none => .error (0x08, 0)
      | some img =>
        if getN img 0xA0 32 != (imageDigest (img.take 256) (getSegments img)).toNat then .error (0x08, 0)
        else
          let u := s.loadEdits c t img
          if !u.rulesHold t.block || !laneFlagOk (getN (getSegment img 3) 328 8) (t.split.isSome && u.block.isSome) then .error (0x08, 0)
          else
            match s.loadPoison c t u va img with
            | none => .error (0x0E, 0)
            | some u =>
              let v := match trapRecord img with
                | some r => u.afterTrap (r.getLsbD 8)
                | none => u
              .ok { v with image := none }
    | _, _ => .error (0x08, 0)

end Sys2Proof.Machine
end

