-- ==== Sys2Proof/Machine/Stop.lean ====
section
/-! DEFINITION. The end of a task's stay on its section: a stop with its image (R343, R344), its end (R336), and the record of a
fault with its delivery and its hold or end (R123, R334, R339). -/

namespace Sys2Proof.Machine

/-! ## The end of a stay on a section -/

/-- The control core of a task given up, with the words it has retired (R115). -/
def State.leaveCore (s : State) (t : Task) : State :=
  if t.status == .running then
    s.modSect t.id.section_ (fun x => { x with retired := x.retired.setIfInBounds t.id.core t.instret })
  else s

/-- The end of the array-holding interval of a task (R84). -/
def State.stopArray (s : State) (tid : Nat) : State :=
  { s with arrays := mapIf (fun (h : ArrayHold) => h.tid == tid && h.stop.isNone) (fun h => { h with stop := some s.cycle.toNat }) s.arrays }

/-- Whether a stash line is one of a task's windows, with a test of the line's address. -/
def Task.ownsLine (t : Task) (at_ : Nat → Bool) (l : StashLine) : Bool :=
  l.section_ == t.id.section_ && l.owners.any (fun o => o.1 == t.id.tid && at_ o.2)

/-- Every stash window of a task unmapped as by STUNMAP: its lines written back and invalidated (R240). -/
def State.unmapAll (s : State) (t : Task) : State := s.flushLines (t.ownsLine (fun _ => true))

/-- A task taken off the part: off stage or out of the others. Its segments that have still to merge keep the sequence number that a
record of theirs would have (R319, R334). -/
def State.removeTask (s : State) (tid : Nat) : State :=
  { s with task := if s.task.id.tid == tid && s.task.status != .vacant then Task.vacant else s.task
           parked := s.parked.filter (fun t => t.id.tid != tid)
           pageWaits := s.pageWaits.filter (fun w => w.who.1 != tid)
           segments := match s.findTask tid with
             | some t => mapIf (fun g => !g.merged && s.segmentOf t g) (fun g => { g with fseq := t.fseq }) s.segments
             | none => s.segments }

/-- The node of a task retired; a meld retires both, P's first, and its slot is freed (R135, R136). -/
def State.retireNodes (s : State) (t : Task) (st : NodeStatus) : State :=
  match s.meldOf t with
  | none => s.retire t.id.gid t.id.node st
  | some m =>
    let s1 := s.modDie (s.graphDie t.id.gid) (fun d => { d with melds := d.melds.filter (fun x => x.slot != m.slot) })
    (s1.retire m.gid m.p st).retire m.gid m.c st

/-- A task ended under R336, without a record: copies, tokens, windows, bindings and its write set are discarded, its
node retires faulted. -/
def State.endTask (s : State) (t : Task) : State :=
  ((((s.unmapAll t).leaveCore t).stopArray t.id.tid).removeTask t.id.tid).retireNodes t .faulted

/-- The time that a task has held a section since a time in µs at which it held one (R357). -/
def Task.heldSince (t : Task) (since now : Nat) : Nat :=
  now - since - sumBy (fun (p : Nat × Nat) => if since ≤ p.1 then p.2 - p.1 else 0) t.away

/-- A task that gives its section up, and one that takes one again. -/
def Task.leave (t : Task) (now : Nat) : Task := { t with away := (now, now) :: t.away }
def Task.back (t : Task) (now : Nat) : Task :=
  match t.away with
  | p :: ps => { t with away := (p.1, now) :: ps }
  | [] => t

/-- A task stopped without ending (R341, R343): its section is given up, its reservation and refilled stream data are lost, its time on
the section is added up, its windows' lines are written back, and its image is written to the save pool (R344). -/
def State.stopTask (s : State) (tid : Nat) (st : TaskStatus) : State :=
  match s.findTask tid with
  | none => s
  | some t =>
    let s1 := ((s.unmapAll t).leaveCore t).stopArray tid
    let s2 := s1.modTask tid (fun t =>
      let u := t.leave s.micros
      { u with status := st, resv := none, runTime := t.runTime + (s.micros - t.runSince), stopAsked := none,
               id := { t.id with feat := t.feature (s.isDet t.id.ctx t.id.region), gen := s.gen } })
    s2.saveImage tid

/-- A stopped task put into the ready pool at its original age (R82, R343), its wait for a place beginning anew (R86, R89). -/
def State.poolTask (s : State) (t : Task) : State :=
  s.modNode t.id.gid t.id.node (fun n => { n with status := .resumable, bypasses := 0, blockedSince := none })

/-! ## Records -/

/-- Whether a fault is that of a page which the service refuses to map or which lies in no allocation (R335). -/
def State.pageRefused (s : State) (ctx : Nat) (tr : Trap) : Bool :=
  (tr.cause == 0x04 || tr.cause == 0x05) && !tr.info.getLsbD 1 &&
  match tr.addr with
  | none => false
  | some a => 2 ^ 48 ≤ a.toNat || s.unservable.contains (ctx, a.toNat / 4096)

/-- The 64-byte record of a fault of a task (R123, R134). Info bit 2 marks a refused page and a fault raised from the status of
a copy (R335). -/
def State.recordOf (s : State) (t : Task) (p : Party) (tr : Trap) : BitVec 512 :=
  let blockPos : Option (Word × Nat) :=
    match tr.inBlock with
    | some b => some b
    | none =>
      if tr.ofControl then none
      else
        match p, t.block with
        | .control, _ => none
        | .vector, some b => some (b.addr, b.off)
        | .lane _, some b => some (b.addr, s.offset)
        | _, none => none
  let lane : Option Nat := match p with
    | .lane e => if tr.ofControl || tr.inBlock.isSome then none else some e
    | _ => none
  let elem := tr.elem.orElse (fun _ => lane)
  let m := s.meldOf t
  let plainPc : Word := match blockPos with
    | some (a, o) => a + 12 + BitVec.ofNat 64 (4 * o)
    | none => t.pc
  let (node, kernel, origin, pc) := match m with
    | none => (t.id.node, t.id.kernel, 0, plainPc)
    | some m =>
      match blockPos with
      | some (_, o) => m.originOf true o
      | none => m.originOf false ((t.pc - meldAddr m.slot).toNat / 4)
  let flags := (if blockPos.isSome then 1 else 0) + (if lane.isSome then 2 else 0) + (if m.isSome then 4 else 0)
    + (if elem.isSome then 8 else 0) + (if tr.addr.isSome then 16 else 0)
  let info := if tr.fromCopy || s.pageRefused t.id.ctx tr then tr.info ||| 4 else tr.info
  BitVec.ofNat 512 (leVal (layBytes [(tr.cause, 1), (flags, 1), (s.effFdom t.id.ctx t.id.region, 2),
    (node, 4), (t.id.region.toNat, 8), (kernel.toNat, 8), ((tr.pc.getD pc).toNat, 8),
    (match blockPos with
      | some (a, _) => a.toNat
      | none => 0, 8),
    (match blockPos with
      | some (_, o) => o
      | none => 0, 2), (origin, 2), (elem.getD 0, 4), ((tr.addr.getD 0).toNat, 8), (info.toNat, 4), (t.fseq, 4)]))

/-! ## Delivery -/

/-- Whether a record has been given to the fault service, which counts it for a meld (R358). -/
def Task.offered (t : Task) (record : BitVec 512) : Bool :=
  let given := match t.status with
    | .waitPage r => some r
    | _ => t.servicing
  given.any (fun r => (r ||| (4#512 <<< 448)) == (record ||| (4#512 <<< 448)))

/-- A fault delivered (R334) with its effect: 0x10 to 0x12 hold the task under R339 if the record was written and the image fits (R344);
0x0F holds a task whose restore is refused, with its image as it stands (R350); every other cause, and a lost trap, ends the task under
R336. A meld's record counts once, where it is written or where the fault service has had it (R140, R358). -/
def State.deliverCore (s : State) (t : Task) (c : Nat) (record : BitVec 512) : State :=
  let fdom := s.effFdom t.id.ctx t.id.region
  let halts := s.domainHalts t.id.ctx fdom
  let d := s.deliverRecord t.id.ctx fdom record
  let s1 := if d.2 && !t.offered record then d.1.countMeld t.id.gid record else d.1
  let s2 := s1.modTask t.id.tid (fun t => { t with fseq := t.fseq + 1, frec := record })
  let trap := c == 0x0F || c == 0x10 || c == 0x11 || c == 0x12
  if trap && d.2 && t.status != .running then s2.modTask t.id.tid (fun t => { t with status := .held c })
  else if trap && d.2 && s.poolHolds t then s2.stopTask t.id.tid (.held c)
  else
    let s3 := if halts then s2.haltDomain t.id.ctx fdom else s2
    s3.endTask t

/-! ## Restore -/

/-- The feature bits of a task's image that the part lacks (R349, R350): bit 5 on A0, bits 63 to 7, and bit 6 where the task's
meld slot is not there. -/
def State.missingFeatures (s : State) (t : Task) : BitVec 64 :=
  let slotHere := match s.meldOf t with
    | some m => m.gid == t.id.gid
    | none => false
  t.id.feat &&& ((if s.boot.step = 1 then 0xFFFFFFFFFFFFFFA0#64 else 0xFFFFFFFFFFFFFF80#64) ||| (if slotHere then 0 else 0x40#64))

/-! ## Errors that are consumed (R355) -/

/-- The row of R351 that a byte of this Brynter's memory belongs to: the stash, near SRAM, or GDDR-7. -/
def State.memoryUnit (s : State) (key : Nat) : Nat :=
  if s.stash.any (fun l => l.line == key / 256 * 256) then 3 else if key % 2 ^ 52 < 8 * 0x40000000 then 5 else 6

/-- An error in this Brynter's memory logged, at the granule of a byte. -/
def State.logMemory (s : State) (kind key : Nat) (region : Word) (node : Nat) : State :=
  s.logError kind (s.memoryUnit key) ((s.homeDie (key % 2 ^ 52)).getD 0xFF) 0xFF (key % 2 ^ 52 / 64 * 64) region node

/-- The poisoned byte nearest above an address that a task has accessed, within the 128 bytes that the widest access reads. -/
def State.poisonedAt (s : State) (t : Task) (a : Word) : Option Nat :=
  match s.translatePage t.id.ctx (some (s.dieOf t)) a .read, s.translatePage t.id.ctx (some (s.dieOf t)) a .fetch with
  | .error _, .error _ => none
  | .ok p, _ => (List.range 128).findSome? (fun i => if s.poisoned (p.key + i) 1 then some (p.key + i) else none)
  | .error _, .ok p => (List.range 128).findSome? (fun i => if s.poisoned (p.key + i) 1 then some (p.key + i) else none)

/-- The die and section of a task, as a record of the error log names them. -/
def State.siteOf (s : State) (t : Task) : Nat × Nat :=
  match s.sect t.id.section_ with
  | some x => (x.pdie, x.psect)
  | none => (0xFF, 0xFF)

/-- A fault of cause 0x0E logged as a consumed error: of a register word, or of a granule of this Brynter's memory (R355). A transfer over
a failed path consumes no stored error (R354). The register is numbered as log 22 says, its byte in the low word of the location. -/
def State.logConsumed (s : State) (t : Task) (tr : Trap) : State :=
  if tr.cause != 0x0E then s
  else
    match tr.reg, tr.addr with
    | some (r, b), _ => s.logError 3 1 (s.siteOf t).1 (s.siteOf t).2 (r * 2 ^ 32 + b) t.id.region t.id.node
    | none, some a =>
      match s.poisonedAt t a with
      | some k => s.logMemory 3 k t.id.region t.id.node
      | none => s
    | none, none => s

end Sys2Proof.Machine
end

