-- ==== Sys2Proof/Machine/Dealer.lean ====
section
/-! DEFINITION. The dealers: capacity, fit, grants, dispatch order, bypasses and reservations, counter overlap, dispatch
(R81 to R91, R126, R330). -/

namespace Sys2Proof.Machine

/-! ## Capacity of a section -/

/-- Whether a task holds its section (R88, R341). -/
def Task.onSection (t : Task) (n : Nat) : Bool := t.status == .running && t.id.section_ == n

/-- Idle strips, idle control cores and the array of a section (R84). -/
def State.idleStrips (s : State) (n : Nat) : Nat :=
  16 - sumBy (fun t => t.id.grant) (s.tasks.filter (fun t => t.onSection n))
def State.idleCores (s : State) (n : Nat) : Nat := 8 - (s.tasks.filter (fun t => t.onSection n)).length
def State.arrayFree (s : State) (n : Nat) : Bool := !s.tasks.any (fun t => t.onSection n && t.id.kind == 2)

/-- Whether two sections share the engine that serves k sections of a die (R84, R388). -/
def State.sameEngine (s : State) (k a b : Nat) : Bool :=
  match s.sect a, s.sect b with
  | some x, some y => x.pdie == y.pdie && x.psect / k == y.psect / k
  | _, _ => false

/-- Nodes of a kind that hold a slot of an engine. -/
def State.engineNodes (s : State) (kind k n : Nat) : Nat :=
  sumBy (fun (g : Graph) =>
    (g.nodes.filter (fun x => x.kind == kind && x.status == .running && s.sameEngine k x.section_ n)).length) s.graphs

/-- Free command slots of the copy engine of a section: block copies and COPY nodes share 16 (R250). -/
def State.copySlots (s : State) (n : Nat) : Nat :=
  16 - (s.engineNodes 3 4 n + sumBy (fun (t : Task) => (t.copies.filter (fun c => c.status.isNone)).length)
    (s.tasks.filter (fun t => t.status == .running && s.sameEngine 4 t.id.section_ n)))

/-- Free command slots of the collective engine of a section (R84, R388). -/
def State.collSlots (s : State) (n : Nat) : Nat := 16 - s.engineNodes 4 8 n

/-! ## Budgets -/

/-- The running tasks of a region's subtree. -/
def State.subtreeTasks (s : State) (c : Nat) (a : Word) : List Task :=
  s.tasks.filter (fun t => t.status == .running && t.id.ctx == c && s.inSubtree c a t.id.region)

/-- room(r): the least, over the region and its ancestors, of the strip budget less the strips held (R85). -/
def State.room (s : State) (c : Nat) (a : Word) : Nat :=
  leastBy (fun (r : Region) => s.effStrips c r.addr - sumBy (fun t => t.id.grant) (s.subtreeTasks c r.addr)) 65535
    (s.chain c a)

/-- Array-holding cycles of a subtree within the last 2^20 cycles (R84). -/
def State.arrayCycles (s : State) (c : Nat) (a : Word) : Nat :=
  let now := s.cycle.toNat
  let lo := now - 2 ^ 20
  sumBy (fun (h : ArrayHold) => (h.stop.getD now) - max h.start lo)
    (s.arrays.filter (fun h => h.ctx == c && s.inSubtree c a h.region))

/-- Whether the array share of a region and of each ancestor admits one more array (R84). -/
def State.shareAdmits (s : State) (c : Nat) (a : Word) : Bool :=
  (s.chain c a).all (fun r =>
    let share := s.effShare c r.addr
    ((s.subtreeTasks c r.addr).filter (fun t => t.id.kind == 2)).length + 1 ≤ ceilDiv share 1024
      && s.arrayCycles c r.addr < share * 1024)

/-! ## What waits in the pool -/

/-- A node that wants a place: a ready node, a stopped task (R90), or a meld (R129). -/
structure Want where
  gid : Nat
  node : Nat
  ctx : Nat
  region : Word
  die : Nat
  kind : Nat
  prio : Nat
  smin : Nat
  smax : Nat
  /-- A stopped task takes exactly its grant. -/
  exact : Bool
  /-- The section it left, when its region is not migratable. -/
  only : Option Nat
  age : Nat
  /-- Counter entries it would add (R330). -/
  entries : Nat
  resumed : Bool
  deriving DecidableEq, Repr

/-- The task of a node. -/
def State.taskOf (s : State) (gid n : Nat) : Option Task := s.tasks.find? (fun t => t.id.gid == gid && t.id.node == n)

/-- The want of a node that stands in the pool. -/
def State.wantOf (s : State) (g : Graph) (n : Node) : Want :=
  let prio := min (s.effPrio g.ctx g.region) g.pcap
  match n.status, s.taskOf g.gid n.index with
  | .resumable, some t =>
    { gid := g.gid, node := n.index, ctx := g.ctx, region := g.region, die := g.die, kind := t.id.kind, prio := prio,
      smin := t.id.grant, smax := t.id.grant, exact := true,
      only := if s.isMigratable g.ctx g.region then none else some t.id.section_, age := n.age, entries := 0,
      resumed := true }
  | _, _ =>
    { gid := g.gid, node := n.index, ctx := g.ctx, region := g.region, die := g.die, kind := n.kind, prio := prio,
      smin := n.smin, smax := n.smax, exact := false, only := none, age := n.age,
      entries := if (n.kind == 1 || n.kind == 2) && n.ctrlen != 0 then 1 else 0, resumed := false }

/-- The nodes of a die's graphs that are ready or wait to be resumed, oldest first. COND and LOOP nodes do not enter a pool. -/
def State.readyWants (s : State) (die : Nat) : List Want :=
  sortBy (fun w => w.age) (s.graphs.flatMap (fun g =>
    if g.die == die then
      (g.nodes.filter (fun n => (n.status == .ready && n.kind ≤ 4) || n.status == .resumable)).map (s.wantOf g)
    else []))

/-- The nodes that stand in a die's ready pool: the oldest 4,096 (R82). A stopped task that returns to a full pool takes the place of the
youngest entry at once (DESIGN CHOICE, log 39). -/
def State.pool (s : State) (die : Nat) : List Want := (s.readyWants die).take 4096

/-- Counter entries of a die: one for each task, or part of a meld, whose ctrlen is not 0 (R330). -/
def State.counterEntries (s : State) (die : Nat) : List (Nat × Nat × Word × Word × Nat) :=
  s.tasks.flatMap (fun t =>
    match s.graph t.id.gid with
    | none => []
    | some g =>
      if g.die != die then []
      else
        (if t.id.ctrlen = 0 then []
         else [(t.id.node, t.id.ctx, t.id.seed, t.id.ctrbase + BitVec.ofNat 64 (t.id.it * t.id.ctrlen), t.id.ctrlen)]) ++
        (match t.id.meld with
         | none => []
         | some k =>
           match (s.die (s.physDie die |>.getD 0)).melds.find? (fun m => m.slot == k) with
           | none => []
           | some m => if m.cCtrlen = 0 then []
                       else [(m.c, t.id.ctx, t.id.seed, m.cCtrbase + BitVec.ofNat 64 (m.it * m.cCtrlen), m.cCtrlen)]))

/-- The active entries that a range overlaps (R330). -/
def State.overlapsOf (s : State) (die ctx : Nat) (seed base : Word) (len : Nat) :
    List (Nat × Nat × Word × Word × Nat) :=
  if len = 0 then []
  else (s.counterEntries die).filter (fun e =>
    e.2.1 == ctx && e.2.2.1 == seed && ((base - e.2.2.2.1).toNat < e.2.2.2.2 || (e.2.2.2.1 - base).toNat < len))

/-! ## Fit -/

/-- The placement set of a want: live sections of its die, its partition and its effective mask, and for a task that may
not move the one that it left (R79, R84, R90); none while its domain is halted (R336). -/
def State.placement (s : State) (w : Want) : List Nat :=
  let mask := s.effPlace w.ctx w.region
  let part := (s.context w.ctx).map (·.part)
  if !w.resumed && s.halted w.ctx w.region then [] else
  (List.range s.sects.length).filter (fun i =>
    match s.sect i with
    | none => false
    | some x => !x.offline && (s.die x.pdie).ldie == some w.die && x.part == part && part.isSome && mask.getLsbD i
        && (match w.only with
          | none => true
          | some o => o == i))

/-- grant(n) in a section (R85). -/
def State.grantIn (s : State) (w : Want) (n : Nat) : Nat :=
  min w.smax (min (s.idleStrips n) (s.room w.ctx w.region))

/-- Whether a section takes no dispatch of a want because a service action empties it; a stopped task that may resume nowhere else is
waited for there, and so it may (R90, R369). -/
def State.closedTo (s : State) (w : Want) (n : Nat) : Bool :=
  match s.sect n with
  | none => true
  | some x => x.closing && w.only != some n

/-- Whether a reservation keeps a want out of a section (R86). -/
def State.reservedFrom (s : State) (w : Want) (n : Nat) : Bool :=
  match (s.sect n).bind (·.reserved) with
  | none => false
  | some k =>
    k != (w.gid, w.node) &&
      (match s.node k.1 k.2, s.graph k.1 with
       | some o, some g => w.prio ≤ (s.wantOf g o).prio
       | _, _ => false)

/-- Whether a section has the strips, the core, the array and the engine slot that a want needs. -/
def State.hasUnits (s : State) (w : Want) (n : Nat) : Bool :=
  match w.kind with
  | 3 => s.copySlots n > 0
  | 4 => s.collSlots n > 0
  | k => s.idleCores n > 0 && min w.smax (s.idleStrips n) ≥ max w.smin 1 && (k != 2 || s.arrayFree n)

/-- Whether the budgets and the shares of a want's region and its ancestors admit it (R84, R85). -/
def State.inBudget (s : State) (w : Want) : Bool :=
  2 < w.kind || (s.room w.ctx w.region ≥ max w.smin 1 && (w.kind != 2 || s.shareAdmits w.ctx w.region))

/-- Whether a full counter table holds a want back (R330). -/
def State.tableBlocked (s : State) (w : Want) : Bool :=
  w.kind ≤ 2 && !w.resumed && (s.counterEntries w.die).length + w.entries > 256

/-- Whether a want fits a section of its placement set (R84, R90, R330). -/
def State.fits (s : State) (w : Want) (n : Nat) : Bool :=
  !s.closedTo w n && !s.reservedFrom w n && s.hasUnits w n && s.inBudget w && !s.tableBlocked w

/-- The first fitting section in logical order (R84). -/
def State.fitFirst (s : State) (w : Want) : Option Nat := (s.placement w).find? (s.fits w)

/-- Whether only its region's budget or share holds a want back (R87): some section would fit it but for them. -/
def State.budgetBlocked (s : State) (w : Want) : Bool :=
  !s.inBudget w && !s.tableBlocked w
    && (s.placement w).any (fun n => !s.closedTo w n && !s.reservedFrom w n && s.hasUnits w n)

/-- The state with every task of a section retired: those that hold it, and the engine commands dispatched to it. -/
def State.emptied (s : State) (n : Nat) : State :=
  let done (x : Node) : Node := if x.onEngine && x.section_ == n then { x with status := .retired } else x
  { s with task := if s.task.onSection n then Task.vacant else s.task
           parked := s.parked.filter (fun t => !t.onSection n)
           graphs := s.graphs.map (fun g => { g with nodes := g.nodes.map done }) }

/-- Whether a want is capacity-blocked (R86): some section would fit it with every task of that section retired, none fits now. Whether
reservations count in that test is not stated: they do not, since R86 lets a node wait for the first one that frees up (log 39). -/
def State.capacityBlocked (s : State) (w : Want) : Bool :=
  (s.fitFirst w).isNone && !s.budgetBlocked w && !s.tableBlocked w
    && (s.placement w).any (fun n => !s.closedTo w n && (s.emptied n).hasUnits w n && (s.emptied n).inBudget w)

/-! ## Bypasses and reservations -/

/-- The best section of a want to reserve: the most idle strips, then for an ARRAY node a free array, then the lowest number (R86). -/
def State.bestSection (s : State) (w : Want) : Option Nat :=
  let free := (s.placement w).filter (fun i =>
    match s.sect i with
    | some x => x.reserved.isNone && !x.closing
    | none => false)
  argLeast (fun i => 2 * (16 - s.idleStrips i) + (if w.kind == 2 && !s.arrayFree i then 1 else 0)) free

/-- Whether a node holds a reservation. -/
def State.holdsReservation (s : State) (gid n : Nat) : Bool := s.sects.any (fun x => x.reserved == some (gid, n))

/-- The reservation of every node that has suffered eight bypasses and holds none (R86). -/
def State.reserveAll (s : State) (die : Nat) : State :=
  (s.pool die).foldl (fun s w =>
    match s.node w.gid w.node with
    | none => s
    | some x =>
      if x.bypasses ≥ 8 && !s.holdsReservation w.gid w.node && s.capacityBlocked w then
        match s.bestSection w with
        | none => s
        | some b => s.modSect b (fun y => { y with reserved := some (w.gid, w.node) })
      else s) s

/-- The bypasses that a dispatch into a section counts (R86): for each capacity-blocked node of equal or higher priority
whose placement set holds the section. -/
def State.countBypasses (s : State) (blocked : List Want) (w : Want) (n : Nat) : State :=
  blocked.foldl (fun s b =>
    if (b.gid, b.node) != (w.gid, w.node) && w.prio ≤ b.prio && (s.placement b).contains n then
      -- one that waits for the host's answer is passed uncounted (R141)
      s.modNode b.gid b.node (fun x => if x.asked && x.draft.isSome then x else { x with bypasses := x.bypasses + 1 })
    else s) s

/-- The capacity-blocked nodes of a die. -/
def State.blockedWants (s : State) (die : Nat) : List Want := (s.pool die).filter s.capacityBlocked

/-- The µs since which each node of a die has been capacity-blocked (R89), brought up to date. -/
def State.markBlocked (s : State) (die : Nat) : State :=
  (s.pool die).foldl (fun s w =>
    if s.capacityBlocked w then
      s.modNode w.gid w.node (fun x => { x with blockedSince := some (x.blockedSince.getD s.micros) })
    else s.modNode w.gid w.node (fun x => { x with blockedSince := none })) s

/-! ## Dispatch -/

/-- The index of a node, or of the spawner of a child (R362). -/
def spawnerIndex (i : Nat) : Nat := if i < 2 ^ 31 then i else (i - 2 ^ 31) / 4096

/-- The segments ordered before every segment of a node's task (R316): those of its graph's predecessors in the graph, of
its ancestors, of earlier iterations, and of its spawner. -/
def State.orderedBefore (s : State) (g : Graph) (n : Node) : List Nat :=
  let anc := g.nodes.filter (fun x => (g.descendants x).contains n.index || n.spawner == some x.index
    || (match n.spawner with
        | some p => (g.descendants x).contains p
        | none => false))
  let own := s.segments.filter (fun e => e.gid == g.gid && (anc.any (fun x => x.index == e.node && x.it ≥ e.it)
    || (e.it < n.it && (match g.loopOf n with
        | some l => l.first ≤ spawnerIndex e.node && spawnerIndex e.node ≤ l.last
        | none => false))))
  (g.before ++ own.map (·.sid) ++ own.flatMap (·.before)).eraseDups

/-- The lowest idle control core of a section (which one a task gets is not stated, log 28), and the words it has
retired. -/
def State.freeCore (s : State) (n : Nat) : Nat × Word :=
  let used := (s.tasks.filter (fun t => t.onSection n)).map (fun t => t.id.core)
  let c := ((List.range 8).find? (fun c => !used.contains c)).getD 0
  (c, match s.sect n with
    | some x => (x.retired[c]?).getD 0
    | none => 0)

/-- A task at its start (R54, R145, R272): slots in x10 to x15, everything else as a task starts, its control thread at code, which the
checks of its descriptor have found to be a multiple of 4 (R92, log 39). -/
def State.startTask (s : State) (g : Graph) (n : Node) (w : Want) (sec grant : Nat) : Task :=
  let x := (List.range 6).foldl (fun (x : Vector Word 32) i => x.set! (10 + i) (n.slot i)) (Vector.replicate 32 0)
  { Task.vacant with
    status := .running
    id := { tid := s.nextTid, ctx := g.ctx, gid := g.gid, node := n.index, region := g.region, kind := n.kind,
            grant := grant, section_ := sec, core := (s.freeCore sec).1, prio := w.prio, seed := g.seed, ctrbase := n.ctrbase, ctrlen := n.ctrlen,
            it := n.it, kernel := n.code, meld := none, feat := 0, gen := s.gen }
    x := x
    pc := n.code
    instret := (s.freeCore sec).2
    before := s.orderedBefore g n
    segment := s.nextSegment
    spawned := n.spawner.isSome
    progressAt := s.micros
    runSince := s.micros
    startAt := s.micros
    dispatched := s.nextAge }

/-- A new task put among the others. -/
def State.addTask (s : State) (t : Task) : State :=
  let held : List ArrayHold :=
    if t.id.kind == 2 then
      [{ ctx := t.id.ctx, region := t.id.region, tid := t.id.tid, start := s.cycle.toNat, stop := none }]
    else []
  { s with parked := s.parked ++ [t], nextTid := s.nextTid + 1, nextSegment := s.nextSegment + 1,
           nextAge := s.nextAge + 1, arrays := s.arrays ++ held }

/-- The reservation that a node holds ended; a pre-emption that serves the node goes on (R89, R369). -/
def State.cancelReservation (s : State) (gid n : Nat) : State :=
  { s with sects := s.sects.map (fun x => if x.reserved == some (gid, n) then { x with reserved := none } else x) }

/-- The reservation that a node holds, and the pre-emption that serves it, ended at its dispatch (R86, R89). A node that retires
without being dispatched keeps both (DESIGN CHOICE, log 39). -/
def State.endReservation (s : State) (gid n : Nat) : State :=
  let s := s.cancelReservation gid n
  { s with dies := s.dies.map (fun d => if d.preempting == some (gid, n) then { d with preempting := none } else d) }

/-- A node that leaves the pool for a section: its wait is over (R86, R89), and no answer on it is awaited. -/
def Node.dispatched (n : Node) : Node :=
  { n with status := .running, bypasses := 0, blockedSince := none, asked := false, draft := none }

/-- The engine of a kind of command that serves a section: 1 for copies, 2 for collectives, the die and its number there (R84). -/
def State.engineOf (s : State) (kind sec : Nat) : Nat × Nat × Nat :=
  match s.sect sec with
  | some x => if kind = 3 then (1, x.pdie, x.psect / 4) else (2, x.pdie, x.psect / 8)
  | none => (0, 0, 0)

/-- Whether an engine core is the one named. -/
def Engine.is (e : Engine) (k : Nat × Nat × Nat) : Bool := e.kind == k.1 && e.pdie == k.2.1 && e.index == k.2.2

/-- An engine of a section made ready for a command of a node, at a command boundary (R26, R27): with the image of the context's own, whose
first instruction stands at offset 0 (R25), loaded unless it is what the engine has been running, or with the default image, which the model
runs by R262 and R389. -/
def State.loadEngine (s : State) (g : Graph) (kind sec : Nat) : State :=
  let k := s.engineOf kind sec
  let others := s.engines.filter (fun e => !e.is k)
  match (s.context g.ctx).bind (fun c => (if kind = 3 then c.copyImage else c.collImage).map (fun i => (c, i))) with
  | none => { s with engines := others }
  | some (c, i) =>
    if s.engines.any (fun e => e.is k && e.ctx == g.ctx && e.image == i) then s
    else
      let code := (List.range i.2).map (fun b => (s.objectByte c (i.1.toNat + b)).getD 0)
      { s.recallObject c i.1.toNat i.2 with
        engines := others ++ [{ kind := k.1, pdie := k.2.1, index := k.2.2, ctx := g.ctx, image := i, imem := code, entry := 0 }] }

/-- The code of the context's own image that the engine of a section holds, if it holds one. -/
def State.engineCode (s : State) (kind sec : Nat) : Option (List Byte) :=
  (s.engines.find? (fun e => e.is (s.engineOf kind sec))).map (·.imem)

/-- The 32 bytes of a counter-overlap event (R331); len and base are those of the overlapped entry (log 27). -/
def overlapEvent (strict : Bool) (host : Bool) (node onode len : Nat) (base region : Word) : List Byte :=
  layBytes [(1, 1), ((if strict then 1 else 0) + (if host then 2 else 0), 1), (0, 2), (node, 4), (onode, 4), (len, 4),
    (base.toNat, 8), (region.toNat, 8)]

/-- The events and counters of the overlaps of one dispatch (R331). -/
def State.countOverlaps (s : State) (die : Nat) (strict host : Bool) (region : Word) (node : Nat)
    (es : List (Nat × Nat × Word × Word × Nat)) : State :=
  let p := (s.physDie die).getD 0
  let s1 := es.foldl (fun s e =>
    (s.postEvent 2 p (overlapEvent strict host node e.1 e.2.2.2.2 e.2.2.2.1 region)).modDie p
      (fun d => { d with overlaps := d.overlaps + 1 })) s
  if strict && !es.isEmpty then s1.modDie p (fun d => { d with strictFaults := d.strictFaults + 1 }) else s1

/-- The host asked about the overlaps of a range (R66, R380); the request names the first overlapped entry. -/
def State.askOverlap (s : State) (pdie : Nat) (g : Graph) (node sec : Nat) (es : List (Nat × Nat × Word × Word × Nat)) : State :=
  let record := match es.head? with
    | some e => overlapEvent false true node e.1 e.2.2.2.2 e.2.2.2.1 g.region
    | none => []
  s.postRequest 6 pdie g.ctx (.ctrovl g.gid node sec) (BitVec.ofNat 896 (leVal record))

/-- A fault of a task that stands in the pool delivered: its record names the control thread's next word. -/
def State.faultStopped (s : State) (t : Task) (c : Nat) (info : BitVec 32) : State :=
  let r := s.recordOf { t with block := none } .control { cause := c, info := info }
  (s.modNode t.id.gid t.id.node (fun x => { x with status := .running })).deliverCore t c r

/-- A stopped task put back on a section (R90, R343), once the checks of its restore pass (R348, R350). -/
def State.resumeTask (s : State) (w : Want) (sec : Nat) : State :=
  match s.taskOf w.gid w.node with
  | none => s
  | some t =>
    let s := (s.recallImage t).recallRestore t
    match s.restored t (s.missingFeatures t) with
    | .error (c, info) => s.faultStopped t c info
    | .ok u =>
      let s1 := s.modTask t.id.tid (fun _ =>
        { u.back s.micros with
            status := .running, instret := (s.freeCore sec).2, runSince := s.micros, dispatched := s.nextAge,
            id := { u.id with section_ := sec, core := (s.freeCore sec).1 } })
      let held : List ArrayHold :=
        if t.id.kind == 2 then
          [{ ctx := t.id.ctx, region := t.id.region, tid := t.id.tid, start := s.cycle.toNat, stop := none }]
        else []
      let s2 := s1.modNode w.gid w.node Node.dispatched
      { s2 with nextAge := s2.nextAge + 1, arrays := s2.arrays ++ held }

/-- The overlaps of a node's range with the active entries of a die (R330). -/
def State.lapsOf (s : State) (die : Nat) (g : Graph) (x : Node) : List (Nat × Nat × Word × Word × Nat) :=
  s.overlapsOf die g.ctx g.seed (x.ctrbase + BitVec.ofNat 64 (x.it * x.ctrlen)) x.ctrlen

/-- Dispatch of a want into a section, if its range allows it: a strict overlap faults the node, another posts events
(R330). A damaged pool entry raises 0x0E (R354). An engine command takes the code that its engine holds now, as it goes into its command
slot: when a command that waits in a slot has started is not stated (R27; DESIGN CHOICE, log 10). Under CTROVL the host is asked where the range overlaps, and not where it overlaps nothing
(DESIGN CHOICE, log 27). -/
def State.dispatchNode (s : State) (w : Want) (sec : Nat) : State :=
  match s.graph w.gid, s.node w.gid w.node with
  | some g, some n =>
    let blocked := s.blockedWants w.die
    let after (s : State) : State := ((s.endReservation w.gid w.node).countBypasses blocked w sec).reserveAll w.die
    if n.poisoned then
      let s1 := s.endReservation w.gid w.node
      match (if w.resumed then s.taskOf w.gid w.node else none) with
      | some t => s1.faultStopped t 0x0E 0
      | none => s1.faultNode w.gid w.node 0 n.code 0x0E 0 0
    else if w.resumed then after (s.resumeTask w sec)
    else if w.kind > 2 then
      let s1 := s.loadEngine g w.kind sec
      after (s1.modNode w.gid w.node (fun x =>
        { x.dispatched with section_ := sec, since := s.micros, image := s1.engineCode w.kind sec }))
    else
      let es := s.lapsOf w.die g n
      if !es.isEmpty && s.port0.duty.getLsbD 5 && !n.ctrAnswered then
        -- CTROVL: the dispatch waits for the host's answer (R66)
        (s.modNode w.gid w.node (fun x => { x with asked := true })).askOverlap ((s.physDie w.die).getD 0) g n.index sec es
      else if !es.isEmpty && s.isStrict g.ctx g.region && !n.ctrAnswered then
        ((s.countOverlaps w.die true false g.region n.index es).endReservation w.gid w.node).faultNode w.gid w.node 0 n.code
          0x0B 0 1
      else
        let s1 := s.countOverlaps w.die false n.ctrAnswered g.region n.index es
        let t := s1.startTask g n w sec (s1.grantIn w sec)
        after ((s1.addTask t).modNode w.gid w.node Node.dispatched)
  | _, _ => s

/-- A meld formed and dispatched (R126, R129, R133): one task for P's node, C's node melded. -/
def State.dispatchMeld (s : State) (w : Want) (m : Meld) (elided : Bool) (sec : Nat) : State :=
  match s.graph w.gid, s.node w.gid m.p, s.node w.gid m.c with
  | some g, some p, some c =>
    let blocked := s.blockedWants w.die
    let die := (s.physDie w.die).getD 0
    let s1 := (s.countOverlaps w.die false p.ctrAnswered g.region p.index (s.lapsOf w.die g p)).countOverlaps w.die false c.ctrAnswered
      g.region c.index (s.lapsOf w.die g c)
    let s2 := s1.modDie die (fun d =>
      { d with melds := d.melds ++ [m], formed := d.formed + 1, elided := if elided then d.elided + 1 else d.elided,
               kept := if elided then d.kept else d.kept + 1 })
    let t := s2.startTask g p w sec (s2.grantIn w sec)
    let t := { t with id := { t.id with meld := some m.slot }, pc := meldAddr m.slot, x := meldRegs m,
                      second := some (t.segment + 1, t.segment :: s2.orderedBefore g c) }
    let s2 := { s2 with nextSegment := s2.nextSegment + 1 }
    let s3 := ((s2.addTask t).modNode w.gid m.p Node.dispatched).modNode w.gid m.c (fun x => { x with status := .melded })
    ((s3.endReservation w.gid m.p).countBypasses blocked w sec).reserveAll w.die
  | _, _, _ => s

/-- A node dispatched by itself, if it fits. -/
def State.dispatchAlone (s : State) (w : Want) : State :=
  match s.fitFirst w with
  | none => s
  | some sec => s.dispatchNode w sec

/-- The pairs of a node evaluated once and for all (R126): it is dispatched alone from here on. -/
def State.dispatchSingle (s : State) (w : Want) : State :=
  (s.modNode w.gid w.node (fun x => { x with spliceAnswer := some false, draft := none })).dispatchAlone w

/-- The pair that a node's dispatch has chosen tested for a slot, for fit and for overlaps, in that order, and dispatched (R126, R129). A
test that fails refuses it, and the node is dispatched alone; once the host has approved it, a lack of room of either kind is 0x0B (R141,
log 39). Under CTROVL the host answers for each range that overlaps, under SPLICE for the pair (R66); a refusal after one of its approvals
is host-assisted (R139). -/
def State.dispatchPair (s : State) (w : Want) (g : Graph) (n : Node) (d : Draft) : State :=
  let die := (s.physDie w.die).getD 0
  let words := d.meld.body.length
  let refuse (host : Bool) (code : Nat) : State :=
    (s.refusePair g n { c := d.meld.c, code := code, words := words, host := host }).dispatchSingle w
  match s.node g.gid d.meld.c with
  | none => s.dispatchSingle w
  | some cn =>
    let wm : Want := { w with smin := max n.smin cn.smin, smax := min n.smax cn.smax,
                              entries := w.entries + (if cn.ctrlen != 0 then 1 else 0) }
    let open_ (x : Node) : Bool := !(s.lapsOf w.die g x).isEmpty && !x.ctrAnswered
    let hostChecks := s.port0.duty.getLsbD 5
    let approved := n.spliceAnswer == some true || n.ctrAnswered || cn.ctrAnswered
    let waits (s : State) : State := s.modNode g.gid n.index (fun x => { x with asked := true, draft := some d })
    match firstFreeSlot (s.die die).melds, s.fitFirst wm with
    | none, _ => refuse approved (if n.spliceAnswer == some true then 0x0B else 0x0C)
    | some _, none => refuse approved 0x0B
    | some slot, some sec =>
      if (open_ n || open_ cn) && hostChecks then
        let x := if open_ n then n else cn
        (waits s).askOverlap die g x.index sec (s.lapsOf w.die g x)
      else if (open_ n || open_ cn) && s.isStrict g.ctx g.region then refuse approved 0x0F
      else if s.port0.duty.getLsbD 3 && n.spliceAnswer.isNone then
        (waits s).postRequest 4 die g.ctx (.splice die g.gid n.index d.meld.c)
          (BitVec.ofNat 896 (leVal (spliceEvent 0 true n.index d.meld.c words g.region)))
      else s.dispatchMeld wm { d.meld with slot := slot } d.elided sec

/-- A want tried (R83, R126): a VECTOR node as a meld when an eligible pair passes every check, else alone. A node on which the host has
been asked waits (R66, R141); the pair that it was asked about is not evaluated again. -/
def State.tryDispatch (s : State) (w : Want) : State :=
  match s.graph w.gid, s.node w.gid w.node with
  | some g, some n =>
    if n.asked then s
    else if w.resumed || w.kind != 1 || g.single || n.poisoned then s.dispatchAlone w
    else
      match n.draft with
      | some d => s.dispatchPair w g n d
      | none =>
        if (s.fitFirst w).isNone || n.spliceAnswer == some false then s.dispatchAlone w
        else
          match s.meldChoice g n with
          | .none refusals => (refusals.foldl (fun s r => s.refusePair g n r) s).dispatchSingle w
          | .pair refusals _ draft => (refusals.foldl (fun s r => s.refusePair g n r) s).dispatchPair w g n draft
  | _, _ => s

/-- What a visit charges a want: the strips that it would be granted in its first fitting section, 1 for an engine command (R83). A node
whose meld is dispatched is charged as by itself (DESIGN CHOICE, log 39). One that fits nowhere is not tried, unless the host has
answered on its pair, which is then refused (R141). -/
def State.costOf (s : State) (w : Want) : Option Nat :=
  match s.fitFirst w, s.node w.gid w.node with
  | some sec, _ => some (if w.kind ≤ 2 then s.grantIn w sec else 1)
  | none, some n => if n.draft.isSome && !n.asked then some w.smin else none
  | none, none => none

/-- One visit of a region in a round (R83). The region has one deficit, which the dealers of all dies share, and which a die whose pool
holds no node of the region clears (DESIGN CHOICE, log 39). -/
def State.visitRegion (s : State) (die prio : Nat) (r : Nat × Word) : State :=
  let quantum := max 1 (s.effStrips r.1 r.2)
  let addDef (k : Nat) (f : Nat → Nat → Nat) (s : State) : State :=
    let hit : Region → Bool := fun x => x.ctx == r.1 && x.addr == r.2
    { s with regions := mapIf hit (fun x => { x with deficit := f x.deficit k }) s.regions }
  let mine (s : State) : List Want := (s.pool die).filter (fun w => w.ctx == r.1 && w.region == r.2)
  let s1 := addDef quantum (· + ·) s
  let s2 := ((mine s1).filter (fun w => w.prio == prio)).foldl (fun s w =>
    match s.costOf w with
    | none => s
    | some cost =>
      if cost ≤ ((s.region r.1 r.2).map (·.deficit)).getD 0 then
        let s' := s.tryDispatch w
        let gone : Bool := match s'.node w.gid w.node with
          | some x => x.status != .ready && x.status != .resumable
          | none => true
        if gone then addDef cost (· - ·) s' else s'
      else s) s1
  if (mine s2).isEmpty then addDef 0 (fun _ k => k) s2 else s2

/-- The regions with ready nodes at a priority, in rotation order (R83); new ones enter at the end. -/
def State.rotationAt (s : State) (die prio : Nat) : List (Nat × Word) :=
  (((s.pool die).filter (fun w => w.prio == prio)).map (fun w => (w.ctx, w.region))).eraseDups

/-- The rotation of a die brought up to date: regions with no ready node leave, new ones enter. -/
def State.refreshRotation (s : State) (die : Nat) : State :=
  let ready := ((s.pool die).map (fun w => (w.ctx, w.region))).eraseDups
  s.modDie ((s.physDie die).getD 0) (fun d =>
    let kept := d.rotation.filter (fun r => ready.contains r)
    { d with rotation := kept ++ ready.filter (fun r => !kept.contains r) })

/-- One sweep over the priorities, 15 first (R83). A node that begins to fit after the visit of its region, because a dispatch has ended a
reservation, waits for the next sweep, also while nodes of lower priority are served in this one: R83's steps are followed here over its
sentence that a covered node of higher priority that fits goes first (DESIGN CHOICE, log 39). -/
def State.sweepDie (s : State) (die : Nat) : State :=
  (List.range 16).foldl (fun s i =>
    let prio := 15 - i
    let live := s.rotationAt die prio
    if live.isEmpty then s
    else
      let order := ((s.die ((s.physDie die).getD 0)).rotation.filter (fun r => live.contains r))
      order.foldl (fun s r => s.visitRegion die prio r) s) s

/-- Whether a pass has still something to dispatch: a node that fits, and on which no answer is awaited. -/
def State.mayDispatch (s : State) (die : Nat) : Bool :=
  (s.pool die).any (fun w => (s.costOf w).isSome && ((s.node w.gid w.node).map (fun n => !n.asked)).getD false)

/-- A pass of a die's dealer: sweeps until no further dispatch is possible (R83). -/
def State.passDie (s : State) (die : Nat) : Nat → State
  | 0 => s
  | k + 1 =>
    let s1 := (s.refreshRotation die).sweepDie die
    if s1.mayDispatch die then s1.passDie die k else s1

/-- The passes that a change makes: every die with ready nodes (R83). A fitting node waits for at most 16 visits of its region, since no
cost is above 16 and every visit adds at least 1. -/
def State.settle (s : State) : State :=
  (List.range 8).foldl (fun s die =>
    if (s.pool die).isEmpty then s
    else ((s.reserveAll die).passDie die (17 * ((s.readyWants die).length + 1))).markBlocked die) s

end Sys2Proof.Machine
end

