-- ==== Sys2Proof/WellFormed.lean ====
section
/-! DEFINITION. Which field values an instruction may carry (R94 and the entries), and where each may stand (R95). -/

namespace Sys2Proof

/-- The where attributes of R95; `agent` marks the steps that are no word. -/
inductive Attr where
  | c | b | l | lOnly | cb | agent
  deriving DecidableEq, Repr

/-- No field holds a value that R94 or the instruction's entry forbids for it whatever the state is. -/
def Instr.wf : Instr → Bool
  | .lui _ _ => true
  | .auipc _ _ => true
  | .jal _ _ => true
  | .jalr _ _ _ => true
  | .beq _ _ _ => true
  | .bne _ _ _ => true
  | .blt _ _ _ => true
  | .bge _ _ _ => true
  | .bltu _ _ _ => true
  | .bgeu _ _ _ => true
  | .lb _ _ _ => true
  | .lh _ _ _ => true
  | .lw _ _ _ => true
  | .ld _ _ _ => true
  | .lbu _ _ _ => true
  | .lhu _ _ _ => true
  | .lwu _ _ _ => true
  | .sb _ _ _ => true
  | .sh _ _ _ => true
  | .sw _ _ _ => true
  | .sd _ _ _ => true
  | .addi _ _ _ => true
  | .slti _ _ _ => true
  | .sltiu _ _ _ => true
  | .xori _ _ _ => true
  | .ori _ _ _ => true
  | .andi _ _ _ => true
  | .slli _ _ _ => true
  | .srli _ _ _ => true
  | .srai _ _ _ => true
  | .add _ _ _ => true
  | .sub _ _ _ => true
  | .sll _ _ _ => true
  | .slt _ _ _ => true
  | .sltu _ _ _ => true
  | .xor _ _ _ => true
  | .srl _ _ _ => true
  | .sra _ _ _ => true
  | .or _ _ _ => true
  | .and _ _ _ => true
  | .addiw _ _ _ => true
  | .slliw _ _ _ => true
  | .srliw _ _ _ => true
  | .sraiw _ _ _ => true
  | .addw _ _ _ => true
  | .subw _ _ _ => true
  | .sllw _ _ _ => true
  | .srlw _ _ _ => true
  | .sraw _ _ _ => true
  | .fence _ _ _ => true
  | .ecall => true
  | .ebreak => true
  | .mul _ _ _ => true
  | .mulh _ _ _ => true
  | .mulhsu _ _ _ => true
  | .mulhu _ _ _ => true
  | .div _ _ _ => true
  | .divu _ _ _ => true
  | .rem _ _ _ => true
  | .remu _ _ _ => true
  | .mulw _ _ _ => true
  | .divw _ _ _ => true
  | .divuw _ _ _ => true
  | .remw _ _ _ => true
  | .remuw _ _ _ => true
  | .lrW _ _ _ _ => true
  | .lrD _ _ _ _ => true
  | .scW _ _ _ _ _ => true
  | .scD _ _ _ _ _ => true
  | .amoswapW _ _ _ _ _ => true
  | .amoswapD _ _ _ _ _ => true
  | .amoaddW _ _ _ _ _ => true
  | .amoaddD _ _ _ _ _ => true
  | .amoxorW _ _ _ _ _ => true
  | .amoxorD _ _ _ _ _ => true
  | .amoandW _ _ _ _ _ => true
  | .amoandD _ _ _ _ _ => true
  | .amoorW _ _ _ _ _ => true
  | .amoorD _ _ _ _ _ => true
  | .amominW _ _ _ _ _ => true
  | .amominD _ _ _ _ _ => true
  | .amomaxW _ _ _ _ _ => true
  | .amomaxD _ _ _ _ _ => true
  | .amominuW _ _ _ _ _ => true
  | .amominuD _ _ _ _ _ => true
  | .amomaxuW _ _ _ _ _ => true
  | .amomaxuD _ _ _ _ _ => true
  | .csrrw _ _ _ => true
  | .csrrs _ _ _ => true
  | .csrrc _ _ _ => true
  | .csrrwi _ _ _ => true
  | .csrrsi _ _ _ => true
  | .csrrci _ _ _ => true
  | .vaddVV _ _ _ _ _ _ => true
  | .vaddVX _ _ _ _ _ => true
  | .vaddVI _ _ _ _ _ => true
  | .vaddVR _ _ _ _ _ => true
  | .vsubVV _ _ _ _ _ _ => true
  | .vsubVX _ _ _ _ _ => true
  | .vsubVI _ _ _ _ _ => true
  | .vsubVR _ _ _ _ _ => true
  | .vmulVV _ _ _ _ _ _ => true
  | .vmulVX _ _ _ _ _ => true
  | .vmulVI _ _ _ _ _ => true
  | .vmulVR _ _ _ _ _ => true
  | .vgathergVV _ _ _ _ _ _ => true
  | .vgathergVX _ _ _ _ _ => true
  | .vgathergVI _ _ _ _ _ => true
  | .vgathergVR _ _ _ _ _ => true
  | .vandVV _ _ _ _ _ _ => true
  | .vandVX _ _ _ _ _ => true
  | .vandVI _ _ _ _ _ => true
  | .vandVR _ _ _ _ _ => true
  | .vorVV _ _ _ _ _ _ => true
  | .vorVX _ _ _ _ _ => true
  | .vorVI _ _ _ _ _ => true
  | .vorVR _ _ _ _ _ => true
  | .vxorVV _ _ _ _ _ _ => true
  | .vxorVX _ _ _ _ _ => true
  | .vxorVI _ _ _ _ _ => true
  | .vxorVR _ _ _ _ _ => true
  | .vsllVV _ _ _ _ _ _ => true
  | .vsllVX _ _ _ _ _ => true
  | .vsllVI _ _ _ _ _ => true
  | .vsllVR _ _ _ _ _ => true
  | .vsrlVV _ _ _ _ _ _ => true
  | .vsrlVX _ _ _ _ _ => true
  | .vsrlVI _ _ _ _ _ => true
  | .vsrlVR _ _ _ _ _ => true
  | .vsraVV _ _ _ _ _ _ => true
  | .vsraVX _ _ _ _ _ => true
  | .vsraVI _ _ _ _ _ => true
  | .vsraVR _ _ _ _ _ => true
  | .vminVV _ _ _ _ _ _ => true
  | .vminVX _ _ _ _ _ => true
  | .vminVI _ _ _ _ _ => true
  | .vminVR _ _ _ _ _ => true
  | .vmaxVV _ _ _ _ _ _ => true
  | .vmaxVX _ _ _ _ _ => true
  | .vmaxVI _ _ _ _ _ => true
  | .vmaxVR _ _ _ _ _ => true
  | .vmseqVV _ _ _ _ _ _ => true
  | .vmseqVX _ _ _ _ _ => true
  | .vmseqVI _ _ _ _ _ => true
  | .vmseqVR _ _ _ _ _ => true
  | .vmsltVV _ _ _ _ _ _ => true
  | .vmsltVX _ _ _ _ _ => true
  | .vmsltVI _ _ _ _ _ => true
  | .vmsltVR _ _ _ _ _ => true
  | .vmsltuVV _ _ _ _ _ _ => true
  | .vmsltuVX _ _ _ _ _ => true
  | .vmsltuVI _ _ _ _ _ => true
  | .vmsltuVR _ _ _ _ _ => true
  | .vgatherVV _ _ _ _ _ _ => true
  | .vgatherVX _ _ _ _ _ => true
  | .vgatherVI _ _ _ _ _ => true
  | .vgatherVR _ _ _ _ _ => true
  | .vfaddFVV _ _ _ _ _ _ => true
  | .vfaddFVX _ _ _ _ _ => true
  | .vfaddFVR _ _ _ _ _ => true
  | .vfsubFVV _ _ _ _ _ _ => true
  | .vfsubFVX _ _ _ _ _ => true
  | .vfsubFVR _ _ _ _ _ => true
  | .vfmulFVV _ _ _ _ _ _ => true
  | .vfmulFVX _ _ _ _ _ => true
  | .vfmulFVR _ _ _ _ _ => true
  | .vfdivFVV _ _ _ _ _ _ => true
  | .vfdivFVX _ _ _ _ _ => true
  | .vfdivFVR _ _ _ _ _ => true
  | .vfmaccFVV _ _ _ _ _ _ => true
  | .vfmaccFVX _ _ _ _ _ => true
  | .vfmaccFVR _ _ _ _ _ => true
  | .vfnmsacFVV _ _ _ _ _ _ => true
  | .vfnmsacFVX _ _ _ _ _ => true
  | .vfnmsacFVR _ _ _ _ _ => true
  | .vfminFVV _ _ _ _ _ _ => true
  | .vfminFVX _ _ _ _ _ => true
  | .vfminFVR _ _ _ _ _ => true
  | .vfmaxFVV _ _ _ _ _ _ => true
  | .vfmaxFVX _ _ _ _ _ => true
  | .vfmaxFVR _ _ _ _ _ => true
  | .vfmfeqFVV _ _ _ _ _ _ => true
  | .vfmfeqFVX _ _ _ _ _ => true
  | .vfmfeqFVR _ _ _ _ _ => true
  | .vfmfltFVV _ _ _ _ _ _ => true
  | .vfmfltFVX _ _ _ _ _ => true
  | .vfmfltFVR _ _ _ _ _ => true
  | .vfmfleFVV _ _ _ _ _ _ => true
  | .vfmfleFVX _ _ _ _ _ => true
  | .vfmfleFVR _ _ _ _ _ => true
  | .vcvtq4 _ _ _ _ _ _ => true
  | .vfsgnjFVV _ _ _ _ _ _ => true
  | .vfsgnjFVX _ _ _ _ _ => true
  | .vfsgnjFVR _ _ _ _ _ => true
  | .vfsgnjnFVV _ _ _ _ _ _ => true
  | .vfsgnjnFVX _ _ _ _ _ => true
  | .vfsgnjnFVR _ _ _ _ _ => true
  | .vfsgnjxFVV _ _ _ _ _ _ => true
  | .vfsgnjxFVX _ _ _ _ _ => true
  | .vfsgnjxFVR _ _ _ _ _ => true
  | .vfscaleFVV _ _ _ _ _ _ => true
  | .vfscaleFVX _ _ _ _ _ => true
  | .vfscaleFVR _ _ _ _ _ => true
  | .vmv _ _ _ _ => true
  | .vsplat _ _ _ => true
  | .vmvsx _ _ => true
  | .vmvxs _ _ _ => true
  | .vid _ _ => true
  | .vredsum _ _ _ _ => true
  | .vredmin _ _ _ _ => true
  | .vredmax _ _ _ _ => true
  | .vredand _ _ _ _ => true
  | .vredor _ _ _ _ => true
  | .vredxor _ _ _ _ => true
  | .vmpopc _ _ _ _ => true
  | .vmfirst _ _ _ _ => true
  | .vcompress _ _ _ => true
  | .vrng _ _ => true
  | .vfrecip _ _ _ _ => true
  | .vfrsqrt _ _ _ _ => true
  | .vfexp2 _ _ _ _ => true
  | .vflog2 _ _ _ _ => true
  | .vfsqrt _ _ _ _ => true
  | .vfclass _ _ _ _ => true
  | .vfredsum _ _ _ _ => true
  | .vfredosum _ _ _ _ => true
  | .vfredmin _ _ _ _ => true
  | .vfredmax _ _ _ _ => true
  | .vncvt _ _ _ _ => true
  | .vwcvt _ _ _ _ => true
  | .vncvti _ _ _ _ => true
  | .vwcvti _ _ _ _ => true
  | .vwcvtn _ _ _ _ => true
  | .vcvtif _ _ _ _ => true
  | .vcvtfi _ _ _ _ => true
  | .vbscale _ _ _ _ => true
  | .vle _ _ _ eew _ => eew.toNat < 4
  | .vlse _ _ _ _ eew _ => eew.toNat < 4
  | .vlxe _ _ _ _ eew _ _ => eew.toNat < 4
  | .vse _ _ _ eew _ _ => eew.toNat < 4
  | .vsse _ _ _ _ eew _ _ => eew.toNat < 4
  | .vsxe _ _ _ _ eew _ _ => eew.toNat < 4
  | .vappend _ _ _ eew _ _ => eew.toNat < 4
  | .vamoadd _ _ _ eew _ => eew.toNat < 4
  | .vamomin _ _ _ eew _ => eew.toNat < 4
  | .vamomax _ _ _ eew _ => eew.toNat < 4
  | .vamoswap _ _ _ eew _ => eew.toNat < 4
  | .vamoxor _ _ _ eew _ => eew.toNat < 4
  | .mopa _ _ _ _ _ _ => true
  | .mopd _ _ _ _ _ _ => true
  | .mzero _ => true
  | .mcupd _ _ _ _ _ _ => true
  | .mdrain _ _ _ _ => true
  | .mdrainq _ _ _ _ => true
  | .mbest _ _ _ => true
  | .mld _ _ _ => true
  | .mst _ _ _ => true
  | .mfetch _ _ _ => true
  | .vpmul _ _ _ _ _ _ _ => true
  | .vpmacc _ _ _ _ _ _ _ => true
  | .vpconv _ _ _ _ _ _ _ => true
  | .vpguard _ _ _ _ _ _ _ => true
  | .vpack _ _ _ _ _ => true
  | .vunpack _ _ _ _ _ => true
  | .vpext _ _ _ j _ _ => j.toNat < 7
  | .flset _ _ => true
  | .flget _ _ => true
  | .msetshape _ => true
  | .msetcfg _ => true
  | .mgetstat _ => true
  | .mclrstat => true
  | .vblk _ => true
  | .vreply _ => true
  | .vdrainq => true
  | .vstrip _ => true
  | .vloop _ _ => true
  | .vlbnz _ dist => 1 ≤ dist.toNat && dist.toNat ≤ 253
  | .baddi _ _ => true
  | .baddvl _ _ => true
  | .vcond _ _ _ => true
  | .vpost _ => true
  | .vsplit off _ => off != 0
  | .lbeq _ _ off => off != 0
  | .lbne _ _ off => off != 0
  | .lblt _ _ off => off != 0
  | .lbge _ _ off => off != 0
  | .ljmp off => off != 0
  | .ljoin => true
  | .vsetcfgi _ _ => true
  | .vsetcfg _ _ => true
  | .vdecl code => code.toNat < 3
  | .sybind _ _ _ => true
  | .acq _ scope => scope.toNat < 6
  | .rel _ scope => scope.toNat < 6
  | .fencev scope => scope.toNat < 6
  | .bara _ scope => scope.toNat < 6
  | .barw _ scope => scope.toNat < 6
  | .publish _ => true
  | .cpy rd _ _ _ => rd != 0
  | .cpyc rd _ _ _ _ => rd != 0
  | .cpyx rd _ _ _ _ => rd != 0
  | .stmap _ _ _ => true
  | .stunmap _ => true
  | .stwb _ _ => true
  | .stdrop _ _ => true
  | .l2pin _ _ _ ways => 1 ≤ ways.toNat && ways.toNat ≤ 8
  | .l2unpin _ => true
  | .sbind vd _ => 24 ≤ vd.toNat
  | .sunbind vd => 24 ≤ vd.toNat
  | .vfxadd _ _ => true
  | .fxrd _ _ fmt => fmt.toNat < 3
  | .fxclr _ _ => true
  | .tdone => true
  | .tspawn _ => true
  | .tyield => true
  | .tinfo _ _ => true
  | .trapc _ => true
  | .wridx q _ => q < 4096
  | .qctlSkip q => q < 4096
  | .qctlDiscard q => q < 4096
  | .qctlStop q => q < 4096
  | .qctlResume q => q < 4096
  | .launchGraph q _ => q < 4096
  | .launchNode q _ => q < 4096
  | .waitValue q _ => q < 4096
  | .waitValueMet _ => true
  | .waitValueTimeout _ => true
  | .writeValue q _ => q < 4096
  | .indirect q _ => q < 4096
  | .setSeed q _ => q < 4096
  | .regionCreate q _ => q < 4096
  | .regionDestroy q _ => q < 4096
  | .regionDestroyComplete _ => true
  | .fencePacket q _ => q < 4096
  | .unknownKindPacket q _ => q < 4096
  | .preempt _ _ => true
  | .condEval _ _ => true
  | .loopEval _ _ => true
  | .pageArrived _ _ _ _ => true
  | .copyComplete _ _ => true
  | .copyNodeComplete _ _ => true
  | .collNodeComplete _ _ _ _ => true
  | .streamRefill _ _ => true
  | .waitWatchdog _ => true
  | .runWatchdog _ => true
  | .splitWatchdog _ => true
  | .patrolScrub _ _ => true
  | .uncontainedError _ => true
  | .flitReceive _ _ => true
  | .linkFailed _ => true
  | .portTrainingLost port => port < 18
  | .serviceRequest kind => 1 ≤ kind && kind ≤ 7
  | .answer _ => true
  | .resume _ => true
  | .endTask _ => true
  | .releaseDomain _ => true
  | .abortDomain _ => true
  | .removeSection _ => true
  | .moveSections _ => true
  | .linkDown _ => true
  | .linkUp _ => true
  | .firmwareUpdate _ => true
  | .firmwareSwitchComplete target => target < 3
  | .serviceActionTimeout => true
  | .exportImage _ => true
  | .importImage _ => true
  | .bindContext _ => true
  | .unbindContext _ => true
  | .setKey _ => true
  | .invalidateTranslations _ => true
  | .queueEnable _ => true
  | .queueDisable _ => true
  | .queueDisableComplete q => q < 4096
  | .partitionLimits _ => true
  | .setEngineImage _ => true
  | .unlistedCommand _ => true
  | .dutyWrite _ => true
  | .ringControlWrite _ _ => true
  | .qtbaseWrite _ => true
  | .portcfgWrite _ => true
  | .registerWrite _ _ size _ => size == 1 || size == 2 || size == 4 || size == 8
  | .bar2Read _ _ => true
  | .bar2Write _ _ => true
  | .peerInboundRequest _ _ _ => true
  | .pushRecoveryImage => true
  | .attest => true
  | .moduleReset => true
  | .throttleStep => true
  | .thermalTrip => true
  | .wordNotAnInstruction _ => true
  | .fetchFault cause _ _ => cause == 0x04 || cause == 0x0E
  | .portTrained port => port < 18
  | .cxlMemRequest _ _ => true
  | .fabricAddressAssigned _ => true

/-- The where attribute of each instruction (R95, R99 to R110, R113). -/
def Instr.attr : Instr → Attr
  | .lui _ _ => .c
  | .auipc _ _ => .c
  | .jal _ _ => .c
  | .jalr _ _ _ => .c
  | .beq _ _ _ => .c
  | .bne _ _ _ => .c
  | .blt _ _ _ => .c
  | .bge _ _ _ => .c
  | .bltu _ _ _ => .c
  | .bgeu _ _ _ => .c
  | .lb _ _ _ => .c
  | .lh _ _ _ => .c
  | .lw _ _ _ => .c
  | .ld _ _ _ => .c
  | .lbu _ _ _ => .c
  | .lhu _ _ _ => .c
  | .lwu _ _ _ => .c
  | .sb _ _ _ => .c
  | .sh _ _ _ => .c
  | .sw _ _ _ => .c
  | .sd _ _ _ => .c
  | .addi _ _ _ => .c
  | .slti _ _ _ => .c
  | .sltiu _ _ _ => .c
  | .xori _ _ _ => .c
  | .ori _ _ _ => .c
  | .andi _ _ _ => .c
  | .slli _ _ _ => .c
  | .srli _ _ _ => .c
  | .srai _ _ _ => .c
  | .add _ _ _ => .c
  | .sub _ _ _ => .c
  | .sll _ _ _ => .c
  | .slt _ _ _ => .c
  | .sltu _ _ _ => .c
  | .xor _ _ _ => .c
  | .srl _ _ _ => .c
  | .sra _ _ _ => .c
  | .or _ _ _ => .c
  | .and _ _ _ => .c
  | .addiw _ _ _ => .c
  | .slliw _ _ _ => .c
  | .srliw _ _ _ => .c
  | .sraiw _ _ _ => .c
  | .addw _ _ _ => .c
  | .subw _ _ _ => .c
  | .sllw _ _ _ => .c
  | .srlw _ _ _ => .c
  | .sraw _ _ _ => .c
  | .fence _ _ _ => .c
  | .ecall => .c
  | .ebreak => .c
  | .mul _ _ _ => .c
  | .mulh _ _ _ => .c
  | .mulhsu _ _ _ => .c
  | .mulhu _ _ _ => .c
  | .div _ _ _ => .c
  | .divu _ _ _ => .c
  | .rem _ _ _ => .c
  | .remu _ _ _ => .c
  | .mulw _ _ _ => .c
  | .divw _ _ _ => .c
  | .divuw _ _ _ => .c
  | .remw _ _ _ => .c
  | .remuw _ _ _ => .c
  | .lrW _ _ _ _ => .c
  | .lrD _ _ _ _ => .c
  | .scW _ _ _ _ _ => .c
  | .scD _ _ _ _ _ => .c
  | .amoswapW _ _ _ _ _ => .c
  | .amoswapD _ _ _ _ _ => .c
  | .amoaddW _ _ _ _ _ => .c
  | .amoaddD _ _ _ _ _ => .c
  | .amoxorW _ _ _ _ _ => .c
  | .amoxorD _ _ _ _ _ => .c
  | .amoandW _ _ _ _ _ => .c
  | .amoandD _ _ _ _ _ => .c
  | .amoorW _ _ _ _ _ => .c
  | .amoorD _ _ _ _ _ => .c
  | .amominW _ _ _ _ _ => .c
  | .amominD _ _ _ _ _ => .c
  | .amomaxW _ _ _ _ _ => .c
  | .amomaxD _ _ _ _ _ => .c
  | .amominuW _ _ _ _ _ => .c
  | .amominuD _ _ _ _ _ => .c
  | .amomaxuW _ _ _ _ _ => .c
  | .amomaxuD _ _ _ _ _ => .c
  | .csrrw _ _ _ => .c
  | .csrrs _ _ _ => .c
  | .csrrc _ _ _ => .c
  | .csrrwi _ _ _ => .c
  | .csrrsi _ _ _ => .c
  | .csrrci _ _ _ => .c
  | .vaddVV _ _ _ _ _ _ => .l
  | .vaddVX _ _ _ _ _ => .l
  | .vaddVI _ _ _ _ _ => .l
  | .vaddVR _ _ _ _ _ => .b
  | .vsubVV _ _ _ _ _ _ => .l
  | .vsubVX _ _ _ _ _ => .l
  | .vsubVI _ _ _ _ _ => .l
  | .vsubVR _ _ _ _ _ => .b
  | .vmulVV _ _ _ _ _ _ => .l
  | .vmulVX _ _ _ _ _ => .l
  | .vmulVI _ _ _ _ _ => .l
  | .vmulVR _ _ _ _ _ => .b
  | .vgathergVV _ _ _ _ _ _ => .b
  | .vgathergVX _ _ _ _ _ => .b
  | .vgathergVI _ _ _ _ _ => .b
  | .vgathergVR _ _ _ _ _ => .b
  | .vandVV _ _ _ _ _ _ => .l
  | .vandVX _ _ _ _ _ => .l
  | .vandVI _ _ _ _ _ => .l
  | .vandVR _ _ _ _ _ => .b
  | .vorVV _ _ _ _ _ _ => .l
  | .vorVX _ _ _ _ _ => .l
  | .vorVI _ _ _ _ _ => .l
  | .vorVR _ _ _ _ _ => .b
  | .vxorVV _ _ _ _ _ _ => .l
  | .vxorVX _ _ _ _ _ => .l
  | .vxorVI _ _ _ _ _ => .l
  | .vxorVR _ _ _ _ _ => .b
  | .vsllVV _ _ _ _ _ _ => .l
  | .vsllVX _ _ _ _ _ => .l
  | .vsllVI _ _ _ _ _ => .l
  | .vsllVR _ _ _ _ _ => .b
  | .vsrlVV _ _ _ _ _ _ => .l
  | .vsrlVX _ _ _ _ _ => .l
  | .vsrlVI _ _ _ _ _ => .l
  | .vsrlVR _ _ _ _ _ => .b
  | .vsraVV _ _ _ _ _ _ => .l
  | .vsraVX _ _ _ _ _ => .l
  | .vsraVI _ _ _ _ _ => .l
  | .vsraVR _ _ _ _ _ => .b
  | .vminVV _ _ _ _ _ _ => .l
  | .vminVX _ _ _ _ _ => .l
  | .vminVI _ _ _ _ _ => .l
  | .vminVR _ _ _ _ _ => .b
  | .vmaxVV _ _ _ _ _ _ => .l
  | .vmaxVX _ _ _ _ _ => .l
  | .vmaxVI _ _ _ _ _ => .l
  | .vmaxVR _ _ _ _ _ => .b
  | .vmseqVV _ _ _ _ _ _ => .l
  | .vmseqVX _ _ _ _ _ => .l
  | .vmseqVI _ _ _ _ _ => .l
  | .vmseqVR _ _ _ _ _ => .b
  | .vmsltVV _ _ _ _ _ _ => .l
  | .vmsltVX _ _ _ _ _ => .l
  | .vmsltVI _ _ _ _ _ => .l
  | .vmsltVR _ _ _ _ _ => .b
  | .vmsltuVV _ _ _ _ _ _ => .l
  | .vmsltuVX _ _ _ _ _ => .l
  | .vmsltuVI _ _ _ _ _ => .l
  | .vmsltuVR _ _ _ _ _ => .b
  | .vgatherVV _ _ _ _ _ _ => .b
  | .vgatherVX _ _ _ _ _ => .b
  | .vgatherVI _ _ _ _ _ => .b
  | .vgatherVR _ _ _ _ _ => .b
  | .vfaddFVV _ _ _ _ _ _ => .l
  | .vfaddFVX _ _ _ _ _ => .l
  | .vfaddFVR _ _ _ _ _ => .b
  | .vfsubFVV _ _ _ _ _ _ => .l
  | .vfsubFVX _ _ _ _ _ => .l
  | .vfsubFVR _ _ _ _ _ => .b
  | .vfmulFVV _ _ _ _ _ _ => .l
  | .vfmulFVX _ _ _ _ _ => .l
  | .vfmulFVR _ _ _ _ _ => .b
  | .vfdivFVV _ _ _ _ _ _ => .l
  | .vfdivFVX _ _ _ _ _ => .l
  | .vfdivFVR _ _ _ _ _ => .b
  | .vfmaccFVV _ _ _ _ _ _ => .l
  | .vfmaccFVX _ _ _ _ _ => .l
  | .vfmaccFVR _ _ _ _ _ => .b
  | .vfnmsacFVV _ _ _ _ _ _ => .l
  | .vfnmsacFVX _ _ _ _ _ => .l
  | .vfnmsacFVR _ _ _ _ _ => .b
  | .vfminFVV _ _ _ _ _ _ => .l
  | .vfminFVX _ _ _ _ _ => .l
  | .vfminFVR _ _ _ _ _ => .b
  | .vfmaxFVV _ _ _ _ _ _ => .l
  | .vfmaxFVX _ _ _ _ _ => .l
  | .vfmaxFVR _ _ _ _ _ => .b
  | .vfmfeqFVV _ _ _ _ _ _ => .l
  | .vfmfeqFVX _ _ _ _ _ => .l
  | .vfmfeqFVR _ _ _ _ _ => .b
  | .vfmfltFVV _ _ _ _ _ _ => .l
  | .vfmfltFVX _ _ _ _ _ => .l
  | .vfmfltFVR _ _ _ _ _ => .b
  | .vfmfleFVV _ _ _ _ _ _ => .l
  | .vfmfleFVX _ _ _ _ _ => .l
  | .vfmfleFVR _ _ _ _ _ => .b
  | .vcvtq4 _ _ _ _ _ _ => .b
  | .vfsgnjFVV _ _ _ _ _ _ => .l
  | .vfsgnjFVX _ _ _ _ _ => .l
  | .vfsgnjFVR _ _ _ _ _ => .b
  | .vfsgnjnFVV _ _ _ _ _ _ => .l
  | .vfsgnjnFVX _ _ _ _ _ => .l
  | .vfsgnjnFVR _ _ _ _ _ => .b
  | .vfsgnjxFVV _ _ _ _ _ _ => .l
  | .vfsgnjxFVX _ _ _ _ _ => .l
  | .vfsgnjxFVR _ _ _ _ _ => .b
  | .vfscaleFVV _ _ _ _ _ _ => .l
  | .vfscaleFVX _ _ _ _ _ => .l
  | .vfscaleFVR _ _ _ _ _ => .b
  | .vmv _ _ _ _ => .l
  | .vsplat _ _ _ => .l
  | .vmvsx _ _ => .b
  | .vmvxs _ _ _ => .b
  | .vid _ _ => .l
  | .vredsum _ _ _ _ => .b
  | .vredmin _ _ _ _ => .b
  | .vredmax _ _ _ _ => .b
  | .vredand _ _ _ _ => .b
  | .vredor _ _ _ _ => .b
  | .vredxor _ _ _ _ => .b
  | .vmpopc _ _ _ _ => .b
  | .vmfirst _ _ _ _ => .b
  | .vcompress _ _ _ => .b
  | .vrng _ _ => .l
  | .vfrecip _ _ _ _ => .l
  | .vfrsqrt _ _ _ _ => .l
  | .vfexp2 _ _ _ _ => .l
  | .vflog2 _ _ _ _ => .l
  | .vfsqrt _ _ _ _ => .l
  | .vfclass _ _ _ _ => .l
  | .vfredsum _ _ _ _ => .b
  | .vfredosum _ _ _ _ => .b
  | .vfredmin _ _ _ _ => .b
  | .vfredmax _ _ _ _ => .b
  | .vncvt _ _ _ _ => .b
  | .vwcvt _ _ _ _ => .b
  | .vncvti _ _ _ _ => .b
  | .vwcvti _ _ _ _ => .b
  | .vwcvtn _ _ _ _ => .b
  | .vcvtif _ _ _ _ => .l
  | .vcvtfi _ _ _ _ => .l
  | .vbscale _ _ _ _ => .b
  | .vle _ _ _ _ _ => .b
  | .vlse _ _ _ _ _ _ => .b
  | .vlxe _ _ _ _ _ _ _ => .l
  | .vse _ _ _ _ _ _ => .b
  | .vsse _ _ _ _ _ _ _ => .b
  | .vsxe _ _ _ _ _ _ _ => .l
  | .vappend _ _ _ _ _ _ => .b
  | .vamoadd _ _ _ _ _ => .l
  | .vamomin _ _ _ _ _ => .l
  | .vamomax _ _ _ _ _ => .l
  | .vamoswap _ _ _ _ _ => .l
  | .vamoxor _ _ _ _ _ => .l
  | .mopa _ _ _ _ _ _ => .b
  | .mopd _ _ _ _ _ _ => .b
  | .mzero _ => .b
  | .mcupd _ _ _ _ _ _ => .b
  | .mdrain _ _ _ _ => .b
  | .mdrainq _ _ _ _ => .b
  | .mbest _ _ _ => .b
  | .mld _ _ _ => .b
  | .mst _ _ _ => .b
  | .mfetch _ _ _ => .b
  | .vpmul _ _ _ _ _ _ _ => .b
  | .vpmacc _ _ _ _ _ _ _ => .b
  | .vpconv _ _ _ _ _ _ _ => .b
  | .vpguard _ _ _ _ _ _ _ => .b
  | .vpack _ _ _ _ _ => .b
  | .vunpack _ _ _ _ _ => .b
  | .vpext _ _ _ _ _ _ => .b
  | .flset _ _ => .b
  | .flget _ _ => .b
  | .msetshape _ => .b
  | .msetcfg _ => .b
  | .mgetstat _ => .b
  | .mclrstat => .b
  | .vblk _ => .c
  | .vreply _ => .c
  | .vdrainq => .c
  | .vstrip _ => .b
  | .vloop _ _ => .b
  | .vlbnz _ _ => .b
  | .baddi _ _ => .b
  | .baddvl _ _ => .b
  | .vcond _ _ _ => .b
  | .vpost _ => .b
  | .vsplit _ _ => .b
  | .lbeq _ _ _ => .lOnly
  | .lbne _ _ _ => .lOnly
  | .lblt _ _ _ => .lOnly
  | .lbge _ _ _ => .lOnly
  | .ljmp _ => .lOnly
  | .ljoin => .lOnly
  | .vsetcfgi _ _ => .cb
  | .vsetcfg _ _ => .cb
  | .vdecl _ => .c
  | .sybind _ _ _ => .cb
  | .acq _ _ => .cb
  | .rel _ _ => .cb
  | .fencev _ => .cb
  | .bara _ _ => .cb
  | .barw _ _ => .cb
  | .publish _ => .cb
  | .cpy _ _ _ _ => .b
  | .cpyc _ _ _ _ _ => .b
  | .cpyx _ _ _ _ _ => .b
  | .stmap _ _ _ => .cb
  | .stunmap _ => .cb
  | .stwb _ _ => .cb
  | .stdrop _ _ => .cb
  | .l2pin _ _ _ _ => .c
  | .l2unpin _ => .c
  | .sbind _ _ => .b
  | .sunbind _ => .b
  | .vfxadd _ _ => .b
  | .fxrd _ _ _ => .b
  | .fxclr _ _ => .b
  | .tdone => .c
  | .tspawn _ => .c
  | .tyield => .c
  | .tinfo _ _ => .cb
  | .trapc _ => .cb
  | .wridx _ _ => .agent
  | .qctlSkip _ => .agent
  | .qctlDiscard _ => .agent
  | .qctlStop _ => .agent
  | .qctlResume _ => .agent
  | .launchGraph _ _ => .agent
  | .launchNode _ _ => .agent
  | .waitValue _ _ => .agent
  | .waitValueMet _ => .agent
  | .waitValueTimeout _ => .agent
  | .writeValue _ _ => .agent
  | .indirect _ _ => .agent
  | .setSeed _ _ => .agent
  | .regionCreate _ _ => .agent
  | .regionDestroy _ _ => .agent
  | .regionDestroyComplete _ => .agent
  | .fencePacket _ _ => .agent
  | .unknownKindPacket _ _ => .agent
  | .preempt _ _ => .agent
  | .condEval _ _ => .agent
  | .loopEval _ _ => .agent
  | .pageArrived _ _ _ _ => .agent
  | .copyComplete _ _ => .agent
  | .copyNodeComplete _ _ => .agent
  | .collNodeComplete _ _ _ _ => .agent
  | .streamRefill _ _ => .agent
  | .waitWatchdog _ => .agent
  | .runWatchdog _ => .agent
  | .splitWatchdog _ => .agent
  | .patrolScrub _ _ => .agent
  | .uncontainedError _ => .agent
  | .flitReceive _ _ => .agent
  | .linkFailed _ => .agent
  | .portTrainingLost _ => .agent
  | .serviceRequest _ => .agent
  | .answer _ => .agent
  | .resume _ => .agent
  | .endTask _ => .agent
  | .releaseDomain _ => .agent
  | .abortDomain _ => .agent
  | .removeSection _ => .agent
  | .moveSections _ => .agent
  | .linkDown _ => .agent
  | .linkUp _ => .agent
  | .firmwareUpdate _ => .agent
  | .firmwareSwitchComplete _ => .agent
  | .serviceActionTimeout => .agent
  | .exportImage _ => .agent
  | .importImage _ => .agent
  | .bindContext _ => .agent
  | .unbindContext _ => .agent
  | .setKey _ => .agent
  | .invalidateTranslations _ => .agent
  | .queueEnable _ => .agent
  | .queueDisable _ => .agent
  | .queueDisableComplete _ => .agent
  | .partitionLimits _ => .agent
  | .setEngineImage _ => .agent
  | .unlistedCommand _ => .agent
  | .dutyWrite _ => .agent
  | .ringControlWrite _ _ => .agent
  | .qtbaseWrite _ => .agent
  | .portcfgWrite _ => .agent
  | .registerWrite _ _ _ _ => .agent
  | .bar2Read _ _ => .agent
  | .bar2Write _ _ => .agent
  | .peerInboundRequest _ _ _ => .agent
  | .pushRecoveryImage => .agent
  | .attest => .agent
  | .moduleReset => .agent
  | .throttleStep => .agent
  | .thermalTrip => .agent
  | .wordNotAnInstruction _ => .agent
  | .fetchFault _ _ _ => .agent
  | .portTrained _ => .agent
  | .cxlMemRequest _ _ => .agent
  | .fabricAddressAssigned _ => .agent

end Sys2Proof
end

