-- ==== Sys2Proof/Machine/Ops.lean ====
section
/-! DEFINITION. The operations that every word shares: how a word ends, the registers of the issuing party, the end of a
block, stopping and ending a task, and taking a fault: record, service, hold or end (R123, R333 to R343). -/

namespace Sys2Proof.Machine

/-! ## How a word ends -/

/-- What a word does: it completes and its party moves on; it completes having moved its party itself; it waits where it
stands; it raises a fault, leaving the state given. -/
inductive Act where
  | go (s : State)
  | jump (s : State)
  | wait (s : State)
  | trap (s : State) (t : Trap)

/-- A fault with nothing but its cause. -/
def cause (c : Nat) : Trap := { cause := c }

/-- The illegal-instruction fault (R94, R95). -/
def illegal : Trap := cause 0x01

/-! ## Registers of the issuing party -/

/-- The registers xn that the issuing party reads: the control thread's, or the block scalars (R96). -/
def State.xs (s : State) : Vector Word 32 :=
  match s.cur, s.task.block with
  | .control, _ => s.task.x
  | _, some b => b.xs
  | _, none => Vector.replicate 32 0

/-- x[r] of the issuing party; x[0] reads 0 (R96). -/
def State.x (s : State) (r : BitVec 5) : Word := if r = 0 then 0 else s.xs[r.toNat]

/-- The poison marks of the x registers of the issuing party (R352). -/
def State.xPoison (s : State) : BitVec 32 :=
  match s.cur, s.task.block with
  | .control, _ => s.task.xPoison
  | _, some b => b.poison
  | _, none => 0

/-- x[r] := v of the issuing party; a write of x[0] is dropped (R96). A whole write clears poison (R352). -/
def State.setX (s : State) (r : BitVec 5) (v : Word) : State :=
  if r = 0 then s
  else
    match s.cur, s.task.block with
    | .control, _ =>
      { s with task := { s.task with x := s.task.x.set r.toNat v, xPoison := s.task.xPoison &&& ~~~(1#32 <<< r.toNat) } }
    | _, some b =>
      { s with task := { s.task with block := some { b with xs := b.xs.set r.toNat v,
                                                            poison := b.poison &&& ~~~(1#32 <<< r.toNat) } } }
    | _, none => s

/-- Whether some of the registers that a word reads is poisoned (R352); x0 is none. -/
def State.xBad (s : State) (rs : List (BitVec 5)) : Bool :=
  s.xPoison != 0 && rs.any (fun r => r != 0 && s.xPoison.getLsbD r.toNat)

/-- The fault of a word that reads a poisoned register among some (R352), with the register for the error log: x registers have the
numbers 0 to 31, block scalars 32 to 63 (log 22). -/
def State.xTrap (s : State) (rs : List (BitVec 5)) : Trap :=
  let base := match s.cur with
    | .control => 0
    | _ => 32
  { cause := 0x0E, reg := (rs.find? (fun r => r != 0 && s.xPoison.getLsbD r.toNat)).map (fun r => (base + r.toNat, 0)) }

/-! ## Places -/

/-- The address of a body word (R116). -/
def Block.wordAddr (b : Block) (off : Nat) : Word := b.addr + 12 + BitVec.ofNat 64 (4 * off)

/-- A lane thread moved to a body offset. -/
def Task.moveLane (t : Task) (e off : Nat) : Task :=
  match t.split with
  | none => t
  | some sp =>
    let ths := mapIf (fun (th : LaneThread) => th.elem == e) (fun th => { th with off := off }) sp.threads
    { t with split := some { sp with threads := ths } }

/-- The state with the task on stage changed. -/
def State.onTask (s : State) (f : Task → Task) : State := { s with task := f s.task }

/-- The first saved array word put in the place of the vector unit's own: what it reads comes from its entry, the rest is put aside
(R347). Its block had declared all that it uses, which was checked before it was saved. Its scalars were read when it was saved, so it waits for no
token and no status of one traps at it: it has a serial number of its own, under which no copy stands (R251, R347, R392). -/
def Task.enterEntry (t : Task) : Task :=
  match t.aqueue with
  | [] => t
  | e :: _ =>
    let b : Block := t.block.getD
      { addr := 0, h0 := 0xB1000001, h1 := 0, h2 := 0, off := 0, xs := e.xs, lc := Vector.replicate 4 0, serial := 0,
        foldPending := t.foldPending, poison := 0 }
    { t with entrySave := some { block := t.block, vl := t.vl, vcfg := t.vcfg, mshape := t.mshape, mcfg := t.mcfg, fl := t.fl }
             block := some { b with h0 := b.h0 ||| 0x3800, off := e.off, xs := e.xs, poison := 0, serial := t.nextSerial }
             vl := e.vl, vcfg := e.vcfg, mshape := e.mshape, mcfg := e.mcfg, fl := t.fl.setIfInBounds e.fl e.plan }

/-- A write by an array word of what a saved one has put aside: it is made there too, so that the words after it find it (R290, R347). -/
def Task.putAside (t : Task) (f : EntrySave → EntrySave) : Task := { t with entrySave := t.entrySave.map f }

/-- What a saved array word had put aside taken back. -/
def Task.leaveEntry (t : Task) : Task :=
  match t.entrySave with
  | none => t
  | some e =>
    { t with block := e.block, vl := e.vl, vcfg := e.vcfg, mshape := e.mshape, mcfg := e.mcfg, fl := e.fl, entrySave := none }

/-- The vector unit past the word that it has completed: a saved array word leaves its queue, any other moves the unit on in its block
(R118, R347). -/
def Task.passVector (t : Task) (off : Nat) : Task :=
  if t.entrySave.isSome then { t.leaveEntry with aqueue := t.aqueue.drop 1 } else t.moveVector off

/-- The issuing party moved on to its next word; a control word counts as retired (R92, R115, R118, R168). -/
def State.advance (s : State) : State :=
  match s.cur with
  | .control =>
    { s with task := { s.task with pc := s.task.pc + 4, instret := s.task.instret + 1, progressAt := s.micros } }
  | .vector => { s with task := { s.task.passVector (s.offset + 1) with progressAt := s.micros } }
  | .lane e => { s with task := { s.task.moveLane e (s.offset + 1) with progressAt := s.micros } }

/-! ## Taking a fault -/

/-- Whether the fault service resolves a fault (R335): 0x04 or 0x05 with info bit 1 clear, on a page that it can map. -/
def State.serviceable (s : State) (t : Task) (tr : Trap) : Bool :=
  (tr.cause == 0x04 || tr.cause == 0x05) && !tr.info.getLsbD 1 && !tr.fromCopy &&
  match tr.addr with
  | none => false
  | some a => a.toNat < 2 ^ 48 && !s.unservable.contains (t.id.ctx, a.toNat / 4096)

/-- A page fault given to the fault service: a meld counts it (R140, R358), and with FLTSVC set the host is asked (R66). -/
def State.askService (s : State) (t : Task) (record : BitVec 512) : State :=
  let s1 := s.countMeld t.id.gid record
  if s.port0.duty.getLsbD 2 then s1.postRequest 3 (s.dieOf t) t.id.ctx (.fltsvc t.id.tid record) (record.setWidth 896) else s1

/-- A task swapped out until its page arrives (R335, R245): the service has its record, once, be it that it has waited in place before. -/
def State.swapOut (s : State) (t : Task) (record : BitVec 512) : State :=
  let s1 := (s.stopTask t.id.tid (.waitPage record)).modTask t.id.tid (fun t => { t with servicing := none })
  (if t.offered record then s1 else s1.askService t record).settle

/-- A task whose image the pool cannot hold, waiting in place for its page (R344): the service has its record, once. -/
def State.waitInPlace (s : State) (t : Task) (record : BitVec 512) : State :=
  if t.servicing == some record then s
  else (s.modTask t.id.tid (fun t => { t with servicing := some record })).askService t record

/-- A fault delivered, and the passes that follow (R83, R334). -/
def State.deliverFault (s : State) (t : Task) (c : Nat) (record : BitVec 512) : State := (s.deliverCore t c record).settle

/-- A fault of the task on stage taken (R335, R336, R339): offered to the fault service, or delivered. An error that it consumes is
logged (R355). -/
def State.takeFault (s : State) (tr : Trap) : State :=
  let record := tr.whole.getD (s.recordOf s.task s.cur tr)
  let s1 := s.onTask Task.leaveEntry
  let t := s1.task
  if s1.serviceable t tr then
    if s1.poolHolds t then s1.swapOut t record else s1.waitInPlace t record
  else (s1.logConsumed t tr).deliverFault t tr.cause record

/-! ## Returning from a fault -/

/-- A held task released by the host's answer (R339): it returns to the ready pool, to resume from its image. -/
def State.resumeHeld (s : State) (t : Task) : State :=
  ((s.modTask t.id.tid (fun t => { t with status := .stopped 2 })).poolTask t).settle

/-! ## Words -/

/-- Whether the issuing party may issue a word of a where attribute (R95). -/
def State.mayIssue (s : State) (a : Attr) : Bool :=
  match a, s.cur with
  | .c, .control => true
  | .cb, .control => true
  | .b, .vector => true
  | .l, .vector => true
  | .cb, .vector => true
  | .l, .lane _ => true
  | .lOnly, .lane _ => true
  | _, _ => false

/-- The outcome of a word. -/
def Act.outcome : Act → Host.Outcome State Fault Refusal
  | .go s => .next s.advance
  | .jump s => .next s
  | .wait s => .next s
  | .trap s t => .next (s.takeFault t)

/-- A word of a where attribute issued by the current party: excluded uses and ill-formed fields raise 0x01 (R94, R95). -/
def State.issue (s : State) (a : Attr) (wf : Bool) (k : State → Act) : Host.Outcome State Fault Refusal :=
  (if s.mayIssue a && wf then k s else .trap s illegal).outcome

/-- A checked access: a failure traps. -/
def orTrap {α : Type} (s : State) (c : Except Trap α) (k : α → Act) : Act :=
  match c with
  | .error t => .trap s t
  | .ok a => k a

end Sys2Proof.Machine
end

