-- ==== Sys2Proof/Machine/Boot.lean ====
section
/-! DEFINITION. Reset, boot, recovery, attestation, and the thermal steps (R393 to R403). -/

namespace Sys2Proof.Machine

/-! ## The part after its links have trained (R69 to R80, R399) -/

/-- Capacity of a die's GDDR-7 in bytes (R2, R5: a GB is 10^9). -/
def gddrBytes (clamshell : Bool) : Nat := if clamshell then 32000000000 else 16000000000

/-- The place of a die among the live ones, in physical order (R78). -/
def Grade.logical (g : Grade) (p : Nat) : Option Nat := (findPlace (fun d => d == p) g.live 0).map (·.1)

/-- The map that a grade record's payload holds: the grade, the clamshell flag and a mask of the live physical dies, a byte each. R399 names
the three and gives no layout (DESIGN CHOICE, log 8). -/
def Image.gradeMap (i : Image) : Grade :=
  { grade := getN i.payload 0 1, clamshell := getN i.payload 1 1 % 2 == 1,
    live := (List.range 8).filter (fun p => (getN i.payload 2 1).testBit p) }

/-- The unit map of a part (R399): that of the signed grade record in its module flash. -/
def Boot.gradeRecord (b : Boot) : Grade := (((b.flash.find? (fun i => i.kind == 0))).getD (Image.plain 0)).gradeMap

/-- A die as the boot enumerates it (R3, R71): every unit of a live die is live, its channels as a mask, and the logical numbers of its
units follow those of the dies before it (R78). -/
def Grade.die (g : Grade) (p : Nat) : Die :=
  match g.logical p with
  | none => Die.absent p
  | some l =>
    { Die.absent p with ldie := some l, smask := 0xFFFF, l2mask := 0xFFFFFFFF, channels := 0xF,
                        devs := if g.clamshell then 2 else 1, lchan := 4 * l, lsect := 16 * l,
                        lslice := 32 * l, fsize := gddrBytes g.clamshell }

/-- A link as the boot trains it: up between live dies, absent otherwise (R67, R72). -/
def Grade.link (g : Grade) (l : Nat) : Link :=
  let ok (k : Nat) : Bool := g.live.contains (linkEnds k).1 && g.live.contains (linkEnds k).2
  if ok l then { Link.absent l with llink := some ((List.range l).filter ok).length, state := 0 } else Link.absent l

/-- A grade record that R2 and R68 admit (R399). -/
def Grade.valid (g : Grade) : Bool :=
  let links := (List.range 10).map g.link
  g.live == (List.range 8).filter (fun p => g.live.contains p) && g.live.length == g.grade
    && (g.grade == 8 || g.grade == 6 || g.grade == 4) && (!g.clamshell || g.grade == 8)
    && g.live.any (fun p => p % 4 == 0) && g.live.any (fun p => p % 4 == 3)
    && g.live.all (fun a => g.live.all (fun b => (linkDist links (fun l => l.state == 0) a)[b]?.getD 99 ≤ 4))

/-- The part enumerated from a grade record: epoch 2, partition 0 holds every live section (R78, R80, R393). -/
def State.enumerate (s : State) (g : Grade) : State :=
  { s with
    dies := Vector.ofFn (fun (i : Fin 8) => g.die i.val)
    links := Vector.ofFn (fun (i : Fin 10) => g.link i.val)
    sects := g.live.flatMap (fun p => (List.range 16).map (fun j =>
      { pdie := p, psect := j, offline := false, part := some 0, reserved := none, closing := false,
        retired := Vector.replicate 8 0 : Sect }))
    epoch := 2 }

/-! ## Checks and measurement -/

/-- The header of an image (R396): magic, kind, version and security version of 4 bytes, length of 8 (DESIGN CHOICE, log 8). -/
def Image.header (i : Image) : List Byte := layBytes [(i.magic, 4), (i.kind, 4), (i.version, 4), (i.svn, 4), (i.length, 8)]

/-- The image that some bytes hold: header, payload of the header's length, signature (DESIGN CHOICE, log 8). -/
def Image.ofBytes (bs : List Byte) : Image :=
  { magic := getN bs 0 4, kind := getN bs 4 4, version := getN bs 8 4, svn := getN bs 12 4, length := getN bs 16 8,
    payload := (bs.drop 24).take (getN bs 16 8), signature := (bs.drop (24 + getN bs 16 8)).take 2420, readable := true }

/-- The hash that an image is signed under and measured by: SHA3-256 of its header and payload (R396, R397). -/
def Image.digest (i : Image) : BitVec 256 := sha3 (i.header ++ i.payload)

/-- The error of a check, or none (R395, R396): the hash of the ROM's key against the fuses, the ML-DSA-44 signature of 2,420 bytes under
that key over the hash of header and payload, the security version. -/
def Boot.check (b : Boot) (i : Image) : Option Nat :=
  if !i.readable then some 5
  else if sha3 b.romKey != b.keyFuse then some 2
  else if i.signature.length != 2420 || !mldsaVerify b.romKey (bytesOf i.digest.toNat 32) i.signature then some 1
  else if i.svn < (b.fused[i.kind]?).getD 0 then some 3
  else none

/-- The measurement register of a kind of image (R397). -/
def measureRegister (kind : Nat) : Nat := if kind = 1 then 1 else if kind = 2 then 2 else 3

/-- A measurement register extended by a hash (R397): m[r] := sha3_256(m[r] ‖ hash). Byte 0 of a hash stands lowest. -/
def Boot.extend (b : Boot) (r : Nat) (hash : BitVec 256) : Boot :=
  let old := (b.measured[r]?).getD 0
  { b with measured := b.measured.setIfInBounds r (sha3 (bytesOf old.toNat 32 ++ bytesOf hash.toNat 32)) }

/-- A passing image measured (R397). -/
def Boot.measure (b : Boot) (i : Image) : Boot := b.extend (measureRegister i.kind) i.digest

/-- Stage 4 reached: the images that have passed raise the fused minimums, and flash takes the pushed ones (R396, R400). -/
def Boot.running (b : Boot) : Boot :=
  let passed := b.flash.take b.failedAt ++ b.pendingFlash
  let fused := passed.foldl (fun (f : Vector Nat 4) i => f.setIfInBounds i.kind (max i.svn ((f[i.kind]?).getD 0))) b.fused
  let flash := b.pendingFlash.foldl (fun fl n => mapIf (fun (i : Image) => i.kind == n.kind) (fun _ => n) fl) b.flash
  { b with stage := 4, busy := false, fused := fused, flash := flash, pendingFlash := [] }

/-- The identity of a part: the ML-DSA-44 key pair of the seed that its PUF gives (R398). -/
def Identity.derive (seed : BitVec 256) : Identity :=
  let k := mldsaKeys (bytesOf seed.toNat 32)
  { seed := seed, publicKey := k.1, privateKey := k.2 }

/-- The boot state changed. -/
def State.onBoot (s : State) (f : Boot → Boot) : State := { s with boot := f s.boot }

/-- Stage 3 (R394): the map of the grade record, which stage 0 has checked, applied, the identity key derived, the links trained and the
enumeration table written; then the part runs. A record that breaks R2 or R68 halts it (R399). -/
def State.loadPart (s : State) : State :=
  let g := s.boot.gradeRecord
  if g.valid then
    (s.enumerate g).onBoot (fun b => { b with identity := some (Identity.derive Config.pufSeed) }.running)
  else s.onBoot (fun b => { b with stage := 5, err := 4, busy := false })

/-- The images of flash checked and measured in order from image k on (R394, R396, R397): when every one has passed, stage 3; a failed
grade record halts the part, another failure waits for recovery (R400). -/
def Boot.checkFrom (b : Boot) : List Image → Nat → Boot
  | [], k => { b with stage := 3, failedAt := k }
  | i :: is, k =>
    match b.check i with
    | none => (b.measure i).checkFrom is (k + 1)
    | some e => { b with stage := if i.kind = 0 then 5 else 1, err := e, busy := false, failedAt := k }

/-- Stage 0 (R394). The ROM measures its own code before the images (R397 gives it register 0 and does not say when: DESIGN CHOICE,
log 8). -/
def Boot.runRom (b : Boot) : Boot := (b.extend 0 (sha3 Config.romCode)).checkFrom b.flash 0

/-- Stage 2 with the image fetched (R400): one that passes replaces the failed image, is measured, and stage 3 follows; else stage 1 follows
with the error. An image of another kind than the failed one replaces nothing (DESIGN CHOICE, log 29). -/
def Boot.takePushed (b : Boot) (i : Image) : Boot :=
  match b.check i with
  | some e => { b with stage := 1, err := e, busy := false }
  | none =>
    if (b.flash[b.failedAt]?).map (·.kind) != some i.kind then { b with stage := 1, err := 1, busy := false }
    else { b.measure i with stage := 3, busy := false, pendingFlash := b.pendingFlash ++ [i] }

/-- Stage 2 (R400): the image fetched from the host buffer, as it stands now, and checked. -/
def State.checkPushed (s : State) : State :=
  let b := s.boot
  let a := b.mbaddr.toNat
  let n := b.mblen.toNat
  let fail (e : Nat) : State := s.onBoot (fun b => { b with stage := 1, err := e, busy := false })
  if n = 0 ∨ n > 16 * 2 ^ 20 ∨ a % 4096 ≠ 0 then fail 7
  else if 2 ^ 52 < a + n || s.hostRejects.any (fun w => w.1 < a + n && a < w.1 + w.2) then fail 6
  else s.onBoot (fun b => b.takePushed (Image.ofBytes (s.readHost a n)))

/-- The signed part of an attestation report from byte 0x020 on (R401). -/
def State.attested (s : State) : List Byte :=
  s.boot.measured.toList.flatMap (fun m => bytesOf m.toNat 32)
    ++ (s.boot.fused.toList.map (fun n => BitVec.ofNat 8 n) ++ List.replicate 4 0)
    ++ layBytes [(s.gen, 1), (s.boot.step, 1), (s.boot.gradeRecord.grade, 1), (if s.boot.gradeRecord.clamshell then 1 else 0, 1)]

/-- The attestation report finished: signed by the identity key over the nonce as the command read it and what it attests, and busy cleared
(R401). The random bytes of the signature are free (log 9). -/
def State.finishReport (s : State) : State :=
  s.onBoot (fun b =>
    let signed := b.mbreport.take 32 ++ s.attested
    let key := (b.identity.map (·.privateKey)).getD []
    { b with busy := false, mbreport := signed ++ mldsaSign key signed (bytesOf (Config.signRandom s.freeCtr).toNat 32) })

/-- The next stage of the boot, or the end of a mailbox command (R394, R400, R401). Stages 1 and 5 wait for the host. -/
def State.bootStep (s : State) : State :=
  match s.boot.stage with
  | 0 => s.onBoot Boot.runRom
  | 2 => s.checkPushed
  | 3 => s.loadPart
  | 4 => if s.boot.busy then s.finishReport else s
  | _ => s

/-- Whether the boot has a step to take. -/
def State.bootDue (s : State) : Bool :=
  s.boot.stage == 0 || s.boot.stage == 2 || s.boot.stage == 3 || (s.boot.stage == 4 && s.boot.busy)

/-- A module reset (R393): everything that it clears at its reset value. What stays: the flash, its certificate,
the ROM's key, the fuses, the stepping and the junction; memory of the host and of peers, and the data of the environment. -/
def State.moduleReset (s : State) : State :=
  let r := State.reset
  { r with
    sched := s.sched
    freeCtr := s.freeCtr
    mem := s.mem.filter (fun c => c.1 ≥ 2 ^ 52)
    peerWindows := s.peerWindows
    hostRejects := s.hostRejects
    kernels := []
    port0 := { r.port0 with cxl := s.port0.cxl, msixLog := s.port0.msixLog }
    boot := { Boot.reset with flash := s.boot.flash, fused := s.boot.fused,
                              romKey := s.boot.romKey, keyFuse := s.boot.keyFuse, certificate := s.boot.certificate,
                              step := s.boot.step, junction := s.boot.junction, tripped := s.boot.tripped } }

/-- MODULE_RESET: power-on, PERST# or a hot reset clears the part, whose boot begins with stage 0 (R393, R394). A part that has removed its
own power at the trip point is past every reset but a power cycle (R403). -/
def execModuleReset (s : State) : Host.Outcome State Fault Refusal := .next (if s.boot.tripped then s else s.moduleReset)

/-- The module's power removed and restored: a module reset, which leaves a trip (R393, R403). -/
def State.powerCycle (s : State) : State := s.moduleReset.onBoot (fun b => { b with tripped := false })

/-- A mailbox command that is not valid in this stage (R395). -/
def State.mailboxError (s : State) : State := s.onBoot (fun b => { b with err := 8 })

/-- PUSH_RECOVERY_IMAGE: mailbox command 1 (R395, R400). The ROM fetches and checks the image in stage 2, with busy set. -/
def execPushRecoveryImage (s : State) : Host.Outcome State Fault Refusal :=
  .next (
    if s.boot.busy then s
    else if s.boot.stage ≠ 1 then s.mailboxError
    else s.onBoot (fun b => { b with stage := 2, err := 0, busy := true }))

/-- ATTEST: mailbox command 2 (R395, R401). The report begins with the nonce as it stands; Yarrow finishes it with busy set. -/
def execAttest (s : State) : Host.Outcome State Fault Refusal :=
  .next (
    if s.boot.busy then s
    else if s.boot.stage ≠ 4 then s.mailboxError
    else s.onBoot (fun b => { b with err := 0, busy := true, mbreport := bytesOf b.mbnonce.toNat 32 }))

/-- THROTTLE_STEP: each millisecond above the throttle point the clock steps down by 100 MHz, until the junction falls
below 93 °C (R403). -/
def execThrottleStep (s : State) : Host.Outcome State Fault Refusal :=
  if s.boot.junction > 95 ∨ (s.boot.throttled ∧ s.boot.junction ≥ 93) then
    .next { s with clock := s.clock - 100, boot := { s.boot with throttled := true, throttleAt := s.micros } }
  else if s.boot.throttled then .next { s with clock := 2400, boot := { s.boot with throttled := false } }
  else .next s

/-- Whether a step of throttling is due (R403): above the throttle point one each millisecond, and one that ends it. -/
def State.throttleDue (s : State) : Bool :=
  if s.boot.junction > 95 || (s.boot.throttled && s.boot.junction ≥ 93) then !s.boot.throttled || s.boot.throttleAt + 1000 ≤ s.micros
  else s.boot.throttled

/-- THERMAL_TRIP: at the trip point the part removes its own power and sets MBTHERM bit 17 (R403). -/
def execThermalTrip (s : State) : Host.Outcome State Fault Refusal :=
  if s.boot.junction ≥ 110 then .next { s with boot := { s.boot with tripped := true } } else .next s

/-! ## The environment -/

/-- The host stores bytes in its own memory, a buffer that the part reads among it (R400). -/
def State.hostStores (s : State) (a : Nat) (bs : List Byte) : State := if a + bs.length ≤ 2 ^ 52 then s.writeHost a bs else s

/-- A peer stores bytes in its own memory (R384). -/
def State.peerStores (s : State) (fab : BitVec 16) (a : Nat) (bs : List Byte) : State :=
  if a + bs.length ≤ 2 ^ 52 then s.agentWrite none (memKey (peerDevice fab.toNat) a) bs else s

/-- What the peers and the host's IOMMU admit set (R378, R385). -/
def State.setAdmits (s : State) (windows : List (Nat × Nat × Nat × Bool × Bool)) (rejects : List (Nat × Nat)) : State :=
  { s with peerWindows := windows, hostRejects := rejects }

/-- The junction at a temperature (R403). -/
def State.setJunction (s : State) (celsius : Nat) : State := s.onBoot (fun b => { b with junction := celsius })

end Sys2Proof.Machine
end

