-- ==== Sys2Proof/Decode.lean ====
section
/-! DEFINITION. Decoding of 32-bit words (R92 to R113), of packets (R41) and of command entries (R381, R382), and the encoder. -/

namespace Sys2Proof

/- Lean's code generator numbers at most 245 constructors that carry data; `Instr` has one for each of the 394 rows of
the table, so what builds an `Instr` is marked noncomputable. The kernel evaluates all of it. -/
noncomputable section

/-- Why a word is not an instruction (R94). -/
inductive Reject where
  /-- The all-zero word: cause 0x02. -/
  | allZero
  /-- Bits [1:0] are not 0b11: cause 0x01. -/
  | notThirtyTwoBit
  /-- Bits [4:2] are 0b111, a longer length encoding: cause 0x01. -/
  | longerLength
  /-- A major opcode that R93 does not list: cause 0x01. -/
  | unlistedOpcode
  /-- A selector value that no table assigns: cause 0x01. -/
  | unassigned
  /-- A field that the encoding gives as a constant holds something else: cause 0x01. -/
  | fieldNotConstant
  deriving DecidableEq, Repr

/-- What decoding a word gives: an instruction, or the reason why it is none. -/
inductive Decoded where
  | instr (i : Instr)
  | reject (r : Reject)
  deriving DecidableEq, Repr

/-- Major opcode 0x37 (R93, R113). -/
def decodeLui (w : BitVec 32) : Decoded :=
  .instr (.lui (w.extractLsb' 7 5) (w.extractLsb' 12 20))

/-- Major opcode 0x17 (R93, R113). -/
def decodeAuipc (w : BitVec 32) : Decoded :=
  .instr (.auipc (w.extractLsb' 7 5) (w.extractLsb' 12 20))

/-- Major opcode 0x6F (R93, R113). -/
def decodeJal (w : BitVec 32) : Decoded :=
  .instr (.jal (w.extractLsb' 7 5) (w.extractLsb' 31 1 ++ w.extractLsb' 12 8 ++ w.extractLsb' 20 1 ++ w.extractLsb' 21 10))

/-- Major opcode 0x67 (R93, R113). -/
def decodeJalr (w : BitVec 32) : Decoded :=
  if w.extractLsb' 12 3 == 0#3 then .instr (.jalr (w.extractLsb' 7 5) (w.extractLsb' 15 5) (w.extractLsb' 20 12)) else .reject .fieldNotConstant

/-- Major opcode 0x63 (R93, R113). -/
def decodeBranch (w : BitVec 32) : Decoded :=
  match (w.extractLsb' 12 3).toNat with
  | 0 => .instr (.beq (w.extractLsb' 15 5) (w.extractLsb' 20 5) (w.extractLsb' 31 1 ++ w.extractLsb' 7 1 ++ w.extractLsb' 25 6 ++ w.extractLsb' 8 4))
  | 1 => .instr (.bne (w.extractLsb' 15 5) (w.extractLsb' 20 5) (w.extractLsb' 31 1 ++ w.extractLsb' 7 1 ++ w.extractLsb' 25 6 ++ w.extractLsb' 8 4))
  | 4 => .instr (.blt (w.extractLsb' 15 5) (w.extractLsb' 20 5) (w.extractLsb' 31 1 ++ w.extractLsb' 7 1 ++ w.extractLsb' 25 6 ++ w.extractLsb' 8 4))
  | 5 => .instr (.bge (w.extractLsb' 15 5) (w.extractLsb' 20 5) (w.extractLsb' 31 1 ++ w.extractLsb' 7 1 ++ w.extractLsb' 25 6 ++ w.extractLsb' 8 4))
  | 6 => .instr (.bltu (w.extractLsb' 15 5) (w.extractLsb' 20 5) (w.extractLsb' 31 1 ++ w.extractLsb' 7 1 ++ w.extractLsb' 25 6 ++ w.extractLsb' 8 4))
  | 7 => .instr (.bgeu (w.extractLsb' 15 5) (w.extractLsb' 20 5) (w.extractLsb' 31 1 ++ w.extractLsb' 7 1 ++ w.extractLsb' 25 6 ++ w.extractLsb' 8 4))
  | _ => .reject .unassigned

/-- Major opcode 0x03 (R93, R113). -/
def decodeLoad (w : BitVec 32) : Decoded :=
  match (w.extractLsb' 12 3).toNat with
  | 0 => .instr (.lb (w.extractLsb' 7 5) (w.extractLsb' 15 5) (w.extractLsb' 20 12))
  | 1 => .instr (.lh (w.extractLsb' 7 5) (w.extractLsb' 15 5) (w.extractLsb' 20 12))
  | 2 => .instr (.lw (w.extractLsb' 7 5) (w.extractLsb' 15 5) (w.extractLsb' 20 12))
  | 3 => .instr (.ld (w.extractLsb' 7 5) (w.extractLsb' 15 5) (w.extractLsb' 20 12))
  | 4 => .instr (.lbu (w.extractLsb' 7 5) (w.extractLsb' 15 5) (w.extractLsb' 20 12))
  | 5 => .instr (.lhu (w.extractLsb' 7 5) (w.extractLsb' 15 5) (w.extractLsb' 20 12))
  | 6 => .instr (.lwu (w.extractLsb' 7 5) (w.extractLsb' 15 5) (w.extractLsb' 20 12))
  | _ => .reject .unassigned

/-- Major opcode 0x23 (R93, R113). -/
def decodeStore (w : BitVec 32) : Decoded :=
  match (w.extractLsb' 12 3).toNat with
  | 0 => .instr (.sb (w.extractLsb' 15 5) (w.extractLsb' 20 5) (w.extractLsb' 25 7 ++ w.extractLsb' 7 5))
  | 1 => .instr (.sh (w.extractLsb' 15 5) (w.extractLsb' 20 5) (w.extractLsb' 25 7 ++ w.extractLsb' 7 5))
  | 2 => .instr (.sw (w.extractLsb' 15 5) (w.extractLsb' 20 5) (w.extractLsb' 25 7 ++ w.extractLsb' 7 5))
  | 3 => .instr (.sd (w.extractLsb' 15 5) (w.extractLsb' 20 5) (w.extractLsb' 25 7 ++ w.extractLsb' 7 5))
  | _ => .reject .unassigned

/-- Major opcode 0x13 (R93, R113). -/
def decodeOpImm (w : BitVec 32) : Decoded :=
  match (w.extractLsb' 12 3).toNat with
  | 0 => .instr (.addi (w.extractLsb' 7 5) (w.extractLsb' 15 5) (w.extractLsb' 20 12))
  | 1 => if w.extractLsb' 26 6 == 0#6 then .instr (.slli (w.extractLsb' 7 5) (w.extractLsb' 15 5) (w.extractLsb' 20 6)) else .reject .fieldNotConstant
  | 2 => .instr (.slti (w.extractLsb' 7 5) (w.extractLsb' 15 5) (w.extractLsb' 20 12))
  | 3 => .instr (.sltiu (w.extractLsb' 7 5) (w.extractLsb' 15 5) (w.extractLsb' 20 12))
  | 4 => .instr (.xori (w.extractLsb' 7 5) (w.extractLsb' 15 5) (w.extractLsb' 20 12))
  | 5 =>
    match (w.extractLsb' 26 6).toNat with
    | 0 => .instr (.srli (w.extractLsb' 7 5) (w.extractLsb' 15 5) (w.extractLsb' 20 6))
    | 16 => .instr (.srai (w.extractLsb' 7 5) (w.extractLsb' 15 5) (w.extractLsb' 20 6))
    | _ => .reject .unassigned
  | 6 => .instr (.ori (w.extractLsb' 7 5) (w.extractLsb' 15 5) (w.extractLsb' 20 12))
  | 7 => .instr (.andi (w.extractLsb' 7 5) (w.extractLsb' 15 5) (w.extractLsb' 20 12))
  | _ => .reject .unassigned

/-- Major opcode 0x1B (R93, R113). -/
def decodeOpImm32 (w : BitVec 32) : Decoded :=
  match (w.extractLsb' 12 3).toNat with
  | 0 => .instr (.addiw (w.extractLsb' 7 5) (w.extractLsb' 15 5) (w.extractLsb' 20 12))
  | 1 => if w.extractLsb' 25 7 == 0#7 then .instr (.slliw (w.extractLsb' 7 5) (w.extractLsb' 15 5) (w.extractLsb' 20 5)) else .reject .fieldNotConstant
  | 5 =>
    match (w.extractLsb' 25 7).toNat with
    | 0 => .instr (.srliw (w.extractLsb' 7 5) (w.extractLsb' 15 5) (w.extractLsb' 20 5))
    | 32 => .instr (.sraiw (w.extractLsb' 7 5) (w.extractLsb' 15 5) (w.extractLsb' 20 5))
    | _ => .reject .unassigned
  | _ => .reject .unassigned

/-- Major opcode 0x33 (R93, R113). -/
def decodeOp (w : BitVec 32) : Decoded :=
  match (w.extractLsb' 25 7).toNat with
  | 0 =>
    match (w.extractLsb' 12 3).toNat with
    | 0 => .instr (.add (w.extractLsb' 7 5) (w.extractLsb' 15 5) (w.extractLsb' 20 5))
    | 1 => .instr (.sll (w.extractLsb' 7 5) (w.extractLsb' 15 5) (w.extractLsb' 20 5))
    | 2 => .instr (.slt (w.extractLsb' 7 5) (w.extractLsb' 15 5) (w.extractLsb' 20 5))
    | 3 => .instr (.sltu (w.extractLsb' 7 5) (w.extractLsb' 15 5) (w.extractLsb' 20 5))
    | 4 => .instr (.xor (w.extractLsb' 7 5) (w.extractLsb' 15 5) (w.extractLsb' 20 5))
    | 5 => .instr (.srl (w.extractLsb' 7 5) (w.extractLsb' 15 5) (w.extractLsb' 20 5))
    | 6 => .instr (.or (w.extractLsb' 7 5) (w.extractLsb' 15 5) (w.extractLsb' 20 5))
    | 7 => .instr (.and (w.extractLsb' 7 5) (w.extractLsb' 15 5) (w.extractLsb' 20 5))
    | _ => .reject .unassigned
  | 1 =>
    match (w.extractLsb' 12 3).toNat with
    | 0 => .instr (.mul (w.extractLsb' 7 5) (w.extractLsb' 15 5) (w.extractLsb' 20 5))
    | 1 => .instr (.mulh (w.extractLsb' 7 5) (w.extractLsb' 15 5) (w.extractLsb' 20 5))
    | 2 => .instr (.mulhsu (w.extractLsb' 7 5) (w.extractLsb' 15 5) (w.extractLsb' 20 5))
    | 3 => .instr (.mulhu (w.extractLsb' 7 5) (w.extractLsb' 15 5) (w.extractLsb' 20 5))
    | 4 => .instr (.div (w.extractLsb' 7 5) (w.extractLsb' 15 5) (w.extractLsb' 20 5))
    | 5 => .instr (.divu (w.extractLsb' 7 5) (w.extractLsb' 15 5) (w.extractLsb' 20 5))
    | 6 => .instr (.rem (w.extractLsb' 7 5) (w.extractLsb' 15 5) (w.extractLsb' 20 5))
    | 7 => .instr (.remu (w.extractLsb' 7 5) (w.extractLsb' 15 5) (w.extractLsb' 20 5))
    | _ => .reject .unassigned
  | 32 =>
    match (w.extractLsb' 12 3).toNat with
    | 0 => .instr (.sub (w.extractLsb' 7 5) (w.extractLsb' 15 5) (w.extractLsb' 20 5))
    | 5 => .instr (.sra (w.extractLsb' 7 5) (w.extractLsb' 15 5) (w.extractLsb' 20 5))
    | _ => .reject .unassigned
  | _ => .reject .unassigned

/-- Major opcode 0x3B (R93, R113). -/
def decodeOp32 (w : BitVec 32) : Decoded :=
  match (w.extractLsb' 25 7).toNat with
  | 0 =>
    match (w.extractLsb' 12 3).toNat with
    | 0 => .instr (.addw (w.extractLsb' 7 5) (w.extractLsb' 15 5) (w.extractLsb' 20 5))
    | 1 => .instr (.sllw (w.extractLsb' 7 5) (w.extractLsb' 15 5) (w.extractLsb' 20 5))
    | 5 => .instr (.srlw (w.extractLsb' 7 5) (w.extractLsb' 15 5) (w.extractLsb' 20 5))
    | _ => .reject .unassigned
  | 1 =>
    match (w.extractLsb' 12 3).toNat with
    | 0 => .instr (.mulw (w.extractLsb' 7 5) (w.extractLsb' 15 5) (w.extractLsb' 20 5))
    | 4 => .instr (.divw (w.extractLsb' 7 5) (w.extractLsb' 15 5) (w.extractLsb' 20 5))
    | 5 => .instr (.divuw (w.extractLsb' 7 5) (w.extractLsb' 15 5) (w.extractLsb' 20 5))
    | 6 => .instr (.remw (w.extractLsb' 7 5) (w.extractLsb' 15 5) (w.extractLsb' 20 5))
    | 7 => .instr (.remuw (w.extractLsb' 7 5) (w.extractLsb' 15 5) (w.extractLsb' 20 5))
    | _ => .reject .unassigned
  | 32 =>
    match (w.extractLsb' 12 3).toNat with
    | 0 => .instr (.subw (w.extractLsb' 7 5) (w.extractLsb' 15 5) (w.extractLsb' 20 5))
    | 5 => .instr (.sraw (w.extractLsb' 7 5) (w.extractLsb' 15 5) (w.extractLsb' 20 5))
    | _ => .reject .unassigned
  | _ => .reject .unassigned

/-- Major opcode 0x0F (R93, R113). -/
def decodeFence (w : BitVec 32) : Decoded :=
  if w.extractLsb' 28 3 == 0#3 && w.extractLsb' 7 13 == 0#13 then .instr (.fence (w.extractLsb' 31 1) (w.extractLsb' 24 4) (w.extractLsb' 20 4)) else .reject .fieldNotConstant

/-- Major opcode 0x73 (R93, R113). -/
def decodeSystem (w : BitVec 32) : Decoded :=
  match (w.extractLsb' 12 3).toNat with
  | 0 =>
    match (w.extractLsb' 20 12).toNat with
    | 0 => if w.extractLsb' 15 5 == 0#5 && w.extractLsb' 7 5 == 0#5 then .instr .ecall else .reject .fieldNotConstant
    | 1 => if w.extractLsb' 15 5 == 0#5 && w.extractLsb' 7 5 == 0#5 then .instr .ebreak else .reject .fieldNotConstant
    | _ => .reject .unassigned
  | 1 => .instr (.csrrw (w.extractLsb' 7 5) (w.extractLsb' 15 5) (w.extractLsb' 20 12))
  | 2 => .instr (.csrrs (w.extractLsb' 7 5) (w.extractLsb' 15 5) (w.extractLsb' 20 12))
  | 3 => .instr (.csrrc (w.extractLsb' 7 5) (w.extractLsb' 15 5) (w.extractLsb' 20 12))
  | 5 => .instr (.csrrwi (w.extractLsb' 7 5) (w.extractLsb' 15 5) (w.extractLsb' 20 12))
  | 6 => .instr (.csrrsi (w.extractLsb' 7 5) (w.extractLsb' 15 5) (w.extractLsb' 20 12))
  | 7 => .instr (.csrrci (w.extractLsb' 7 5) (w.extractLsb' 15 5) (w.extractLsb' 20 12))
  | _ => .reject .unassigned

/-- Major opcode 0x2F (R93, R113). -/
def decodeAmo (w : BitVec 32) : Decoded :=
  match (w.extractLsb' 27 5).toNat with
  | 0 =>
    match (w.extractLsb' 12 3).toNat with
    | 2 => .instr (.amoaddW (w.extractLsb' 7 5) (w.extractLsb' 15 5) (w.extractLsb' 20 5) (w.extractLsb' 26 1) (w.extractLsb' 25 1))
    | 3 => .instr (.amoaddD (w.extractLsb' 7 5) (w.extractLsb' 15 5) (w.extractLsb' 20 5) (w.extractLsb' 26 1) (w.extractLsb' 25 1))
    | _ => .reject .unassigned
  | 1 =>
    match (w.extractLsb' 12 3).toNat with
    | 2 => .instr (.amoswapW (w.extractLsb' 7 5) (w.extractLsb' 15 5) (w.extractLsb' 20 5) (w.extractLsb' 26 1) (w.extractLsb' 25 1))
    | 3 => .instr (.amoswapD (w.extractLsb' 7 5) (w.extractLsb' 15 5) (w.extractLsb' 20 5) (w.extractLsb' 26 1) (w.extractLsb' 25 1))
    | _ => .reject .unassigned
  | 2 =>
    match (w.extractLsb' 12 3).toNat with
    | 2 => if w.extractLsb' 20 5 == 0#5 then .instr (.lrW (w.extractLsb' 7 5) (w.extractLsb' 15 5) (w.extractLsb' 26 1) (w.extractLsb' 25 1)) else .reject .fieldNotConstant
    | 3 => if w.extractLsb' 20 5 == 0#5 then .instr (.lrD (w.extractLsb' 7 5) (w.extractLsb' 15 5) (w.extractLsb' 26 1) (w.extractLsb' 25 1)) else .reject .fieldNotConstant
    | _ => .reject .unassigned
  | 3 =>
    match (w.extractLsb' 12 3).toNat with
    | 2 => .instr (.scW (w.extractLsb' 7 5) (w.extractLsb' 15 5) (w.extractLsb' 20 5) (w.extractLsb' 26 1) (w.extractLsb' 25 1))
    | 3 => .instr (.scD (w.extractLsb' 7 5) (w.extractLsb' 15 5) (w.extractLsb' 20 5) (w.extractLsb' 26 1) (w.extractLsb' 25 1))
    | _ => .reject .unassigned
  | 4 =>
    match (w.extractLsb' 12 3).toNat with
    | 2 => .instr (.amoxorW (w.extractLsb' 7 5) (w.extractLsb' 15 5) (w.extractLsb' 20 5) (w.extractLsb' 26 1) (w.extractLsb' 25 1))
    | 3 => .instr (.amoxorD (w.extractLsb' 7 5) (w.extractLsb' 15 5) (w.extractLsb' 20 5) (w.extractLsb' 26 1) (w.extractLsb' 25 1))
    | _ => .reject .unassigned
  | 8 =>
    match (w.extractLsb' 12 3).toNat with
    | 2 => .instr (.amoorW (w.extractLsb' 7 5) (w.extractLsb' 15 5) (w.extractLsb' 20 5) (w.extractLsb' 26 1) (w.extractLsb' 25 1))
    | 3 => .instr (.amoorD (w.extractLsb' 7 5) (w.extractLsb' 15 5) (w.extractLsb' 20 5) (w.extractLsb' 26 1) (w.extractLsb' 25 1))
    | _ => .reject .unassigned
  | 12 =>
    match (w.extractLsb' 12 3).toNat with
    | 2 => .instr (.amoandW (w.extractLsb' 7 5) (w.extractLsb' 15 5) (w.extractLsb' 20 5) (w.extractLsb' 26 1) (w.extractLsb' 25 1))
    | 3 => .instr (.amoandD (w.extractLsb' 7 5) (w.extractLsb' 15 5) (w.extractLsb' 20 5) (w.extractLsb' 26 1) (w.extractLsb' 25 1))
    | _ => .reject .unassigned
  | 16 =>
    match (w.extractLsb' 12 3).toNat with
    | 2 => .instr (.amominW (w.extractLsb' 7 5) (w.extractLsb' 15 5) (w.extractLsb' 20 5) (w.extractLsb' 26 1) (w.extractLsb' 25 1))
    | 3 => .instr (.amominD (w.extractLsb' 7 5) (w.extractLsb' 15 5) (w.extractLsb' 20 5) (w.extractLsb' 26 1) (w.extractLsb' 25 1))
    | _ => .reject .unassigned
  | 20 =>
    match (w.extractLsb' 12 3).toNat with
    | 2 => .instr (.amomaxW (w.extractLsb' 7 5) (w.extractLsb' 15 5) (w.extractLsb' 20 5) (w.extractLsb' 26 1) (w.extractLsb' 25 1))
    | 3 => .instr (.amomaxD (w.extractLsb' 7 5) (w.extractLsb' 15 5) (w.extractLsb' 20 5) (w.extractLsb' 26 1) (w.extractLsb' 25 1))
    | _ => .reject .unassigned
  | 24 =>
    match (w.extractLsb' 12 3).toNat with
    | 2 => .instr (.amominuW (w.extractLsb' 7 5) (w.extractLsb' 15 5) (w.extractLsb' 20 5) (w.extractLsb' 26 1) (w.extractLsb' 25 1))
    | 3 => .instr (.amominuD (w.extractLsb' 7 5) (w.extractLsb' 15 5) (w.extractLsb' 20 5) (w.extractLsb' 26 1) (w.extractLsb' 25 1))
    | _ => .reject .unassigned
  | 28 =>
    match (w.extractLsb' 12 3).toNat with
    | 2 => .instr (.amomaxuW (w.extractLsb' 7 5) (w.extractLsb' 15 5) (w.extractLsb' 20 5) (w.extractLsb' 26 1) (w.extractLsb' 25 1))
    | 3 => .instr (.amomaxuD (w.extractLsb' 7 5) (w.extractLsb' 15 5) (w.extractLsb' 20 5) (w.extractLsb' 26 1) (w.extractLsb' 25 1))
    | _ => .reject .unassigned
  | _ => .reject .unassigned

/-- custom-0, f3 = 000 (R98 to R101). -/
def decodeVA0 (w : BitVec 32) : Decoded :=
  match (w.extractLsb' 28 4).toNat with
  | 0 => .instr (.vaddVV (w.extractLsb' 7 5) (w.extractLsb' 20 5) (w.extractLsb' 15 5) (w.extractLsb' 27 1) (w.extractLsb' 26 1) (w.extractLsb' 25 1))
  | 1 => .instr (.vsubVV (w.extractLsb' 7 5) (w.extractLsb' 20 5) (w.extractLsb' 15 5) (w.extractLsb' 27 1) (w.extractLsb' 26 1) (w.extractLsb' 25 1))
  | 2 => .instr (.vmulVV (w.extractLsb' 7 5) (w.extractLsb' 20 5) (w.extractLsb' 15 5) (w.extractLsb' 27 1) (w.extractLsb' 26 1) (w.extractLsb' 25 1))
  | 3 => .instr (.vgathergVV (w.extractLsb' 7 5) (w.extractLsb' 20 5) (w.extractLsb' 15 5) (w.extractLsb' 27 1) (w.extractLsb' 26 1) (w.extractLsb' 25 1))
  | 4 => .instr (.vandVV (w.extractLsb' 7 5) (w.extractLsb' 20 5) (w.extractLsb' 15 5) (w.extractLsb' 27 1) (w.extractLsb' 26 1) (w.extractLsb' 25 1))
  | 5 => .instr (.vorVV (w.extractLsb' 7 5) (w.extractLsb' 20 5) (w.extractLsb' 15 5) (w.extractLsb' 27 1) (w.extractLsb' 26 1) (w.extractLsb' 25 1))
  | 6 => .instr (.vxorVV (w.extractLsb' 7 5) (w.extractLsb' 20 5) (w.extractLsb' 15 5) (w.extractLsb' 27 1) (w.extractLsb' 26 1) (w.extractLsb' 25 1))
  | 7 => .instr (.vsllVV (w.extractLsb' 7 5) (w.extractLsb' 20 5) (w.extractLsb' 15 5) (w.extractLsb' 27 1) (w.extractLsb' 26 1) (w.extractLsb' 25 1))
  | 8 => .instr (.vsrlVV (w.extractLsb' 7 5) (w.extractLsb' 20 5) (w.extractLsb' 15 5) (w.extractLsb' 27 1) (w.extractLsb' 26 1) (w.extractLsb' 25 1))
  | 9 => .instr (.vsraVV (w.extractLsb' 7 5) (w.extractLsb' 20 5) (w.extractLsb' 15 5) (w.extractLsb' 27 1) (w.extractLsb' 26 1) (w.extractLsb' 25 1))
  | 10 => .instr (.vminVV (w.extractLsb' 7 5) (w.extractLsb' 20 5) (w.extractLsb' 15 5) (w.extractLsb' 27 1) (w.extractLsb' 26 1) (w.extractLsb' 25 1))
  | 11 => .instr (.vmaxVV (w.extractLsb' 7 5) (w.extractLsb' 20 5) (w.extractLsb' 15 5) (w.extractLsb' 27 1) (w.extractLsb' 26 1) (w.extractLsb' 25 1))
  | 12 => .instr (.vmseqVV (w.extractLsb' 7 5) (w.extractLsb' 20 5) (w.extractLsb' 15 5) (w.extractLsb' 27 1) (w.extractLsb' 26 1) (w.extractLsb' 25 1))
  | 13 => .instr (.vmsltVV (w.extractLsb' 7 5) (w.extractLsb' 20 5) (w.extractLsb' 15 5) (w.extractLsb' 27 1) (w.extractLsb' 26 1) (w.extractLsb' 25 1))
  | 14 => .instr (.vmsltuVV (w.extractLsb' 7 5) (w.extractLsb' 20 5) (w.extractLsb' 15 5) (w.extractLsb' 27 1) (w.extractLsb' 26 1) (w.extractLsb' 25 1))
  | 15 => .instr (.vgatherVV (w.extractLsb' 7 5) (w.extractLsb' 20 5) (w.extractLsb' 15 5) (w.extractLsb' 27 1) (w.extractLsb' 26 1) (w.extractLsb' 25 1))
  | _ => .reject .unassigned

/-- custom-0, f3 = 001 (R98 to R101). -/
def decodeVA1 (w : BitVec 32) : Decoded :=
  match (w.extractLsb' 28 4).toNat with
  | 0 => if w.extractLsb' 26 1 == 0#1 then .instr (.vaddVX (w.extractLsb' 7 5) (w.extractLsb' 20 5) (w.extractLsb' 15 5) (w.extractLsb' 27 1) (w.extractLsb' 25 1)) else .reject .fieldNotConstant
  | 1 => if w.extractLsb' 26 1 == 0#1 then .instr (.vsubVX (w.extractLsb' 7 5) (w.extractLsb' 20 5) (w.extractLsb' 15 5) (w.extractLsb' 27 1) (w.extractLsb' 25 1)) else .reject .fieldNotConstant
  | 2 => if w.extractLsb' 26 1 == 0#1 then .instr (.vmulVX (w.extractLsb' 7 5) (w.extractLsb' 20 5) (w.extractLsb' 15 5) (w.extractLsb' 27 1) (w.extractLsb' 25 1)) else .reject .fieldNotConstant
  | 3 => if w.extractLsb' 26 1 == 0#1 then .instr (.vgathergVX (w.extractLsb' 7 5) (w.extractLsb' 20 5) (w.extractLsb' 15 5) (w.extractLsb' 27 1) (w.extractLsb' 25 1)) else .reject .fieldNotConstant
  | 4 => if w.extractLsb' 26 1 == 0#1 then .instr (.vandVX (w.extractLsb' 7 5) (w.extractLsb' 20 5) (w.extractLsb' 15 5) (w.extractLsb' 27 1) (w.extractLsb' 25 1)) else .reject .fieldNotConstant
  | 5 => if w.extractLsb' 26 1 == 0#1 then .instr (.vorVX (w.extractLsb' 7 5) (w.extractLsb' 20 5) (w.extractLsb' 15 5) (w.extractLsb' 27 1) (w.extractLsb' 25 1)) else .reject .fieldNotConstant
  | 6 => if w.extractLsb' 26 1 == 0#1 then .instr (.vxorVX (w.extractLsb' 7 5) (w.extractLsb' 20 5) (w.extractLsb' 15 5) (w.extractLsb' 27 1) (w.extractLsb' 25 1)) else .reject .fieldNotConstant
  | 7 => if w.extractLsb' 26 1 == 0#1 then .instr (.vsllVX (w.extractLsb' 7 5) (w.extractLsb' 20 5) (w.extractLsb' 15 5) (w.extractLsb' 27 1) (w.extractLsb' 25 1)) else .reject .fieldNotConstant
  | 8 => if w.extractLsb' 26 1 == 0#1 then .instr (.vsrlVX (w.extractLsb' 7 5) (w.extractLsb' 20 5) (w.extractLsb' 15 5) (w.extractLsb' 27 1) (w.extractLsb' 25 1)) else .reject .fieldNotConstant
  | 9 => if w.extractLsb' 26 1 == 0#1 then .instr (.vsraVX (w.extractLsb' 7 5) (w.extractLsb' 20 5) (w.extractLsb' 15 5) (w.extractLsb' 27 1) (w.extractLsb' 25 1)) else .reject .fieldNotConstant
  | 10 => if w.extractLsb' 26 1 == 0#1 then .instr (.vminVX (w.extractLsb' 7 5) (w.extractLsb' 20 5) (w.extractLsb' 15 5) (w.extractLsb' 27 1) (w.extractLsb' 25 1)) else .reject .fieldNotConstant
  | 11 => if w.extractLsb' 26 1 == 0#1 then .instr (.vmaxVX (w.extractLsb' 7 5) (w.extractLsb' 20 5) (w.extractLsb' 15 5) (w.extractLsb' 27 1) (w.extractLsb' 25 1)) else .reject .fieldNotConstant
  | 12 => if w.extractLsb' 26 1 == 0#1 then .instr (.vmseqVX (w.extractLsb' 7 5) (w.extractLsb' 20 5) (w.extractLsb' 15 5) (w.extractLsb' 27 1) (w.extractLsb' 25 1)) else .reject .fieldNotConstant
  | 13 => if w.extractLsb' 26 1 == 0#1 then .instr (.vmsltVX (w.extractLsb' 7 5) (w.extractLsb' 20 5) (w.extractLsb' 15 5) (w.extractLsb' 27 1) (w.extractLsb' 25 1)) else .reject .fieldNotConstant
  | 14 => if w.extractLsb' 26 1 == 0#1 then .instr (.vmsltuVX (w.extractLsb' 7 5) (w.extractLsb' 20 5) (w.extractLsb' 15 5) (w.extractLsb' 27 1) (w.extractLsb' 25 1)) else .reject .fieldNotConstant
  | 15 => if w.extractLsb' 26 1 == 0#1 then .instr (.vgatherVX (w.extractLsb' 7 5) (w.extractLsb' 20 5) (w.extractLsb' 15 5) (w.extractLsb' 27 1) (w.extractLsb' 25 1)) else .reject .fieldNotConstant
  | _ => .reject .unassigned

/-- custom-0, f3 = 010 (R98 to R101). -/
def decodeVA2 (w : BitVec 32) : Decoded :=
  match (w.extractLsb' 28 4).toNat with
  | 0 => if w.extractLsb' 26 1 == 0#1 then .instr (.vaddVI (w.extractLsb' 7 5) (w.extractLsb' 20 5) (w.extractLsb' 15 5) (w.extractLsb' 27 1) (w.extractLsb' 25 1)) else .reject .fieldNotConstant
  | 1 => if w.extractLsb' 26 1 == 0#1 then .instr (.vsubVI (w.extractLsb' 7 5) (w.extractLsb' 20 5) (w.extractLsb' 15 5) (w.extractLsb' 27 1) (w.extractLsb' 25 1)) else .reject .fieldNotConstant
  | 2 => if w.extractLsb' 26 1 == 0#1 then .instr (.vmulVI (w.extractLsb' 7 5) (w.extractLsb' 20 5) (w.extractLsb' 15 5) (w.extractLsb' 27 1) (w.extractLsb' 25 1)) else .reject .fieldNotConstant
  | 3 => if w.extractLsb' 26 1 == 0#1 then .instr (.vgathergVI (w.extractLsb' 7 5) (w.extractLsb' 20 5) (w.extractLsb' 15 5) (w.extractLsb' 27 1) (w.extractLsb' 25 1)) else .reject .fieldNotConstant
  | 4 => if w.extractLsb' 26 1 == 0#1 then .instr (.vandVI (w.extractLsb' 7 5) (w.extractLsb' 20 5) (w.extractLsb' 15 5) (w.extractLsb' 27 1) (w.extractLsb' 25 1)) else .reject .fieldNotConstant
  | 5 => if w.extractLsb' 26 1 == 0#1 then .instr (.vorVI (w.extractLsb' 7 5) (w.extractLsb' 20 5) (w.extractLsb' 15 5) (w.extractLsb' 27 1) (w.extractLsb' 25 1)) else .reject .fieldNotConstant
  | 6 => if w.extractLsb' 26 1 == 0#1 then .instr (.vxorVI (w.extractLsb' 7 5) (w.extractLsb' 20 5) (w.extractLsb' 15 5) (w.extractLsb' 27 1) (w.extractLsb' 25 1)) else .reject .fieldNotConstant
  | 7 => if w.extractLsb' 26 1 == 0#1 then .instr (.vsllVI (w.extractLsb' 7 5) (w.extractLsb' 20 5) (w.extractLsb' 15 5) (w.extractLsb' 27 1) (w.extractLsb' 25 1)) else .reject .fieldNotConstant
  | 8 => if w.extractLsb' 26 1 == 0#1 then .instr (.vsrlVI (w.extractLsb' 7 5) (w.extractLsb' 20 5) (w.extractLsb' 15 5) (w.extractLsb' 27 1) (w.extractLsb' 25 1)) else .reject .fieldNotConstant
  | 9 => if w.extractLsb' 26 1 == 0#1 then .instr (.vsraVI (w.extractLsb' 7 5) (w.extractLsb' 20 5) (w.extractLsb' 15 5) (w.extractLsb' 27 1) (w.extractLsb' 25 1)) else .reject .fieldNotConstant
  | 10 => if w.extractLsb' 26 1 == 0#1 then .instr (.vminVI (w.extractLsb' 7 5) (w.extractLsb' 20 5) (w.extractLsb' 15 5) (w.extractLsb' 27 1) (w.extractLsb' 25 1)) else .reject .fieldNotConstant
  | 11 => if w.extractLsb' 26 1 == 0#1 then .instr (.vmaxVI (w.extractLsb' 7 5) (w.extractLsb' 20 5) (w.extractLsb' 15 5) (w.extractLsb' 27 1) (w.extractLsb' 25 1)) else .reject .fieldNotConstant
  | 12 => if w.extractLsb' 26 1 == 0#1 then .instr (.vmseqVI (w.extractLsb' 7 5) (w.extractLsb' 20 5) (w.extractLsb' 15 5) (w.extractLsb' 27 1) (w.extractLsb' 25 1)) else .reject .fieldNotConstant
  | 13 => if w.extractLsb' 26 1 == 0#1 then .instr (.vmsltVI (w.extractLsb' 7 5) (w.extractLsb' 20 5) (w.extractLsb' 15 5) (w.extractLsb' 27 1) (w.extractLsb' 25 1)) else .reject .fieldNotConstant
  | 14 => if w.extractLsb' 26 1 == 0#1 then .instr (.vmsltuVI (w.extractLsb' 7 5) (w.extractLsb' 20 5) (w.extractLsb' 15 5) (w.extractLsb' 27 1) (w.extractLsb' 25 1)) else .reject .fieldNotConstant
  | 15 => if w.extractLsb' 26 1 == 0#1 then .instr (.vgatherVI (w.extractLsb' 7 5) (w.extractLsb' 20 5) (w.extractLsb' 15 5) (w.extractLsb' 27 1) (w.extractLsb' 25 1)) else .reject .fieldNotConstant
  | _ => .reject .unassigned

/-- custom-0, f3 = 011 (R98 to R101). -/
def decodeVA3 (w : BitVec 32) : Decoded :=
  match (w.extractLsb' 28 4).toNat with
  | 0 => .instr (.vaddVR (w.extractLsb' 7 5) (w.extractLsb' 20 5) (w.extractLsb' 15 5) (w.extractLsb' 26 2) (w.extractLsb' 25 1))
  | 1 => .instr (.vsubVR (w.extractLsb' 7 5) (w.extractLsb' 20 5) (w.extractLsb' 15 5) (w.extractLsb' 26 2) (w.extractLsb' 25 1))
  | 2 => .instr (.vmulVR (w.extractLsb' 7 5) (w.extractLsb' 20 5) (w.extractLsb' 15 5) (w.extractLsb' 26 2) (w.extractLsb' 25 1))
  | 3 => .instr (.vgathergVR (w.extractLsb' 7 5) (w.extractLsb' 20 5) (w.extractLsb' 15 5) (w.extractLsb' 26 2) (w.extractLsb' 25 1))
  | 4 => .instr (.vandVR (w.extractLsb' 7 5) (w.extractLsb' 20 5) (w.extractLsb' 15 5) (w.extractLsb' 26 2) (w.extractLsb' 25 1))
  | 5 => .instr (.vorVR (w.extractLsb' 7 5) (w.extractLsb' 20 5) (w.extractLsb' 15 5) (w.extractLsb' 26 2) (w.extractLsb' 25 1))
  | 6 => .instr (.vxorVR (w.extractLsb' 7 5) (w.extractLsb' 20 5) (w.extractLsb' 15 5) (w.extractLsb' 26 2) (w.extractLsb' 25 1))
  | 7 => .instr (.vsllVR (w.extractLsb' 7 5) (w.extractLsb' 20 5) (w.extractLsb' 15 5) (w.extractLsb' 26 2) (w.extractLsb' 25 1))
  | 8 => .instr (.vsrlVR (w.extractLsb' 7 5) (w.extractLsb' 20 5) (w.extractLsb' 15 5) (w.extractLsb' 26 2) (w.extractLsb' 25 1))
  | 9 => .instr (.vsraVR (w.extractLsb' 7 5) (w.extractLsb' 20 5) (w.extractLsb' 15 5) (w.extractLsb' 26 2) (w.extractLsb' 25 1))
  | 10 => .instr (.vminVR (w.extractLsb' 7 5) (w.extractLsb' 20 5) (w.extractLsb' 15 5) (w.extractLsb' 26 2) (w.extractLsb' 25 1))
  | 11 => .instr (.vmaxVR (w.extractLsb' 7 5) (w.extractLsb' 20 5) (w.extractLsb' 15 5) (w.extractLsb' 26 2) (w.extractLsb' 25 1))
  | 12 => .instr (.vmseqVR (w.extractLsb' 7 5) (w.extractLsb' 20 5) (w.extractLsb' 15 5) (w.extractLsb' 26 2) (w.extractLsb' 25 1))
  | 13 => .instr (.vmsltVR (w.extractLsb' 7 5) (w.extractLsb' 20 5) (w.extractLsb' 15 5) (w.extractLsb' 26 2) (w.extractLsb' 25 1))
  | 14 => .instr (.vmsltuVR (w.extractLsb' 7 5) (w.extractLsb' 20 5) (w.extractLsb' 15 5) (w.extractLsb' 26 2) (w.extractLsb' 25 1))
  | 15 => .instr (.vgatherVR (w.extractLsb' 7 5) (w.extractLsb' 20 5) (w.extractLsb' 15 5) (w.extractLsb' 26 2) (w.extractLsb' 25 1))
  | _ => .reject .unassigned

/-- custom-0, f3 = 100 (R98 to R101). -/
def decodeVA4 (w : BitVec 32) : Decoded :=
  match (w.extractLsb' 28 4).toNat with
  | 0 => .instr (.vfaddFVV (w.extractLsb' 7 5) (w.extractLsb' 20 5) (w.extractLsb' 15 5) (w.extractLsb' 27 1) (w.extractLsb' 26 1) (w.extractLsb' 25 1))
  | 1 => .instr (.vfsubFVV (w.extractLsb' 7 5) (w.extractLsb' 20 5) (w.extractLsb' 15 5) (w.extractLsb' 27 1) (w.extractLsb' 26 1) (w.extractLsb' 25 1))
  | 2 => .instr (.vfmulFVV (w.extractLsb' 7 5) (w.extractLsb' 20 5) (w.extractLsb' 15 5) (w.extractLsb' 27 1) (w.extractLsb' 26 1) (w.extractLsb' 25 1))
  | 3 => .instr (.vfdivFVV (w.extractLsb' 7 5) (w.extractLsb' 20 5) (w.extractLsb' 15 5) (w.extractLsb' 27 1) (w.extractLsb' 26 1) (w.extractLsb' 25 1))
  | 4 => .instr (.vfmaccFVV (w.extractLsb' 7 5) (w.extractLsb' 20 5) (w.extractLsb' 15 5) (w.extractLsb' 27 1) (w.extractLsb' 26 1) (w.extractLsb' 25 1))
  | 5 => .instr (.vfnmsacFVV (w.extractLsb' 7 5) (w.extractLsb' 20 5) (w.extractLsb' 15 5) (w.extractLsb' 27 1) (w.extractLsb' 26 1) (w.extractLsb' 25 1))
  | 6 => .instr (.vfminFVV (w.extractLsb' 7 5) (w.extractLsb' 20 5) (w.extractLsb' 15 5) (w.extractLsb' 27 1) (w.extractLsb' 26 1) (w.extractLsb' 25 1))
  | 7 => .instr (.vfmaxFVV (w.extractLsb' 7 5) (w.extractLsb' 20 5) (w.extractLsb' 15 5) (w.extractLsb' 27 1) (w.extractLsb' 26 1) (w.extractLsb' 25 1))
  | 8 => .instr (.vfmfeqFVV (w.extractLsb' 7 5) (w.extractLsb' 20 5) (w.extractLsb' 15 5) (w.extractLsb' 27 1) (w.extractLsb' 26 1) (w.extractLsb' 25 1))
  | 9 => .instr (.vfmfltFVV (w.extractLsb' 7 5) (w.extractLsb' 20 5) (w.extractLsb' 15 5) (w.extractLsb' 27 1) (w.extractLsb' 26 1) (w.extractLsb' 25 1))
  | 10 => .instr (.vfmfleFVV (w.extractLsb' 7 5) (w.extractLsb' 20 5) (w.extractLsb' 15 5) (w.extractLsb' 27 1) (w.extractLsb' 26 1) (w.extractLsb' 25 1))
  | 11 => .instr (.vcvtq4 (w.extractLsb' 7 5) (w.extractLsb' 20 5) (w.extractLsb' 15 5) (w.extractLsb' 27 1) (w.extractLsb' 26 1) (w.extractLsb' 25 1))
  | 12 => .instr (.vfsgnjFVV (w.extractLsb' 7 5) (w.extractLsb' 20 5) (w.extractLsb' 15 5) (w.extractLsb' 27 1) (w.extractLsb' 26 1) (w.extractLsb' 25 1))
  | 13 => .instr (.vfsgnjnFVV (w.extractLsb' 7 5) (w.extractLsb' 20 5) (w.extractLsb' 15 5) (w.extractLsb' 27 1) (w.extractLsb' 26 1) (w.extractLsb' 25 1))
  | 14 => .instr (.vfsgnjxFVV (w.extractLsb' 7 5) (w.extractLsb' 20 5) (w.extractLsb' 15 5) (w.extractLsb' 27 1) (w.extractLsb' 26 1) (w.extractLsb' 25 1))
  | 15 => .instr (.vfscaleFVV (w.extractLsb' 7 5) (w.extractLsb' 20 5) (w.extractLsb' 15 5) (w.extractLsb' 27 1) (w.extractLsb' 26 1) (w.extractLsb' 25 1))
  | _ => .reject .unassigned

/-- custom-0, f3 = 101 (R98 to R101). -/
def decodeVA5 (w : BitVec 32) : Decoded :=
  match (w.extractLsb' 28 4).toNat with
  | 0 => if w.extractLsb' 26 1 == 0#1 then .instr (.vfaddFVX (w.extractLsb' 7 5) (w.extractLsb' 20 5) (w.extractLsb' 15 5) (w.extractLsb' 27 1) (w.extractLsb' 25 1)) else .reject .fieldNotConstant
  | 1 => if w.extractLsb' 26 1 == 0#1 then .instr (.vfsubFVX (w.extractLsb' 7 5) (w.extractLsb' 20 5) (w.extractLsb' 15 5) (w.extractLsb' 27 1) (w.extractLsb' 25 1)) else .reject .fieldNotConstant
  | 2 => if w.extractLsb' 26 1 == 0#1 then .instr (.vfmulFVX (w.extractLsb' 7 5) (w.extractLsb' 20 5) (w.extractLsb' 15 5) (w.extractLsb' 27 1) (w.extractLsb' 25 1)) else .reject .fieldNotConstant
  | 3 => if w.extractLsb' 26 1 == 0#1 then .instr (.vfdivFVX (w.extractLsb' 7 5) (w.extractLsb' 20 5) (w.extractLsb' 15 5) (w.extractLsb' 27 1) (w.extractLsb' 25 1)) else .reject .fieldNotConstant
  | 4 => if w.extractLsb' 26 1 == 0#1 then .instr (.vfmaccFVX (w.extractLsb' 7 5) (w.extractLsb' 20 5) (w.extractLsb' 15 5) (w.extractLsb' 27 1) (w.extractLsb' 25 1)) else .reject .fieldNotConstant
  | 5 => if w.extractLsb' 26 1 == 0#1 then .instr (.vfnmsacFVX (w.extractLsb' 7 5) (w.extractLsb' 20 5) (w.extractLsb' 15 5) (w.extractLsb' 27 1) (w.extractLsb' 25 1)) else .reject .fieldNotConstant
  | 6 => if w.extractLsb' 26 1 == 0#1 then .instr (.vfminFVX (w.extractLsb' 7 5) (w.extractLsb' 20 5) (w.extractLsb' 15 5) (w.extractLsb' 27 1) (w.extractLsb' 25 1)) else .reject .fieldNotConstant
  | 7 => if w.extractLsb' 26 1 == 0#1 then .instr (.vfmaxFVX (w.extractLsb' 7 5) (w.extractLsb' 20 5) (w.extractLsb' 15 5) (w.extractLsb' 27 1) (w.extractLsb' 25 1)) else .reject .fieldNotConstant
  | 8 => if w.extractLsb' 26 1 == 0#1 then .instr (.vfmfeqFVX (w.extractLsb' 7 5) (w.extractLsb' 20 5) (w.extractLsb' 15 5) (w.extractLsb' 27 1) (w.extractLsb' 25 1)) else .reject .fieldNotConstant
  | 9 => if w.extractLsb' 26 1 == 0#1 then .instr (.vfmfltFVX (w.extractLsb' 7 5) (w.extractLsb' 20 5) (w.extractLsb' 15 5) (w.extractLsb' 27 1) (w.extractLsb' 25 1)) else .reject .fieldNotConstant
  | 10 => if w.extractLsb' 26 1 == 0#1 then .instr (.vfmfleFVX (w.extractLsb' 7 5) (w.extractLsb' 20 5) (w.extractLsb' 15 5) (w.extractLsb' 27 1) (w.extractLsb' 25 1)) else .reject .fieldNotConstant
  | 12 => if w.extractLsb' 26 1 == 0#1 then .instr (.vfsgnjFVX (w.extractLsb' 7 5) (w.extractLsb' 20 5) (w.extractLsb' 15 5) (w.extractLsb' 27 1) (w.extractLsb' 25 1)) else .reject .fieldNotConstant
  | 13 => if w.extractLsb' 26 1 == 0#1 then .instr (.vfsgnjnFVX (w.extractLsb' 7 5) (w.extractLsb' 20 5) (w.extractLsb' 15 5) (w.extractLsb' 27 1) (w.extractLsb' 25 1)) else .reject .fieldNotConstant
  | 14 => if w.extractLsb' 26 1 == 0#1 then .instr (.vfsgnjxFVX (w.extractLsb' 7 5) (w.extractLsb' 20 5) (w.extractLsb' 15 5) (w.extractLsb' 27 1) (w.extractLsb' 25 1)) else .reject .fieldNotConstant
  | 15 => if w.extractLsb' 26 1 == 0#1 then .instr (.vfscaleFVX (w.extractLsb' 7 5) (w.extractLsb' 20 5) (w.extractLsb' 15 5) (w.extractLsb' 27 1) (w.extractLsb' 25 1)) else .reject .fieldNotConstant
  | _ => .reject .unassigned

/-- custom-0, f3 = 110 (R98 to R101). -/
def decodeVA6 (w : BitVec 32) : Decoded :=
  match (w.extractLsb' 28 4).toNat with
  | 0 => .instr (.vfaddFVR (w.extractLsb' 7 5) (w.extractLsb' 20 5) (w.extractLsb' 15 5) (w.extractLsb' 26 2) (w.extractLsb' 25 1))
  | 1 => .instr (.vfsubFVR (w.extractLsb' 7 5) (w.extractLsb' 20 5) (w.extractLsb' 15 5) (w.extractLsb' 26 2) (w.extractLsb' 25 1))
  | 2 => .instr (.vfmulFVR (w.extractLsb' 7 5) (w.extractLsb' 20 5) (w.extractLsb' 15 5) (w.extractLsb' 26 2) (w.extractLsb' 25 1))
  | 3 => .instr (.vfdivFVR (w.extractLsb' 7 5) (w.extractLsb' 20 5) (w.extractLsb' 15 5) (w.extractLsb' 26 2) (w.extractLsb' 25 1))
  | 4 => .instr (.vfmaccFVR (w.extractLsb' 7 5) (w.extractLsb' 20 5) (w.extractLsb' 15 5) (w.extractLsb' 26 2) (w.extractLsb' 25 1))
  | 5 => .instr (.vfnmsacFVR (w.extractLsb' 7 5) (w.extractLsb' 20 5) (w.extractLsb' 15 5) (w.extractLsb' 26 2) (w.extractLsb' 25 1))
  | 6 => .instr (.vfminFVR (w.extractLsb' 7 5) (w.extractLsb' 20 5) (w.extractLsb' 15 5) (w.extractLsb' 26 2) (w.extractLsb' 25 1))
  | 7 => .instr (.vfmaxFVR (w.extractLsb' 7 5) (w.extractLsb' 20 5) (w.extractLsb' 15 5) (w.extractLsb' 26 2) (w.extractLsb' 25 1))
  | 8 => .instr (.vfmfeqFVR (w.extractLsb' 7 5) (w.extractLsb' 20 5) (w.extractLsb' 15 5) (w.extractLsb' 26 2) (w.extractLsb' 25 1))
  | 9 => .instr (.vfmfltFVR (w.extractLsb' 7 5) (w.extractLsb' 20 5) (w.extractLsb' 15 5) (w.extractLsb' 26 2) (w.extractLsb' 25 1))
  | 10 => .instr (.vfmfleFVR (w.extractLsb' 7 5) (w.extractLsb' 20 5) (w.extractLsb' 15 5) (w.extractLsb' 26 2) (w.extractLsb' 25 1))
  | 12 => .instr (.vfsgnjFVR (w.extractLsb' 7 5) (w.extractLsb' 20 5) (w.extractLsb' 15 5) (w.extractLsb' 26 2) (w.extractLsb' 25 1))
  | 13 => .instr (.vfsgnjnFVR (w.extractLsb' 7 5) (w.extractLsb' 20 5) (w.extractLsb' 15 5) (w.extractLsb' 26 2) (w.extractLsb' 25 1))
  | 14 => .instr (.vfsgnjxFVR (w.extractLsb' 7 5) (w.extractLsb' 20 5) (w.extractLsb' 15 5) (w.extractLsb' 26 2) (w.extractLsb' 25 1))
  | 15 => .instr (.vfscaleFVR (w.extractLsb' 7 5) (w.extractLsb' 20 5) (w.extractLsb' 15 5) (w.extractLsb' 26 2) (w.extractLsb' 25 1))
  | _ => .reject .unassigned

/-- custom-0, f3 = 111 (R98 to R101). -/
def decodeVA7 (w : BitVec 32) : Decoded :=
  match (w.extractLsb' 28 4).toNat with
  | 0 =>
    match (w.extractLsb' 15 5).toNat with
    | 0 => if w.extractLsb' 26 1 == 0#1 then .instr (.vmv (w.extractLsb' 7 5) (w.extractLsb' 20 5) (w.extractLsb' 27 1) (w.extractLsb' 25 1)) else .reject .fieldNotConstant
    | 1 => if w.extractLsb' 26 2 == 0#2 then .instr (.vsplat (w.extractLsb' 7 5) (w.extractLsb' 20 5) (w.extractLsb' 25 1)) else .reject .fieldNotConstant
    | 2 => if w.extractLsb' 25 3 == 1#3 then .instr (.vmvsx (w.extractLsb' 7 5) (w.extractLsb' 20 5)) else .reject .fieldNotConstant
    | 3 => if w.extractLsb' 25 2 == 1#2 then .instr (.vmvxs (w.extractLsb' 7 5) (w.extractLsb' 20 5) (w.extractLsb' 27 1)) else .reject .fieldNotConstant
    | 4 => if w.extractLsb' 26 2 == 0#2 && w.extractLsb' 20 5 == 0#5 then .instr (.vid (w.extractLsb' 7 5) (w.extractLsb' 25 1)) else .reject .fieldNotConstant
    | 5 => if w.extractLsb' 26 1 == 0#1 then .instr (.vredsum (w.extractLsb' 7 5) (w.extractLsb' 20 5) (w.extractLsb' 27 1) (w.extractLsb' 25 1)) else .reject .fieldNotConstant
    | 6 => if w.extractLsb' 26 1 == 0#1 then .instr (.vredmin (w.extractLsb' 7 5) (w.extractLsb' 20 5) (w.extractLsb' 27 1) (w.extractLsb' 25 1)) else .reject .fieldNotConstant
    | 7 => if w.extractLsb' 26 1 == 0#1 then .instr (.vredmax (w.extractLsb' 7 5) (w.extractLsb' 20 5) (w.extractLsb' 27 1) (w.extractLsb' 25 1)) else .reject .fieldNotConstant
    | 8 => if w.extractLsb' 26 1 == 0#1 then .instr (.vredand (w.extractLsb' 7 5) (w.extractLsb' 20 5) (w.extractLsb' 27 1) (w.extractLsb' 25 1)) else .reject .fieldNotConstant
    | 9 => if w.extractLsb' 26 1 == 0#1 then .instr (.vredor (w.extractLsb' 7 5) (w.extractLsb' 20 5) (w.extractLsb' 27 1) (w.extractLsb' 25 1)) else .reject .fieldNotConstant
    | 10 => if w.extractLsb' 26 1 == 0#1 then .instr (.vredxor (w.extractLsb' 7 5) (w.extractLsb' 20 5) (w.extractLsb' 27 1) (w.extractLsb' 25 1)) else .reject .fieldNotConstant
    | 11 => if w.extractLsb' 26 1 == 0#1 then .instr (.vmpopc (w.extractLsb' 7 5) (w.extractLsb' 20 5) (w.extractLsb' 27 1) (w.extractLsb' 25 1)) else .reject .fieldNotConstant
    | 12 => if w.extractLsb' 26 1 == 0#1 then .instr (.vmfirst (w.extractLsb' 7 5) (w.extractLsb' 20 5) (w.extractLsb' 27 1) (w.extractLsb' 25 1)) else .reject .fieldNotConstant
    | 13 => if w.extractLsb' 25 2 == 0#2 then .instr (.vcompress (w.extractLsb' 7 5) (w.extractLsb' 20 5) (w.extractLsb' 27 1)) else .reject .fieldNotConstant
    | 14 => if w.extractLsb' 26 2 == 0#2 && w.extractLsb' 20 5 == 0#5 then .instr (.vrng (w.extractLsb' 7 5) (w.extractLsb' 25 1)) else .reject .fieldNotConstant
    | _ => .reject .unassigned
  | 1 =>
    match (w.extractLsb' 15 5).toNat with
    | 0 => if w.extractLsb' 26 1 == 0#1 then .instr (.vfrecip (w.extractLsb' 7 5) (w.extractLsb' 20 5) (w.extractLsb' 27 1) (w.extractLsb' 25 1)) else .reject .fieldNotConstant
    | 1 => if w.extractLsb' 26 1 == 0#1 then .instr (.vfrsqrt (w.extractLsb' 7 5) (w.extractLsb' 20 5) (w.extractLsb' 27 1) (w.extractLsb' 25 1)) else .reject .fieldNotConstant
    | 2 => if w.extractLsb' 26 1 == 0#1 then .instr (.vfexp2 (w.extractLsb' 7 5) (w.extractLsb' 20 5) (w.extractLsb' 27 1) (w.extractLsb' 25 1)) else .reject .fieldNotConstant
    | 3 => if w.extractLsb' 26 1 == 0#1 then .instr (.vflog2 (w.extractLsb' 7 5) (w.extractLsb' 20 5) (w.extractLsb' 27 1) (w.extractLsb' 25 1)) else .reject .fieldNotConstant
    | 4 => if w.extractLsb' 26 1 == 0#1 then .instr (.vfsqrt (w.extractLsb' 7 5) (w.extractLsb' 20 5) (w.extractLsb' 27 1) (w.extractLsb' 25 1)) else .reject .fieldNotConstant
    | 5 => if w.extractLsb' 26 1 == 0#1 then .instr (.vfclass (w.extractLsb' 7 5) (w.extractLsb' 20 5) (w.extractLsb' 27 1) (w.extractLsb' 25 1)) else .reject .fieldNotConstant
    | 6 => if w.extractLsb' 26 1 == 0#1 then .instr (.vfredsum (w.extractLsb' 7 5) (w.extractLsb' 20 5) (w.extractLsb' 27 1) (w.extractLsb' 25 1)) else .reject .fieldNotConstant
    | 7 => if w.extractLsb' 26 1 == 0#1 then .instr (.vfredosum (w.extractLsb' 7 5) (w.extractLsb' 20 5) (w.extractLsb' 27 1) (w.extractLsb' 25 1)) else .reject .fieldNotConstant
    | 8 => if w.extractLsb' 26 1 == 0#1 then .instr (.vfredmin (w.extractLsb' 7 5) (w.extractLsb' 20 5) (w.extractLsb' 27 1) (w.extractLsb' 25 1)) else .reject .fieldNotConstant
    | 9 => if w.extractLsb' 26 1 == 0#1 then .instr (.vfredmax (w.extractLsb' 7 5) (w.extractLsb' 20 5) (w.extractLsb' 27 1) (w.extractLsb' 25 1)) else .reject .fieldNotConstant
    | _ => .reject .unassigned
  | 2 =>
    match (w.extractLsb' 15 5).toNat with
    | 0 => if w.extractLsb' 26 1 == 0#1 then .instr (.vncvt (w.extractLsb' 7 5) (w.extractLsb' 20 5) (w.extractLsb' 27 1) (w.extractLsb' 25 1)) else .reject .fieldNotConstant
    | 1 => if w.extractLsb' 26 1 == 0#1 then .instr (.vwcvt (w.extractLsb' 7 5) (w.extractLsb' 20 5) (w.extractLsb' 27 1) (w.extractLsb' 25 1)) else .reject .fieldNotConstant
    | 2 => if w.extractLsb' 26 1 == 0#1 then .instr (.vncvti (w.extractLsb' 7 5) (w.extractLsb' 20 5) (w.extractLsb' 27 1) (w.extractLsb' 25 1)) else .reject .fieldNotConstant
    | 3 => if w.extractLsb' 26 1 == 0#1 then .instr (.vwcvti (w.extractLsb' 7 5) (w.extractLsb' 20 5) (w.extractLsb' 27 1) (w.extractLsb' 25 1)) else .reject .fieldNotConstant
    | 4 => if w.extractLsb' 26 1 == 0#1 then .instr (.vwcvtn (w.extractLsb' 7 5) (w.extractLsb' 20 5) (w.extractLsb' 27 1) (w.extractLsb' 25 1)) else .reject .fieldNotConstant
    | 5 => if w.extractLsb' 26 1 == 0#1 then .instr (.vcvtif (w.extractLsb' 7 5) (w.extractLsb' 20 5) (w.extractLsb' 27 1) (w.extractLsb' 25 1)) else .reject .fieldNotConstant
    | 6 => if w.extractLsb' 26 1 == 0#1 then .instr (.vcvtfi (w.extractLsb' 7 5) (w.extractLsb' 20 5) (w.extractLsb' 27 1) (w.extractLsb' 25 1)) else .reject .fieldNotConstant
    | 7 => if w.extractLsb' 26 1 == 0#1 then .instr (.vbscale (w.extractLsb' 7 5) (w.extractLsb' 20 5) (w.extractLsb' 27 1) (w.extractLsb' 25 1)) else .reject .fieldNotConstant
    | _ => .reject .unassigned
  | _ => .reject .unassigned

/-- custom-1 (R102, R103). -/
def decodeVM (w : BitVec 32) : Decoded :=
  match (w.extractLsb' 29 3).toNat with
  | 0 => if w.extractLsb' 26 1 == 0#1 && w.extractLsb' 20 5 == 0#5 then .instr (.vle (w.extractLsb' 7 5) (w.extractLsb' 15 5) (w.extractLsb' 27 2) (w.extractLsb' 12 3) (w.extractLsb' 25 1)) else .reject .fieldNotConstant
  | 1 => if w.extractLsb' 26 1 == 0#1 then .instr (.vlse (w.extractLsb' 7 5) (w.extractLsb' 15 5) (w.extractLsb' 20 5) (w.extractLsb' 27 2) (w.extractLsb' 12 3) (w.extractLsb' 25 1)) else .reject .fieldNotConstant
  | 2 => .instr (.vlxe (w.extractLsb' 7 5) (w.extractLsb' 20 5) (w.extractLsb' 15 5) (w.extractLsb' 27 2) (w.extractLsb' 12 3) (w.extractLsb' 26 1) (w.extractLsb' 25 1))
  | 3 =>
    match (w.extractLsb' 26 3).toNat with
    | 0 => .instr (.vamoadd (w.extractLsb' 7 5) (w.extractLsb' 20 5) (w.extractLsb' 15 5) (w.extractLsb' 12 3) (w.extractLsb' 25 1))
    | 1 => .instr (.vamomin (w.extractLsb' 7 5) (w.extractLsb' 20 5) (w.extractLsb' 15 5) (w.extractLsb' 12 3) (w.extractLsb' 25 1))
    | 2 => .instr (.vamomax (w.extractLsb' 7 5) (w.extractLsb' 20 5) (w.extractLsb' 15 5) (w.extractLsb' 12 3) (w.extractLsb' 25 1))
    | 3 => .instr (.vamoswap (w.extractLsb' 7 5) (w.extractLsb' 20 5) (w.extractLsb' 15 5) (w.extractLsb' 12 3) (w.extractLsb' 25 1))
    | 4 => .instr (.vamoxor (w.extractLsb' 7 5) (w.extractLsb' 20 5) (w.extractLsb' 15 5) (w.extractLsb' 12 3) (w.extractLsb' 25 1))
    | _ => .reject .unassigned
  | 4 => if w.extractLsb' 20 5 == 0#5 then .instr (.vse (w.extractLsb' 7 5) (w.extractLsb' 15 5) (w.extractLsb' 27 2) (w.extractLsb' 12 3) (w.extractLsb' 26 1) (w.extractLsb' 25 1)) else .reject .fieldNotConstant
  | 5 => .instr (.vsse (w.extractLsb' 7 5) (w.extractLsb' 15 5) (w.extractLsb' 20 5) (w.extractLsb' 27 2) (w.extractLsb' 12 3) (w.extractLsb' 26 1) (w.extractLsb' 25 1))
  | 6 => .instr (.vsxe (w.extractLsb' 7 5) (w.extractLsb' 20 5) (w.extractLsb' 15 5) (w.extractLsb' 27 2) (w.extractLsb' 12 3) (w.extractLsb' 26 1) (w.extractLsb' 25 1))
  | 7 => if w.extractLsb' 20 5 == 0#5 then .instr (.vappend (w.extractLsb' 7 5) (w.extractLsb' 15 5) (w.extractLsb' 27 2) (w.extractLsb' 12 3) (w.extractLsb' 26 1) (w.extractLsb' 25 1)) else .reject .fieldNotConstant
  | _ => .reject .unassigned

/-- custom-2, class 000 (R104 to R109). -/
def decodeXA0 (w : BitVec 32) : Decoded :=
  match (w.extractLsb' 28 4).toNat with
  | 0 => if w.extractLsb' 10 2 == 0#2 then .instr (.mopa (w.extractLsb' 7 3) (w.extractLsb' 20 5) (w.extractLsb' 15 5) (w.extractLsb' 27 1) (w.extractLsb' 26 1) (w.extractLsb' 25 1)) else .reject .fieldNotConstant
  | 1 => if w.extractLsb' 10 2 == 0#2 then .instr (.mopd (w.extractLsb' 7 3) (w.extractLsb' 20 5) (w.extractLsb' 15 5) (w.extractLsb' 27 1) (w.extractLsb' 26 1) (w.extractLsb' 25 1)) else .reject .fieldNotConstant
  | 2 => if w.extractLsb' 15 13 == 0#13 && w.extractLsb' 10 2 == 0#2 then .instr (.mzero (w.extractLsb' 7 3)) else .reject .fieldNotConstant
  | 3 => .instr (.mcupd (w.extractLsb' 7 5) (w.extractLsb' 20 5) (w.extractLsb' 15 5) (w.extractLsb' 27 1) (w.extractLsb' 26 1) (w.extractLsb' 25 1))
  | _ => .reject .unassigned

/-- custom-2, class 001 (R104 to R109). -/
def decodeXA1 (w : BitVec 32) : Decoded :=
  match (w.extractLsb' 28 4).toNat with
  | 0 => if w.extractLsb' 26 2 == 0#2 && w.extractLsb' 23 2 == 0#2 then .instr (.mdrain (w.extractLsb' 7 5) (w.extractLsb' 20 3) (w.extractLsb' 15 5) (w.extractLsb' 25 1)) else .reject .fieldNotConstant
  | 1 => if w.extractLsb' 26 2 == 0#2 && w.extractLsb' 23 2 == 0#2 then .instr (.mdrainq (w.extractLsb' 7 5) (w.extractLsb' 20 3) (w.extractLsb' 15 5) (w.extractLsb' 25 1)) else .reject .fieldNotConstant
  | 2 => if w.extractLsb' 26 2 == 0#2 && w.extractLsb' 23 2 == 0#2 && w.extractLsb' 15 5 == 0#5 then .instr (.mbest (w.extractLsb' 7 5) (w.extractLsb' 20 3) (w.extractLsb' 25 1)) else .reject .fieldNotConstant
  | _ => .reject .unassigned

/-- custom-2, class 010 (R104 to R109). -/
def decodeXA2 (w : BitVec 32) : Decoded :=
  match (w.extractLsb' 28 4).toNat with
  | 0 => if w.extractLsb' 25 3 == 1#3 && w.extractLsb' 10 2 == 0#2 then .instr (.mld (w.extractLsb' 7 3) (w.extractLsb' 15 5) (w.extractLsb' 20 5)) else .reject .fieldNotConstant
  | 1 => if w.extractLsb' 25 3 == 1#3 && w.extractLsb' 10 2 == 0#2 then .instr (.mst (w.extractLsb' 7 3) (w.extractLsb' 15 5) (w.extractLsb' 20 5)) else .reject .fieldNotConstant
  | 2 => if w.extractLsb' 25 3 == 1#3 && w.extractLsb' 10 2 == 0#2 then .instr (.mfetch (w.extractLsb' 7 3) (w.extractLsb' 20 5) (w.extractLsb' 15 5)) else .reject .fieldNotConstant
  | _ => .reject .unassigned

/-- custom-2, class 011 (R104 to R109). -/
def decodeXA3 (w : BitVec 32) : Decoded :=
  match (w.extractLsb' 30 2).toNat with
  | 0 => .instr (.vpmul (w.extractLsb' 7 5) (w.extractLsb' 28 2) (w.extractLsb' 20 5) (w.extractLsb' 15 5) (w.extractLsb' 27 1) (w.extractLsb' 26 1) (w.extractLsb' 25 1))
  | 1 => .instr (.vpmacc (w.extractLsb' 7 5) (w.extractLsb' 28 2) (w.extractLsb' 20 5) (w.extractLsb' 15 5) (w.extractLsb' 27 1) (w.extractLsb' 26 1) (w.extractLsb' 25 1))
  | 2 => .instr (.vpconv (w.extractLsb' 7 5) (w.extractLsb' 28 2) (w.extractLsb' 20 5) (w.extractLsb' 15 5) (w.extractLsb' 26 1) (w.extractLsb' 27 1) (w.extractLsb' 25 1))
  | 3 => .instr (.vpguard (w.extractLsb' 7 5) (w.extractLsb' 28 2) (w.extractLsb' 20 5) (w.extractLsb' 15 5) (w.extractLsb' 27 1) (w.extractLsb' 26 1) (w.extractLsb' 25 1))
  | _ => .reject .unassigned

/-- custom-2, class 100 (R104 to R109). -/
def decodeXA4 (w : BitVec 32) : Decoded :=
  match (w.extractLsb' 28 4).toNat with
  | 0 => if w.extractLsb' 26 1 == 0#1 && w.extractLsb' 17 3 == 0#3 then .instr (.vpack (w.extractLsb' 7 5) (w.extractLsb' 15 2) (w.extractLsb' 20 5) (w.extractLsb' 27 1) (w.extractLsb' 25 1)) else .reject .fieldNotConstant
  | 1 => if w.extractLsb' 26 1 == 0#1 && w.extractLsb' 17 3 == 0#3 then .instr (.vunpack (w.extractLsb' 7 5) (w.extractLsb' 15 2) (w.extractLsb' 20 5) (w.extractLsb' 27 1) (w.extractLsb' 25 1)) else .reject .fieldNotConstant
  | 2 => if w.extractLsb' 26 1 == 0#1 then .instr (.vpext (w.extractLsb' 7 5) (w.extractLsb' 15 2) (w.extractLsb' 20 5) (w.extractLsb' 17 3) (w.extractLsb' 27 1) (w.extractLsb' 25 1)) else .reject .fieldNotConstant
  | 8 => if w.extractLsb' 25 3 == 0#3 && w.extractLsb' 15 5 == 0#5 && w.extractLsb' 9 3 == 0#3 then .instr (.flset (w.extractLsb' 7 2) (w.extractLsb' 20 5)) else .reject .fieldNotConstant
  | 9 => if w.extractLsb' 17 11 == 0#11 then .instr (.flget (w.extractLsb' 7 5) (w.extractLsb' 15 2)) else .reject .fieldNotConstant
  | 10 => if w.extractLsb' 25 3 == 0#3 && w.extractLsb' 15 5 == 0#5 && w.extractLsb' 7 5 == 0#5 then .instr (.msetshape (w.extractLsb' 20 5)) else .reject .fieldNotConstant
  | 11 => if w.extractLsb' 25 3 == 0#3 && w.extractLsb' 15 5 == 0#5 && w.extractLsb' 7 5 == 0#5 then .instr (.msetcfg (w.extractLsb' 20 5)) else .reject .fieldNotConstant
  | 12 => if w.extractLsb' 15 13 == 0#13 then .instr (.mgetstat (w.extractLsb' 7 5)) else .reject .fieldNotConstant
  | 13 => if w.extractLsb' 15 13 == 0#13 && w.extractLsb' 7 5 == 0#5 then .instr .mclrstat else .reject .fieldNotConstant
  | _ => .reject .unassigned

/-- custom-2, class 101 (R104 to R109). -/
def decodeXA5 (w : BitVec 32) : Decoded :=
  match (w.extractLsb' 28 4).toNat with
  | 0 => if w.extractLsb' 20 8 == 0#8 && w.extractLsb' 7 5 == 0#5 then .instr (.vblk (w.extractLsb' 15 5)) else .reject .fieldNotConstant
  | 1 => if w.extractLsb' 15 13 == 0#13 then .instr (.vreply (w.extractLsb' 7 5)) else .reject .fieldNotConstant
  | 2 => if w.extractLsb' 15 13 == 0#13 && w.extractLsb' 7 5 == 0#5 then .instr .vdrainq else .reject .fieldNotConstant
  | 3 => if w.extractLsb' 15 13 == 0#13 && w.extractLsb' 9 3 == 0#3 then .instr (.vstrip (w.extractLsb' 7 2)) else .reject .fieldNotConstant
  | 4 => if w.extractLsb' 20 8 == 0#8 && w.extractLsb' 9 3 == 0#3 then .instr (.vloop (w.extractLsb' 7 2) (w.extractLsb' 15 5)) else .reject .fieldNotConstant
  | 5 => if w.extractLsb' 25 3 == 0#3 && w.extractLsb' 9 3 == 0#3 then .instr (.vlbnz (w.extractLsb' 7 2) (w.extractLsb' 15 10)) else .reject .fieldNotConstant
  | 6 => if w.extractLsb' 25 3 == 0#3 then .instr (.baddi (w.extractLsb' 7 5) (w.extractLsb' 15 10)) else .reject .fieldNotConstant
  | 7 => if w.extractLsb' 18 10 == 0#10 then .instr (.baddvl (w.extractLsb' 7 5) (w.extractLsb' 15 3)) else .reject .fieldNotConstant
  | 8 => if w.extractLsb' 26 1 == 0#1 && w.extractLsb' 15 5 == 0#5 && w.extractLsb' 7 5 == 0#5 then .instr (.vcond (w.extractLsb' 20 5) (w.extractLsb' 27 1) (w.extractLsb' 25 1)) else .reject .fieldNotConstant
  | 9 => if w.extractLsb' 20 8 == 0#8 && w.extractLsb' 7 5 == 0#5 then .instr (.vpost (w.extractLsb' 15 5)) else .reject .fieldNotConstant
  | _ => .reject .unassigned

/-- custom-2, class 110 (R104 to R109). -/
def decodeXA6 (w : BitVec 32) : Decoded :=
  match (w.extractLsb' 28 4).toNat with
  | 0 => if w.extractLsb' 26 2 == 0#2 && w.extractLsb' 7 5 == 0#5 then .instr (.vsplit (w.extractLsb' 15 10) (w.extractLsb' 25 1)) else .reject .fieldNotConstant
  | 1 => .instr (.lbeq (w.extractLsb' 20 5) (w.extractLsb' 15 5) (w.extractLsb' 25 3 ++ w.extractLsb' 7 5))
  | 2 => .instr (.lbne (w.extractLsb' 20 5) (w.extractLsb' 15 5) (w.extractLsb' 25 3 ++ w.extractLsb' 7 5))
  | 3 => .instr (.lblt (w.extractLsb' 20 5) (w.extractLsb' 15 5) (w.extractLsb' 25 3 ++ w.extractLsb' 7 5))
  | 4 => .instr (.lbge (w.extractLsb' 20 5) (w.extractLsb' 15 5) (w.extractLsb' 25 3 ++ w.extractLsb' 7 5))
  | 5 => if w.extractLsb' 25 3 == 0#3 && w.extractLsb' 7 5 == 0#5 then .instr (.ljmp (w.extractLsb' 15 10)) else .reject .fieldNotConstant
  | 6 => if w.extractLsb' 15 13 == 0#13 && w.extractLsb' 7 5 == 0#5 then .instr .ljoin else .reject .fieldNotConstant
  | _ => .reject .unassigned

/-- custom-3, f3 = 000 (R110, R112). -/
def decodeSY0 (w : BitVec 32) : Decoded :=
  if w.extractLsb' 17 3 == 0#3 then .instr (.vsetcfgi (w.extractLsb' 7 5) (w.extractLsb' 15 2 ++ w.extractLsb' 20 12)) else .reject .fieldNotConstant

/-- custom-3, f3 = 001 (R110, R112). -/
def decodeSY1 (w : BitVec 32) : Decoded :=
  match (w.extractLsb' 25 7).toNat with
  | 0 => if w.extractLsb' 20 5 == 0#5 then .instr (.vsetcfg (w.extractLsb' 7 5) (w.extractLsb' 15 5)) else .reject .fieldNotConstant
  | 1 => if w.extractLsb' 15 5 == 0#5 && w.extractLsb' 7 5 == 0#5 then .instr (.vdecl (w.extractLsb' 20 5)) else .reject .fieldNotConstant
  | _ => .reject .unassigned

/-- custom-3, f3 = 010 (R110, R112). -/
def decodeSY2 (w : BitVec 32) : Decoded :=
  match (w.extractLsb' 25 7).toNat with
  | 0 => .instr (.sybind (w.extractLsb' 15 5) (w.extractLsb' 20 5) (w.extractLsb' 7 5))
  | 1 => if w.extractLsb' 23 2 == 0#2 && w.extractLsb' 7 5 == 0#5 then .instr (.acq (w.extractLsb' 15 5) (w.extractLsb' 20 3)) else .reject .fieldNotConstant
  | 2 => if w.extractLsb' 23 2 == 0#2 && w.extractLsb' 7 5 == 0#5 then .instr (.rel (w.extractLsb' 15 5) (w.extractLsb' 20 3)) else .reject .fieldNotConstant
  | 3 => if w.extractLsb' 23 2 == 0#2 && w.extractLsb' 15 5 == 0#5 && w.extractLsb' 7 5 == 0#5 then .instr (.fencev (w.extractLsb' 20 3)) else .reject .fieldNotConstant
  | 4 => if w.extractLsb' 23 2 == 0#2 && w.extractLsb' 7 5 == 0#5 then .instr (.bara (w.extractLsb' 15 5) (w.extractLsb' 20 3)) else .reject .fieldNotConstant
  | 5 => if w.extractLsb' 23 2 == 0#2 && w.extractLsb' 7 5 == 0#5 then .instr (.barw (w.extractLsb' 15 5) (w.extractLsb' 20 3)) else .reject .fieldNotConstant
  | 6 => if w.extractLsb' 20 5 == 0#5 && w.extractLsb' 7 5 == 0#5 then .instr (.publish (w.extractLsb' 15 5)) else .reject .fieldNotConstant
  | _ => .reject .unassigned

/-- custom-3, f3 = 011 (R110, R112). -/
def decodeSY3 (w : BitVec 32) : Decoded :=
  match (w.extractLsb' 25 2).toNat with
  | 0 => if w.extractLsb' 27 1 == 0#1 then .instr (.cpy (w.extractLsb' 7 5) (w.extractLsb' 28 4) (w.extractLsb' 15 5) (w.extractLsb' 20 5)) else .reject .fieldNotConstant
  | 1 => .instr (.cpyc (w.extractLsb' 7 5) (w.extractLsb' 28 4) (w.extractLsb' 15 5) (w.extractLsb' 20 5) (w.extractLsb' 27 1))
  | 2 => .instr (.cpyx (w.extractLsb' 7 5) (w.extractLsb' 28 4) (w.extractLsb' 15 5) (w.extractLsb' 20 5) (w.extractLsb' 27 1))
  | _ => .reject .unassigned

/-- custom-3, f3 = 100, funct7 0x00 to 0x07 (R110). -/
def decodeStash (w : BitVec 32) : Decoded :=
  match (w.extractLsb' 25 7).toNat with
  | 0 => .instr (.stmap (w.extractLsb' 15 5) (w.extractLsb' 20 5) (w.extractLsb' 7 5))
  | 1 => if w.extractLsb' 20 5 == 0#5 && w.extractLsb' 7 5 == 0#5 then .instr (.stunmap (w.extractLsb' 15 5)) else .reject .fieldNotConstant
  | 2 => if w.extractLsb' 7 5 == 0#5 then .instr (.stwb (w.extractLsb' 15 5) (w.extractLsb' 20 5)) else .reject .fieldNotConstant
  | 3 => if w.extractLsb' 7 5 == 0#5 then .instr (.stdrop (w.extractLsb' 15 5) (w.extractLsb' 20 5)) else .reject .fieldNotConstant
  | _ => .reject .unassigned

/-- custom-3, f3 = 100, funct7 0x08 to 0x17 (R110, R238). -/
def decodePin (w : BitVec 32) : Decoded :=
  match (w.extractLsb' 28 4).toNat with
  | 1 => .instr (.l2pin (w.extractLsb' 25 3) (w.extractLsb' 15 5) (w.extractLsb' 20 5) (w.extractLsb' 7 5))
  | 2 => if w.extractLsb' 15 10 == 0#10 && w.extractLsb' 7 5 == 0#5 then .instr (.l2unpin (w.extractLsb' 25 3)) else .reject .fieldNotConstant
  | _ => .reject .unassigned

/-- custom-3, f3 = 100 (R110). -/
def decodeSY4 (w : BitVec 32) : Decoded :=
  if w.extractLsb' 28 4 == 0#4 then decodeStash w else decodePin w

/-- custom-3, f3 = 101 (R110, R112). -/
def decodeSY5 (w : BitVec 32) : Decoded :=
  match (w.extractLsb' 25 7).toNat with
  | 0 => if w.extractLsb' 20 5 == 0#5 then .instr (.sbind (w.extractLsb' 7 5) (w.extractLsb' 15 5)) else .reject .fieldNotConstant
  | 1 => if w.extractLsb' 15 10 == 0#10 then .instr (.sunbind (w.extractLsb' 7 5)) else .reject .fieldNotConstant
  | 8 => if w.extractLsb' 7 5 == 0#5 then .instr (.vfxadd (w.extractLsb' 20 5) (w.extractLsb' 15 5)) else .reject .fieldNotConstant
  | 9 => if w.extractLsb' 22 3 == 0#3 then .instr (.fxrd (w.extractLsb' 7 5) (w.extractLsb' 15 5) (w.extractLsb' 20 2)) else .reject .fieldNotConstant
  | 10 => if w.extractLsb' 7 5 == 0#5 then .instr (.fxclr (w.extractLsb' 15 5) (w.extractLsb' 20 5)) else .reject .fieldNotConstant
  | _ => .reject .unassigned

/-- custom-3, f3 = 110 (R110, R112). -/
def decodeSY6 (w : BitVec 32) : Decoded :=
  match (w.extractLsb' 25 7).toNat with
  | 0 => if w.extractLsb' 15 10 == 0#10 && w.extractLsb' 7 5 == 0#5 then .instr .tdone else .reject .fieldNotConstant
  | 1 => if w.extractLsb' 20 5 == 0#5 && w.extractLsb' 7 5 == 0#5 then .instr (.tspawn (w.extractLsb' 15 5)) else .reject .fieldNotConstant
  | 2 => if w.extractLsb' 15 10 == 0#10 && w.extractLsb' 7 5 == 0#5 then .instr .tyield else .reject .fieldNotConstant
  | 3 => if w.extractLsb' 20 5 == 0#5 then .instr (.tinfo (w.extractLsb' 7 5) (w.extractLsb' 15 5)) else .reject .fieldNotConstant
  | 4 => if w.extractLsb' 20 5 == 0#5 && w.extractLsb' 7 5 == 0#5 then .instr (.trapc (w.extractLsb' 15 5)) else .reject .fieldNotConstant
  | _ => .reject .unassigned

/-- custom-0 by f3 (R98). -/
def decodeVA (w : BitVec 32) : Decoded :=
  match (w.extractLsb' 12 3).toNat with
  | 0 => decodeVA0 w
  | 1 => decodeVA1 w
  | 2 => decodeVA2 w
  | 3 => decodeVA3 w
  | 4 => decodeVA4 w
  | 5 => decodeVA5 w
  | 6 => decodeVA6 w
  | 7 => decodeVA7 w
  | _ => .reject .unassigned

/-- custom-2 by class (R104). -/
def decodeXA (w : BitVec 32) : Decoded :=
  match (w.extractLsb' 12 3).toNat with
  | 0 => decodeXA0 w
  | 1 => decodeXA1 w
  | 2 => decodeXA2 w
  | 3 => decodeXA3 w
  | 4 => decodeXA4 w
  | 5 => decodeXA5 w
  | 6 => decodeXA6 w
  | _ => .reject .unassigned

/-- custom-3 by f3 (R110). -/
def decodeSY (w : BitVec 32) : Decoded :=
  match (w.extractLsb' 12 3).toNat with
  | 0 => decodeSY0 w
  | 1 => decodeSY1 w
  | 2 => decodeSY2 w
  | 3 => decodeSY3 w
  | 4 => decodeSY4 w
  | 5 => decodeSY5 w
  | 6 => decodeSY6 w
  | _ => .reject .unassigned

/-- The major opcode of R93. -/
def decodeMajor (w : BitVec 32) : Decoded :=
  match (w.extractLsb' 0 7).toNat with
  | 0x03 => decodeLoad w
  | 0x0F => decodeFence w
  | 0x13 => decodeOpImm w
  | 0x17 => decodeAuipc w
  | 0x1B => decodeOpImm32 w
  | 0x23 => decodeStore w
  | 0x2F => decodeAmo w
  | 0x33 => decodeOp w
  | 0x37 => decodeLui w
  | 0x3B => decodeOp32 w
  | 0x63 => decodeBranch w
  | 0x67 => decodeJalr w
  | 0x6F => decodeJal w
  | 0x73 => decodeSystem w
  | 0x0B => decodeVA w
  | 0x2B => decodeVM w
  | 0x5B => decodeXA w
  | 0x7B => decodeSY w
  | _ => .reject .unlistedOpcode

/-- The instruction a word is, or why it is none (R92 to R94). -/
def decode (w : BitVec 32) : Decoded :=
  if w == 0#32 then .reject .allZero
  else if w.extractLsb' 0 2 != 3#2 then .reject .notThirtyTwoBit
  else if w.extractLsb' 2 3 == 7#3 then .reject .longerLength
  else decodeMajor w

/-- Four bytes at rising addresses as a little-endian word (R5, R92). -/
def wordOfBytes (b0 b1 b2 b3 : BitVec 8) : BitVec 32 := b3 ++ b2 ++ b1 ++ b0

/-- Decodes the first four bytes and hands back the rest; none where fewer are left. -/
def decodeBytes : List (BitVec 8) → Option (Decoded × List (BitVec 8))
  | b0 :: b1 :: b2 :: b3 :: rest => some (decode (wordOfBytes b0 b1 b2 b3), rest)
  | _ => none

/-- The packet a queue's 64 bytes are, by their kind byte (R41, R42). -/
def decodePacket (q : Nat) (p : BitVec 512) : Instr :=
  match (p.extractLsb' 0 8).toNat with
  | 1 => .launchGraph q p
  | 2 => .launchNode q p
  | 3 => .waitValue q p
  | 4 => .writeValue q p
  | 5 => .indirect q p
  | 6 => .setSeed q p
  | 7 => .regionCreate q p
  | 8 => .regionDestroy q p
  | 9 => .fencePacket q p
  | _ => .unknownKindPacket q p

/-- The command a ring entry's 128 bytes are, by op and code (R339, R368, R381, R382). -/
def decodeCommand (e : BitVec 1024) : Instr :=
  let code := (e.extractLsb' 8 8).toNat
  match (e.extractLsb' 0 8).toNat with
  | 1 => .answer e
  | 2 =>
    match code with
    | 1 => .resume e
    | 2 => .endTask e
    | 3 => .releaseDomain e
    | 4 => .abortDomain e
    | _ => .unlistedCommand e
  | 3 =>
    match code with
    | 1 => .removeSection e
    | 2 => .moveSections e
    | 3 => .linkDown e
    | 4 => .linkUp e
    | 5 => .firmwareUpdate e
    | _ => .unlistedCommand e
  | 4 => .exportImage e
  | 5 => .importImage e
  | 6 => .bindContext e
  | 7 => .unbindContext e
  | 8 => .setKey e
  | 9 => .invalidateTranslations e
  | 10 => if code = 2 then .queueDisable e else .queueEnable e
  | 11 => .partitionLimits e
  | 12 => .setEngineImage e
  | _ => .unlistedCommand e

/-- The instruction the decoder reads from a word numbered as the opcode table numbers it (host). Every word of the
table is one 32-bit word; bits above nbits are zero. -/
def decodeTableWord (nbits w : Nat) : Option Instr :=
  if nbits = 0 || 32 < nbits then none
  else
    match decode (BitVec.ofNat 32 (w % 2 ^ nbits)) with
    | .instr i => some i
    | .reject _ => none

/-- The word of an instruction, written from the encoding tables of R98 to R113; none for the steps that are no word. -/
def encode : Instr → Option (BitVec 32)
  | .lui rd imm => some (imm ++ rd ++ 55#7)
  | .auipc rd imm => some (imm ++ rd ++ 23#7)
  | .jal rd imm => some (imm.extractLsb' 19 1 ++ imm.extractLsb' 0 10 ++ imm.extractLsb' 10 1 ++ imm.extractLsb' 11 8 ++ rd ++ 111#7)
  | .jalr rd rs1 imm => some (imm ++ rs1 ++ 0#3 ++ rd ++ 103#7)
  | .beq rs1 rs2 imm => some (imm.extractLsb' 11 1 ++ imm.extractLsb' 4 6 ++ rs2 ++ rs1 ++ 0#3 ++ imm.extractLsb' 0 4 ++ imm.extractLsb' 10 1 ++ 99#7)
  | .bne rs1 rs2 imm => some (imm.extractLsb' 11 1 ++ imm.extractLsb' 4 6 ++ rs2 ++ rs1 ++ 1#3 ++ imm.extractLsb' 0 4 ++ imm.extractLsb' 10 1 ++ 99#7)
  | .blt rs1 rs2 imm => some (imm.extractLsb' 11 1 ++ imm.extractLsb' 4 6 ++ rs2 ++ rs1 ++ 4#3 ++ imm.extractLsb' 0 4 ++ imm.extractLsb' 10 1 ++ 99#7)
  | .bge rs1 rs2 imm => some (imm.extractLsb' 11 1 ++ imm.extractLsb' 4 6 ++ rs2 ++ rs1 ++ 5#3 ++ imm.extractLsb' 0 4 ++ imm.extractLsb' 10 1 ++ 99#7)
  | .bltu rs1 rs2 imm => some (imm.extractLsb' 11 1 ++ imm.extractLsb' 4 6 ++ rs2 ++ rs1 ++ 6#3 ++ imm.extractLsb' 0 4 ++ imm.extractLsb' 10 1 ++ 99#7)
  | .bgeu rs1 rs2 imm => some (imm.extractLsb' 11 1 ++ imm.extractLsb' 4 6 ++ rs2 ++ rs1 ++ 7#3 ++ imm.extractLsb' 0 4 ++ imm.extractLsb' 10 1 ++ 99#7)
  | .lb rd rs1 imm => some (imm ++ rs1 ++ 0#3 ++ rd ++ 3#7)
  | .lh rd rs1 imm => some (imm ++ rs1 ++ 1#3 ++ rd ++ 3#7)
  | .lw rd rs1 imm => some (imm ++ rs1 ++ 2#3 ++ rd ++ 3#7)
  | .ld rd rs1 imm => some (imm ++ rs1 ++ 3#3 ++ rd ++ 3#7)
  | .lbu rd rs1 imm => some (imm ++ rs1 ++ 4#3 ++ rd ++ 3#7)
  | .lhu rd rs1 imm => some (imm ++ rs1 ++ 5#3 ++ rd ++ 3#7)
  | .lwu rd rs1 imm => some (imm ++ rs1 ++ 6#3 ++ rd ++ 3#7)
  | .sb rs1 rs2 imm => some (imm.extractLsb' 5 7 ++ rs2 ++ rs1 ++ 0#3 ++ imm.extractLsb' 0 5 ++ 35#7)
  | .sh rs1 rs2 imm => some (imm.extractLsb' 5 7 ++ rs2 ++ rs1 ++ 1#3 ++ imm.extractLsb' 0 5 ++ 35#7)
  | .sw rs1 rs2 imm => some (imm.extractLsb' 5 7 ++ rs2 ++ rs1 ++ 2#3 ++ imm.extractLsb' 0 5 ++ 35#7)
  | .sd rs1 rs2 imm => some (imm.extractLsb' 5 7 ++ rs2 ++ rs1 ++ 3#3 ++ imm.extractLsb' 0 5 ++ 35#7)
  | .addi rd rs1 imm => some (imm ++ rs1 ++ 0#3 ++ rd ++ 19#7)
  | .slti rd rs1 imm => some (imm ++ rs1 ++ 2#3 ++ rd ++ 19#7)
  | .sltiu rd rs1 imm => some (imm ++ rs1 ++ 3#3 ++ rd ++ 19#7)
  | .xori rd rs1 imm => some (imm ++ rs1 ++ 4#3 ++ rd ++ 19#7)
  | .ori rd rs1 imm => some (imm ++ rs1 ++ 6#3 ++ rd ++ 19#7)
  | .andi rd rs1 imm => some (imm ++ rs1 ++ 7#3 ++ rd ++ 19#7)
  | .slli rd rs1 shamt => some (0#6 ++ shamt ++ rs1 ++ 1#3 ++ rd ++ 19#7)
  | .srli rd rs1 shamt => some (0#6 ++ shamt ++ rs1 ++ 5#3 ++ rd ++ 19#7)
  | .srai rd rs1 shamt => some (16#6 ++ shamt ++ rs1 ++ 5#3 ++ rd ++ 19#7)
  | .add rd rs1 rs2 => some (0#7 ++ rs2 ++ rs1 ++ 0#3 ++ rd ++ 51#7)
  | .sub rd rs1 rs2 => some (32#7 ++ rs2 ++ rs1 ++ 0#3 ++ rd ++ 51#7)
  | .sll rd rs1 rs2 => some (0#7 ++ rs2 ++ rs1 ++ 1#3 ++ rd ++ 51#7)
  | .slt rd rs1 rs2 => some (0#7 ++ rs2 ++ rs1 ++ 2#3 ++ rd ++ 51#7)
  | .sltu rd rs1 rs2 => some (0#7 ++ rs2 ++ rs1 ++ 3#3 ++ rd ++ 51#7)
  | .xor rd rs1 rs2 => some (0#7 ++ rs2 ++ rs1 ++ 4#3 ++ rd ++ 51#7)
  | .srl rd rs1 rs2 => some (0#7 ++ rs2 ++ rs1 ++ 5#3 ++ rd ++ 51#7)
  | .sra rd rs1 rs2 => some (32#7 ++ rs2 ++ rs1 ++ 5#3 ++ rd ++ 51#7)
  | .or rd rs1 rs2 => some (0#7 ++ rs2 ++ rs1 ++ 6#3 ++ rd ++ 51#7)
  | .and rd rs1 rs2 => some (0#7 ++ rs2 ++ rs1 ++ 7#3 ++ rd ++ 51#7)
  | .addiw rd rs1 imm => some (imm ++ rs1 ++ 0#3 ++ rd ++ 27#7)
  | .slliw rd rs1 shamt => some (0#7 ++ shamt ++ rs1 ++ 1#3 ++ rd ++ 27#7)
  | .srliw rd rs1 shamt => some (0#7 ++ shamt ++ rs1 ++ 5#3 ++ rd ++ 27#7)
  | .sraiw rd rs1 shamt => some (32#7 ++ shamt ++ rs1 ++ 5#3 ++ rd ++ 27#7)
  | .addw rd rs1 rs2 => some (0#7 ++ rs2 ++ rs1 ++ 0#3 ++ rd ++ 59#7)
  | .subw rd rs1 rs2 => some (32#7 ++ rs2 ++ rs1 ++ 0#3 ++ rd ++ 59#7)
  | .sllw rd rs1 rs2 => some (0#7 ++ rs2 ++ rs1 ++ 1#3 ++ rd ++ 59#7)
  | .srlw rd rs1 rs2 => some (0#7 ++ rs2 ++ rs1 ++ 5#3 ++ rd ++ 59#7)
  | .sraw rd rs1 rs2 => some (32#7 ++ rs2 ++ rs1 ++ 5#3 ++ rd ++ 59#7)
  | .fence fm pred succ => some (fm ++ 0#3 ++ pred ++ succ ++ 15#20)
  | .ecall => some (115#32)
  | .ebreak => some (1048691#32)
  | .mul rd rs1 rs2 => some (1#7 ++ rs2 ++ rs1 ++ 0#3 ++ rd ++ 51#7)
  | .mulh rd rs1 rs2 => some (1#7 ++ rs2 ++ rs1 ++ 1#3 ++ rd ++ 51#7)
  | .mulhsu rd rs1 rs2 => some (1#7 ++ rs2 ++ rs1 ++ 2#3 ++ rd ++ 51#7)
  | .mulhu rd rs1 rs2 => some (1#7 ++ rs2 ++ rs1 ++ 3#3 ++ rd ++ 51#7)
  | .div rd rs1 rs2 => some (1#7 ++ rs2 ++ rs1 ++ 4#3 ++ rd ++ 51#7)
  | .divu rd rs1 rs2 => some (1#7 ++ rs2 ++ rs1 ++ 5#3 ++ rd ++ 51#7)
  | .rem rd rs1 rs2 => some (1#7 ++ rs2 ++ rs1 ++ 6#3 ++ rd ++ 51#7)
  | .remu rd rs1 rs2 => some (1#7 ++ rs2 ++ rs1 ++ 7#3 ++ rd ++ 51#7)
  | .mulw rd rs1 rs2 => some (1#7 ++ rs2 ++ rs1 ++ 0#3 ++ rd ++ 59#7)
  | .divw rd rs1 rs2 => some (1#7 ++ rs2 ++ rs1 ++ 4#3 ++ rd ++ 59#7)
  | .divuw rd rs1 rs2 => some (1#7 ++ rs2 ++ rs1 ++ 5#3 ++ rd ++ 59#7)
  | .remw rd rs1 rs2 => some (1#7 ++ rs2 ++ rs1 ++ 6#3 ++ rd ++ 59#7)
  | .remuw rd rs1 rs2 => some (1#7 ++ rs2 ++ rs1 ++ 7#3 ++ rd ++ 59#7)
  | .lrW rd rs1 aq rl => some (2#5 ++ aq ++ rl ++ 0#5 ++ rs1 ++ 2#3 ++ rd ++ 47#7)
  | .lrD rd rs1 aq rl => some (2#5 ++ aq ++ rl ++ 0#5 ++ rs1 ++ 3#3 ++ rd ++ 47#7)
  | .scW rd rs1 rs2 aq rl => some (3#5 ++ aq ++ rl ++ rs2 ++ rs1 ++ 2#3 ++ rd ++ 47#7)
  | .scD rd rs1 rs2 aq rl => some (3#5 ++ aq ++ rl ++ rs2 ++ rs1 ++ 3#3 ++ rd ++ 47#7)
  | .amoswapW rd rs1 rs2 aq rl => some (1#5 ++ aq ++ rl ++ rs2 ++ rs1 ++ 2#3 ++ rd ++ 47#7)
  | .amoswapD rd rs1 rs2 aq rl => some (1#5 ++ aq ++ rl ++ rs2 ++ rs1 ++ 3#3 ++ rd ++ 47#7)
  | .amoaddW rd rs1 rs2 aq rl => some (0#5 ++ aq ++ rl ++ rs2 ++ rs1 ++ 2#3 ++ rd ++ 47#7)
  | .amoaddD rd rs1 rs2 aq rl => some (0#5 ++ aq ++ rl ++ rs2 ++ rs1 ++ 3#3 ++ rd ++ 47#7)
  | .amoxorW rd rs1 rs2 aq rl => some (4#5 ++ aq ++ rl ++ rs2 ++ rs1 ++ 2#3 ++ rd ++ 47#7)
  | .amoxorD rd rs1 rs2 aq rl => some (4#5 ++ aq ++ rl ++ rs2 ++ rs1 ++ 3#3 ++ rd ++ 47#7)
  | .amoandW rd rs1 rs2 aq rl => some (12#5 ++ aq ++ rl ++ rs2 ++ rs1 ++ 2#3 ++ rd ++ 47#7)
  | .amoandD rd rs1 rs2 aq rl => some (12#5 ++ aq ++ rl ++ rs2 ++ rs1 ++ 3#3 ++ rd ++ 47#7)
  | .amoorW rd rs1 rs2 aq rl => some (8#5 ++ aq ++ rl ++ rs2 ++ rs1 ++ 2#3 ++ rd ++ 47#7)
  | .amoorD rd rs1 rs2 aq rl => some (8#5 ++ aq ++ rl ++ rs2 ++ rs1 ++ 3#3 ++ rd ++ 47#7)
  | .amominW rd rs1 rs2 aq rl => some (16#5 ++ aq ++ rl ++ rs2 ++ rs1 ++ 2#3 ++ rd ++ 47#7)
  | .amominD rd rs1 rs2 aq rl => some (16#5 ++ aq ++ rl ++ rs2 ++ rs1 ++ 3#3 ++ rd ++ 47#7)
  | .amomaxW rd rs1 rs2 aq rl => some (20#5 ++ aq ++ rl ++ rs2 ++ rs1 ++ 2#3 ++ rd ++ 47#7)
  | .amomaxD rd rs1 rs2 aq rl => some (20#5 ++ aq ++ rl ++ rs2 ++ rs1 ++ 3#3 ++ rd ++ 47#7)
  | .amominuW rd rs1 rs2 aq rl => some (24#5 ++ aq ++ rl ++ rs2 ++ rs1 ++ 2#3 ++ rd ++ 47#7)
  | .amominuD rd rs1 rs2 aq rl => some (24#5 ++ aq ++ rl ++ rs2 ++ rs1 ++ 3#3 ++ rd ++ 47#7)
  | .amomaxuW rd rs1 rs2 aq rl => some (28#5 ++ aq ++ rl ++ rs2 ++ rs1 ++ 2#3 ++ rd ++ 47#7)
  | .amomaxuD rd rs1 rs2 aq rl => some (28#5 ++ aq ++ rl ++ rs2 ++ rs1 ++ 3#3 ++ rd ++ 47#7)
  | .csrrw rd rs1 csr => some (csr ++ rs1 ++ 1#3 ++ rd ++ 115#7)
  | .csrrs rd rs1 csr => some (csr ++ rs1 ++ 2#3 ++ rd ++ 115#7)
  | .csrrc rd rs1 csr => some (csr ++ rs1 ++ 3#3 ++ rd ++ 115#7)
  | .csrrwi rd uimm csr => some (csr ++ uimm ++ 5#3 ++ rd ++ 115#7)
  | .csrrsi rd uimm csr => some (csr ++ uimm ++ 6#3 ++ rd ++ 115#7)
  | .csrrci rd uimm csr => some (csr ++ uimm ++ 7#3 ++ rd ++ 115#7)
  | .vaddVV vd vs2 vs1 c2 c1 vm => some (0#4 ++ c2 ++ c1 ++ vm ++ vs2 ++ vs1 ++ 0#3 ++ vd ++ 11#7)
  | .vaddVX vd vs2 xs c2 vm => some (0#4 ++ c2 ++ 0#1 ++ vm ++ vs2 ++ xs ++ 1#3 ++ vd ++ 11#7)
  | .vaddVI vd vs2 simm c2 vm => some (0#4 ++ c2 ++ 0#1 ++ vm ++ vs2 ++ simm ++ 2#3 ++ vd ++ 11#7)
  | .vaddVR vd vs2 vs1 rsz vm => some (0#4 ++ rsz ++ vm ++ vs2 ++ vs1 ++ 3#3 ++ vd ++ 11#7)
  | .vsubVV vd vs2 vs1 c2 c1 vm => some (1#4 ++ c2 ++ c1 ++ vm ++ vs2 ++ vs1 ++ 0#3 ++ vd ++ 11#7)
  | .vsubVX vd vs2 xs c2 vm => some (1#4 ++ c2 ++ 0#1 ++ vm ++ vs2 ++ xs ++ 1#3 ++ vd ++ 11#7)
  | .vsubVI vd vs2 simm c2 vm => some (1#4 ++ c2 ++ 0#1 ++ vm ++ vs2 ++ simm ++ 2#3 ++ vd ++ 11#7)
  | .vsubVR vd vs2 vs1 rsz vm => some (1#4 ++ rsz ++ vm ++ vs2 ++ vs1 ++ 3#3 ++ vd ++ 11#7)
  | .vmulVV vd vs2 vs1 c2 c1 vm => some (2#4 ++ c2 ++ c1 ++ vm ++ vs2 ++ vs1 ++ 0#3 ++ vd ++ 11#7)
  | .vmulVX vd vs2 xs c2 vm => some (2#4 ++ c2 ++ 0#1 ++ vm ++ vs2 ++ xs ++ 1#3 ++ vd ++ 11#7)
  | .vmulVI vd vs2 simm c2 vm => some (2#4 ++ c2 ++ 0#1 ++ vm ++ vs2 ++ simm ++ 2#3 ++ vd ++ 11#7)
  | .vmulVR vd vs2 vs1 rsz vm => some (2#4 ++ rsz ++ vm ++ vs2 ++ vs1 ++ 3#3 ++ vd ++ 11#7)
  | .vgathergVV vd vs2 vs1 c2 c1 vm => some (3#4 ++ c2 ++ c1 ++ vm ++ vs2 ++ vs1 ++ 0#3 ++ vd ++ 11#7)
  | .vgathergVX vd vs2 xs c2 vm => some (3#4 ++ c2 ++ 0#1 ++ vm ++ vs2 ++ xs ++ 1#3 ++ vd ++ 11#7)
  | .vgathergVI vd vs2 simm c2 vm => some (3#4 ++ c2 ++ 0#1 ++ vm ++ vs2 ++ simm ++ 2#3 ++ vd ++ 11#7)
  | .vgathergVR vd vs2 vs1 rsz vm => some (3#4 ++ rsz ++ vm ++ vs2 ++ vs1 ++ 3#3 ++ vd ++ 11#7)
  | .vandVV vd vs2 vs1 c2 c1 vm => some (4#4 ++ c2 ++ c1 ++ vm ++ vs2 ++ vs1 ++ 0#3 ++ vd ++ 11#7)
  | .vandVX vd vs2 xs c2 vm => some (4#4 ++ c2 ++ 0#1 ++ vm ++ vs2 ++ xs ++ 1#3 ++ vd ++ 11#7)
  | .vandVI vd vs2 simm c2 vm => some (4#4 ++ c2 ++ 0#1 ++ vm ++ vs2 ++ simm ++ 2#3 ++ vd ++ 11#7)
  | .vandVR vd vs2 vs1 rsz vm => some (4#4 ++ rsz ++ vm ++ vs2 ++ vs1 ++ 3#3 ++ vd ++ 11#7)
  | .vorVV vd vs2 vs1 c2 c1 vm => some (5#4 ++ c2 ++ c1 ++ vm ++ vs2 ++ vs1 ++ 0#3 ++ vd ++ 11#7)
  | .vorVX vd vs2 xs c2 vm => some (5#4 ++ c2 ++ 0#1 ++ vm ++ vs2 ++ xs ++ 1#3 ++ vd ++ 11#7)
  | .vorVI vd vs2 simm c2 vm => some (5#4 ++ c2 ++ 0#1 ++ vm ++ vs2 ++ simm ++ 2#3 ++ vd ++ 11#7)
  | .vorVR vd vs2 vs1 rsz vm => some (5#4 ++ rsz ++ vm ++ vs2 ++ vs1 ++ 3#3 ++ vd ++ 11#7)
  | .vxorVV vd vs2 vs1 c2 c1 vm => some (6#4 ++ c2 ++ c1 ++ vm ++ vs2 ++ vs1 ++ 0#3 ++ vd ++ 11#7)
  | .vxorVX vd vs2 xs c2 vm => some (6#4 ++ c2 ++ 0#1 ++ vm ++ vs2 ++ xs ++ 1#3 ++ vd ++ 11#7)
  | .vxorVI vd vs2 simm c2 vm => some (6#4 ++ c2 ++ 0#1 ++ vm ++ vs2 ++ simm ++ 2#3 ++ vd ++ 11#7)
  | .vxorVR vd vs2 vs1 rsz vm => some (6#4 ++ rsz ++ vm ++ vs2 ++ vs1 ++ 3#3 ++ vd ++ 11#7)
  | .vsllVV vd vs2 vs1 c2 c1 vm => some (7#4 ++ c2 ++ c1 ++ vm ++ vs2 ++ vs1 ++ 0#3 ++ vd ++ 11#7)
  | .vsllVX vd vs2 xs c2 vm => some (7#4 ++ c2 ++ 0#1 ++ vm ++ vs2 ++ xs ++ 1#3 ++ vd ++ 11#7)
  | .vsllVI vd vs2 simm c2 vm => some (7#4 ++ c2 ++ 0#1 ++ vm ++ vs2 ++ simm ++ 2#3 ++ vd ++ 11#7)
  | .vsllVR vd vs2 vs1 rsz vm => some (7#4 ++ rsz ++ vm ++ vs2 ++ vs1 ++ 3#3 ++ vd ++ 11#7)
  | .vsrlVV vd vs2 vs1 c2 c1 vm => some (8#4 ++ c2 ++ c1 ++ vm ++ vs2 ++ vs1 ++ 0#3 ++ vd ++ 11#7)
  | .vsrlVX vd vs2 xs c2 vm => some (8#4 ++ c2 ++ 0#1 ++ vm ++ vs2 ++ xs ++ 1#3 ++ vd ++ 11#7)
  | .vsrlVI vd vs2 simm c2 vm => some (8#4 ++ c2 ++ 0#1 ++ vm ++ vs2 ++ simm ++ 2#3 ++ vd ++ 11#7)
  | .vsrlVR vd vs2 vs1 rsz vm => some (8#4 ++ rsz ++ vm ++ vs2 ++ vs1 ++ 3#3 ++ vd ++ 11#7)
  | .vsraVV vd vs2 vs1 c2 c1 vm => some (9#4 ++ c2 ++ c1 ++ vm ++ vs2 ++ vs1 ++ 0#3 ++ vd ++ 11#7)
  | .vsraVX vd vs2 xs c2 vm => some (9#4 ++ c2 ++ 0#1 ++ vm ++ vs2 ++ xs ++ 1#3 ++ vd ++ 11#7)
  | .vsraVI vd vs2 simm c2 vm => some (9#4 ++ c2 ++ 0#1 ++ vm ++ vs2 ++ simm ++ 2#3 ++ vd ++ 11#7)
  | .vsraVR vd vs2 vs1 rsz vm => some (9#4 ++ rsz ++ vm ++ vs2 ++ vs1 ++ 3#3 ++ vd ++ 11#7)
  | .vminVV vd vs2 vs1 c2 c1 vm => some (10#4 ++ c2 ++ c1 ++ vm ++ vs2 ++ vs1 ++ 0#3 ++ vd ++ 11#7)
  | .vminVX vd vs2 xs c2 vm => some (10#4 ++ c2 ++ 0#1 ++ vm ++ vs2 ++ xs ++ 1#3 ++ vd ++ 11#7)
  | .vminVI vd vs2 simm c2 vm => some (10#4 ++ c2 ++ 0#1 ++ vm ++ vs2 ++ simm ++ 2#3 ++ vd ++ 11#7)
  | .vminVR vd vs2 vs1 rsz vm => some (10#4 ++ rsz ++ vm ++ vs2 ++ vs1 ++ 3#3 ++ vd ++ 11#7)
  | .vmaxVV vd vs2 vs1 c2 c1 vm => some (11#4 ++ c2 ++ c1 ++ vm ++ vs2 ++ vs1 ++ 0#3 ++ vd ++ 11#7)
  | .vmaxVX vd vs2 xs c2 vm => some (11#4 ++ c2 ++ 0#1 ++ vm ++ vs2 ++ xs ++ 1#3 ++ vd ++ 11#7)
  | .vmaxVI vd vs2 simm c2 vm => some (11#4 ++ c2 ++ 0#1 ++ vm ++ vs2 ++ simm ++ 2#3 ++ vd ++ 11#7)
  | .vmaxVR vd vs2 vs1 rsz vm => some (11#4 ++ rsz ++ vm ++ vs2 ++ vs1 ++ 3#3 ++ vd ++ 11#7)
  | .vmseqVV vd vs2 vs1 c2 c1 vm => some (12#4 ++ c2 ++ c1 ++ vm ++ vs2 ++ vs1 ++ 0#3 ++ vd ++ 11#7)
  | .vmseqVX vd vs2 xs c2 vm => some (12#4 ++ c2 ++ 0#1 ++ vm ++ vs2 ++ xs ++ 1#3 ++ vd ++ 11#7)
  | .vmseqVI vd vs2 simm c2 vm => some (12#4 ++ c2 ++ 0#1 ++ vm ++ vs2 ++ simm ++ 2#3 ++ vd ++ 11#7)
  | .vmseqVR vd vs2 vs1 rsz vm => some (12#4 ++ rsz ++ vm ++ vs2 ++ vs1 ++ 3#3 ++ vd ++ 11#7)
  | .vmsltVV vd vs2 vs1 c2 c1 vm => some (13#4 ++ c2 ++ c1 ++ vm ++ vs2 ++ vs1 ++ 0#3 ++ vd ++ 11#7)
  | .vmsltVX vd vs2 xs c2 vm => some (13#4 ++ c2 ++ 0#1 ++ vm ++ vs2 ++ xs ++ 1#3 ++ vd ++ 11#7)
  | .vmsltVI vd vs2 simm c2 vm => some (13#4 ++ c2 ++ 0#1 ++ vm ++ vs2 ++ simm ++ 2#3 ++ vd ++ 11#7)
  | .vmsltVR vd vs2 vs1 rsz vm => some (13#4 ++ rsz ++ vm ++ vs2 ++ vs1 ++ 3#3 ++ vd ++ 11#7)
  | .vmsltuVV vd vs2 vs1 c2 c1 vm => some (14#4 ++ c2 ++ c1 ++ vm ++ vs2 ++ vs1 ++ 0#3 ++ vd ++ 11#7)
  | .vmsltuVX vd vs2 xs c2 vm => some (14#4 ++ c2 ++ 0#1 ++ vm ++ vs2 ++ xs ++ 1#3 ++ vd ++ 11#7)
  | .vmsltuVI vd vs2 simm c2 vm => some (14#4 ++ c2 ++ 0#1 ++ vm ++ vs2 ++ simm ++ 2#3 ++ vd ++ 11#7)
  | .vmsltuVR vd vs2 vs1 rsz vm => some (14#4 ++ rsz ++ vm ++ vs2 ++ vs1 ++ 3#3 ++ vd ++ 11#7)
  | .vgatherVV vd vs2 vs1 c2 c1 vm => some (15#4 ++ c2 ++ c1 ++ vm ++ vs2 ++ vs1 ++ 0#3 ++ vd ++ 11#7)
  | .vgatherVX vd vs2 xs c2 vm => some (15#4 ++ c2 ++ 0#1 ++ vm ++ vs2 ++ xs ++ 1#3 ++ vd ++ 11#7)
  | .vgatherVI vd vs2 simm c2 vm => some (15#4 ++ c2 ++ 0#1 ++ vm ++ vs2 ++ simm ++ 2#3 ++ vd ++ 11#7)
  | .vgatherVR vd vs2 vs1 rsz vm => some (15#4 ++ rsz ++ vm ++ vs2 ++ vs1 ++ 3#3 ++ vd ++ 11#7)
  | .vfaddFVV vd vs2 vs1 c2 c1 vm => some (0#4 ++ c2 ++ c1 ++ vm ++ vs2 ++ vs1 ++ 4#3 ++ vd ++ 11#7)
  | .vfaddFVX vd vs2 xs c2 vm => some (0#4 ++ c2 ++ 0#1 ++ vm ++ vs2 ++ xs ++ 5#3 ++ vd ++ 11#7)
  | .vfaddFVR vd vs2 vs1 rsz vm => some (0#4 ++ rsz ++ vm ++ vs2 ++ vs1 ++ 6#3 ++ vd ++ 11#7)
  | .vfsubFVV vd vs2 vs1 c2 c1 vm => some (1#4 ++ c2 ++ c1 ++ vm ++ vs2 ++ vs1 ++ 4#3 ++ vd ++ 11#7)
  | .vfsubFVX vd vs2 xs c2 vm => some (1#4 ++ c2 ++ 0#1 ++ vm ++ vs2 ++ xs ++ 5#3 ++ vd ++ 11#7)
  | .vfsubFVR vd vs2 vs1 rsz vm => some (1#4 ++ rsz ++ vm ++ vs2 ++ vs1 ++ 6#3 ++ vd ++ 11#7)
  | .vfmulFVV vd vs2 vs1 c2 c1 vm => some (2#4 ++ c2 ++ c1 ++ vm ++ vs2 ++ vs1 ++ 4#3 ++ vd ++ 11#7)
  | .vfmulFVX vd vs2 xs c2 vm => some (2#4 ++ c2 ++ 0#1 ++ vm ++ vs2 ++ xs ++ 5#3 ++ vd ++ 11#7)
  | .vfmulFVR vd vs2 vs1 rsz vm => some (2#4 ++ rsz ++ vm ++ vs2 ++ vs1 ++ 6#3 ++ vd ++ 11#7)
  | .vfdivFVV vd vs2 vs1 c2 c1 vm => some (3#4 ++ c2 ++ c1 ++ vm ++ vs2 ++ vs1 ++ 4#3 ++ vd ++ 11#7)
  | .vfdivFVX vd vs2 xs c2 vm => some (3#4 ++ c2 ++ 0#1 ++ vm ++ vs2 ++ xs ++ 5#3 ++ vd ++ 11#7)
  | .vfdivFVR vd vs2 vs1 rsz vm => some (3#4 ++ rsz ++ vm ++ vs2 ++ vs1 ++ 6#3 ++ vd ++ 11#7)
  | .vfmaccFVV vd vs2 vs1 c2 c1 vm => some (4#4 ++ c2 ++ c1 ++ vm ++ vs2 ++ vs1 ++ 4#3 ++ vd ++ 11#7)
  | .vfmaccFVX vd vs2 xs c2 vm => some (4#4 ++ c2 ++ 0#1 ++ vm ++ vs2 ++ xs ++ 5#3 ++ vd ++ 11#7)
  | .vfmaccFVR vd vs2 vs1 rsz vm => some (4#4 ++ rsz ++ vm ++ vs2 ++ vs1 ++ 6#3 ++ vd ++ 11#7)
  | .vfnmsacFVV vd vs2 vs1 c2 c1 vm => some (5#4 ++ c2 ++ c1 ++ vm ++ vs2 ++ vs1 ++ 4#3 ++ vd ++ 11#7)
  | .vfnmsacFVX vd vs2 xs c2 vm => some (5#4 ++ c2 ++ 0#1 ++ vm ++ vs2 ++ xs ++ 5#3 ++ vd ++ 11#7)
  | .vfnmsacFVR vd vs2 vs1 rsz vm => some (5#4 ++ rsz ++ vm ++ vs2 ++ vs1 ++ 6#3 ++ vd ++ 11#7)
  | .vfminFVV vd vs2 vs1 c2 c1 vm => some (6#4 ++ c2 ++ c1 ++ vm ++ vs2 ++ vs1 ++ 4#3 ++ vd ++ 11#7)
  | .vfminFVX vd vs2 xs c2 vm => some (6#4 ++ c2 ++ 0#1 ++ vm ++ vs2 ++ xs ++ 5#3 ++ vd ++ 11#7)
  | .vfminFVR vd vs2 vs1 rsz vm => some (6#4 ++ rsz ++ vm ++ vs2 ++ vs1 ++ 6#3 ++ vd ++ 11#7)
  | .vfmaxFVV vd vs2 vs1 c2 c1 vm => some (7#4 ++ c2 ++ c1 ++ vm ++ vs2 ++ vs1 ++ 4#3 ++ vd ++ 11#7)
  | .vfmaxFVX vd vs2 xs c2 vm => some (7#4 ++ c2 ++ 0#1 ++ vm ++ vs2 ++ xs ++ 5#3 ++ vd ++ 11#7)
  | .vfmaxFVR vd vs2 vs1 rsz vm => some (7#4 ++ rsz ++ vm ++ vs2 ++ vs1 ++ 6#3 ++ vd ++ 11#7)
  | .vfmfeqFVV vd vs2 vs1 c2 c1 vm => some (8#4 ++ c2 ++ c1 ++ vm ++ vs2 ++ vs1 ++ 4#3 ++ vd ++ 11#7)
  | .vfmfeqFVX vd vs2 xs c2 vm => some (8#4 ++ c2 ++ 0#1 ++ vm ++ vs2 ++ xs ++ 5#3 ++ vd ++ 11#7)
  | .vfmfeqFVR vd vs2 vs1 rsz vm => some (8#4 ++ rsz ++ vm ++ vs2 ++ vs1 ++ 6#3 ++ vd ++ 11#7)
  | .vfmfltFVV vd vs2 vs1 c2 c1 vm => some (9#4 ++ c2 ++ c1 ++ vm ++ vs2 ++ vs1 ++ 4#3 ++ vd ++ 11#7)
  | .vfmfltFVX vd vs2 xs c2 vm => some (9#4 ++ c2 ++ 0#1 ++ vm ++ vs2 ++ xs ++ 5#3 ++ vd ++ 11#7)
  | .vfmfltFVR vd vs2 vs1 rsz vm => some (9#4 ++ rsz ++ vm ++ vs2 ++ vs1 ++ 6#3 ++ vd ++ 11#7)
  | .vfmfleFVV vd vs2 vs1 c2 c1 vm => some (10#4 ++ c2 ++ c1 ++ vm ++ vs2 ++ vs1 ++ 4#3 ++ vd ++ 11#7)
  | .vfmfleFVX vd vs2 xs c2 vm => some (10#4 ++ c2 ++ 0#1 ++ vm ++ vs2 ++ xs ++ 5#3 ++ vd ++ 11#7)
  | .vfmfleFVR vd vs2 vs1 rsz vm => some (10#4 ++ rsz ++ vm ++ vs2 ++ vs1 ++ 6#3 ++ vd ++ 11#7)
  | .vcvtq4 vd vs2 vs1 c2 c1 vm => some (11#4 ++ c2 ++ c1 ++ vm ++ vs2 ++ vs1 ++ 4#3 ++ vd ++ 11#7)
  | .vfsgnjFVV vd vs2 vs1 c2 c1 vm => some (12#4 ++ c2 ++ c1 ++ vm ++ vs2 ++ vs1 ++ 4#3 ++ vd ++ 11#7)
  | .vfsgnjFVX vd vs2 xs c2 vm => some (12#4 ++ c2 ++ 0#1 ++ vm ++ vs2 ++ xs ++ 5#3 ++ vd ++ 11#7)
  | .vfsgnjFVR vd vs2 vs1 rsz vm => some (12#4 ++ rsz ++ vm ++ vs2 ++ vs1 ++ 6#3 ++ vd ++ 11#7)
  | .vfsgnjnFVV vd vs2 vs1 c2 c1 vm => some (13#4 ++ c2 ++ c1 ++ vm ++ vs2 ++ vs1 ++ 4#3 ++ vd ++ 11#7)
  | .vfsgnjnFVX vd vs2 xs c2 vm => some (13#4 ++ c2 ++ 0#1 ++ vm ++ vs2 ++ xs ++ 5#3 ++ vd ++ 11#7)
  | .vfsgnjnFVR vd vs2 vs1 rsz vm => some (13#4 ++ rsz ++ vm ++ vs2 ++ vs1 ++ 6#3 ++ vd ++ 11#7)
  | .vfsgnjxFVV vd vs2 vs1 c2 c1 vm => some (14#4 ++ c2 ++ c1 ++ vm ++ vs2 ++ vs1 ++ 4#3 ++ vd ++ 11#7)
  | .vfsgnjxFVX vd vs2 xs c2 vm => some (14#4 ++ c2 ++ 0#1 ++ vm ++ vs2 ++ xs ++ 5#3 ++ vd ++ 11#7)
  | .vfsgnjxFVR vd vs2 vs1 rsz vm => some (14#4 ++ rsz ++ vm ++ vs2 ++ vs1 ++ 6#3 ++ vd ++ 11#7)
  | .vfscaleFVV vd vs2 vs1 c2 c1 vm => some (15#4 ++ c2 ++ c1 ++ vm ++ vs2 ++ vs1 ++ 4#3 ++ vd ++ 11#7)
  | .vfscaleFVX vd vs2 xs c2 vm => some (15#4 ++ c2 ++ 0#1 ++ vm ++ vs2 ++ xs ++ 5#3 ++ vd ++ 11#7)
  | .vfscaleFVR vd vs2 vs1 rsz vm => some (15#4 ++ rsz ++ vm ++ vs2 ++ vs1 ++ 6#3 ++ vd ++ 11#7)
  | .vmv vd vs2 c2 vm => some (0#4 ++ c2 ++ 0#1 ++ vm ++ vs2 ++ 7#8 ++ vd ++ 11#7)
  | .vsplat vd xs vm => some (0#6 ++ vm ++ xs ++ 15#8 ++ vd ++ 11#7)
  | .vmvsx vd xs => some (1#7 ++ xs ++ 23#8 ++ vd ++ 11#7)
  | .vmvxs xd vs2 c2 => some (0#4 ++ c2 ++ 1#2 ++ vs2 ++ 31#8 ++ xd ++ 11#7)
  | .vid vd vm => some (0#6 ++ vm ++ 39#13 ++ vd ++ 11#7)
  | .vredsum vd vs2 c2 vm => some (0#4 ++ c2 ++ 0#1 ++ vm ++ vs2 ++ 47#8 ++ vd ++ 11#7)
  | .vredmin vd vs2 c2 vm => some (0#4 ++ c2 ++ 0#1 ++ vm ++ vs2 ++ 55#8 ++ vd ++ 11#7)
  | .vredmax vd vs2 c2 vm => some (0#4 ++ c2 ++ 0#1 ++ vm ++ vs2 ++ 63#8 ++ vd ++ 11#7)
  | .vredand vd vs2 c2 vm => some (0#4 ++ c2 ++ 0#1 ++ vm ++ vs2 ++ 71#8 ++ vd ++ 11#7)
  | .vredor vd vs2 c2 vm => some (0#4 ++ c2 ++ 0#1 ++ vm ++ vs2 ++ 79#8 ++ vd ++ 11#7)
  | .vredxor vd vs2 c2 vm => some (0#4 ++ c2 ++ 0#1 ++ vm ++ vs2 ++ 87#8 ++ vd ++ 11#7)
  | .vmpopc vd vs2 c2 vm => some (0#4 ++ c2 ++ 0#1 ++ vm ++ vs2 ++ 95#8 ++ vd ++ 11#7)
  | .vmfirst vd vs2 c2 vm => some (0#4 ++ c2 ++ 0#1 ++ vm ++ vs2 ++ 103#8 ++ vd ++ 11#7)
  | .vcompress vd vs2 c2 => some (0#4 ++ c2 ++ 0#2 ++ vs2 ++ 111#8 ++ vd ++ 11#7)
  | .vrng vd vm => some (0#6 ++ vm ++ 119#13 ++ vd ++ 11#7)
  | .vfrecip vd vs2 c2 vm => some (1#4 ++ c2 ++ 0#1 ++ vm ++ vs2 ++ 7#8 ++ vd ++ 11#7)
  | .vfrsqrt vd vs2 c2 vm => some (1#4 ++ c2 ++ 0#1 ++ vm ++ vs2 ++ 15#8 ++ vd ++ 11#7)
  | .vfexp2 vd vs2 c2 vm => some (1#4 ++ c2 ++ 0#1 ++ vm ++ vs2 ++ 23#8 ++ vd ++ 11#7)
  | .vflog2 vd vs2 c2 vm => some (1#4 ++ c2 ++ 0#1 ++ vm ++ vs2 ++ 31#8 ++ vd ++ 11#7)
  | .vfsqrt vd vs2 c2 vm => some (1#4 ++ c2 ++ 0#1 ++ vm ++ vs2 ++ 39#8 ++ vd ++ 11#7)
  | .vfclass vd vs2 c2 vm => some (1#4 ++ c2 ++ 0#1 ++ vm ++ vs2 ++ 47#8 ++ vd ++ 11#7)
  | .vfredsum vd vs2 c2 vm => some (1#4 ++ c2 ++ 0#1 ++ vm ++ vs2 ++ 55#8 ++ vd ++ 11#7)
  | .vfredosum vd vs2 c2 vm => some (1#4 ++ c2 ++ 0#1 ++ vm ++ vs2 ++ 63#8 ++ vd ++ 11#7)
  | .vfredmin vd vs2 c2 vm => some (1#4 ++ c2 ++ 0#1 ++ vm ++ vs2 ++ 71#8 ++ vd ++ 11#7)
  | .vfredmax vd vs2 c2 vm => some (1#4 ++ c2 ++ 0#1 ++ vm ++ vs2 ++ 79#8 ++ vd ++ 11#7)
  | .vncvt vd vs2 c2 vm => some (2#4 ++ c2 ++ 0#1 ++ vm ++ vs2 ++ 7#8 ++ vd ++ 11#7)
  | .vwcvt vd vs2 c2 vm => some (2#4 ++ c2 ++ 0#1 ++ vm ++ vs2 ++ 15#8 ++ vd ++ 11#7)
  | .vncvti vd vs2 c2 vm => some (2#4 ++ c2 ++ 0#1 ++ vm ++ vs2 ++ 23#8 ++ vd ++ 11#7)
  | .vwcvti vd vs2 c2 vm => some (2#4 ++ c2 ++ 0#1 ++ vm ++ vs2 ++ 31#8 ++ vd ++ 11#7)
  | .vwcvtn vd vs2 c2 vm => some (2#4 ++ c2 ++ 0#1 ++ vm ++ vs2 ++ 39#8 ++ vd ++ 11#7)
  | .vcvtif vd vs2 c2 vm => some (2#4 ++ c2 ++ 0#1 ++ vm ++ vs2 ++ 47#8 ++ vd ++ 11#7)
  | .vcvtfi vd vs2 c2 vm => some (2#4 ++ c2 ++ 0#1 ++ vm ++ vs2 ++ 55#8 ++ vd ++ 11#7)
  | .vbscale vd vs2 c2 vm => some (2#4 ++ c2 ++ 0#1 ++ vm ++ vs2 ++ 63#8 ++ vd ++ 11#7)
  | .vle vd rs1 pol eew vm => some (0#3 ++ pol ++ 0#1 ++ vm ++ 0#5 ++ rs1 ++ eew ++ vd ++ 43#7)
  | .vlse vd rs1 rs2 pol eew vm => some (1#3 ++ pol ++ 0#1 ++ vm ++ rs2 ++ rs1 ++ eew ++ vd ++ 43#7)
  | .vlxe vd vs2 rs1 pol eew c vm => some (2#3 ++ pol ++ c ++ vm ++ vs2 ++ rs1 ++ eew ++ vd ++ 43#7)
  | .vse vs3 rs1 pol eew c vm => some (4#3 ++ pol ++ c ++ vm ++ 0#5 ++ rs1 ++ eew ++ vs3 ++ 43#7)
  | .vsse vs3 rs1 rs2 pol eew c vm => some (5#3 ++ pol ++ c ++ vm ++ rs2 ++ rs1 ++ eew ++ vs3 ++ 43#7)
  | .vsxe vs3 vs2 rs1 pol eew c vm => some (6#3 ++ pol ++ c ++ vm ++ vs2 ++ rs1 ++ eew ++ vs3 ++ 43#7)
  | .vappend vs3 rs1 pol eew c vm => some (7#3 ++ pol ++ c ++ vm ++ 0#5 ++ rs1 ++ eew ++ vs3 ++ 43#7)
  | .vamoadd vd vs2 rs1 eew vm => some (24#6 ++ vm ++ vs2 ++ rs1 ++ eew ++ vd ++ 43#7)
  | .vamomin vd vs2 rs1 eew vm => some (25#6 ++ vm ++ vs2 ++ rs1 ++ eew ++ vd ++ 43#7)
  | .vamomax vd vs2 rs1 eew vm => some (26#6 ++ vm ++ vs2 ++ rs1 ++ eew ++ vd ++ 43#7)
  | .vamoswap vd vs2 rs1 eew vm => some (27#6 ++ vm ++ vs2 ++ rs1 ++ eew ++ vd ++ 43#7)
  | .vamoxor vd vs2 rs1 eew vm => some (28#6 ++ vm ++ vs2 ++ rs1 ++ eew ++ vd ++ 43#7)
  | .mopa md vs2 vs1 c2 c1 vm => some (0#4 ++ c2 ++ c1 ++ vm ++ vs2 ++ vs1 ++ 0#5 ++ md ++ 91#7)
  | .mopd md vs2 vs1 c2 c1 vm => some (1#4 ++ c2 ++ c1 ++ vm ++ vs2 ++ vs1 ++ 0#5 ++ md ++ 91#7)
  | .mzero md => some (524288#22 ++ md ++ 91#7)
  | .mcupd xb vs2 vs1 c2 c1 vm => some (3#4 ++ c2 ++ c1 ++ vm ++ vs2 ++ vs1 ++ 0#3 ++ xb ++ 91#7)
  | .mdrain vd md xs vm => some (0#6 ++ vm ++ 0#2 ++ md ++ xs ++ 1#3 ++ vd ++ 91#7)
  | .mdrainq vd md xs vm => some (4#6 ++ vm ++ 0#2 ++ md ++ xs ++ 1#3 ++ vd ++ 91#7)
  | .mbest vd md vm => some (8#6 ++ vm ++ 0#2 ++ md ++ 1#8 ++ vd ++ 91#7)
  | .mld md xa xs => some (1#7 ++ xs ++ xa ++ 8#5 ++ md ++ 91#7)
  | .mst md xa xs => some (9#7 ++ xs ++ xa ++ 8#5 ++ md ++ 91#7)
  | .mfetch md xb xa => some (17#7 ++ xb ++ xa ++ 8#5 ++ md ++ 91#7)
  | .vpmul vd fl vs2 vs1 c2 c1 vm => some (0#2 ++ fl ++ c2 ++ c1 ++ vm ++ vs2 ++ vs1 ++ 3#3 ++ vd ++ 91#7)
  | .vpmacc vd fl vs2 vs1 c2 c1 vm => some (1#2 ++ fl ++ c2 ++ c1 ++ vm ++ vs2 ++ vs1 ++ 3#3 ++ vd ++ 91#7)
  | .vpconv vd fl vs2 vs1 cb c2 vm => some (2#2 ++ fl ++ c2 ++ cb ++ vm ++ vs2 ++ vs1 ++ 3#3 ++ vd ++ 91#7)
  | .vpguard vd fl vs2 vs1 c2 c1 vm => some (3#2 ++ fl ++ c2 ++ c1 ++ vm ++ vs2 ++ vs1 ++ 3#3 ++ vd ++ 91#7)
  | .vpack vd fl vs2 c2 vm => some (0#4 ++ c2 ++ 0#1 ++ vm ++ vs2 ++ 0#3 ++ fl ++ 4#3 ++ vd ++ 91#7)
  | .vunpack vd fl vs2 c2 vm => some (1#4 ++ c2 ++ 0#1 ++ vm ++ vs2 ++ 0#3 ++ fl ++ 4#3 ++ vd ++ 91#7)
  | .vpext vd fl vs2 j c2 vm => some (2#4 ++ c2 ++ 0#1 ++ vm ++ vs2 ++ j ++ fl ++ 4#3 ++ vd ++ 91#7)
  | .flset fl xs => some (64#7 ++ xs ++ 32#11 ++ fl ++ 91#7)
  | .flget xd fl => some (18432#15 ++ fl ++ 4#3 ++ xd ++ 91#7)
  | .msetshape xs => some (80#7 ++ xs ++ 16475#20)
  | .msetcfg xs => some (88#7 ++ xs ++ 16475#20)
  | .mgetstat xd => some (786436#20 ++ xd ++ 91#7)
  | .mclrstat => some (3489677403#32)
  | .vblk xs => some (0#12 ++ xs ++ 20571#15)
  | .vreply xd => some (65541#20 ++ xd ++ 91#7)
  | .vdrainq => some (536891483#32)
  | .vstrip lc => some (1572904#23 ++ lc ++ 91#7)
  | .vloop lc xs => some (1024#12 ++ xs ++ 40#6 ++ lc ++ 91#7)
  | .vlbnz lc dist => some (40#7 ++ dist ++ 40#6 ++ lc ++ 91#7)
  | .baddi xd simm => some (48#7 ++ simm ++ 5#3 ++ xd ++ 91#7)
  | .baddvl xd sh => some (7168#14 ++ sh ++ 5#3 ++ xd ++ 91#7)
  | .vcond vs2 c2 vm => some (8#4 ++ c2 ++ 0#1 ++ vm ++ vs2 ++ 20571#20)
  | .vpost xs => some (2304#12 ++ xs ++ 20571#15)
  | .vsplit off vm => some (0#6 ++ vm ++ off ++ 24667#15)
  | .lbeq vs2 vs1 off => some (1#4 ++ off.extractLsb' 5 3 ++ vs2 ++ vs1 ++ 6#3 ++ off.extractLsb' 0 5 ++ 91#7)
  | .lbne vs2 vs1 off => some (2#4 ++ off.extractLsb' 5 3 ++ vs2 ++ vs1 ++ 6#3 ++ off.extractLsb' 0 5 ++ 91#7)
  | .lblt vs2 vs1 off => some (3#4 ++ off.extractLsb' 5 3 ++ vs2 ++ vs1 ++ 6#3 ++ off.extractLsb' 0 5 ++ 91#7)
  | .lbge vs2 vs1 off => some (4#4 ++ off.extractLsb' 5 3 ++ vs2 ++ vs1 ++ 6#3 ++ off.extractLsb' 0 5 ++ 91#7)
  | .ljmp off => some (40#7 ++ off ++ 24667#15)
  | .ljoin => some (1610637403#32)
  | .vsetcfgi rd imm => some (imm.extractLsb' 0 12 ++ 0#3 ++ imm.extractLsb' 12 2 ++ 0#3 ++ rd ++ 123#7)
  | .vsetcfg rd rs1 => some (0#12 ++ rs1 ++ 1#3 ++ rd ++ 123#7)
  | .vdecl code => some (1#7 ++ code ++ 4219#20)
  | .sybind rs1 rs2 rs3 => some (0#7 ++ rs2 ++ rs1 ++ 2#3 ++ rs3 ++ 123#7)
  | .acq rs1 scope => some (4#9 ++ scope ++ rs1 ++ 8315#15)
  | .rel rs1 scope => some (8#9 ++ scope ++ rs1 ++ 8315#15)
  | .fencev scope => some (12#9 ++ scope ++ 8315#20)
  | .bara rs1 scope => some (16#9 ++ scope ++ rs1 ++ 8315#15)
  | .barw rs1 scope => some (20#9 ++ scope ++ rs1 ++ 8315#15)
  | .publish rs1 => some (192#12 ++ rs1 ++ 8315#15)
  | .cpy rd pair rs1 rs2 => some (pair ++ 0#3 ++ rs2 ++ rs1 ++ 3#3 ++ rd ++ 123#7)
  | .cpyc rd pair rs1 rs2 trap => some (pair ++ trap ++ 1#2 ++ rs2 ++ rs1 ++ 3#3 ++ rd ++ 123#7)
  | .cpyx rd pair rs1 rs2 trap => some (pair ++ trap ++ 2#2 ++ rs2 ++ rs1 ++ 3#3 ++ rd ++ 123#7)
  | .stmap rs1 rs2 rs3 => some (0#7 ++ rs2 ++ rs1 ++ 4#3 ++ rs3 ++ 123#7)
  | .stunmap rs1 => some (32#12 ++ rs1 ++ 16507#15)
  | .stwb rs1 rs2 => some (2#7 ++ rs2 ++ rs1 ++ 16507#15)
  | .stdrop rs1 rs2 => some (3#7 ++ rs2 ++ rs1 ++ 16507#15)
  | .l2pin n rs1 rs2 ways => some (1#4 ++ n ++ rs2 ++ rs1 ++ 4#3 ++ ways ++ 123#7)
  | .l2unpin n => some (2#4 ++ n ++ 16507#25)
  | .sbind vd rs1 => some (0#12 ++ rs1 ++ 5#3 ++ vd ++ 123#7)
  | .sunbind vd => some (8197#20 ++ vd ++ 123#7)
  | .vfxadd vs2 rs1 => some (8#7 ++ vs2 ++ rs1 ++ 20603#15)
  | .fxrd vd rs1 fmt => some (72#10 ++ fmt ++ rs1 ++ 5#3 ++ vd ++ 123#7)
  | .fxclr rs1 rs2 => some (10#7 ++ rs2 ++ rs1 ++ 20603#15)
  | .tdone => some (24699#32)
  | .tspawn rs1 => some (32#12 ++ rs1 ++ 24699#15)
  | .tyield => some (67133563#32)
  | .tinfo rd rs1 => some (96#12 ++ rs1 ++ 6#3 ++ rd ++ 123#7)
  | .trapc rs1 => some (128#12 ++ rs1 ++ 24699#15)
  | .wridx _ _ => none
  | .qctlSkip _ => none
  | .qctlDiscard _ => none
  | .qctlStop _ => none
  | .qctlResume _ => none
  | .launchGraph _ _ => none
  | .launchNode _ _ => none
  | .waitValue _ _ => none
  | .waitValueMet _ => none
  | .waitValueTimeout _ => none
  | .writeValue _ _ => none
  | .indirect _ _ => none
  | .setSeed _ _ => none
  | .regionCreate _ _ => none
  | .regionDestroy _ _ => none
  | .regionDestroyComplete _ => none
  | .fencePacket _ _ => none
  | .unknownKindPacket _ _ => none
  | .preempt _ _ => none
  | .condEval _ _ => none
  | .loopEval _ _ => none
  | .pageArrived _ _ _ _ => none
  | .copyComplete _ _ => none
  | .copyNodeComplete _ _ => none
  | .collNodeComplete _ _ _ _ => none
  | .streamRefill _ _ => none
  | .waitWatchdog _ => none
  | .runWatchdog _ => none
  | .splitWatchdog _ => none
  | .patrolScrub _ _ => none
  | .uncontainedError _ => none
  | .flitReceive _ _ => none
  | .linkFailed _ => none
  | .portTrainingLost _ => none
  | .serviceRequest _ => none
  | .answer _ => none
  | .resume _ => none
  | .endTask _ => none
  | .releaseDomain _ => none
  | .abortDomain _ => none
  | .removeSection _ => none
  | .moveSections _ => none
  | .linkDown _ => none
  | .linkUp _ => none
  | .firmwareUpdate _ => none
  | .firmwareSwitchComplete _ => none
  | .serviceActionTimeout => none
  | .exportImage _ => none
  | .importImage _ => none
  | .bindContext _ => none
  | .unbindContext _ => none
  | .setKey _ => none
  | .invalidateTranslations _ => none
  | .queueEnable _ => none
  | .queueDisable _ => none
  | .queueDisableComplete _ => none
  | .partitionLimits _ => none
  | .setEngineImage _ => none
  | .unlistedCommand _ => none
  | .dutyWrite _ => none
  | .ringControlWrite _ _ => none
  | .qtbaseWrite _ => none
  | .portcfgWrite _ => none
  | .registerWrite _ _ _ _ => none
  | .bar2Read _ _ => none
  | .bar2Write _ _ => none
  | .peerInboundRequest _ _ _ => none
  | .pushRecoveryImage => none
  | .attest => none
  | .moduleReset => none
  | .throttleStep => none
  | .thermalTrip => none
  | .wordNotAnInstruction _ => none
  | .fetchFault _ _ _ => none
  | .portTrained _ => none
  | .cxlMemRequest _ _ => none
  | .fabricAddressAssigned _ => none

end

end Sys2Proof
end

