-- ==== Sys2Proof/Machine/Fetch.lean ====
section
/-! DEFINITION. Fetching: which task is on stage, the words of the control thread, of blocks and of melds (R92, R116, R117,
R125, R130), and the choice of the next turn (log 3). -/

namespace Sys2Proof.Machine

/-- The task of a number brought on stage; the one that stood there goes to the others. -/
def State.onStage (s : State) (tid : Nat) : State :=
  if s.task.status != .vacant && s.task.id.tid == tid then s
  else
    match s.parked.find? (fun t => t.id.tid == tid) with
    | none => s
    | some t =>
      let rest := s.parked.filter (fun t => t.id.tid != tid)
      { s with task := t, parked := if s.task.status == .vacant then rest else s.task :: rest }

/-- A word of a meld slot: its control code at the slot's address, its block at offset 0x40 (log 26). -/
def Meld.wordAt (m : Meld) (off : Nat) : Option (BitVec 32) :=
  if off < 0x40 then m.control[off / 4]?
  else if off = 0x40 then some m.h0
  else if off = 0x44 then some m.h1
  else if off = 0x48 then some m.h2
  else m.body[(off - 0x4C) / 4]?

/-- The 32-bit word that the task on stage fetches at an address (R92, R125, R229, R353). After the host has rewritten loaded code, R17
does not state which of the two words a fetch finds: here the new one (DESIGN CHOICE, log 4). -/
def State.codeWord (s : State) (va : Word) : Except Trap (BitVec 32) :=
  let plain : Except Trap (BitVec 32) :=
    match s.locateRead va 4 .fetch with
    | .error t => .error t
    | .ok p => .ok (BitVec.ofNat 32 (leVal (s.peekBytes p.km p.key 4)))
  match s.meldOf s.task with
  | none => plain
  | some m =>
    let off := (va - meldAddr m.slot).toNat
    if off < 4096 then
      match m.wordAt off with
      | some w => if m.poisoned then .error { cause := 0x0E, addr := some va } else .ok w
      | none => .ok 0
    else plain

/-- The oldest queued block entered (R118): captured scalars, every other one 0, loop counters 0; H2 is still to be
read. -/
def State.enterBlock (s : State) : State :=
  match s.task.block, s.task.vq with
  | none, e :: rest =>
    let b : Block := { addr := e.addr, h0 := e.h0, h1 := e.h1, h2 := 0, off := 0, xs := e.xs, lc := Vector.replicate 4 0,
                       serial := e.serial, foldPending := e.foldPending, poison := e.poison }
    { s with task := { s.task with block := some b, vq := rest, h2Unread := true } }
  | _, _ => s

/-- H2 read when body word 0 would issue (R117). -/
def State.readH2 (s : State) : Except Trap State :=
  match s.task.block with
  | none => .ok s
  | some b =>
    if !s.task.h2Unread then .ok s
    else
      match s.codeWord (b.addr + 8) with
      | .error t => .error { t with addr := some (b.addr + 8) }
      | .ok w => .ok ((s.afterFetch (b.addr + 8)).onTask (fun t => { t with block := some { b with h2 := w }, h2Unread := false }))

/-- What a party finds where it stands: nothing to run, a word, or a fault of its fetch. -/
inductive Fetched where
  | idle
  | word (s : State) (w : BitVec 32)
  | bad (s : State) (t : Trap)

/-- The fetch of a lane thread or the vector unit at a body offset. A thread past the last word raises 0x08 (R122). -/
def State.fetchBody (s : State) (b : Block) (off : Nat) : Fetched :=
  if off < b.len then
    match s.codeWord (b.wordAddr off) with
    | .ok w => .word (s.afterFetch (b.wordAddr off)) w
    | .error t => .bad s t
  else .bad s (cause 0x08)

/-- Whether a copy of the task on stage in a deterministic region has not ended: it holds for a page (R255, R317). -/
def State.copyHolds (s : State) : Bool := s.det && s.task.copies.any (fun c => c.status.isNone)

/-- The fetch of a party of the task on stage. The array words that a restored image left unstarted come before the vector unit's own next
word, and before the lane threads of a split (R172, R347). A task that waits in place for its page fetches nothing (R344). In a deterministic
region a copy that holds for its page stands before every later word of its block, since the words read what it writes (R317; DESIGN CHOICE,
log 19). -/
def State.fetch (s : State) (p : Party) : Fetched :=
  let s := { s with cur := p }
  if s.task.status != .running || s.task.servicing.isSome || (p != .control && s.copyHolds) then .idle
  else
    match p with
    | .control =>
      match s.codeWord s.task.pc with
      | .ok w => .word (s.afterFetch s.task.pc) w
      | .error t => .bad s t
    | .vector =>
      match s.task.aqueue, s.task.split with
      | a :: _, _ => .word (s.onTask Task.enterEntry) a.word
      | [], some _ => .idle
      | [], none =>
        let s1 := s.enterBlock
        match s1.task.block with
        | none => .idle
        | some b =>
          match s1.readH2 with
          | .error t => .bad s1 t
          | .ok s2 => s2.fetchBody b b.off
    | .lane _ =>
      match s.task.aqueue, s.task.block, s.curThread with
      | [], some b, some th => if th.joined then .idle else s.fetchBody b th.off
      | _, _, _ => .idle

end Sys2Proof.Machine
end

