-- ==== Sys2Proof/Machine/Schedule.lean ====
section
/-! DEFINITION. Packets and commands that stand ready (R36 to R45, R64, R376), and the placing of one instruction for a step (log 2). -/

namespace Sys2Proof.Machine

/-! ## Packets and commands that stand ready -/

/-- Where the next packet of a queue stands: its address, and the INDIRECT whose buffer holds it (R37, R45). -/
def Queue.nextAddr (x : Queue) : Option (Word × Option Nat) :=
  match x.inBuffer with
  | some (pid, a, pos, _) => some (a + BitVec.ofNat 64 (64 * pos), some pid)
  | none =>
    if x.rdidx < x.wrsnap then some (x.ring + BitVec.ofNat 64 (x.rdidx % 2 ^ x.lsize * 64), none) else none

/-- The 64 bytes at an address of a queue's ring or buffer, read under the queue's key ID (R36); none where the read
fails. -/
def State.readPacket (s : State) (x : Queue) (a : Word) : Option (BitVec 512) :=
  match s.translate x.ctx none a 64 .read with
  | .error _ => none
  | .ok p =>
    let km := if p.page.home = 0 then s.keyMaterial x.keyid else none
    if s.poisoned p.key 64 then none else some (BitVec.ofNat 512 (leVal (s.peekBytes km p.key 64)))

/-- Whether a packet may start (R43): with the barrier bit, only once every earlier packet of its queue has completed. -/
def State.mayStart (s : State) (x : Queue) (parent : Option Nat) (p : BitVec 512) : Bool :=
  !p.getLsbD 8 || !s.packets.any (fun o => o.q == x.q && some o.pid != parent)

/-- What a clover core finds when it visits a queue (R43, R64): nothing to start, a packet, or a ring that can no longer
be read. -/
inductive Visit where
  | nothing | packet (p : BitVec 512) | unreadable
  /-- A packet that the host has returned (R66). -/
  | parsed (p : BitVec 512)

/-- A visit of a queue. -/
def State.visitQueue (s : State) (q : Nat) : Visit :=
  match s.queue q with
  | none => .nothing
  | some x =>
    if x.status ≠ 1 ∨ x.waiting.isSome ∨ !x.enabled then .nothing
    else
      match x.nextAddr, x.parsed with
      | none, _ => .nothing
      | some (_, parent), some p => if s.mayStart x parent p then .parsed p else .nothing
      | some (a, parent), none =>
        match s.readPacket x a with
        | none => .unreadable
        | some p => if s.mayStart x parent p then .packet p else .nothing

/-- What the visit of a queue does to the stash: the packet that stands next is read (R36, R239). -/
def State.recallVisit (s : State) (q : Nat) : State :=
  match (s.queue q).filter (fun x => x.status == 1 && x.enabled && x.waiting.isNone && x.parsed.isNone) with
  | none => s
  | some x =>
    match x.nextAddr with
    | none => s
    | some (a, _) => s.recallAt x.ctx a 64

/-- Whether a queue has an accepted packet that a clover core may take up (R64). -/
def Queue.served (x : Queue) : Bool := x.status == 1 && x.enabled && x.waiting.isNone && x.nextAddr.isSome

/-- The clover core that serves a queue: six cores share the queues by number (DESIGN CHOICE, log 34). -/
def cloverOf (q : Nat) : Fin 6 := ⟨q % 6, Nat.mod_lt _ (by decide)⟩

/-- The queue that a clover core serves at a turn meant for queue q (R64): that of its last packet while the turn is for it and it has not
taken 64 in a row with another waiting, else the next waiting queue in the rotation, ascending by number. -/
def State.cloverQueue (s : State) (q : Nat) : Nat :=
  let c := s.clovers[cloverOf q]
  let ready := sortBy id ((s.queues.filter (fun x => x.served && cloverOf x.q == cloverOf q)).map (·.q))
  match c.queue with
  | none => q
  | some last =>
    if q == last && (c.inRow < 64 || ready.all (· == last)) then q
    else ((ready.find? (last < ·)).orElse (fun _ => ready.head?)).getD q

/-- A packet counted that a clover core has taken from a queue (R64). -/
def State.countPacket (s : State) (q : Nat) : State :=
  let c := s.clovers[cloverOf q]
  { s with clovers := s.clovers.set (cloverOf q) { queue := some q, inRow := if c.queue == some q then c.inRow + 1 else 1 } }

/-- A queue passed whose next packet must wait: the rotation of its core goes on behind it (R64). -/
def State.passQueue (s : State) (q : Nat) : State :=
  let c := s.clovers[cloverOf q]
  if ((s.queue q).map Queue.served).getD false then
    { s with clovers := s.clovers.set (cloverOf q) { queue := some q, inRow := if c.queue == some q then c.inRow else 0 } }
  else s

/-- The next command of the command ring, if one has been written and the ring is enabled (R376, R381). -/
def State.nextCommand (s : State) : Option (BitVec 1024) :=
  let r := s.port0.cmd
  if r.en && r.rd < r.wr then some (BitVec.ofNat 1024 (leVal (s.readHost (r.slot r.rd 128) 128))) else none

/-- A queue whose ring or root can no longer be read stops as under qctl 3 and an event reports it (R36); a packet of an indirect buffer
that can no longer be read does the same (DESIGN CHOICE, log 34). -/
def State.loseQueue (s : State) (q : Nat) : State :=
  ((s.modQueue q (fun x => { x with status := 0 })).syncQueue q).reject 6 q

/-- The index that the next packet of a queue is known by: its own, or that of the INDIRECT whose buffer holds it. R45 gives that
index to errors; that a request of PARSE or PLACE carries it too is a DESIGN CHOICE (log 34). -/
def State.packetIndex (s : State) (x : Queue) : Nat :=
  match x.inBuffer with
  | some (pid, _, _, _) => ((s.packets.find? (fun o => o.pid == pid)).map (·.index)).getD x.rdidx
  | none => x.rdidx

/-- A raw packet sent to the host; its queue waits for the answer (R66, R380). -/
def State.askParse (s : State) (q : Nat) (p : BitVec 512) : State :=
  match s.queue q with
  | none => s
  | some x =>
    let payload := layBytes [(q, 2), (0, 6), (s.packetIndex x, 8), (p.toNat, 64)]
    (s.modQueue q (fun x => { x with waiting := some s.port0.nextTag })).postRequest 1 0xFF x.ctx (.parse q (s.packetIndex x) p)
      (BitVec.ofNat 896 (leVal payload))

/-- The command ring moved past the command that is taken and read (R239, R376). -/
def State.takeCommand (s : State) : State :=
  let s := s.recallForRead (hostKey (s.port0.cmd.slot s.port0.cmd.rd 128)) 128
  { s with port0 := { s.port0 with cmd := { s.port0.cmd with rd := s.port0.cmd.rd + 1 } } }

/-! ## One instruction placed for a step (log 2) -/

/-- The page tables of the placed context: a level-3 table at physical 0, a level-2 table at 0x2000 whose first entry maps
the first GiB onto itself, readable, writable and executable. Its fault-domain entry, at 0x20000, has a ring of 16 records at
0x30000. -/
def placedTables (m : List Host.Cell) : List Host.Cell :=
  Memory.setMany (Memory.setMany (Memory.setMany m 0 (bytesOf 0x2001 8)) 0x2000 (bytesOf 0x1F 8)) 0x20000
    (layBytes [(0x30000, 8), (4, 1)])

/-- The placed context and its region, whose budgets admit everything. -/
def placedContext : Context :=
  { id := 1, part := 0, ptroot := 0, fdtab := 0x20000, ndom := 1, pool := 0, psize := 0, halted := [], halts := [], copyImage := none,
    collImage := none }
def placedRegion : Region :=
  { ctx := 1, addr := 0x10000, parent := 0, depth := 1, root := true, closed := false, deficit := 0,
    rcb := BitVec.ofNat 1024 (leVal (layBytes [(0, 8), (0xFF, 2), (0, 1), (0, 1), (0, 2), (65535, 2), (65535, 2), (0, 6),
      (2 ^ 48, 8), (0, 8), (2 ^ 128 - 1, 16)])) }

/-- The placed task: on section 0, its control thread at 0x100000. -/
def placedTask (kind : Nat) (b : Option Block) (sp : Option Split) : Task :=
  { Task.vacant with
    status := .running
    id := { Ident.none with tid := 1, ctx := 1, gid := 0, region := 0x10000, kind := kind, kernel := 0x100000 }
    pc := 0x100000
    block := b
    split := sp }

/-- The placed block: every counter and every flag, 253 words, its header at 0x110000. -/
def placedBlock : Block :=
  { addr := 0x110000, h0 := 0xB1003CFD, h1 := 0, h2 := 0, off := 0, xs := Vector.replicate 32 0, lc := Vector.replicate 4 0,
    serial := 0, foldPending := 1, poison := 0 }

/-- A split with one thread at body offset 0, which is also the join point. -/
def placedSplit : Split :=
  { at_ := 0, join := 0, view := [], seen := [], since := 0, threads := [{ elem := 0, off := 0, draws := 0, rounds := 0, joined := false, wset := [] }] }

/-- A word placed so that the next step fetches it: in the control thread, in a block, or in a lane thread, as its where
attribute asks. -/
def State.placeAs (s : State) (a : Attr) (w : BitVec 32) : State :=
  let s1 := if s.boot.stage = 4 then s else s.loadPart
  let at_ := match a with
    | .b => 0x11000C
    | .l => 0x11000C
    | .lOnly => 0x11000C
    | _ => 0x100000
  let t := match a with
    | .b => placedTask 2 (some placedBlock) none
    | .l => placedTask 2 (some placedBlock) none
    | .lOnly => placedTask 2 (some placedBlock) (some placedSplit)
    | _ => placedTask 1 none none
  let p := match a with
    | .b => Party.vector
    | .l => Party.vector
    | .lOnly => Party.lane 0
    | _ => Party.control
  { s1 with mem := Memory.setMany (placedTables s1.mem) at_ (bytesOf w.toNat 4)
            contexts := placedContext :: s1.contexts
            regions := placedRegion :: s1.regions
            task := t
            parked := s1.parked
            nextTid := s1.nextTid + 1
            sched := [.party 1 p] }

/-- A word placed for the next step. -/
noncomputable def State.placeWord (s : State) (w : BitVec 32) : State :=
  match decode w with
  | .instr i => s.placeAs i.attr w
  | .reject _ => s.placeAs .c w

end Sys2Proof.Machine
end

