-- ==== Sys2Proof/Machine/Operands.lean ====
section
/-! DEFINITION. The operand forms of block words: register groups (R142), elements, masks and
active elements (R96, R143, R144), stream pops (R265), block scalars and tokens (R251), poison (R352), and the resources that a
header or a REGS record must declare (R23, R116). -/

namespace Sys2Proof.Machine

/-! ## Register groups -/

/-- A legal group of registers (R142): aligned to its size and within the registers. -/
def Task.groupOk (t : Task) (n size : Nat) : Bool := n % size == 0 && n + size ≤ t.regCount

/-- Whether two ranges of registers overlap. -/
def overlap (a an b bn : Nat) : Bool := a < b + bn && b < a + an

/-! ## Elements -/

/-- Element i, at a width in bits, of the group that starts at vn (R143). -/
def Task.elem (t : Task) (bits n i : Nat) : Nat :=
  let e := t.perReg bits
  fieldN ((t.v[n + i / e]?).getD 0) (i % e * bits) bits

/-- Bit i of mask register vn (R143). -/
def Task.maskBit (t : Task) (n i : Nat) : Bool := ((t.v[n]?).getD 0).getLsbD i

/-- The dword marks left after the bytes [lo, hi) of a register have been written (R352). -/
def unpoison (marks : List (Nat × Nat × BitVec 8)) (reg lo hi : Nat) : List (Nat × Nat × BitVec 8) :=
  (marks.map (fun m =>
    if m.1 = reg then
      (m.1, m.2.1, (List.range 8).foldl (fun (b : BitVec 8) k =>
        let byte := 8 * m.2.1 + k
        if lo ≤ byte ∧ byte < hi then b &&& ~~~(1#8 <<< k) else b) m.2.2)
    else m)).filter (fun m => m.2.2 != 0)

/-- Element i of the group at vn written, at a width in bits (R143). -/
def Task.setElem (t : Task) (bits n : Nat) (i v : Nat) : Task :=
  let e := t.perReg bits
  let r := n + i / e
  let reg := setFieldN ((t.v[r]?).getD 0) (i % e * bits) bits v
  { t with v := t.v.setIfInBounds r reg
           vPoison := if t.vPoison.isEmpty || bits < 8 then t.vPoison else unpoison t.vPoison r (i % e * bits / 8) ((i % e * bits + bits) / 8) }

/-- Elements written one after another. -/
def Task.setElems (t : Task) (bits n : Nat) (vals : List (Nat × Nat)) : Task :=
  vals.foldl (fun t p => t.setElem bits n p.1 p.2) t

/-- The bytes whose eight bits all stand in a list of bits. -/
def wholeBytes (bits : List Nat) : List Nat :=
  ((bits.map (· / 8)).eraseDups).filter (fun b => (List.range 8).all (fun k => bits.contains (8 * b + k)))

/-- Bits of a mask register written (R158); a byte of which every bit is written is no longer poisoned (R352). In lane mode the bit lies in a
byte that elements of other threads share (DESIGN CHOICE, log 23). -/
def Task.setMaskBits (t : Task) (n : Nat) (vals : List (Nat × Bool)) : Task :=
  let reg := vals.foldl (fun (r : VReg) p => setField r p.1 (BitVec.ofBool p.2)) ((t.v[n]?).getD 0)
  { t with v := t.v.setIfInBounds n reg
           vPoison := if t.vPoison.isEmpty then t.vPoison
                      else (wholeBytes (vals.map (·.1))).foldl (fun marks b => unpoison marks n b (b + 1)) t.vPoison }

/-! ## Active elements -/

/-- The elements that a word touches: vstart ≤ i < vl; a lane word touches its own (R144, R168). vl never exceeds vlmax
(R61); elements past vlmax, which no register group holds, are touched by none. -/
def State.touched (s : State) : List Nat :=
  match s.cur with
  | .lane e => if e < s.task.vlmax then [e] else []
  | _ => rangeFrom s.task.vstart (min s.task.vl s.task.vlmax)

/-- active(i) of R96 for an element i with vstart ≤ i < vl. The mask is bit i of v0 as the one register file holds it: R143 lays the bits over
bytes that elements of other threads share, and what one thread writes there another finds, though R167 says that no thread sees another's
element (DESIGN CHOICE, log 23). -/
def State.isActive (s : State) (vm : BitVec 1) (i : Nat) : Bool := vm == 1 || s.task.maskBit 0 i

/-- The active elements, ascending (R96). -/
def State.actives (s : State) (vm : BitVec 1) : List Nat := s.touched.filter (s.isActive vm)

/-- The elements below vl that the mask lets pass, of words that always run from element 0 (R164, R274). -/
def State.activesFrom0 (s : State) (vm : BitVec 1) : List Nat := (List.range (min s.task.vl s.task.vlmax)).filter (s.isActive vm)

/-! ## Declared resources (R23, R116) -/

/-- The entry of the kernel that the issuing word comes from (R20, R134). -/
def State.wordKernel (s : State) : Word :=
  match s.meldOf s.task with
  | none => s.task.id.kernel
  | some m =>
    match s.cur with
    | .control => (m.originOf false ((s.task.pc - meldAddr m.slot).toNat / 4)).2.1
    | _ => (m.originOf true s.offset).2.1

/-- The loader's record of the kernel that the issuing word comes from. -/
def State.kernelRec (s : State) : Option Kernel :=
  s.kernels.find? (fun k => k.ctx == s.task.id.ctx && k.entry == s.wordKernel)

/-- Whether a REGS record allows a use: bit 0 array, 1 streams, 2 lane threads (R22, R23). -/
def State.regsAllow (s : State) (bit : Nat) : Bool :=
  match s.kernelRec with
  | some k => !k.hasRegs || k.uses.getLsbD bit
  | none => true

/-- A resource whose header flag is clear, or whose REGS record omits it, raises 0x08 (R23, R116). -/
def State.needFlag (s : State) (headerBit regsBit : Nat) (k : Act) : Act :=
  match s.task.block with
  | none => .trap s (cause 0x08)
  | some b => if b.h0.getLsbD headerBit && s.regsAllow regsBit then k else .trap s (cause 0x08)

/-- The array declared (R116, R272). -/
def State.needArray (s : State) (k : Act) : Act := s.needFlag 11 0 k

/-- A loop counter below nlc and in lcmask (R23, R116). -/
def State.needCounter (s : State) (lc : Nat) (k : Act) : Act :=
  let declared := match s.kernelRec with
    | some r => !r.hasRegs || r.lcmask.getLsbD lc
    | none => true
  match s.task.block with
  | none => .trap s (cause 0x08)
  | some b => if lc < fieldN b.h0 8 3 && declared then k else .trap s (cause 0x08)

/-! ## Block scalars and tokens (R251, R260, R352) -/

/-- The commands of the current block that name a token, newest first. -/
def Task.onToken (t : Task) (r : BitVec 5) : List (Nat × Copy) :=
  match t.block with
  | none => []
  | some b => ((t.copies.mapIdx (fun i c => (i, c))).filter (fun p => p.2.serial == b.serial && p.2.tok == r.toNat)).reverse

/-- Whether a token is pending: some command on it has not written its status (R251). -/
def Task.pending (t : Task) (r : BitVec 5) : Bool := (t.onToken r).any (fun p => p.2.status.isNone)

/-- The newest command of a token whose status stands in it unread. -/
def Task.unreadStatus (t : Task) (r : BitVec 5) : Option (Nat × Copy) :=
  match t.onToken r with
  | (i, c) :: _ => if c.status.isSome && !c.overwritten then some (i, c) else none
  | [] => none

/-- The fault of a trapped nonzero status (R260), if its token is read now. -/
def Copy.fault (c : Copy) : Option Trap :=
  match c.status with
  | none => none
  | some st =>
    if c.trap && !c.handedOn && fieldN st 0 8 ≠ 0 then
      let low : BitVec 32 := st.setWidth 32
      let dst := match c.failAt with
        | some (_, d) => d
        | none => false
      some { cause := fieldN st 0 8, info := if dst then low ||| 0x200 else low &&& ~~~0x200#32,
             addr := c.failAt.map (·.1), fromCopy := true }
    else none

/-- The first trapped status among the tokens that a word reads. -/
def Task.tokenFault (t : Task) (rs : List (BitVec 5)) : Option Trap :=
  rs.findSome? (fun r =>
    match t.unreadStatus r with
    | some (_, c) => if c.read then none else c.fault
    | none => none)

/-- The statuses of the tokens read marked as read, and those of the tokens written as overwritten. -/
def Task.markTokens (t : Task) (rs ws : List (BitVec 5)) : Task :=
  if t.copies.isEmpty then t
  else
    let serial := (t.block.map (·.serial)).getD 0
    let hit (l : List (BitVec 5)) (c : Copy) : Bool := c.serial == serial && c.status.isSome && l.any (fun r => r.toNat == c.tok)
    { t with copies := t.copies.map (fun c =>
        { c with read := c.read || (hit rs c && !c.overwritten), overwritten := c.overwritten || hit ws c }) }

/-- The registers xn that a word reads and writes: a pending token waits; a poisoned source raises 0x0E; a trapped status
raises its fault (R251, R260, R352). On the control core only poison counts. -/
def State.needX (s : State) (rs ws : List (BitVec 5)) (k : State → Act) : Act :=
  match s.cur with
  | .control => if s.xBad rs then .trap s (s.xTrap rs) else k s
  | _ =>
    if (rs ++ ws).any s.task.pending then .wait s
    else if s.xBad rs then .trap s (s.xTrap rs)
    else
      match s.task.tokenFault rs with
      | some t => .trap s t
      | none => k (s.onTask (fun t => t.markTokens rs ws))

/-! ## Poisoned elements (R352) -/

/-- A reading of elements of a register group: its first register, their width, and which, each with the element of the word
that reads it (R352). -/
structure Reading where
  base : Nat
  bits : Nat
  elems : List (Nat × Nat)

/-- A reading of elements by the elements of the same numbers. -/
def reading (base bits : Nat) (is : List Nat) : Reading := { base := base, bits := bits, elems := is.map (fun i => (i, i)) }

/-- Whether the bits [lo, hi) of a register lie in a poisoned dword. -/
def Task.bitsBad (t : Task) (reg lo hi : Nat) : Bool :=
  t.vPoison.any (fun m => m.1 == reg && m.2.1 * 64 < hi && lo < m.2.1 * 64 + 64)

/-- The lowest element of some readings that a poisoned dword holds. -/
def Task.badElem (t : Task) (rs : List Reading) : Option Nat :=
  if t.vPoison.isEmpty then none
  else
    let bad := rs.flatMap (fun r => (r.elems.filter (fun p =>
      let e := t.perReg r.bits
      t.bitsBad (r.base + p.2 / e) (p.2 % e * r.bits) (p.2 % e * r.bits + r.bits))).map (·.1))
    argLeast (fun i => i) bad

/-- The poisoned dword that an element of some readings lies in, as a register number and byte of the error log: v registers have the
numbers 64 to 95 (R355, log 22). -/
def Task.badWord (t : Task) (rs : List Reading) (i : Nat) : Option (Nat × Nat) :=
  rs.findSome? (fun r => (r.elems.filter (fun p => p.1 == i)).findSome? (fun p =>
    let e := t.perReg r.bits
    let lo := p.2 % e * r.bits
    (t.vPoison.find? (fun m => m.1 == r.base + p.2 / e && m.2.1 * 64 < lo + r.bits && lo < m.2.1 * 64 + 64)).map (fun m =>
      (64 + m.1, 8 * m.2.1))))

/-- The fault of a word whose element i reads a poisoned dword (R352). -/
def Task.elemTrap (t : Task) (rs : List Reading) (i : Nat) : Trap := { cause := 0x0E, elem := some i, reg := t.badWord rs i }

/-- The mask bits that a masked word reads, as a reading of v0. -/
def maskReading (vm : BitVec 1) (is : List Nat) : List Reading := if vm == 1 then [] else [reading 0 1 is]

/-- A poisoned element raises 0x0E naming it; the word writes nothing (R352). -/
def State.needClean (s : State) (rs : List Reading) (k : Act) : Act :=
  match s.task.badElem rs with
  | some i => .trap s (s.task.elemTrap rs i)
  | none => k

/-- A latent register error reported to the domain of the task on stage, where its entry asks for such records (R333, R352): the record
of a 0x0E at the word that passes the poison by, which ends nothing and does not count as a delivered fault (log 22). -/
def State.reportLatent (s : State) : State :=
  let fdom := s.effFdom s.task.id.ctx s.task.id.region
  let s := s.recallFlags s.task.id.ctx fdom
  if s.domainLatent s.task.id.ctx fdom then (s.deliverRecord s.task.id.ctx fdom (s.recordOf s.task s.cur (cause 0x0E))).1 else s

/-- Poisoned dwords that a word passes by unread, each as a register numbered as log 22 says and a dword, logged once as latent (R352). -/
def State.noteWords (s : State) (ws : List (Nat × Nat)) : State :=
  let fresh := ws.filter (fun w => !s.task.latent.contains w)
  let site := s.siteOf s.task
  fresh.foldl (fun s w => (s.logError 2 1 site.1 site.2 (w.1 * 2 ^ 32 + 8 * w.2) s.task.id.region s.task.id.node).reportLatent)
    (s.onTask (fun t => { t with latent := t.latent ++ fresh }))

/-- The poisoned dwords of source groups that a word does not read. -/
def State.noteLatent (s : State) (gs : List (Nat × Nat)) : State :=
  if s.task.vPoison.isEmpty then s
  else
    s.noteWords ((s.task.vPoison.filter (fun m => gs.any (fun g => g.1 ≤ m.1 && m.1 < g.1 + g.2))).map (fun m => (64 + m.1, m.2.1)))

/-! ## Streams (R263 to R265) -/

/-- Fields of a stream descriptor (R263). -/
def streamEew (d : BitVec 512) : Nat := fieldN d (8 * 0x38) 8
def streamExt (d : BitVec 512) (j : Nat) : Nat := fieldN d (64 + 32 * j) 32
def streamStride (d : BitVec 512) (j : Nat) : Int := sextN (fieldN d (192 + 64 * j) 64) 64
def streamLength (d : BitVec 512) : Nat := streamExt d 0 * streamExt d 1 * streamExt d 2 * streamExt d 3

/-- The address of stream element k: i0 varies fastest (R263). -/
def streamAddr (d : BitVec 512) (k : Nat) : Word :=
  let e0 := streamExt d 0
  let e1 := streamExt d 1
  let e2 := streamExt d 2
  let i0 := k % e0
  let i1 := k / e0 % e1
  let i2 := k / (e0 * e1) % e2
  let i3 := k / (e0 * e1 * e2)
  BitVec.ofInt 64 ((fieldN d 0 64 : Int) + i0 * streamStride d 0 + i1 * streamStride d 1 + i2 * streamStride d 2
    + i3 * streamStride d 3)

/-- The binding of a vector register, if it is bound (R264). -/
def Task.binding (t : Task) (n : Nat) : Option Stream := if 24 ≤ n ∧ n < 32 then (t.streams[n - 24]?).getD none else none

/-- Whether some register of a group is bound. -/
def Task.anyBound (t : Task) (g : Nat × Nat) : Bool := (List.range g.2).any (fun i => (t.binding (g.1 + i)).isSome)

/-- The elements of a strip read by loads, ascending, each with the place that it was read at; the first that fails gives its fault, with
elem naming it (R265). -/
def State.popStrip (s : State) (st : Stream) : List Nat → Except Trap (List (Nat × Option Place))
  | [] => .ok []
  | i :: is =>
    let w := 2 ^ streamEew st.desc
    let here : Except Trap (Nat × Option Place) :=
      if st.cursor + i < streamLength st.desc then
        let a := streamAddr st.desc (st.cursor + i)
        if a.toNat % w ≠ 0 then .error { cause := 0x03, addr := some a, elem := some i }
        else
          match s.locateRead a w with
          | .error t => .error { t with elem := some i }
          | .ok p => .ok (s.viewNat p w, some p)
      else .ok (0, none)
    match here with
    | .error t => .error t
    | .ok v =>
      match s.popStrip st is with
      | .error t => .error t
      | .ok vs => .ok (v :: vs)

/-- One bound source popped: its strip, read under the stream's policy (R239, R263), stands in the register for the word that reads it
(R265). What a word finds in elements at or above vl, such as a ctl of a copy or the rest of MOPA's B, is not stated: those are free (log 5). -/
def State.popReg (s : State) (n : Nat) : Except Trap State :=
  match s.task.binding n with
  | none => .ok s
  | some st =>
    match s.popStrip st (List.range s.task.vl) with
    | .error t => .error t
    | .ok vs =>
      let read (s : State) (p : Nat × Nat × Option Place) : State :=
        match p.2.2 with
        | some a => s.afterRead a (2 ^ streamEew st.desc) (fieldN st.desc (8 * 0x3A) 8) p.1
        | none => s
      let s1 := (vs.mapIdx (fun i (v : Nat × Option Place) => (i, v))).foldl read s
      let rest : VReg := if s.task.vl < s.task.vlmax then Config.freeTail s.freeCtr n else 0
      .ok (s1.onTask (fun t => { t with v := t.v.setIfInBounds n rest } |>.setElems t.sew n (vs.mapIdx (fun i (v : Nat × Option Place) => (i, v.1)))))

/-- Bound sources popped one after another. -/
def State.popRegs (s : State) : List Nat → Except Trap State
  | [] => .ok s
  | n :: ns =>
    match s.popReg n with
    | .error t => .error t
    | .ok s1 => s1.popRegs ns

/-- The cursors of popped registers advanced by vl (R265). -/
def Task.advanceCursors (t : Task) (ns : List Nat) : Task :=
  ns.foldl (fun t n =>
    match t.binding n with
    | none => t
    | some st => { t with streams := t.streams.setIfInBounds (n - 24) (some { st with cursor := st.cursor + t.vl }) }) t

/-- A word over vector registers: srcs and dsts are its register groups. A use of a bound register needs the strm flag
(0x08); a write of one, a read in lane mode, or a read at another width or with LMUL above 1 raises 0x01; a plan that fails its
own checks raises 0x08 before anything is read (R211); a read pops a strip, and the cursor advances when the word completes (R116,
R265). -/
def State.withStreams (s : State) (srcs dsts : List (Nat × Nat)) (k : State → Act) (planOk : Bool := true) : Act :=
  if !(srcs ++ dsts).any s.task.anyBound then (if planOk then k s else .trap s (cause 0x08))
  else
    s.needFlag 12 1 (
      let regs := ((srcs.flatMap (fun g => (List.range g.2).map (· + g.1))).filter (fun n => (s.task.binding n).isSome)).eraseDups
      let lane := match s.cur with
        | .lane _ => true
        | _ => false
      let fit := regs.all (fun n =>
        match s.task.binding n with
        | some st => streamEew st.desc == s.task.sewCode && s.task.lmul == 1
        | none => true)
      if dsts.any s.task.anyBound || lane || !fit then .trap s illegal
      else if !planOk then .trap s (cause 0x08)
      else
        match s.popRegs regs with
        | .error t => .trap s t
        | .ok s1 =>
          match k s1 with
          | .go s2 => .go (s2.onTask (fun t => t.advanceCursors regs))
          | a => a)

/-! ## Vector words -/

/-- The register groups of a word: sources, destinations (first register and size). -/
structure Groups where
  srcs : List (Nat × Nat)
  dsts : List (Nat × Nat)
  /-- Source registers that form no aligned group (R160): they are only checked to exist. -/
  loose : List (Nat × Nat) := []

/-- Every group legal, and no masked destination that includes v0 (R142). -/
def Task.groupsOk (t : Task) (g : Groups) (vm : BitVec 1) : Bool :=
  (g.srcs ++ g.dsts).all (fun p => t.groupOk p.1 p.2) && g.loose.all (fun p => p.1 + p.2 ≤ t.regCount && 0 < p.2) && (vm == 1 || g.dsts.all (fun p => p.1 != 0))

/-- The form of a vector word: its groups checked (R142), its plan, if it names one (R211), its streams popped (R265). -/
def State.vectorForm (s : State) (g : Groups) (vm : BitVec 1) (k : State → Act) (planOk : Bool := true) : Act :=
  if !s.task.groupsOk g vm then .trap s illegal else s.withStreams (g.srcs ++ g.loose) g.dsts k planOk

/-- A vector word: its form, its readings clean, and poison that it passes by logged (R352). -/
def State.vectorWord (s : State) (g : Groups) (vm : BitVec 1) (readings : State → List Reading) (k : State → Act)
    (planOk : Bool := true) : Act :=
  s.vectorForm g vm
    (fun s => s.needClean (maskReading vm s.touched ++ readings s) (k (s.noteLatent (g.srcs ++ g.loose)))) planOk

/-- A value pushed onto the reply queue (R119). -/
def State.pushReply (s : State) (v : Word) : State := s.onTask (fun t => { t with replies := t.replies ++ [v] })

/-- A push waits while the reply queue is full (R119). -/
def State.needRoom (s : State) (k : Act) : Act := if s.task.replies.length < 16 then k else .wait s

end Sys2Proof.Machine
end

