-- ==== Sys2Proof/Machine/Flags.lean ====
section
/-! DEFINITION. The Brynter has no flag register: a comparison writes mask bits, saturation sets no flag (R157), and the one
sticky status word, astat, is the array's (R271). What this file holds is every comparison that writes a mask bit or turns a
lane branch, and the clamp of the saturating operations. -/

namespace Sys2Proof.Machine

/-- clamp of R157: to the signed values of n bits. -/
def clampS (y : Int) (n : Nat) : Int := min (max y (-(2 : Int) ^ (n - 1))) ((2 : Int) ^ (n - 1) - 1)

/-- Equal, less signed, less unsigned: the mask bit of VMSEQ, VMSLT, VMSLTU (R158). -/
def cmpEq (_n a b : Nat) : Bool := a == b
def cmpLt (n a b : Nat) : Bool := sextN a n < sextN b n
def cmpLtu (_n a b : Nat) : Bool := a < b

/-- When LBEQ, LBNE, LBLT and LBGE are taken (R169). -/
def takenEq (n a b : Nat) : Bool := cmpEq n a b
def takenNe (n a b : Nat) : Bool := !cmpEq n a b
def takenLt (n a b : Nat) : Bool := cmpLt n a b
def takenGe (n a b : Nat) : Bool := !cmpLt n a b

/-- The result of an integer word whose exact result is y: clamped under sat, then narrowed (R157). -/
def narrowed (sat : Bool) (n : Nat) (y : Int) : Nat := wrapN (if sat then clampS y n else y) n

end Sys2Proof.Machine
end

