-- ==== Sys2Proof/Machine/ControlCore.lean ====
section
/-! DEFINITION. The control thread's words over blocks and the vcfg words: VBLK, VREPLY, VDRAINQ (R116 to R121), VSETCFGI,
VSETCFG, VDECL (R146 to R148). -/

namespace Sys2Proof.Machine

/-! ## Dispatch -/

/-- The scalars that H1 captures; every other one is 0 (R118). -/
def captured (x : Vector Word 32) (h1 : BitVec 32) : Vector Word 32 :=
  Vector.ofFn (fun (i : Fin 32) => if i.val ≠ 0 ∧ h1.getLsbD i.val then x[i] else 0)

/-- A block put into the vector queue with its captures and the fold_pending in force (R117, R148). -/
def Task.dispatchBlock (t : Task) (a : Word) (h0 h1 : BitVec 32) : Task :=
  let e : QEntry := { addr := a, h0 := h0, h1 := h1, xs := captured t.x h1, foldPending := t.foldPending,
                      serial := t.nextSerial, poison := 0 }
  { t with vq := t.vq ++ [e], nextSerial := t.nextSerial + 1 }

/-- VBLK: dispatches the block at x[xs] (R117). A captured register that is poisoned raises 0x0E, as every read of it does
(R352). -/
def execVblk (xs : BitVec 5) (s : State) : Host.Outcome State Fault Refusal :=
  s.issue .c true (fun s => s.needX [xs] [] (fun s =>
    let a := s.x xs
    if a.toNat % 4 ≠ 0 then .trap s { cause := 0x03, addr := some a }
    else orTrap s (s.codeWord a) (fun h0 => orTrap s (s.codeWord (a + 4)) (fun h1 =>
      let s := (s.afterFetch a).afterFetch (a + 4)
      if !headerOk h0 h1 then .trap s (cause 0x08)
      else if s.task.xPoison &&& h1 ≠ 0 then
        .trap s (s.xTrap (((List.range 32).filter h1.getLsbD).map (BitVec.ofNat 5)))
      else if s.task.vq.length ≥ 32 then .wait s
      else .go (s.onTask (fun t => t.dispatchBlock a h0 h1))))))

/-- Whether a block is queued or executing (R119, R120). -/
def Task.blocksLeft (t : Task) : Bool := t.block.isSome || !t.vq.isEmpty || !t.aqueue.isEmpty

/-- VREPLY: takes the oldest reply; waits while one may still arrive, and raises 0x08 when none can (R119). -/
def execVreply (xd : BitVec 5) (s : State) : Host.Outcome State Fault Refusal :=
  s.issue .c true (fun s =>
    match s.task.replies with
    | v :: rest => .go ((s.onTask (fun t => { t with replies := rest })).setX xd v)
    | [] => if s.task.blocksLeft then .wait s else .trap s (cause 0x08))

/-- VDRAINQ: completes when every instruction of every earlier block has completed (R120). -/
def execVdrainq (s : State) : Host.Outcome State Fault Refusal :=
  s.issue .c true (fun s => if s.task.blocksLeft then .wait s else .go s)

/-! ## vcfg -/

/-- A new fold put in force: every register is cleared (R147). -/
def Task.applyFold (t : Task) (fold : Nat) : Task :=
  if fold = t.fold then t else { t with fold := fold, v := Vector.replicate 32 0, vPoison := [] }

/-- vcfg written, with vl at the new vlmax (R147). -/
def Task.applyCfg (t : Task) (v : Word) (fold : Nat) : Task :=
  let t1 := { t.applyFold fold with vcfg := v }
  { t1 with vl := t1.vlmax, vstart := 0 }

/-- VSETCFG and VSETCFGI with a new value (R147): on the control core they wait until every earlier block has passed issue
and, for a new fold, completed; in a block the fold_pending is the one that its queue entry carries (R148). -/
def State.setCfg (s : State) (rd : BitVec 5) (v : Word) : Act :=
  if !vcfgOk v then .trap s illegal
  else
    match s.cur, s.task.block with
    | .control, _ =>
      if s.task.blocksLeft then .wait s
      else
        let t := s.task.applyCfg v s.task.foldPending
        .go (({ s with task := t } : State).setX rd (BitVec.ofNat 64 t.vlmax))
    | _, some b =>
      let t := s.task.applyCfg v b.foldPending
      .go (({ s with task := t } : State).setX rd (BitVec.ofNat 64 t.vlmax))
    | _, none => .wait s

/-- VSETCFGI (R147). -/
def execVsetcfgi (rd : BitVec 5) (imm : BitVec 14) (s : State) : Host.Outcome State Fault Refusal :=
  s.issue .cb true (fun s => s.needX [] [rd] (fun s => s.setCfg rd (imm.setWidth 64)))

/-- VSETCFG (R147). -/
def execVsetcfg (rd rs1 : BitVec 5) (s : State) : Host.Outcome State Fault Refusal :=
  s.issue .cb true (fun s => s.needX [rs1] [rd] (fun s => s.setCfg rd (s.x rs1)))

/-- VDECL: declares the registers and so the fold that the next vcfg word applies (R148); a count other than the vdecl of the
kernel's REGS record raises 0x08 (R23). -/
def execVdecl (code : BitVec 5) (s : State) : Host.Outcome State Fault Refusal :=
  s.issue .c (code.toNat < 3) (fun s =>
    let n := match code.toNat with
      | 0 => 32
      | 1 => 12
      | _ => 6
    let clash := match s.kernelRec with
      | some k => k.hasRegs && k.vdecl != n
      | none => false
    if clash then .trap s (cause 0x08) else .go (s.onTask (fun t => { t with foldPending := 2 ^ code.toNat })))

end Sys2Proof.Machine
end

