-- ==== Sys2Proof/Machine/Regions.lean ====
section
/-! DEFINITION. Deterministic regions: the segments of a task (R315, R316), their merges (R318) and conflicts (R319). -/

namespace Sys2Proof.Machine

/-- The place of the issuing party's word: H0 address and body offset; none on the control core. -/
def State.place (s : State) : Option (Word × Nat) :=
  match s.cur, s.task.block with
  | .control, _ => none
  | _, some b => some (b.addr, s.offset)
  | _, none => none

/-- The current segment of the task on stage, ended by the issuing word; in a meld P's or C's (R138), whose record names that
word by the origin table (R134). Of C's write set the record names C's node, as R319 asks of the task, beside the origin and the kernel that the
table gives the shared word (DESIGN CHOICE between R134 and R319, log 19). A BARA names the barrier object and the phase that merge it. -/
def State.endedSegment (s : State) (ofC : Bool) (bara : Option (Nat × Word)) : Segment :=
  let t := s.task
  let second := t.second.getD (0, [])
  let base : Segment :=
    { sid := if ofC then second.1 else t.segment, ctx := t.id.ctx, region := t.id.region, gid := t.id.gid, it := t.id.it,
      node := t.id.node, kernel := t.id.kernel,
      endPc := match s.place with
        | some (a, o) => a + 12 + BitVec.ofNat 64 (4 * o)
        | none => t.pc,
      endBlock := s.place, origin := 0, writes := t.wset.filter (fun c => c.ofC == ofC), replaced := [],
      before := if ofC then second.2 else t.before, bara := bara, merged := false,
      fseq := t.fseq }
  match s.meldOf t with
  | none => base
  | some m =>
    let o := m.originOf false ((t.pc - meldAddr m.slot).toNat / 4)
    { base with node := if ofC then m.c else t.id.node, kernel := o.2.1, endPc := o.2.2.2, origin := o.2.2.1 }

/-- A conflict: the address, the segment with the higher task ID, the other (R319). -/
structure Conflict where
  addr : Nat
  hi : Segment
  lo : Segment
  deriving DecidableEq, Repr

/-- The merged segments of a region that stand in no order to a segment (R316). -/
def State.unordered (s : State) (g : Segment) : List Segment :=
  s.segments.filter (fun o => o.merged && o.ctx == g.ctx && o.region == g.region && o.sid != g.sid
    && !g.before.contains o.sid && !o.before.contains g.sid)

/-- The conflict that the merge of a segment meets, at the lowest address (R319). -/
def Segment.conflict (g : Segment) (others : List Segment) : Option Conflict :=
  argLeast (fun c => c.addr) ((g.writes.filter (fun c => !c.direct)).flatMap (fun c =>
    (others.filter (fun o => (setGet o.writes c.key).isSome)).map (fun o =>
      if o.above g then { addr := c.va, hi := o, lo := g } else { addr := c.va, hi := g, lo := o })))

/-- What the merge of a segment ends outside its region: LR reservations of tasks (R114, R321), and records of what segments have replaced
(R317). -/
def State.breakOutside (s : State) (g : Segment) (k n : Nat) : State :=
  let drop (t : Task) : Task := if t.id.ctx == g.ctx && t.id.region == g.region then t else t.dropReservation k n
  let forget (o : Segment) : Segment := if o.ctx == g.ctx && o.region == g.region then o else o.forget k n
  { s with task := drop s.task, parked := s.parked.map drop, segments := s.segments.map forget }

/-- A segment merged (R318): its bytes are written, but for those that an unordered segment with a higher task ID has written
(R319). -/
def State.mergeSegment (s : State) (g : Segment) : State :=
  let others := s.unordered g
  let bytes := g.writes.filter (fun c => !c.direct)
  let mine := bytes.filter (fun c => !others.any (fun o => o.above g && (setGet o.writes c.key).isSome))
  let old := bytes.map (fun c => (c.key, s.peekByte c.km c.key))
  let s1 := mine.foldl (fun s c => (s.breakOutside g c.key 1).writeCoherent c.km c.key [c.byte]) s
  let s2 := s1.clearPoison none (mine.map (·.key))
  { s2 with segments := { g with merged := true, replaced := old } :: s2.segments.filter (fun o => o.sid != g.sid) }

/-- Segments merged one after another; the conflicts that they meet, each with the segment whose merge met it. -/
def State.mergeAll (s : State) : List Segment → State × List (Segment × Conflict)
  | [] => (s, [])
  | g :: gs =>
    let r := (s.mergeSegment g).mergeAll gs
    match g.conflict (s.unordered g) with
    | some c => (r.1, (g, c) :: r.2)
    | none => r

/-- The record of a conflict, of the two segments alone but for its seq (R123, R319). -/
def Conflict.record (c : Conflict) (fdom seq : Nat) : BitVec 512 :=
  let flags := 0x10 + (if c.hi.endBlock.isSome then 1 else 0) + (if c.hi.origin ≠ 0 then 4 else 0)
  let b := c.hi.endBlock.getD (0, 0)
  BitVec.ofNat 512 (leVal (layBytes [(0x0A, 1), (flags, 1), (fdom, 2), (c.hi.node, 4), (c.hi.region.toNat, 8),
    (c.hi.kernel.toNat, 8), (c.hi.endPc.toNat, 8), (b.1.toNat, 8), (b.2, 2), (c.hi.origin, 2), (0, 4), (c.addr, 8),
    (c.lo.node, 4), (seq, 4)]))

/-- The fault of a conflict for a task. -/
def State.conflictTrap (s : State) (t : Task) (c : Conflict) : Trap :=
  { cause := 0x0A, whole := some (c.record (s.effFdom t.id.ctx t.id.region) t.fseq) }

/-- The next segment of the task on stage, after some that it has ended. -/
def State.nextSegmentOf (s : State) (ended : List Segment) : State :=
  let before := (s.task.before ++ ended.map (·.sid)).eraseDups
  { s with task := { s.task with before := before, segment := s.nextSegment, wset := [] }
           nextSegment := s.nextSegment + 1 }

/-- The segments that end now: in a meld P's, then C's (R138). -/
def State.endingNow (s : State) : List Segment :=
  s.endedSegment false none :: (if s.task.second.isSome then [s.endedSegment true none] else [])

/-- The merge at a TDONE or REL, outside deterministic regions nothing: what follows, or the fault of the first conflict. In a meld C's write
set is merged also where P's has met a conflict, before the meld ends (DESIGN CHOICE: R319 and R336 speak of one set, log 19). -/
def State.mergeNow (s : State) (k : State → Act) : Act :=
  if !s.det then k s
  else
    let ended := s.endingNow
    let r := s.mergeAll ended
    match r.2 with
    | (_, c) :: _ => .trap r.1 (r.1.conflictTrap r.1.task c)
    | [] => k (r.1.nextSegmentOf ended)

/-- The record of a conflict met by a segment whose task has ended already: delivered, with the act of its domain (R319, R336). -/
def State.reportConflict (s : State) (p : Segment × Conflict) : State :=
  let fdom := s.effFdom p.1.ctx p.1.region
  let s1 := s.deliverCounted p.1.gid p.1.ctx fdom (p.2.record fdom p.1.fseq)
  if s.domainHalts p.1.ctx fdom then s1.haltDomain p.1.ctx fdom else s1

/-- The tasks of conflicts met by others than the one on stage ended (R319). -/
def State.endConflicting (s : State) (cs : List (Segment × Conflict)) : State :=
  cs.foldl (fun s p =>
    match s.tasks.find? (fun t => t.id.gid == p.1.gid && t.id.node == p.1.node && t.id.it == p.1.it) with
    | none => s.reportConflict p
    | some t =>
      if t.id.tid == s.task.id.tid then s
      else s.deliverFault t 0x0A (p.2.record (s.effFdom t.id.ctx t.id.region) t.fseq)) s

/-- The completion of a phase (R318): every segment that ended at a BARA of it merged in task order. -/
def State.mergePhase (s : State) (key : Nat) (phase : Word) (k : State → Act) : Act :=
  let due := s.segments.filter (fun g => g.bara == some (key, phase) && !g.merged)
  let order := due.foldl (fun acc g => acc.filter (fun o => !o.above g) ++ g :: acc.filter (fun o => o.above g)) []
  let r := s.mergeAll order
  let s1 := r.1.endConflicting r.2
  match r.2.find? (fun p => p.1.gid == s.task.id.gid && p.1.node == s.task.id.node && p.1.it == s.task.id.it) with
  | some (_, c) => .trap s1 (s1.conflictTrap s1.task c)
  | none => k s1

end Sys2Proof.Machine
end

