-- ==== Sys2Proof/Machine/Sync.lean ====
section
/-! DEFINITION. The sync group: sync objects (R298, R299), SYBIND, ACQ, REL, FENCEV, BARA, BARW, PUBLISH (R300 to R304). Accesses
are performed when their words issue (log 4), so the waits for earlier accesses are met at once; what remains are the waits for
copies, for a phase to end, and the merges of deterministic regions. -/

namespace Sys2Proof.Machine

/-! ## Sync objects -/

/-- The first access to an object: the way to it, then its poison (R353, R371). -/
def State.syncAccess (s : State) (p : Place) : Except Trap Place :=
  match s.reach (some (s.dieOf s.task)) p 64 .atomic with
  | .error t => .error t
  | .ok p => s.cleanDirect p 64

/-- relseq := relseq + 1 (R301). -/
def State.bumpRelseq (s : State) (p : Place) : State := s.setField p 0x18 8 (s.field p 0x18 8 + 1)

/-- A word of the sync group over an object: its registers read, its object checked, then a test of its own that reads nothing of the
object, then the object read (R239). -/
def State.onObject (s : State) (rs1 : BitVec 5) (more : List (BitVec 5)) (k : State → Place → Act)
    (first : State → Option Trap := fun _ => none) : Act :=
  s.needX (rs1 :: more) [] (fun s => orTrap s (s.syncObject (s.x rs1)) (fun p =>
    match first s with
    | some t => .trap s t
    | none => orTrap s (s.syncAccess p) (fun p => k (s.recallForRead p.key 64) p)))

/-! ## Binding, acquire, release -/

/-- The range of an object bound (R300), and its place among the bound objects of its context (R266). -/
def State.bindRange (s : State) (o : Word) (p : Place) (b z : Nat) : State :=
  let s1 := if s.field p 0x10 8 = 0 then s else s.bumpRelseq p
  let s2 := (s1.setField p 0x00 8 b).setField p 0x10 8 z
  let here : Bound := { ctx := s.task.id.ctx, obj := o.toNat }
  { s2 with bounds := s2.bounds.filter (fun x => x != here) ++ (if z = 0 then [] else [here]) }

/-- SYBIND (R300). -/
def execSybind (rs1 rs2 rs3 : BitVec 5) (s : State) : Host.Outcome State Fault Refusal :=
  s.issue .cb true (fun s => s.onObject rs1 [rs2, rs3] (fun s p => .go (s.bindRange (s.x rs1) p (s.x rs2).toNat (s.x rs3).toNat))
    (fun s =>
      let b := (s.x rs2).toNat
      let z := (s.x rs3).toNat
      if b % 128 ≠ 0 ∨ z % 128 ≠ 0 ∨ b + z > 2 ^ 48 then some (cause 0x03) else none))

/-- ACQ: earlier releases have taken effect, so it orders nothing more (R301, R322). -/
def execAcq (rs1 : BitVec 5) (scope : BitVec 3) (s : State) : Host.Outcome State Fault Refusal :=
  s.issue .cb (scope.toNat < 6) (fun s => s.onObject rs1 [] (fun s _ => .go s))

/-- REL (R301). In a deterministic region it waits for the copies that the task has issued, and ends a segment (R318). -/
def execRel (rs1 : BitVec 5) (scope : BitVec 3) (s : State) : Host.Outcome State Fault Refusal :=
  s.issue .cb (scope.toNat < 6) (fun s => s.onObject rs1 [] (fun s p =>
    if s.det && s.copiesLeft (fun _ => true) then .wait s else s.mergeNow (fun s => .go (s.bumpRelseq p))))

/-- FENCEV: every earlier access has been performed (R302). -/
def execFencev (scope : BitVec 3) (s : State) : Host.Outcome State Fault Refusal :=
  s.issue .cb (scope.toNat < 6) (fun s => .go s)

/-! ## Barriers -/

/-- The fields of an object after one more arrival (R303), and whether it completes the phase. -/
def State.arrive (s : State) (p : Place) : State × Bool :=
  let n := s.field p 0x24 4 + 1
  if s.field p 0x20 4 ≤ n then ((s.setField p 0x24 4 0).setField p 0x28 8 (s.field p 0x28 8 + 1), true)
  else (s.setField p 0x24 4 n, false)

/-- BARA (R303). In a deterministic region it ends a segment. The segments of a phase merge when it completes, whoever the last to
arrive is (R318, R322). -/
def execBara (rs1 : BitVec 5) (scope : BitVec 3) (s : State) : Host.Outcome State Fault Refusal :=
  s.issue .cb (scope.toNat < 6) (fun s => s.onObject rs1 [] (fun s p =>
    let o := (s.x rs1).toNat
    if s.field p 0x20 4 = 0 then .trap s (cause 0x08)
    else if s.task.slots.any (fun a => a.obj == o) || s.task.slots.length ≥ 4 then .trap s (cause 0x08)
    else if s.det && s.copiesLeft (fun _ => true) then .wait s
    else
      let ph : Word := BitVec.ofNat 64 (s.field p 0x28 8)
      let r := s.arrive p
      let s1 := r.1.onTask (fun t => { t with slots := t.slots ++ [{ obj := o, phase := ph }] })
      if !s.det then (if r.2 then s1.mergePhase p.key ph (fun s => .go s) else .go s1)
      else
        let g := s1.endedSegment false (some (p.key, ph))
        let s2 := ({ s1 with segments := g :: s1.segments } : State).nextSegmentOf [g]
        if r.2 then s2.mergePhase p.key ph (fun s => .go s) else .go s2))

/-- The segments of a phase of a barrier object, or of an earlier one, are ordered before what follows a BARW (R316). -/
def State.orderAfterPhase (s : State) (key : Nat) (ph : Word) : State :=
  if !s.det then s
  else
    let segs := s.segments.filter (fun g =>
      match g.bara with
      | some (k, q) => k == key && q.toNat ≤ ph.toNat
      | none => false)
    s.onTask (fun t => { t with before := (t.before ++ segs.map (·.sid) ++ segs.flatMap (·.before)).eraseDups })

/-- BARW: it needs a matching arrival, waits until its phase has ended, and frees its slot (R303). -/
def execBarw (rs1 : BitVec 5) (scope : BitVec 3) (s : State) : Host.Outcome State Fault Refusal :=
  s.issue .cb (scope.toNat < 6) (fun s => s.onObject rs1 [] (fun s p =>
    let o := (s.x rs1).toNat
    match s.task.slots.find? (fun a => a.obj == o) with
    | none => .trap s (cause 0x08)
    | some a =>
      if s.field p 0x28 8 = a.phase.toNat then .wait s
      else
        .go ((s.onTask (fun t => { t with slots := t.slots.filter (fun x => x.obj != o) })).orderAfterPhase p.key a.phase))
    (fun s => if s.task.slots.any (fun a => a.obj == (s.x rs1).toNat) then none else some (cause 0x08)))

/-! ## PUBLISH -/

/-- PUBLISH (R267, R304): waits for the task's copies into the range, inverts the selector, releases. A deterministic region
admits none (R322). -/
def execPublish (rs1 : BitVec 5) (s : State) : Host.Outcome State Fault Refusal :=
  s.issue .cb true (fun s => s.onObject rs1 [] (fun s p =>
    let b := s.field p 0x00 8
    let z := s.field p 0x10 8
    if s.det || z = 0 then .trap s (cause 0x08)
    else if s.copiesLeft (fun c => c.writesInto b z) then .wait s
    else .go ((s.setField p 0x08 8 (s.field p 0x08 8 ^^^ 1)).bumpRelseq p)))

end Sys2Proof.Machine
end

