-- ==== Sys2Proof/Machine/Copies.lean ====
section
/-! DEFINITION. Asynchronous copies: layouts (R248), the copy words (R249, R250), tokens and chains (R251, R252), the engine's runs
(R254 to R259), the injector (R391), and COPY nodes (R262). -/

namespace Sys2Proof.Machine

/-! ## Commands and runs -/

/-- What the run sequencer carries out: for a context, from a die; who would wait for a page. -/
structure Job where
  who : Nat × Nat × Nat
  ctx : Nat
  issuer : Nat
  op : Nat
  src : Word
  dst : Word
  srcLay : List (BitVec 64)
  dstLay : List (BitVec 64)
  deriving DecidableEq, Repr

/-- How far a command has come (R256): bytes done, the running value (B << 16) + A, its mark of the injector, the home device of its first
destination run (R259). -/
structure Progress where
  done : Nat
  running : Nat
  flip : Option Nat
  home : Option Nat
  deriving DecidableEq, Repr

/-- How a command stands after its runs: complete, holding for a page whose miss has an info, or failed with a cause at a byte of the
source or destination. -/
inductive CopyEnd where
  | complete
  | hold (va : Word) (info : BitVec 32)
  | fail (cause : Nat) (addr : Word) (dst : Bool)
  deriving DecidableEq, Repr

/-- Bytes of a job and the addresses of byte k. -/
def Job.total (j : Job) : Nat := layoutTotal j.srcLay
def Job.srcAddr (j : Job) (k : Nat) : Word := walkAddr j.src j.srcLay k
def Job.dstAddr (j : Job) (k : Nat) : Word := walkAddr j.dst j.dstLay k

/-- The place of a byte of the source, or of the destination in its hidden backing (R254). -/
def State.srcPlace (s : State) (j : Job) (k : Nat) : Except Trap Place := s.translate j.ctx (some j.issuer) (j.srcAddr k) 1 .read
def State.dstPlace (s : State) (j : Job) (k : Nat) : Except Trap Place :=
  s.translate j.ctx (some j.issuer) (j.dstAddr k) 1 .write (hidden := true)

/-! ## Waits for pages (R65, R66, R255, R417) -/

/-- Whether the fault service brings a page that a translation missed (R255, R335): one that it can map, and that the host has not refused
to the one who waits. -/
def State.pageComes (s : State) (who : Nat × Nat × Nat) (ctx : Nat) (t : Trap) : Bool :=
  t.cause == 0x05 && !t.info.getLsbD 1 &&
  match t.addr with
  | none => false
  | some a => a.toNat < 2 ^ 48 && !s.unservable.contains (ctx, a.toNat / 4096)
      && !s.pageWaits.contains { who := who, ctx := ctx, page := a.toNat / 4096, refused := true }

/-- Whether the host has been asked for a page that one waits for, and has not answered (R66): until then it stands still. -/
def State.pageAsked (s : State) (who : Nat × Nat × Nat) : Bool :=
  s.port0.items.any (fun i =>
    match i.req with
    | .page w _ _ => w == who
    | _ => false)

/-- The wait for a page noted, or asked of the host under FLTSVC with the fault's record, which a meld counts (R123, R140, R358); one that
stands already goes on in the mode that it was begun in (R65, R66). -/
def State.askPage (s : State) (who : Nat × Nat × Nat) (ctx die gid : Nat) (va : Word) (record : BitVec 512) : State :=
  let w : PageWait := { who := who, ctx := ctx, page := va.toNat / 4096, refused := false }
  if s.pageAsked who || s.pageWaits.contains w then s
  else
    let s1 := ({ s with pageWaits := s.pageWaits.filter (fun o => o.who != who || o.refused) } : State).countMeld gid record
    if s.port0.duty.getLsbD 2 then s1.postRequest 3 die ctx (.page who ctx (4096 * w.page)) (record.setWidth 896)
    else { s1 with pageWaits := w :: s1.pageWaits }

/-- The record of a miss of a node without a task, at which its command or its predicate waits (R123, R417). -/
def State.missRecord (s : State) (g : Graph) (n : Nat) (kernel va : Word) (info : BitVec 32) : BitVec 512 :=
  nodeRecord 0x10 (s.effFdom g.ctx g.region) n g.region kernel 0x05 va info.toNat

/-- The waits of one that goes on without a page ended. -/
def State.endWait (s : State) (who : Nat × Nat × Nat) : State := { s with pageWaits := s.pageWaits.filter (fun o => o.who != who) }

/-! ## Checks of a run -/

/-- What the check of a run finds. -/
inductive RunCheck where
  | run (ps : List (Place × Place))
  | stop (e : CopyEnd)

/-- What a byte's failed translation does to its command. -/
def State.missed (s : State) (j : Job) (t : Trap) (at_ : Word) (dst : Bool) : CopyEnd :=
  if s.pageComes j.who j.ctx t then .hold at_ t.info else .fail t.cause at_ dst

/-- The page that a byte of a command lies in, with its number; none where no walk reaches a leaf for it. -/
def State.pageAt (s : State) (j : Job) (va : Word) : Option (Page × Nat) :=
  match s.context j.ctx with
  | none => none
  | some c =>
    match s.pageOf (some j.issuer) c va.toNat with
    | .ok p => some (p, va.toNat / p.size)
    | .error _ => none

/-- How many of the next n bytes from offset k on lie in given pages: the length of a run (R254). -/
def State.runLength (s : State) (j : Job) (ps pd : Option (Page × Nat)) (k : Nat) : Nat → Nat
  | 0 => 0
  | n + 1 =>
    if s.pageAt j (j.srcAddr k) == ps && s.pageAt j (j.dstAddr k) == pd then s.runLength j ps pd (k + 1) n + 1 else 0

/-- The places of some bytes, or the first fault among them. -/
def allPlaces : List (Except Trap Place) → Except Trap (List Place)
  | [] => .ok []
  | .error t :: _ => .error t
  | .ok p :: rest =>
    match allPlaces rest with
    | .error t => .error t
    | .ok ps => .ok (p :: ps)

/-- The run that begins at offset k, checked whole (R254, R259): its source, then its destination, so that a failure of both names the
source (R260). A home of the destination that is no peer's or not the one of the first run, and a source at a peer, end a CPYX; the source's
home is judged with the source. -/
def State.checkRun (s : State) (j : Job) (first : Option Nat) (k : Nat) : RunCheck :=
  let a := j.srcAddr k
  let b := j.dstAddr k
  let n := s.runLength j (s.pageAt j a) (s.pageAt j b) k (j.total - k)
  let at_ := (List.range (max n 1)).map (· + k)
  match allPlaces (at_.map (s.srcPlace j)), allPlaces (at_.map (s.dstPlace j)) with
  | .error t, _ => .stop (s.missed j t a false)
  | .ok ps, qs =>
    let peer (h : Nat) : Bool := 0 < h && h < 0xFFF
    let home (l : List Place) : Nat := (l.head?.map (·.page.home)).getD 0
    if j.op == 2 && peer (home ps) then .stop (.fail 0x06 a false)
    else
      match qs with
      | .error t => .stop (s.missed j t b true)
      | .ok qs =>
        if j.op == 2 && (!peer (home qs) || home qs != first.getD (home qs)) then .stop (.fail 0x06 b true)
        else if ps.any (fun p => s.readPoisoned p.key 1) then .stop (.fail 0x0E a false)
        else .run (ps.zip qs)

/-- The poisoned byte of the source at which a run that begins at offset k stops. -/
def State.poisonedSource (s : State) (j : Job) (k : Nat) : Option Nat :=
  (rangeFrom k j.total).findSome? (fun i => match s.srcPlace j i with
    | .ok p => if s.readPoisoned p.key 1 then some p.key else none
    | .error _ => none)

/-! ## Values -/

/-- One byte into an Adler-32 (R258). -/
def adlerStep (r : Nat) (x : Byte) : Nat :=
  let a := (r % 65536 + x.toNat) % 65521
  let b := (r / 65536 + a) % 65521
  b * 65536 + a

/-- The byte of a source place, as a state has it. -/
def State.byteAt (s : State) (p : Place) : Byte := (s.viewBytes p 1).headD 0

/-- The highest of some offsets whose destination byte is the source byte of an offset, of a run from offset lo on (R257). -/
def overlapAt (ps : List (Place × Place)) (lo k : Nat) : Option Nat :=
  match ps[k - lo]? with
  | none => none
  | some (a, _) => ((List.range ps.length).reverse.find? (fun i => (ps[i]?.map (·.2.key)) == some a.key)).map (lo + ·)

/-- The offsets whose values make up that of an offset k, from k on, when each takes the value that the copy writes at the next one; where
they turn in a circle, its highest offset is the last, and the answer says so. -/
def copyChain (next : Nat → Option Nat) : Nat → List Nat → Nat → List Nat × Bool
  | 0, path, k => (path ++ [k], false)
  | n + 1, path, k =>
    let path := path ++ [k]
    match next k with
    | none => (path, false)
    | some i =>
      if path.contains i then
        let high := (path.dropWhile (· != i)).foldl max 0
        (path.takeWhile (· != high) ++ [high], true)
      else copyChain next n path i

/-! ## The injector -/

/-- What the first run of a CPYX that leaves this Brynter meets at the copy injector (R391): it is counted, and once as many as the injector
skips have passed, a command that is long enough is the one to be hit, marked with the arm write. One that ends before the byte leaves keeps
the injector armed and no other command is hit for it (DESIGN CHOICE, log 21). -/
def State.injectCopy (s : State) (total : Nat) : State × Option Nat :=
  let p := s.port0
  if !p.injArm || p.injChosen then (s, none)
  else
    let hit := p.injSkip ≤ p.injSeen && p.injOff < total
    ({ s with port0 := { p with injSeen := p.injSeen + 1, injChosen := hit } }, if hit then some p.injArms else none)

/-- A run of n bytes from offset lo on of a command that may be the one to be hit leaves (R391): the injector fires where it is still
armed by the same write and its byte is among them, and stands armed no more. The answer is the byte's offset and the bit that flips. -/
def State.fireInjector (s : State) (mark : Option Nat) (lo n : Nat) : State × Option (Nat × Nat) :=
  let p := s.port0
  if p.injArm && mark == some p.injArms && lo ≤ p.injOff && p.injOff < lo + n then
    ({ s with port0 := { p with injArm := false } }, some (p.injOff, p.injBit))
  else (s, none)

/-- The byte of an offset with a flip. -/
def flipAt (flip : Option (Nat × Nat)) (k : Nat) (x : Byte) : Byte :=
  match flip with
  | some (o, b) => if o = k then x ^^^ (1#8 <<< b) else x
  | none => x

/-- The byte written at offset k of a run, whose places are given and which begins where the command stands, by a step that began in state
s0. A source byte that is itself a destination byte of the copy gives its value before the copy or the value that the copy wrote there:
which one is not stated (R257); a free bit for each offset chooses (log 5). What an earlier step of a command has written stands in memory,
and what a later run will write is not there yet. -/
def State.copyByte (s s0 : State) (g : Progress) (flip : Option (Nat × Nat)) (ps : List (Place × Place)) (k : Nat) : Byte :=
  let free (i : Nat) : Bool := Config.freeBit (s0.freeCtr * 2 ^ 40 + i)
  let c := copyChain (fun i =>
    match overlapAt ps g.done i with
    | none => none
    | some o => if free i then some o else none) ps.length [] k
  let m := (c.1.getLast?).getD k
  match ps[m - g.done]? with
  | none => 0
  | some (a, _) =>
    let old := s0.byteAt a
    let now := s.byteAt a
    c.1.foldl (fun x i => flipAt flip i x) (if old = now then now else if free m && !c.2 then now else old)

/-! ## Runs -/

/-- The bytes of one run written in offset order: to memory, or to the write set of a deterministic region (R261). -/
def State.writeRun (s : State) (g : Progress) (val : Nat → Byte) : List (Place × Place) → Except Trap (State × Progress)
  | [] => .ok (s, g)
  | (a, b) :: ps =>
    let x := val g.done
    match (s.afterRead a 1 0).storeAt b [x] with
    | .error t => .error t
    | .ok s1 => s1.writeRun { g with done := g.done + 1, running := adlerStep g.running x } val ps

/-- The runs of a job from where it stands (R254), in a step that began in state s0: each is checked whole, then written; a run that fails
leaves the earlier ones done. One whose bytes the stash budget of a deterministic region does not admit ends with 0x0C, naming its destination:
no table gives that case a cause (R254, R318; DESIGN CHOICE, log 20). -/
def State.runCopy (s s0 : State) (j : Job) : Nat → Progress → State × Progress × CopyEnd
  | 0, g => (s, g, .complete)
  | n + 1, g =>
    if j.total ≤ g.done then (s, g, .complete)
    else
      match s.checkRun j g.home g.done with
      | .stop e => (s, g, e)
      | .run ps =>
        let r := if j.op == 2 && g.done == 0 then s.injectCopy j.total else (s, g.flip)
        let g0 := { g with flip := r.2, home := g.home.orElse (fun _ => ps.head?.map (·.2.page.home)) }
        let f := r.1.fireInjector g0.flip g.done ps.length
        match f.1.writeRun g0 (f.1.copyByte s0 g0 f.2 ps) ps with
        | .error t => (s, g, .fail t.cause (j.dstAddr g.done) true)
        | .ok (s1, g1) =>
          let keys := ps.map (fun p => p.2.key)
          (if s.det then s1 else s1.clearPoison none keys).runCopy s0 j n g1

/-- A job carried on from where it stands. A stored error that stops it is logged as consumed (R355). -/
def State.carryOn (s : State) (j : Job) (g : Progress) : State × Progress × CopyEnd :=
  let r := s.runCopy s j (j.total + 1) g
  match r.2.2 with
  | .fail 0x0E _ false =>
    match r.1.poisonedSource j r.2.1.done with
    | some k => (r.1.logMemory 3 k s.task.id.region s.task.id.node, r.2)
    | none => r
  | _ => r

/-! ## Statuses (R251, R252, R258) -/

/-- The status of a command that is complete. -/
def doneStatus (op : Nat) (g : Progress) (last : Bool) (expect : Nat) : Word :=
  if op = 0 then BitVec.ofNat 64 (g.done * 2 ^ 24)
  else BitVec.ofNat 64 (g.running * 2 ^ 32 + 0x100 + (if last && g.running != expect then 0x09 else 0))

/-- The status of a command that stopped short. -/
def failStatus (cause done : Nat) : Word := BitVec.ofNat 64 (done * 2 ^ 24 + cause)

/-- What a checked command with first = 0 makes of the status that it meets: it hands on a failure, refuses one without a
running value, or starts from it (R252). -/
def metStatus (st : Word) : Sum Word Nat :=
  if fieldN st 0 8 ≠ 0 then .inl st
  else if !st.getLsbD 8 then .inl (failStatus 0x08 0)
  else .inr (fieldN st 32 32)

/-! ## The copy words -/

/-- Elements 0 to n − 1 of a register at 64 bits (R248). -/
def Task.layout (t : Task) (v n : Nat) : List (BitVec 64) := (List.range n).map (fun i => BitVec.ofNat 64 (t.elem 64 v i))

/-- The checks of two layouts (R250). -/
def layoutsOk (a b : List (BitVec 64)) : Bool :=
  a.length != 0 && a.length ≤ 16 && (a ++ b).all (fun l => fieldN l 0 24 != 0) && layoutTotal a == layoutTotal b
    && layoutTotal a < 2 ^ 40

/-- The command that a word queues. It stands in a chain behind the newest command on its token while that is pending, or while its status is
what the token holds; else it meets the token's value (R252). -/
def State.newCopy (s : State) (word : BitVec 32) (op : Nat) (rd : BitVec 5) (src dst : Word) (a b : List (BitVec 64)) (ctl : Word)
    (trap : Bool) : Copy :=
  let prev := match s.task.onToken rd with
    | (i, c) :: _ => if c.status.isNone || (!c.overwritten && c.status == some (s.x rd)) then some i else none
    | [] => none
  { word := word, off := s.offset, serial := (s.task.block.map (·.serial)).getD 0,
    block := (s.task.block.map (·.addr)).getD 0, op := op, trap := trap, tok := rd.toNat, src := src, dst := dst, srcLay := a,
    dstLay := b, ctl := ctl, tokIn := s.x rd, after := prev, done := 0, running := 1, started := false, home := none, flip := none,
    status := none, failAt := none, handedOn := false, read := false, overwritten := false }

/-- The word of a copy (R112). -/
def copyEncoding (op : Nat) (rd : BitVec 5) (pair : BitVec 4) (rs1 rs2 : BitVec 5) (trap : Bool) : BitVec 32 :=
  pair ++ BitVec.ofBool trap ++ BitVec.ofNat 2 op ++ rs2 ++ rs1 ++ 3#3 ++ rd ++ 0x7B#7

/-! ## The engine at a block copy (R251, R252, R256) -/

/-- The job of a block copy, which stands at place k among those of its task. -/
def State.jobOf (s : State) (k : Nat) (c : Copy) : Job :=
  { who := (s.task.id.tid, k, 0), ctx := s.task.id.ctx, issuer := s.dieOf s.task, op := c.op, src := c.src, dst := c.dst, srcLay := c.srcLay, dstLay := c.dstLay }

/-- A status written: to the command, and to its token where the block still runs and no later command names it (R253, R392). -/
def Task.endCopy (t : Task) (k : Nat) (st : Word) (failAt : Option (Word × Bool)) : Task :=
  let t1 := { t with copies := t.copies.mapIdx (fun i (c : Copy) => if i = k then { c with status := some st, failAt := failAt } else c) }
  match t.copies[k]?, t1.block with
  | some c, some b =>
    let newest := match t1.onToken (BitVec.ofNat 5 c.tok) with
      | (i, _) :: _ => i == k
      | [] => false
    if c.serial == b.serial && newest then
      { t1 with block := some { b with xs := b.xs.setIfInBounds c.tok st, poison := b.poison &&& ~~~(1#32 <<< c.tok) } }
    else t1
  | _, _ => t1

/-- How far a command of a block has come, and that noted in it: the copy from which its task's image is made (R256). -/
def Copy.stands (c : Copy) : Progress := { done := c.done, running := c.running, flip := c.flip, home := c.home }
def Task.noteCopy (t : Task) (k : Nat) (g : Progress) : Task :=
  { t with copies := t.copies.mapIdx (fun i (c : Copy) =>
      if i = k then { c with started := true, done := g.done, running := g.running, flip := g.flip, home := g.home } else c) }

/-- Where a command starts: its progress, or the status that it writes without copying (R252). Of a status of cause 0x08, at which no byte
failed, and of a failure in a token that no command wrote the record names no address, as of 0x09 (R260; DESIGN CHOICE, log 20). -/
def Task.copyStart (t : Task) (c : Copy) : Sum (Word × Option (Word × Bool)) Progress :=
  if c.started || c.op == 0 || c.ctl.getLsbD 32 then .inr c.stands
  else
    let prev := c.after.bind (fun i => t.copies[i]?)
    let st := match prev with
      | some p => p.status.getD 0
      | none => c.tokIn
    match metStatus st with
    | .inl e => .inl (e, if fieldN st 0 8 = 0 then none else prev.bind (·.failAt))
    | .inr r => .inr { c.stands with running := r }

/-- The time of progress of the task on stage brought up to now (R357). -/
def State.progress (s : State) : State := s.onTask (fun t => { t with progressAt := s.micros })

/-- The command before another in its chain hands its status on (R252, R392). -/
def Task.handOn (t : Task) (c : Copy) : Task :=
  { t with copies := t.copies.mapIdx (fun i (p : Copy) => if some i = c.after then { p with handedOn := true } else p) }

/-- The record of a miss at which a run of a command waits: that of its copy word (R123, R255; that the record names the word is a DESIGN
CHOICE, log 36). -/
def State.copyMiss (s : State) (c : Copy) (va : Word) (info : BitVec 32) : BitVec 512 :=
  s.recordOf s.task .vector { cause := 0x05, info := info, addr := some va, inBlock := some (c.block, c.off) }

/-- A command of the task on stage carried on from where it stands. A run or the command completed is progress, a run held is none
(R357). -/
def State.stepCopy (s : State) (k : Nat) (c : Copy) : State :=
  let s := s.onTask (fun t => t.handOn c)
  match s.task.copyStart c with
  | .inl (st, f) => (s.onTask (fun t => t.endCopy k st f)).progress
  | .inr g =>
    let j := s.jobOf k c
    match s.carryOn j g with
    | (s1, g1, .complete) =>
      ((s1.onTask (fun t => (t.noteCopy k g1).endCopy k (doneStatus c.op g1 (c.ctl.getLsbD 33) (fieldN c.ctl 0 32)) none)).progress).endWait
        j.who
    | (s1, g1, .fail cause a d) =>
      ((s1.onTask (fun t => (t.noteCopy k g1).endCopy k (failStatus cause g1.done) (some (a, d)))).progress).endWait j.who
    | (s1, g1, .hold va info) =>
      let s2 := s1.onTask (fun t => t.noteCopy k g1)
      (if g.done < g1.done then s2.progress else s2).askPage j.who j.ctx j.issuer s.task.id.gid va (s2.copyMiss c va info)

/-- The engine takes up command k of the task on stage, once the command before it in its chain has written its status (R251, R252); none
where it has ended, must wait, or waits for the host's answer on a page (R66). -/
def State.takeUp (s : State) (k : Nat) : Option State :=
  match s.task.copies[k]? with
  | none => none
  | some c =>
    let ready := match c.after with
      | none => true
      | some i => ((s.task.copies[i]?).map (·.status.isSome)).getD true
    if c.status.isSome || !ready || s.pageAsked (s.task.id.tid, k, 0) then none else some (s.stepCopy k c)

/-- COPY_COMPLETE: the engine takes up command k of a task that runs. A run whose page the fault service brings holds the command (R255), until
the host answers if it has been asked (R66). -/
def execCopyComplete (tid k : Nat) (s : State) : Host.Outcome State Fault Refusal :=
  let s1 := { s.onStage tid with cur := .vector }
  if s1.task.id.tid ≠ tid || s1.task.status != .running then .next s
  else
    match s1.takeUp k with
    | none => .next s
    | some t => .next t.settle

/-! ## The copy words (R250) -/

/-- A copy word (R250). A pending token does not hold it (R252); a free command slot does. Where a poisoned layout, ctl or base, or the
failed trapped token of a source, meets a failing check, no rule says which fault comes first: the one that the reading raises does
(DESIGN CHOICE, log 17). In a deterministic region the engine takes the command up at once, so that it reads the view of its place in program
order, and its writes stand before those of later words (R317; DESIGN CHOICE, log 19). -/
def State.copyWord (s : State) (op : Nat) (rd : BitVec 5) (pair : BitVec 4) (rs1 rs2 : BitVec 5) (trap : Bool) : Act :=
  let a := 2 * pair.toNat
  let n := s.task.vl
  s.vectorWord { srcs := [(a, 1), (a + 1, 1)], dsts := [] } 1
    (fun _ => [reading a 64 (List.range (min n 17)), reading (a + 1) 64 (List.range (min n 17))]
      ++ (if op = 0 then [] else [reading a 64 [16]]))
    (fun s => s.needX [rs1, rs2] [] (fun s =>
      let la := s.task.layout a n
      let lb := s.task.layout (a + 1) n
      let ctl : Word := if op = 0 then 0 else BitVec.ofNat 64 (s.task.elem 64 a 16)
      if 16 < n || !layoutsOk la lb || fieldN ctl 34 30 ≠ 0 then .trap s (cause 0x08)
      else if op ≠ 0 && !ctl.getLsbD 32 && !s.task.pending rd && s.xBad [rd] then .trap s (s.xTrap [rd])
      else if s.copySlots s.task.id.section_ = 0 then .wait s
      else
        let c := s.newCopy (copyEncoding op rd pair rs1 rs2 trap) op rd (s.x rs1) (s.x rs2) la lb ctl trap
        let s1 := s.onTask (fun t => { t with copies := t.copies ++ [c] })
        .go (if s1.det then (s1.takeUp s.task.copies.length).getD s1 else s1)))

/-- CPY. -/
def execCpy (rd : BitVec 5) (pair : BitVec 4) (rs1 rs2 : BitVec 5) (s : State) : Host.Outcome State Fault Refusal :=
  s.issue .b (rd != 0) (fun s => s.copyWord 0 rd pair rs1 rs2 false)

/-- CPYC. -/
def execCpyc (rd : BitVec 5) (pair : BitVec 4) (rs1 rs2 : BitVec 5) (trap : BitVec 1) (s : State) :
    Host.Outcome State Fault Refusal :=
  s.issue .b (rd != 0) (fun s => s.copyWord 1 rd pair rs1 rs2 (trap == 1))

/-- CPYX. -/
def execCpyx (rd : BitVec 5) (pair : BitVec 4) (rs1 rs2 : BitVec 5) (trap : BitVec 1) (s : State) :
    Host.Outcome State Fault Refusal :=
  s.issue .b (rd != 0) (fun s => s.copyWord 2 rd pair rs1 rs2 (trap == 1))

/-- The copies of a task whose status TDONE raises (R253): the first, in issue order, that is the last on its token, carries the
trap bit, ended with a cause, and was never read. -/
def Task.doneTrap (t : Task) : Option Trap :=
  (t.copies.mapIdx (fun i c => (i, c))).findSome? (fun p =>
    let later := (t.copies.drop (p.1 + 1)).any (fun o => o.serial == p.2.serial && o.tok == p.2.tok)
    if later || p.2.read then none else p.2.fault.map (fun f => { f with inBlock := some (p.2.block, p.2.off) }))

/-! ## COPY nodes (R262) -/

/-- A node's engine command in the place of the task on stage, for the work of f: its accesses are those of a task of the node
(R54, R315). -/
def State.asEngine {α : Type} (s : State) (g : Graph) (n : Node) (f : State → State × α) : State × Task × α :=
  let t : Task :=
    { Task.vacant with
      status := .running
      id := { Ident.none with ctx := g.ctx, gid := g.gid, node := n.index, region := g.region, section_ := n.section_, it := n.it,
                              kernel := n.code }
      pc := n.code, before := s.orderedBefore g n, segment := s.nextSegment }
  let r := f { s with task := t, parked := s.task :: s.parked, cur := .vector, nextSegment := s.nextSegment + 1 }
  match r.1.parked with
  | back :: rest => ({ r.1 with task := back, parked := rest, cur := s.cur }, r.1.task, r.2)
  | [] => (r.1, r.1.task, r.2)

/-- A faulted retirement with a status as cause (R262): its record names the byte that failed. -/
def State.faultCommand (s : State) (g : Graph) (n : Node) (cause : Nat) (info : BitVec 32) (addr : Option Word) : State :=
  s.faultNode g.gid n.index (if addr.isSome then 0x10 else 0) n.code cause (addr.getD 0) info.toNat

/-- A node's command retired: in a deterministic region its writes merge first, and a conflict faults it (R318, R319); those of one that
faults are discarded (R336). -/
def State.retireCommand (s : State) (g : Graph) (n : Node) (t : Task) (fault : Option (Nat × BitVec 32 × Option Word)) : State :=
  let seg : Segment :=
    { sid := t.segment, ctx := g.ctx, region := g.region, gid := g.gid, it := n.it, node := n.index, kernel := n.code,
      endPc := n.code, endBlock := none, origin := 0, writes := t.wset, replaced := [], before := t.before, bara := none,
      merged := false, fseq := 0 }
  match fault with
  | some (cause, info, addr) => s.faultCommand g n cause info addr
  | none =>
    if !s.isDet g.ctx g.region then s.retire g.gid n.index .retired
    else
      let s1 := s.mergeSegment seg
      match seg.conflict (s.unordered seg) with
      | none => s1.retire g.gid n.index .retired
      | some c =>
        let fdom := s1.effFdom g.ctx g.region
        let s2 := s1.deliverCounted g.gid g.ctx fdom (c.record fdom 0)
        (if s1.domainHalts g.ctx fdom then s2.haltDomain g.ctx fdom else s2).retire g.gid n.index .faulted

/-- The command of a COPY node (R262). -/
structure CopyCommand where
  op : Nat
  trap : Bool
  first : Bool
  last : Bool
  expect : Nat
  src : Word
  dst : Word
  ndim : Nat
  lay : Word
  tok : Word
  intok : Word
  /-- Whether it keeps the ranges of its table. -/
  ok : Bool
  deriving DecidableEq, Repr

/-- The 64 bytes of a COPY command read. -/
def CopyCommand.of (c : BitVec 512) : CopyCommand :=
  let op := fieldN c 0 8
  let flags := fieldN c 16 16
  let lay := fieldN c 192 64
  let tok := fieldN c 256 64
  let intok := fieldN c 320 64
  let first := flags / 2 % 2 == 1
  { op := op, trap := flags % 2 == 1, first := first, last := flags / 4 % 2 == 1, expect := fieldN c 32 32,
    src := c.extractLsb' 64 64, dst := c.extractLsb' 128 64, ndim := fieldN c 8 8, lay := c.extractLsb' 192 64,
    tok := c.extractLsb' 256 64, intok := c.extractLsb' 320 64,
    ok := op < 3 && 1 ≤ fieldN c 8 8 && fieldN c 8 8 ≤ 16 && flags < 8 && !(op == 0 && flags % 2 == 1) && lay % 8 == 0
      && tok % 8 == 0 && ((op != 0 && !first) || intok == 0) && fieldN c 384 128 == 0 }

/-- Who waits for a page when the command of the node on stage does. -/
def Task.engineWho (t : Task) : Nat × Nat × Nat := (0, t.id.gid, t.id.node)

/-- How many of n bytes from an address on lie in one page, and behind one backing of it. -/
def Place.piece (p : Place) (n : Nat) : Nat :=
  if p.page.dbl && p.page.home == 0 then min n 1 else min n (p.page.size - p.va % p.page.size)

/-- n bytes read for an engine command, piece by piece, or what its failed access does. A page that a test refuses ends it with 0x06. -/
def State.engineBytes (s : State) (admits : Page → Bool) : Nat → Word → Nat → Except CopyEnd (State × List Byte)
  | 0, _, _ => .ok (s, [])
  | k + 1, a, n =>
    if n = 0 then .ok (s, [])
    else
      match s.locate a 1 .read with
      | .error t => .error (if s.pageComes s.task.engineWho s.task.id.ctx t then .hold a t.info else .fail t.cause a false)
      | .ok p =>
        let m := p.piece n
        if !admits p.page then .error (.fail 0x06 a false)
        else
          match s.locateRead a m with
          | .error t => .error (.fail t.cause a false)
          | .ok p =>
            match (s.afterRead p m 0).engineBytes admits k (a + BitVec.ofNat 64 m) (n - m) with
            | .error e => .error e
            | .ok r => .ok (r.1, s.viewBytes p m ++ r.2)

/-- The value of n bytes that an engine command reads at an address. -/
def State.engineRead (s : State) (a : Word) (n : Nat) : Except CopyEnd (State × Nat) :=
  match s.engineBytes (fun _ => true) (n + 1) a n with
  | .ok r => .ok (r.1, leVal r.2)
  | .error e => .error e

/-- What a command of a node leaves: it holds for a page, or for its partners (R389); it cannot report; it has
run too long; or it ends with a status. -/
inductive CommandEnd where
  | hold (va : Word) (info : BitVec 32)
  | partners
  | lost (cause : Nat) (addr : Option Word)
  /-- It has run past the run limit (R357). -/
  | limit
  | status (st : Word) (failAt : Option (Word × Bool))
  deriving DecidableEq, Repr

/-- A status written at a token's address. -/
def State.writeStatus (s : State) (tok : Word) (st : Word) : Except Trap State :=
  match s.locate tok 8 .write with
  | .error t => .error t
  | .ok p => s.storeAt p (bytesOf st.toNat 8)

/-- A COPY command carried out by the node on stage, and its status written to tok (R262). -/
def State.copyCommand (s : State) (c : CopyCommand) : State × CommandEnd :=
  let report (s : State) (st : Word) (f : Option (Word × Bool)) : State × CommandEnd :=
    if c.tok.toNat % 8 ≠ 0 then (s, .lost 0x08 none)
    else
      match s.writeStatus c.tok st with
      | .error t => (s, if s.pageComes s.task.engineWho s.task.id.ctx t then .hold c.tok t.info else .lost t.cause t.addr)
      | .ok s1 => (s1, .status st f)
  let ended (s : State) (done : Nat) (e : CopyEnd) : State × CommandEnd :=
    match e with
    | .hold va info => (s, .hold va info)
    | .fail cause a d => report s (failStatus cause done) (some (a, d))
    | .complete => report s 0 none
  if !c.ok then report s (failStatus 0x08 0) none
  else
    match s.engineRead c.lay (16 * c.ndim) with
    | .error e => ended s 0 e
    | .ok (s, raw) =>
      let dims (k : Nat) : List (BitVec 64) := (List.range c.ndim).map (fun i => BitVec.ofNat 64 (raw / 2 ^ (64 * (k + i))))
      let j : Job := { who := s.task.engineWho, ctx := s.task.id.ctx, issuer := s.dieOf s.task, op := c.op, src := c.src, dst := c.dst, srcLay := dims 0,
                       dstLay := dims c.ndim }
      if !layoutsOk j.srcLay j.dstLay then report s (failStatus 0x08 0) none
      else
        let run (s : State) (r : Nat) : State × CommandEnd :=
          match s.carryOn j { done := 0, running := r, flip := none, home := none } with
          | (s1, g, .complete) => report s1 (doneStatus c.op g c.last c.expect) none
          | (s1, g, e) => ended s1 g.done e
        if c.op = 0 ∨ c.first then run s 1
        else
          match s.engineRead c.intok 8 with
          | .error e => ended s 0 e
          | .ok (s, v) =>
            match metStatus (BitVec.ofNat 64 v) with
            | .inl st => report s st none
            | .inr r => run s r

/-- The end of a node's command: its status judged, the node retired (R262, R389). -/
def State.endCommand (s : State) (g : Graph) (n : Node) (t : Task) (trap : Bool) (e : CommandEnd) : State :=
  match e with
  | .hold _ _ => s
  | .partners => s
  | .lost cause addr => s.retireCommand g n t (some (cause, 0, addr))
  | .limit => s.retireCommand g n t (some (0x0D, 2, none))
  | .status st f =>
    if trap && fieldN st 0 8 ≠ 0 then
      let low : BitVec 32 := st.setWidth 32
      let info := match f with
        | some (_, true) => low ||| 0x204
        | _ => (low &&& ~~~0x200#32) ||| 4
      s.retireCommand g n t (some (fieldN st 0 8, info, f.map (·.1)))
    else s.retireCommand g n t none

/-- A command that has run past the run limit of its partition, as it stood when the command began (R357, R382). -/
def State.pastRunLimit (s : State) (g : Graph) (n : Node) : Bool :=
  match s.context g.ctx with
  | none => false
  | some c =>
    let run := (s.limitsAt c.part n.since).run
    run != 0 && run < (s.micros - n.since) * 1000

/-- The status of the watchdog written at the token of a command that it ends, where that can be written (R357). -/
def State.writeLimit (s : State) (tok : Word) : State :=
  match s.locate tok 8 .write with
  | .ok p => s.writeDirect p (bytesOf 0x0D 8)
  | .error _ => s

/-- What a command of the node on stage leaves acted on: its wait for a page, or its retirement. -/
def State.leaveCommand (s : State) (g : Graph) (n : Node) (r : State × Task × Bool × CommandEnd) : State :=
  match r.2.2 with
  | (_, .hold va info) =>
    s.askPage r.2.1.engineWho g.ctx (s.dieOf r.2.1) g.gid va (s.missRecord g n.index n.code va info)
  | (_, .partners) => s
  | (tr, e) => (r.1.endCommand g n r.2.1 tr e).endWait r.2.1.engineWho

/-- A step of a node's engine command: the 64 bytes at code read, carried out by f, and the node retired. A page that is brought
makes it wait with nothing done, until the host answers if it has been asked (R66). A code field that is not aligned to 64 breaks R262
and R388, which give it no fate: the 64 bytes are read where they lie (DESIGN CHOICE, log 21). One that has run past the run limit ends with the
watchdog's status first of all (R357). -/
def State.runCommand (s : State) (g : Graph) (n : Node) (tokAt : Nat) (f : BitVec 512 → State → State × CommandEnd)
    (trap : BitVec 512 → Bool) : State :=
  if s.pastRunLimit g n then
    s.leaveCommand g n (s.asEngine g n (fun s =>
      match s.engineRead n.code 64 with
      | .error _ => (s, false, .limit)
      | .ok (s, raw) => (s.writeLimit (BitVec.ofNat 64 (raw / 2 ^ tokAt)), false, .limit)))
  else if s.pageAsked (0, g.gid, n.index) then s
  else
    s.leaveCommand g n (s.asEngine g n (fun s =>
      match s.engineRead n.code 64 with
      | .error (.hold va info) => (s, false, .hold va info)
      | .error (.fail cause a _) => (s, false, .lost cause (some a))
      | .error .complete => (s, false, .lost 0 none)
      | .ok (s, raw) =>
        let c : BitVec 512 := BitVec.ofNat 512 raw
        let e := f c s
        (e.1, trap c, e.2)))

/-! ## Images of a context's own (R25 to R27) -/

/-- The stores of an image carried out one after another, under the rights of its context (R27); the first that fails ends them, also one whose
page is not there and could be brought (DESIGN CHOICE, log 10). -/
def State.imageStores (s : State) : List (Word × Byte) → State × Option Trap
  | [] => (s, none)
  | (a, b) :: rest =>
    match s.locate a 1 .write with
    | .error t => (s, some t)
    | .ok p =>
      match s.storeAt p [b] with
      | .error t => (s, some t)
      | .ok s1 => s1.imageStores rest

/-- A command carried out by an image of the context's own: its program makes of the command what it likes (R25, R26), so its stores,
its token and its status are free values (log 10). A store outside the context's rights ends it with that cause in the token (R27); a token that cannot
be written ends the command all the same, with no status anywhere (DESIGN CHOICE, log 10). -/
def State.imageCommand (s : State) (code : List Byte) (n : Node) : State × CommandEnd :=
  let tok := Config.engineToken code n.desc s.freeCtr
  let r := s.imageStores (Config.engineStores code n.desc s.freeCtr)
  let st := match r.2 with
    | some t => failStatus t.cause 0
    | none => Config.engineStatus code n.desc s.freeCtr
  match r.1.writeStatus tok st with
  | .ok s1 => (s1, .status st none)
  | .error _ => (r.1, .status st none)

/-- A node's command carried out by the code of the image that it started on, and the node retired; past the run limit it ends with the
watchdog's status in its token (R357). -/
def State.runImage (s : State) (g : Graph) (n : Node) (code : List Byte) : State :=
  s.leaveCommand g n (s.asEngine g n (fun s =>
    if s.pastRunLimit g n then (s.writeLimit (Config.engineToken code n.desc s.freeCtr), false, .limit)
    else
      let r := s.imageCommand code n
      (r.1, false, r.2)))

/-- COPY_NODE_COMPLETE: a COPY node's command carried out by the image that it started on (R27, R262): under the default image its status
is written with release at tok; then the node retires. -/
def execCopyNodeComplete (gid i : Nat) (s : State) : Host.Outcome State Fault Refusal :=
  match s.graph gid, s.node gid i with
  | some g, some n =>
    if n.kind ≠ 3 || n.status != .running then .next s
    else
      match n.image with
      | some im => .next (s.runImage g n im).settle
      | none =>
        .next (s.runCommand g n 256 (fun c s => s.copyCommand (CopyCommand.of c)) (fun c => (CopyCommand.of c).trap)).settle
  | _, _ => .next s

end Sys2Proof.Machine
end

