-- ==== Sys2Proof/Machine/Tasks.lean ====
section
/-! DEFINITION. The task group: TDONE, TSPAWN, TYIELD, TINFO, TRAPC (R340, R360 to R364), the node descriptors and operand records that
TSPAWN and launches check (R52, R53), and the enumeration table (R69 to R76). -/

namespace Sys2Proof.Machine

/-! ## Descriptors (R52, R53) -/

/-- A descriptor that keeps the ranges of R52 and R57. Four checks are the model's own (DESIGN CHOICE, log 39): the bytes of kspec that
R57 leaves out are zero, succx is even, succx is not 0 beside more than eight successors, and the kernel entry of a VECTOR or ARRAY node is a
multiple of 4. -/
def descOk (d : BitVec 1024) : Bool :=
  let kind := fieldN d 0 8
  let smin := fieldN d 32 8
  let smax := fieldN d 40 8
  let code := fieldN d 64 64
  let nsucc := fieldN d 16 8
  let succx := fieldN d (8 * 0x68) 64
  let spec :=
    match kind with
    | 5 => fieldN d (8 * 0x78) 8 ≤ 3 && fieldN d (8 * 0x7A) 48 == 0 && code % 8 == 0
    | 6 => fieldN d (8 * 0x70) 16 ≤ fieldN d (8 * 0x72) 16 && fieldN d (8 * 0x74) 32 != 0 && fieldN d (8 * 0x78) 64 == 0 && code % 8 == 0
    | k => fieldN d (8 * 0x70) 128 == 0 && (2 < k || code % 4 == 0)
  1 ≤ kind && kind ≤ 6 && fieldN d 8 8 ≤ 8 && fieldN d 24 8 < 2 && fieldN d 48 16 == 0 && fieldN d (8 * 0x10) 64 % 32 == 0
    && fieldN d (8 * 0x24) 32 == 0 && (if 8 < nsucc then succx != 0 && succx % 2 == 0 else succx == 0)
    && (if kind ≤ 2 then 1 ≤ smin && smin ≤ smax && smax ≤ 16 else smin == 0 && smax == 0) && spec

/-- An operand record that keeps the ranges of R53. -/
def recordOk (r : BitVec 256) : Bool :=
  let mode := fieldN r 64 8
  let rank := fieldN r 80 8
  1 ≤ mode && mode ≤ 3 && fieldN r 72 8 < 2 && 1 ≤ rank && rank ≤ 3 && fieldN r 88 8 ≤ 3 && fieldN r (8 * 0x12) 16 == 0
    && (List.range 3).all (fun j =>
      let ext := fieldN r (8 * 0x0C + 16 * j) 16
      ext != 0 && (j < rank || (ext == 1 && fieldN r (8 * 0x14 + 32 * j) 32 == 0)))

/-- A node before it is ready. -/
def newNode (i : Nat) (d : BitVec 1024) (ops : List (BitVec 256)) (succ : List Nat) : Node :=
  { index := i, desc := d, ops := ops, succ := succ, edges := 0, status := .waiting, it := 0, loops := 0, spawner := none, age := 0,
    readyAt := 0, bypasses := 0, blockedSince := none, section_ := 0, since := 0, poisoned := false, asked := false,
    image := none, ctrAnswered := false, spliceAnswer := none, draft := none }

/-! ## TDONE -/

/-- The task on stage gone from its section, its node retired (R361): a meld retires both nodes (R136). -/
def State.finishTask (s : State) : State :=
  let t := { s.task with instret := s.task.instret + 1 }
  ((((s.unmapAll t).leaveCore t).stopArray t.id.tid).removeTask t.id.tid).retireNodes t .retired

/-- TDONE (R361). -/
def execTdone (s : State) : Host.Outcome State Fault Refusal :=
  s.issue .c true (fun s =>
    if s.task.blocksLeft || s.copiesLeft (fun _ => true) then .wait s
    else
      match s.task.doneTrap with
      | some t => .trap s t
      | none => s.mergeNow (fun s => .jump s.finishTask.settle))

/-! ## TSPAWN -/

/-- Operand records at an address, or the first fault that reading their bytes meets. -/
def State.readRecords (s : State) (a : Word) : Nat → Except Trap (List (BitVec 256))
  | 0 => .ok []
  | n + 1 =>
    match s.locateRead a (min 32 (4096 - a.toNat % 4096)), s.locateRead (a + 31) 1 with
    | .error t, _ => .error t
    | .ok _, .error t => .error t
    | .ok p, .ok _ =>
      match s.readRecords (a + 32) n with
      | .error t => .error t
      | .ok rs => .ok (BitVec.ofNat 256 (s.viewNat p 32) :: rs)

/-- What the reads of n operand records do to the caches (R239). -/
def State.afterRecords (s : State) (a : Word) : Nat → State
  | 0 => s
  | n + 1 =>
    match s.locateRead a (min 32 (4096 - a.toNat % 4096)) with
    | .error _ => s
    | .ok p => (s.afterRead p 32 0).afterRecords (a + 32) n

/-- A child added to the graph of the task on stage (R362). -/
def State.spawn (s : State) (d : BitVec 1024) (ops : List (BitVec 256)) : State :=
  let t := s.task
  let child : Node := { newNode (0x80000000 + t.id.node * 4096 + t.spawnCount) d ops [] with it := t.id.it, spawner := some t.id.node }
  let add : Graph → Graph := fun g => { g with nodes := g.nodes ++ [child] }
  { s with graphs := mapIf (fun (g : Graph) => g.gid == t.id.gid) add s.graphs
           task := { t with spawnCount := t.spawnCount + 1 } }

/-- TSPAWN (R362). -/
def execTspawn (rs1 : BitVec 5) (s : State) : Host.Outcome State Fault Refusal :=
  s.issue .c true (fun s => s.needX [rs1] [] (fun s =>
    let a := s.x rs1
    if a.toNat % 128 ≠ 0 then .trap s { cause := 0x03, addr := some a }
    else if s.task.spawned || s.task.spawnCount ≥ 4096 then .trap s (cause 0x08)
    else orTrap s (s.locateRead a 128) (fun p =>
      let d : BitVec 1024 := BitVec.ofNat 1024 (s.viewNat p 128)
      let kind := fieldN d 0 8
      let s := s.afterRead p 128 0
      orTrap s (s.readRecords (d.extractLsb' (8 * 0x10) 64) (fieldN d 8 8)) (fun ops =>
        let s := s.afterRecords (d.extractLsb' (8 * 0x10) 64) (fieldN d 8 8)
        if !descOk d || kind == 5 || kind == 6 || fieldN d 16 8 ≠ 0 || !ops.all recordOk then .trap s (cause 0x08)
        else if s.effStrips s.task.id.ctx s.task.id.region < fieldN d 32 8 then .trap s (cause 0x0C)
        else .go (s.spawn d ops)))))

/-! ## TYIELD -/

/-- Whether a capacity-blocked node of at least the task's priority could take its section (R363). -/
def State.yieldsTo (s : State) : Bool :=
  match s.sect s.task.id.section_ with
  | none => false
  | some x =>
    match (s.die x.pdie).ldie with
    | none => false
    | some l =>
      (s.blockedWants l).any (fun w => s.task.id.prio ≤ w.prio && (s.placement w).contains s.task.id.section_)

/-- TYIELD: stops the task with reason 5 when a waiting node could take its section; else nothing (R363). -/
def execTyield (s : State) : Host.Outcome State Fault Refusal :=
  s.issue .c true (fun s =>
    if s.yieldsTo && s.poolHolds s.task then
      let s1 := s.advance
      let t := s1.task
      .jump ((s1.stopTask t.id.tid (.stopped 5)).poolTask t).settle
    else .go s)

/-! ## The enumeration table -/

/-- Latency class between two logical dies (R73). -/
def State.latencyClass (s : State) (i j : Nat) : Nat :=
  match s.physDie i, s.physDie j with
  | some a, some b =>
    let h := s.hops a b
    if h = 0 then 1 else if h = 1 then 2 else if h = 2 then 3 else if h < 99 then 4 else 0xFE
  | _, _ => 0xFF

/-- The header (R70). -/
def State.tableHeader (s : State) : List Byte :=
  let ds := s.dies.toList.filter (fun d => d.ldie.isSome)
  layBytes [(0x544E4541, 4), (1, 2), (s.boot.gradeRecord.grade, 1), (if s.boot.gradeRecord.clamshell then 1 else 0, 1), (s.gen, 1),
    (s.boot.step, 1), (ds.length, 1), ((s.links.toList.filter (fun l => l.llink.isSome)).length, 1), (s.sects.length, 2),
    (32 * ds.length, 2), (s.epoch.toNat, 8), (2400, 4), (0, 36)]

/-- A die record (R71). -/
def State.dieRecord (s : State) (p : Nat) : List Byte :=
  let d := s.die p
  let pos := p % 4 + 4 * (p / 4)
  match d.ldie with
  | none => layBytes [(p, 1), (0xFF, 1), (2, 1), (pos, 1), (0, 60)]
  | some l =>
    layBytes [(p, 1), (l, 1), (if d.offline then 1 else 0, 1), (pos, 1), (d.smask.toNat, 2), (d.soff.toNat, 2), (d.l2mask.toNat, 4),
      (d.l2off.toNat, 4), (0x40000000, 8), (d.channels + 16 * d.chOff, 1), (d.devs, 1), (d.lsect, 2), (d.lslice, 2), (0, 2), (d.fsize, 8),
      (p * 0x40000000, 8), (0x1000000000 + p * 0x1000000000, 8), (0, 8)]

/-- A link record (R72). -/
def Link.record (l : Link) : List Byte :=
  layBytes [(l.phys, 1), (l.llink.getD 0xFF, 1), (min l.a l.b, 1), (max l.a l.b, 1), (l.state, 1), (0, 3),
    (if l.state = 0 then 1200 else 0, 4), (0, 4)]

/-- An entry of the section map (R75). Where there is no such section, psect and pdie are 0 (DESIGN CHOICE, log 39). -/
def State.sectionEntry (s : State) (n : Nat) : Nat :=
  match s.sect n with
  | some x => x.psect + 16 * x.pdie + (if x.offline then 0x100 else 0)
  | none => 0x200

/-- The mask of a partition (R76). -/
def State.partitionMask (s : State) (k : Nat) : Nat :=
  sumBy (fun n => match s.sect n with
    | some x => if x.part == some k then 2 ^ n else 0
    | none => 0) (List.range s.sects.length)

/-- The 4 KiB of the enumeration table (R69). -/
def State.enumTable (s : State) : List Byte :=
  let upTo (n : Nat) (bs : List Byte) : List Byte := bs ++ List.replicate (n - bs.length) 0
  let dies := (List.range 8).flatMap s.dieRecord
  let links := s.links.toList.flatMap Link.record
  let matrix := (List.range 64).map (fun k => BitVec.ofNat 8 (s.latencyClass (k / 8) (k % 8)))
  let ns := layBytes [(40, 4), (60, 4), (110, 4), (150, 4), (200, 4), (0, 12), (70, 4), (400, 4)]
  let map := (List.range 128).flatMap (fun n => bytesOf (s.sectionEntry n) 2)
  let parts := (List.range 8).flatMap (fun k => bytesOf (s.partitionMask k) 16)
  upTo 4096 (upTo 0x500 (upTo 0x400 (upTo 0x340 (upTo 0x300 (upTo 0x240 (upTo 0x40 s.tableHeader ++ dies) ++ links) ++ matrix) ++ ns)
    ++ map) ++ parts)

/-! ## TINFO -/

/-- The part's feature word (R349). -/
def State.featureWord (s : State) : Nat := if s.boot.step = 1 then 0x5F else 0x7F

/-- A dword of TINFO, or none for a pair that is not listed (R364). -/
def State.info (s : State) (sel off : Nat) : Option Nat :=
  let t := s.task
  match sel, off with
  | 0, o => some (leVal ((s.enumTable.drop o).take 8))
  | 1, 0x00 => some t.id.node
  | 1, 0x08 => some t.id.region.toNat
  | 1, 0x10 => some t.id.grant
  | 1, 0x18 => some t.id.section_
  | 1, 0x20 => some (((s.die (s.dieOf t)).ldie).getD 0)
  | 1, 0x28 => some t.id.ctx
  | 1, 0x30 => some (((s.context t.id.ctx).map (·.part)).getD 0)
  | 1, 0x38 => some t.id.it
  | 1, 0x40 => some t.id.ctrbase.toNat
  | 1, 0x48 => some t.id.ctrlen
  | 2, 0x00 => some s.featureWord
  | 2, 0x08 => some (s.gen + 256 * s.boot.step)
  | _, _ => none

/-- TINFO (R364). -/
def execTinfo (rd rs1 : BitVec 5) (s : State) : Host.Outcome State Fault Refusal :=
  s.issue .cb true (fun s => s.needX [rs1] [rd] (fun s =>
    let v := s.x rs1
    if fieldN v 16 48 ≠ 0 then .trap s (cause 0x08)
    else if fieldN v 0 12 % 8 ≠ 0 then .trap s (cause 0x03)
    else
      match s.info (fieldN v 12 4) (fieldN v 0 12) with
      | some d => .go (s.setX rd (BitVec.ofNat 64 d))
      | none => .trap s (cause 0x08)))

/-! ## TRAPC -/

/-- TRAPC: raises 0x12 with the code in info (R340). -/
def execTrapc (rs1 : BitVec 5) (s : State) : Host.Outcome State Fault Refusal :=
  s.issue .cb true (fun s => s.needX [rs1] [] (fun s => .trap s { cause := 0x12, info := (s.x rs1).setWidth 32 }))

end Sys2Proof.Machine
end

