-- ==== Sys2Proof/Machine/Packets.lean ====
section
/-! DEFINITION. The doorbell (R39, R40), packets and their checks (R41 to R46, R418), regions (R47 to R51), launches (R52 to R57, R62, R81),
and the node array that they read. -/

namespace Sys2Proof.Machine

/-! ## The doorbell -/

/-- WRIDX: a new write index (R39). A queue that is disabled ignores its doorbell page (R40). -/
def execWridx (q : Nat) (v : BitVec 64) (s : State) : Host.Outcome State Fault Refusal :=
  match s.queue q with
  | none => .next s
  | some x =>
    if !x.enabled then .next s
    else if x.wrsnap ≤ v.toNat ∧ v.toNat ≤ x.rdidx + 2 ^ x.lsize then
      .next ((s.modQueue q (fun x => { x with wrsnap := v.toNat })).syncQueue q)
    else .next (s.queueError q 0x08 v.toNat 0 false)

/-- A queue moved past its next packet: in the ring, or in the buffer that is spliced (R45). -/
def Queue.passed (x : Queue) : Queue :=
  match x.inBuffer with
  | some (pid, a, pos, len) => { x with parsed := none, inBuffer := if pos + 1 < len then some (pid, a, pos + 1, len) else none }
  | none => { x with parsed := none, rdidx := x.rdidx + 1 }

/-- A write to qctl: it acts where the status suits it (R40). -/
def State.qctl (s : State) (q status : Nat) (f : Queue → Queue) : State :=
  match s.queue q with
  | none => s
  | some x => if x.enabled && x.status == status then ((s.modQueue q f).settleQueue q).settle else s

/-- QCTL_SKIP (R40). -/
def execQctlSkip (q : Nat) (s : State) : Host.Outcome State Fault Refusal :=
  .next (s.qctl q 2 (fun x => { (if x.errUnstarted then x.passed else x) with status := 1, errUnstarted := false }))

/-- QCTL_DISCARD (R40): a packet that waits for the host's answer is discarded with the others. -/
def execQctlDiscard (q : Nat) (s : State) : Host.Outcome State Fault Refusal :=
  .next (s.qctl q 2 (fun x => { x with rdidx := x.wrsnap, inBuffer := none, status := 1, errUnstarted := false, waiting := none, parsed := none }))

/-- QCTL_STOP (R40). -/
def execQctlStop (q : Nat) (s : State) : Host.Outcome State Fault Refusal := .next (s.qctl q 1 (fun x => { x with status := 0 }))

/-- QCTL_RESUME (R40). -/
def execQctlResume (q : Nat) (s : State) : Host.Outcome State Fault Refusal := .next (s.qctl q 0 (fun x => { x with status := 1 }))

/-! ## Checks (R418) -/

/-- Check 2: reserved fields and bits, for a packet whose payload uses some bytes (R41, R42). -/
def packetClean (p : BitVec 512) (used : List (Nat × Nat)) : Bool :=
  fieldN p 10 6 == 0 && fieldN p 16 16 == 0
    && (rangeFrom 8 64).all (fun b => used.any (fun u => u.1 ≤ b && b < u.1 + u.2) || fieldN p (8 * b) 8 == 0)

/-- Check 3 for an address: aligned, then translated in the queue's context. -/
def State.addressOk (s : State) (x : Queue) (a : Word) (align n : Nat) (acc : Access) : Bool :=
  a.toNat % align == 0 &&
  match s.translate x.ctx none a n acc with
  | .ok _ => true
  | .error _ => false

/-- The first check of a list that fails. -/
def firstFailure : List (Bool × Nat) → Option Nat
  | [] => none
  | (ok, code) :: cs => if ok then firstFailure cs else some code

/-- An error that a packet raises before it has started. -/
def State.packetError (s : State) (q : Nat) (p : BitVec 512) (code : Nat) : State :=
  match s.queue q with
  | none => s
  | some x =>
    s.queueError q code (s.packetIndex x) (fieldN p 32 32) true

/-- What a failed check of a packet does: the error of its code, or for code 0, by which the checks say that the queue's root can no longer
be read, the end of the queue (R36). -/
def State.failPacket (s : State) (q : Nat) (p : BitVec 512) (code : Nat) : State :=
  if code = 0 then s.loseQueue q else s.packetError q p code

/-- The address check of a region that a packet names, aligned to 256: an access to the queue's root that fails stops the queue (R36). -/
def State.rcbCheck (s : State) (x : Queue) (a : Word) : Bool × Nat := (s.addressOk x a 256 128 .read, if a = x.root then 0 else 0x03)

/-- A packet started: it is in flight, and its queue stands past it. -/
def State.startPacket (s : State) (q : Nat) (x : Queue) (p : BitVec 512) : State :=
  let pk : Packet := { pid := s.nextPid, q := q, index := s.packetIndex x, parent := x.inBuffer.map (·.1), bytes := p, complete := false, since := s.micros }
  ({ s with packets := s.packets ++ [pk], nextPid := s.nextPid + 1 } : State).modQueue q Queue.passed

/-- A packet of a queue: its checks in order, each with the code of its failure, then what it does once started, given its
number. -/
def State.packet (s : State) (q : Nat) (p : BitVec 512) (used : List (Nat × Nat)) (checks : Queue → List (Bool × Nat))
    (k : Queue → State → Nat → State) : State :=
  match s.queue q with
  | none => s
  | some x =>
    match firstFailure ((packetClean p used, 0x02) :: checks x) with
    | some code => s.failPacket q p code
    | none => ((k x (s.startPacket q x p) s.nextPid).settleQueue q).settle

/-! ## Regions -/

/-- The root of the subtree that holds a region. -/
def State.rootOf (s : State) (c : Nat) (a : Word) : Option Word := (s.chain c a).getLast?.bind (fun r => if r.root then some r.addr else none)

/-- Whether a region stands in the root subtree of a queue (R41). -/
def State.inQueueTree (s : State) (x : Queue) (a : Word) : Bool := s.rootOf x.ctx a == some x.root

/-- Whether a region or an ancestor of it is closed (R50). -/
def State.closing (s : State) (c : Nat) (a : Word) : Bool := (s.chain c a).any (fun r => r.closed)

/-- Check 4 (R418): a region of the queue's tree, not closing. -/
def State.regionChecks (s : State) (x : Queue) (a : Word) : List (Bool × Nat) :=
  [(s.inQueueTree x a, 0x05), (!s.closing x.ctx a, 0x09)]

/-- The fields of an RCB that R47 restricts. Reserved fields are always zero; a field is checked where it overrides. -/
def rcbOk (b : BitVec 1024) : Bool :=
  fieldN b (8 * 0x08 + 8) 8 == 0 && fieldN b (8 * 0x0B + 3) 5 == 0 && fieldN b (8 * 0x12) 48 == 0 && fieldN b (8 * 0x38) 576 == 0
    && (!b.getLsbD 64 || fieldN b (8 * 0x0A) 8 < 16) && (!b.getLsbD 68 || fieldN b (8 * 0x10) 16 != 0)

/-- The 128 bytes of an RCB that the device reads. -/
def State.readRcb (s : State) (ctx : Nat) (a : Word) : Option (BitVec 1024) :=
  match s.translate ctx none a 128 .read with
  | .error _ => none
  | .ok p => if s.poisoned p.key 128 then none else some (BitVec.ofNat 1024 (leVal (s.peekBytes p.km p.key 128)))

/-- Bytes of an RCB that the device writes, whatever the rights of its page. -/
def State.writeRcb (s : State) (ctx : Nat) (a : Word) (bs : List Byte) : State :=
  match s.translate ctx none a bs.length .read with
  | .error _ => s
  | .ok p => s.agentWrite p.km p.key bs

/-- A region with its first 128 bytes. -/
def newRegion (ctx : Nat) (a parent : Word) (depth : Nat) (root : Bool) (b : BitVec 1024) : Region :=
  { ctx := ctx, addr := a, parent := parent, depth := depth, root := root, closed := false, rcb := b, deficit := 0 }

/-- The checks of a region under a parent (R47, R48): fields, the deterministic rule, depth, a placement mask that is not
empty. -/
def State.regionOk (s : State) (parent : Region) (a : Word) (b : BitVec 1024) : Bool :=
  let s1 : State := { s with regions := newRegion parent.ctx a parent.addr (parent.depth + 1) false b :: s.regions }
  rcbOk b && !(s.isDet parent.ctx parent.addr && b.getLsbD 65 && !b.getLsbD (8 * 0x0B)) && parent.depth < 8
    && s1.effPlace parent.ctx a != 0

/-- A region linked under its parent, with the bytes of its RCB as the device reads them, by a packet that has started (R50). -/
def State.linkRegion (s : State) (x : Queue) (up a : Word) (pid : Nat) : State :=
  match s.region x.ctx up, s.readRcb x.ctx a with
  | some r, some b =>
    let s1 := { s with regions := s.regions ++ [newRegion x.ctx a r.addr (r.depth + 1) false b] }
    (s1.writeRcb x.ctx a (bytesOf r.addr.toNat 8)).completePacket pid
  | _, _ => s.completePacket pid

/-- Whether the RCB that a REGION_CREATE names may be linked under a parent (R47, R48). -/
def State.linkable (s : State) (x : Queue) (up a : Word) : Bool :=
  match s.region x.ctx up, s.readRcb x.ctx a with
  | some r, some b => s.regionOk r a b
  | _, _ => false

/-- REGION_CREATE (R42, R47, R48, R50). Its RCB is read once the checks before that have passed (R239, R418). -/
def execRegionCreate (q : Nat) (p : BitVec 512) (s : State) : Host.Outcome State Fault Refusal :=
  let a : Word := p.extractLsb' 128 64
  match s.queue q with
  | none => .next s
  | some x =>
    let up : Word := if p.extractLsb' 64 64 = 0#64 then x.root else p.extractLsb' 64 64
    match firstFailure [(packetClean p [(0x08, 16)], 0x02), s.rcbCheck x up, s.rcbCheck x a, (s.inQueueTree x up, 0x05),
        ((s.region x.ctx a).isNone, 0x05)] with
    | some code => .next (s.failPacket q p code)
    | none =>
      let s := s.recallAt x.ctx a 128
      match firstFailure [(s.linkable x up a, 0x05), (!s.closing x.ctx up, 0x09)] with
      | some code => .next (s.failPacket q p code)
      | none => .next (((s.startPacket q x p).linkRegion x up a s.nextPid).settleQueue q).settle

/-- SET_SEED: the seed and its override bit written (R49). -/
def execSetSeed (q : Nat) (p : BitVec 512) (s : State) : Host.Outcome State Fault Refusal :=
  let a : Word := p.extractLsb' 64 64
  let seed : BitVec 64 := p.extractLsb' 128 64
  .next (s.packet q p [(0x08, 16)]
    (fun x => s.rcbCheck x a :: s.regionChecks x a)
    (fun x s1 pid =>
      let set : Region → Region := fun r => { r with rcb := setField (setField r.rcb (8 * 0x20) seed) 70 (1#1) }
      let s2 := { s1 with regions := mapIf (fun (r : Region) => r.ctx == x.ctx && r.addr == a) set s1.regions }
      let ovr := ((s2.region x.ctx a).map (fun r => fieldN r.rcb 64 16)).getD 0
      ((s2.writeRcb x.ctx (a + 8) (bytesOf ovr 2)).writeRcb x.ctx (a + 0x20) (bytesOf seed.toNat 8)).completePacket pid))

/-- REGION_DESTROY: the subtree closes at once (R50); a root may not be named (R51). -/
def execRegionDestroy (q : Nat) (p : BitVec 512) (s : State) : Host.Outcome State Fault Refusal :=
  let a : Word := p.extractLsb' 64 64
  .next (s.packet q p [(0x08, 8)]
    (fun x =>
      [s.rcbCheck x a, (s.inQueueTree x a, 0x05), (((s.region x.ctx a).map (fun r => !r.root)).getD false, 0x05),
       (!s.closing x.ctx a, 0x09)])
    (fun x s1 _ =>
      { s1 with regions := s1.regions.map (fun r => if r.ctx == x.ctx && s1.inSubtree x.ctx a r.addr then { r with closed := true } else r) }))

/-- The REGION_DESTROY packet of a number, with its queue, once no node of its subtree is queued or running. -/
def State.destroyDone (s : State) (p : Packet) : Option Queue :=
  match s.queue p.q with
  | none => none
  | some x => if p.kind == 8 && !s.subtreeBusy x.ctx (p.bytes.extractLsb' 64 64) then some x else none

/-- REGION_DESTROY_COMPLETE: the subtree's RCBs return, and the packet completes (R50). -/
def execRegionDestroyComplete (pid : Nat) (s : State) : Host.Outcome State Fault Refusal :=
  match s.packets.find? (fun p => p.pid == pid) with
  | none => .next s
  | some p =>
    match s.destroyDone p with
    | none => .next s
    | some x =>
      let a : Word := p.bytes.extractLsb' 64 64
      let kept := s.regions.filter (fun r => !(r.ctx == x.ctx && s.inSubtree x.ctx a r.addr))
      .next ((({ s with regions := kept } : State).completePacket pid).settle)

/-! ## WAIT_VALUE, WRITE_VALUE, FENCE, INDIRECT -/

/-- A comparison of a predicate or a waited word: eq, ne, geu, ltu (R42, R57). -/
def compareOp (op a v : Nat) : Bool :=
  match op with
  | 0 => a == v
  | 1 => a != v
  | 2 => v ≤ a
  | _ => a < v

/-- WAIT_VALUE: starts waiting (R42, R44). Beside a size that is neither 4 nor 8, no alignment is asked of the address, so that the size
gives the error, 0x04 (DESIGN CHOICE, log 34). -/
def execWaitValue (q : Nat) (p : BitVec 512) (s : State) : Host.Outcome State Fault Refusal :=
  let a : Word := p.extractLsb' 64 64
  let op := fieldN p (8 * 0x20) 8
  let size := fieldN p (8 * 0x21) 8
  let sized := size == 4 || size == 8
  .next (s.packet q p [(0x08, 26), (0x24, 4)]
    (fun x => [(s.addressOk x a (if sized then size else 1) (if sized then size else 1) .read, 0x03), (op < 4, 0x04), (sized, 0x04)])
    (fun _ s1 _ => s1))

/-- The bytes of the word that a WAIT_VALUE polls. -/
def waitSize (p : Packet) : Nat := fieldN p.bytes (8 * 0x21) 8

/-- Where that word lies; none where it can no longer be read. -/
def State.waitPlace (s : State) (p : Packet) : Option Place :=
  match s.queue p.q with
  | none => none
  | some x =>
    match s.translate x.ctx none (p.bytes.extractLsb' 64 64) (waitSize p) .read with
    | .error _ => none
    | .ok pl => if s.poisoned pl.key (waitSize p) then none else some pl

/-- Whether the condition of a WAIT_VALUE holds (R42); a word that can no longer be read holds nothing. -/
def State.waitHolds (s : State) (p : Packet) : Bool :=
  match s.waitPlace p with
  | none => false
  | some pl =>
    compareOp (fieldN p.bytes (8 * 0x20) 8)
      (leVal (s.peekBytes pl.km pl.key (waitSize p)) &&& fieldN p.bytes (8 * 0x18) 64 % 2 ^ (8 * waitSize p)) (fieldN p.bytes (8 * 0x10) 64)

/-- What the polled word's read does to the stash: a line that it reads is written back (R239). -/
def State.waitRead (s : State) (p : Packet) : State :=
  match s.waitPlace p with
  | none => s
  | some pl => s.recallForRead pl.key (waitSize p)

/-- Whether the timeout of a WAIT_VALUE has expired (R42). -/
def State.waitExpired (s : State) (p : Packet) : Bool :=
  let limit := fieldN p.bytes (8 * 0x24) 32
  limit != 0 && limit ≤ s.micros - p.since

/-- WAIT_VALUE_MET: the word polled, and the packet completed if its condition holds (R44). A poll is a read of the command processor, whether
it holds or not (R239, R293). -/
def execWaitValueMet (pid : Nat) (s : State) : Host.Outcome State Fault Refusal :=
  match s.packets.find? (fun p => p.pid == pid) with
  | some p =>
    .next (if p.kind != 3 then s
      else if s.waitHolds p then ((s.waitRead p).completePacket pid).settle
      else s.waitRead p)
  | none => .next s

/-- WAIT_VALUE_TIMEOUT: the word polled once more, and where its condition does not hold and the time is over, the packet completes and its
queue goes into error 0x0B (R44). -/
def execWaitValueTimeout (pid : Nat) (s : State) : Host.Outcome State Fault Refusal :=
  match s.packets.find? (fun p => p.pid == pid) with
  | some p =>
    .next (if p.kind != 3 then s
      else if !s.waitHolds p && s.waitExpired p then
        (((s.waitRead p).completePacket pid).queueError p.q 0x0B p.index p.tag false).settle
      else s.waitRead p)
  | none => .next s

/-- WRITE_VALUE (R42, R44); its address beside an invalid size as for WAIT_VALUE (DESIGN CHOICE, log 34). -/
def execWriteValue (q : Nat) (p : BitVec 512) (s : State) : Host.Outcome State Fault Refusal :=
  let a : Word := p.extractLsb' 64 64
  let size := fieldN p (8 * 0x18) 8
  let sized := size == 4 || size == 8
  .next (s.packet q p [(0x08, 17)]
    (fun x => [(s.addressOk x a (if sized then size else 1) (if sized then size else 1) .write, 0x03), (sized, 0x04)])
    (fun x s1 pid =>
      match s1.translate x.ctx none a size .write with
      | .ok pl => (s1.agentWrite pl.km pl.key (bytesOf (fieldN p 128 64) size)).completePacket pid
      | .error _ => s1.completePacket pid))

/-- FENCE_PACKET: completes when every earlier packet has (R42). -/
def execFencePacket (q : Nat) (p : BitVec 512) (s : State) : Host.Outcome State Fault Refusal :=
  let scope := fieldN p 64 8
  .next (s.packet q p [(0x08, 1), (0x10, 8)] (fun _ => [(3 ≤ scope && scope ≤ 5, 0x04)]) (fun _ s1 _ => s1))

/-- INDIRECT: its buffer is spliced into the queue's order (R45). One inside a buffer fails before any other check. -/
def execIndirect (q : Nat) (p : BitVec 512) (s : State) : Host.Outcome State Fault Refusal :=
  let a : Word := p.extractLsb' 64 64
  let len := fieldN p 128 32
  match (s.queue q).bind (·.inBuffer) with
  | some _ => .next (s.packetError q p 0x07)
  | none =>
    .next (s.packet q p [(0x08, 12)]
      (fun x => [(s.addressOk x a 64 64 .read, 0x03), (1 ≤ len && len ≤ 16384, 0x04)])
      (fun _ s1 pid => s1.modQueue q (fun x => { x with inBuffer := some (pid, a, 0, len) })))

/-- UNKNOWN_KIND_PACKET (R41). -/
def execUnknownKindPacket (q : Nat) (p : BitVec 512) (s : State) : Host.Outcome State Fault Refusal := .next (s.packetError q p 0x01)

/-! ## Graphs (R52 to R57) -/

/-- n bytes that a launch reads in a context, or none. -/
def State.launchRead (s : State) (ctx : Nat) (a : Word) (n : Nat) : Option Nat :=
  match s.translate ctx none a n .read with
  | .error _ => none
  | .ok p => if s.poisoned p.key n then none else some (leVal (s.peekBytes p.km p.key n))

/-- A list read by a launch, the code of its first failure in order: 0x03 where memory does not answer, 0x06 where a value
breaks its range. -/
def readEach {α : Type} (f : Nat → Except Nat α) : List Nat → Except Nat (List α)
  | [] => .ok []
  | i :: is =>
    match f i with
    | .error c => .error c
    | .ok a =>
      match readEach f is with
      | .error c => .error c
      | .ok as => .ok (a :: as)

/-- A node of an array of count descriptors, or the code of its failure; a LAUNCH_NODE ignores successors and takes no COND or
LOOP (R42, R55). -/
def State.readNode (s : State) (ctx : Nat) (a : Word) (count : Nat) (single : Bool) (i : Nat) : Except Nat Node :=
  match s.launchRead ctx (a + BitVec.ofNat 64 (128 * i)) 128 with
  | none => .error 0x03
  | some raw =>
    let d : BitVec 1024 := BitVec.ofNat 1024 raw
    let kind := fieldN d 0 8
    if !descOk d || (single && (kind == 5 || kind == 6)) then .error 0x06
    else
      let succ := readEach (fun j =>
        if j < 8 then .ok (fieldN d (8 * 0x58 + 16 * j) 16)
        else
          match s.launchRead ctx (d.extractLsb' (8 * 0x68) 64 + BitVec.ofNat 64 (2 * (j - 8))) 2 with
          | some v => .ok v
          | none => .error 0x03) (List.range (if single then 0 else fieldN d 16 8))
      let ops := readEach (fun j =>
        match s.launchRead ctx (d.extractLsb' (8 * 0x10) 64 + BitVec.ofNat 64 (32 * j)) 32 with
        | none => .error 0x03
        | some v => if recordOk (BitVec.ofNat 256 v) then .ok (BitVec.ofNat 256 v) else .error 0x06) (List.range (fieldN d 8 8))
      match succ, ops with
      | .error c, _ => .error c
      | _, .error c => .error c
      | .ok ss, .ok os => if ss.all (· < count) then .ok (newNode i d os ss) else .error 0x06

/-- Nodes left once those without predecessors are taken away, round after round; none is left of a graph without cycles. -/
def peel : Nat → List Node → List Node
  | 0, ns => ns
  | k + 1, ns =>
    let rest := ns.filter (fun n => ns.any (fun m => m.succ.contains n.index))
    if rest.length < ns.length then peel k rest else rest

/-- The rules of LOOP bodies (R57). -/
def bodiesOk (ns : List Node) : Bool :=
  let loops := ns.filter (fun n => n.kind == 6)
  let inBody (l : Node) (i : Nat) : Bool := l.first ≤ i && i ≤ l.last
  loops.all (fun l =>
    l.last < ns.length && !inBody l l.index && loops.all (fun m => !inBody l m.index)
      && (loops.all (fun m => m.index == l.index || m.last < l.first || l.last < m.first))
      && ns.all (fun n => inBody l n.index || n.succ.all (fun j => !inBody l j)))

/-- The nodes of a launch, or the code of its failure (R55). -/
def State.readGraph (s : State) (ctx : Nat) (a : Word) (count : Nat) (single : Bool) : Except Nat (List Node) :=
  match readEach (s.readNode ctx a count single) (List.range count) with
  | .error c => .error c
  | .ok ns =>
    if (peel ns.length ns).isEmpty && bodiesOk ns then
      .ok (ns.map (fun n => { n with edges := sumBy (fun (m : Node) => m.succ.count n.index) ns }))
    else .error 0x06

/-- The bytes that a launch reads of a node array, node after node up to the first that fails: descriptors, successors beyond the eighth,
operand records. -/
def State.launchReads (s : State) (ctx : Nat) (a : Word) (count : Nat) (single : Bool) : List (Word × Nat) :=
  let good := (List.range count).takeWhile (fun i => match s.readNode ctx a count single i with
    | .ok _ => true
    | .error _ => false)
  (List.range (min count (good.length + 1))).flatMap (fun i =>
    let b := a + BitVec.ofNat 64 (128 * i)
    let d : BitVec 1024 := BitVec.ofNat 1024 ((s.launchRead ctx b 128).getD 0)
    (b, 128) :: (List.range (if single then 0 else fieldN d 16 8 - 8)).map (fun j => (d.extractLsb' (8 * 0x68) 64 + BitVec.ofNat 64 (2 * j), 2))
      ++ (List.range (fieldN d 8 8)).map (fun j => (d.extractLsb' (8 * 0x10) 64 + BitVec.ofNat 64 (32 * j), 32)))

/-- What the reads of a launch do to the stash (R239). -/
def State.recallLaunch (s : State) (ctx : Nat) (a : Word) (count : Nat) (single : Bool) : State :=
  if s.stash.isEmpty then s else (s.launchReads ctx a count single).foldl (fun s r => s.recallAt ctx r.1 r.2) s

/-- The candidate dies of a region (R81). -/
def State.candidates (s : State) (ctx : Nat) (region : Word) : List Nat :=
  let mask := s.effPlace ctx region
  let part := (s.context ctx).map (·.part)
  (List.range 8).filter (fun l => (List.range s.sects.length).any (fun i =>
    match s.sect i with
    | none => false
    | some x => !x.offline && mask.getLsbD i && part.isSome && x.part == part && (s.die x.pdie).ldie == some l))

/-- The candidate with the fewest pool entries, the lowest of equals (R81). -/
def State.chooseDie (s : State) (ds : List Nat) : Nat := (argLeast (fun l => (s.pool l).length) ds).getD 0

/-- A graph launched (R42, R56, R62): its seed captured, its roots outside LOOP bodies ready. -/
def State.launch (s : State) (x : Queue) (pid : Nat) (region : Word) (single : Bool) (ns : List Node) (die : Nat) : State :=
  let gid := s.nextGid
  let old := s.segments.filter (fun e => e.ctx == x.ctx && e.region == region && ((s.graph e.gid).map (fun o => !o.live)).getD true)
  let g : Graph :=
    { gid := gid, ctx := x.ctx, q := x.q, pid := pid, region := region, die := die, seed := BitVec.ofNat 64 (s.effSeed x.ctx region),
      pcap := x.pcap, single := single, nodes := ns, before := (old.map (·.sid) ++ old.flatMap (·.before)).eraseDups, live := true }
  let s1 := { s with graphs := s.graphs ++ [g], nextGid := gid + 1 }
  (ns.filter (fun n => n.edges == 0 && (g.loopOf n).isNone)).foldl (fun s n => s.makeReady gid n.index) s1

/-- The checks of a launch, 1 to 7 (R418), and the launch: on the die that the host names, or on the package dealer's choice
(R81). Under PLACE the host is asked, and the packet has not started (R66). -/
def State.launchPacket (s : State) (q : Nat) (p : BitVec 512) (single : Bool) (named : Option Nat) : State :=
  match s.queue q with
  | none => s
  | some x =>
    let region : Word := p.extractLsb' 64 64
    let a : Word := p.extractLsb' 128 64
    let cword : Word := p.extractLsb' 256 64
    let count := if single then 1 else fieldN p 192 32
    let used := if single then [(0x08, 16), (0x20, 16)] else [(0x08, 20), (0x20, 16)]
    match firstFailure ([(packetClean p used, 0x02), s.rcbCheck x region, (s.addressOk x a 128 128 .read, 0x03),
        (1 ≤ count && count ≤ 65535, 0x04), (cword == 0 || s.addressOk x cword 16 16 .write, 0x03)] ++ s.regionChecks x region) with
    | some code => s.failPacket q p code
    | none =>
      let s := s.recallLaunch x.ctx a count single
      match s.readGraph x.ctx a count single with
      | .error code => s.packetError q p code
      | .ok ns =>
        let ds := s.candidates x.ctx region
        if ns.any (fun n => n.kind ≤ 2 && s.effStrips x.ctx region < n.smin) then s.packetError q p 0x0A
        else if ds.isEmpty then s.packetError q p 0x0C
        else
          let go (die : Nat) : State := (((s.startPacket q x p).launch x s.nextPid region single ns die).settleQueue q).settle
          match named with
          | some die => if ds.contains die then go die else s.packetError q p 0x03
          | none =>
            if s.port0.duty.getLsbD 1 then
              let payload := layBytes [(q, 2), (0, 6), (s.packetIndex x, 8), (region.toNat, 8), (sumBy (fun l => 2 ^ l) ds, 1)]
              (s.modQueue q (fun x => { x with waiting := some s.port0.nextTag })).postRequest 2 0xFF x.ctx (.place q (s.packetIndex x) p)
                (BitVec.ofNat 896 (leVal payload))
            else go (s.chooseDie ds)

/-- LAUNCH_GRAPH. -/
def execLaunchGraph (q : Nat) (p : BitVec 512) (s : State) : Host.Outcome State Fault Refusal := .next (s.launchPacket q p false none)

/-- LAUNCH_NODE. -/
def execLaunchNode (q : Nat) (p : BitVec 512) (s : State) : Host.Outcome State Fault Refusal := .next (s.launchPacket q p true none)

end Sys2Proof.Machine
end

