-- ==== Sys2Proof/Machine/Events.lean ====
section
/-! DEFINITION. Events of the part: words that are no instructions (R94, R125), pre-emption (R89), predicates (R58, R59, R417), pages
(R245, R335), watchdogs (R357), errors in storage (R351 to R355), links and ports (R384, R386, R387). -/

namespace Sys2Proof.Machine

/-! ## Words and fetches -/

/-- WORD_NOT_AN_INSTRUCTION (R94): 0x02 for the all-zero word, 0x01 for any other. -/
def execWordNotAnInstruction (w : BitVec 32) (s : State) : Host.Outcome State Fault Refusal :=
  (Act.trap s (if w = 0 then cause 0x02 else illegal)).outcome

/-- FETCH_FAULT: a failed fetch raises its fault when the word would issue (R125, R229). -/
def execFetchFault (c : BitVec 8) (info : BitVec 32) (a : BitVec 64) (s : State) : Host.Outcome State Fault Refusal :=
  (Act.trap s { cause := c.toNat, info := info, addr := some a }).outcome

/-! ## Pre-emption (R89) -/

/-- The tasks that a want could stop in a section: of strictly lower priority, with an image that fits (R344); the lowest priority
first, then the most recently dispatched. -/
def State.victims (s : State) (w : Want) (sec : Nat) : List Task :=
  let below := s.tasks.filter (fun t => t.onSection sec && t.id.prio < w.prio && t.stopAsked.isNone && s.poolHolds t)
  sortBy (fun t => t.id.prio) (sortBy (fun t => s.nextAge - t.dispatched) below)

/-- Whether a want would have what it needs of a section once some of its tasks had left (R89). -/
def State.freedBy (s : State) (w : Want) (sec : Nat) (gone : List Task) : Bool :=
  0 < s.idleCores sec + gone.length && max w.smin 1 ≤ s.idleStrips sec + sumBy (fun t => t.id.grant) gone
    && (w.kind != 2 || s.arrayFree sec || gone.any (fun t => t.id.kind == 2))

/-- The shortest beginning of the victims of a section that frees what a want needs: the fewest victims are counted in the order in which
R89 takes them, and not as the smallest set of any order (DESIGN CHOICE, log 39). -/
def State.victimsIn (s : State) (w : Want) (sec : Nat) : Option (List Task) :=
  let vs := s.victims w sec
  ((List.range (vs.length + 1)).map (fun k => vs.take k)).find? (s.freedBy w sec)

/-- The section that a want pre-empts, with its victims: the fewest, the lowest number of equals. A section reserved for another node is
left out, also where that node's priority is lower (DESIGN CHOICE, log 39). -/
def State.preemptChoice (s : State) (w : Want) : Option (Nat × List Task) :=
  let open_ := (s.placement w).filter (fun i =>
    match s.sect i with
    | some x => !x.closing && (x.reserved.isNone || x.reserved == some (w.gid, w.node))
    | none => false)
  argLeast (fun c => c.2.length) (open_.filterMap (fun i => (s.victimsIn w i).map (fun vs => (i, vs))))

/-- Whether a node has stayed capacity-blocked for longer than the threshold that its partition had when it came to be so (R89, R382). -/
def State.aged (s : State) (w : Want) (n : Node) : Bool :=
  match n.blockedSince, s.context w.ctx with
  | some t, some c => (s.limitsAt c.part t).preempt < (s.micros - t) * 1000
  | _, _ => false

/-- A task stopped for another to take its place, with an image reason of 1 or 4 (R140, R341, R343). -/
def State.displace (s : State) (t : Task) (reason : Nat) : State :=
  let s1 := (s.stopTask t.id.tid (.stopped reason)).poolTask t
  if t.id.meld.isSome then s1.modDie (s.graphDie t.id.gid) (fun d => { d with mpreempt := d.mpreempt + 1 }) else s1

/-- Victims of a pre-emption asked to stop. Each stops once its parties have reached their points (R341); a fault that comes before that
wins (R342). -/
def State.askVictims (s : State) (vs : List Task) : State :=
  vs.foldl (fun s t => s.modTask t.id.tid (fun t => { t with stopAsked := some 1 })) s

/-- A pre-emption begun for a want on a die (R89): its section is reserved, and its victims are asked to stop. -/
def State.beginPreempt (s : State) (w : Want) (p : Nat) : State :=
  match s.preemptChoice w with
  | none => s
  | some (sec, vs) =>
    let key := (w.gid, w.node)
    let s1 := (s.askVictims vs).endReservation w.gid w.node
    ((s1.modSect sec (fun x => { x with reserved := some key })).modDie p (fun d => { d with preempting := some key })).settle

/-- The section that is reserved for a node. -/
def State.reservedFor (s : State) (key : Nat × Nat) : Option Nat :=
  (List.range s.sects.length).find? (fun n => ((s.sect n).bind (·.reserved)) == some key)

/-- The pre-emption that serves a want carried on in its section: once no task there is still asked to stop, further victims are chosen, in
the place of one whose image did not fit (R344) or of strips that a node of higher priority has taken meanwhile (DESIGN CHOICE, log 39). A
want that a service action has left without a section has one chosen anew, by the same pre-emption (R369; DESIGN CHOICE, log 39). -/
def State.furtherVictims (s : State) (w : Want) (p : Nat) : State :=
  match s.reservedFor (w.gid, w.node) with
  | none => s.beginPreempt w p
  | some sec =>
    if s.tasks.any (fun t => t.onSection sec && t.stopAsked.isSome) then s
    else
      match s.victimsIn w sec with
      | some vs => s.askVictims vs
      | none => s

/-- The pre-emption that serves a want: begun if its die runs none, carried on if it is the one that its die runs; else the want waits until
the node of that one has been dispatched (R89). -/
def State.preemptFor (s : State) (w : Want) : State :=
  match s.physDie w.die with
  | none => s
  | some p =>
    match (s.die p).preempting with
    | none => s.beginPreempt w p
    | some key => if key = (w.gid, w.node) then s.furtherVictims w p else s

/-- A task whose parties have reached their points stops for the reason that it has been asked for (R341, R343). A pool that cannot hold
its image any more leaves it running: the dealer then chooses another victim, in the same pre-emption (R89, R344). -/
def State.reachStop (s : State) (tid : Nat) : State :=
  match s.findTask tid with
  | none => s
  | some t =>
    match t.stopAsked, t.status == .running && s.poolHolds t with
    | none, _ => s
    | some r, true => (s.displace t r).settle
    | some _, false => s.modTask tid (fun t => { t with stopAsked := none })

/-- Whether a node may pre-empt now (R89). -/
def State.mayPreempt (s : State) (g : Graph) (n : Node) : Bool :=
  let w := s.wantOf g n
  w.kind ≤ 2 && (s.pool g.die).any (fun o => o.gid == g.gid && o.node == n.index) && s.capacityBlocked w && s.aged w n

/-- PREEMPT (R89). -/
def execPreempt (gid i : Nat) (s : State) : Host.Outcome State Fault Refusal :=
  match s.graph gid, s.node gid i with
  | some g, some n => .next (if s.mayPreempt g n then s.preemptFor (s.wantOf g n) else s)
  | _, _ => .next s

/-! ## Predicates (R58, R59, R417) -/

/-- The predicate word of a node, read in the context of its graph with the rights of a load; else what its failure does: it
waits for a page that comes, until the host answers if it has been asked (R66), or retires the node faulted (R417). -/
def State.predicate (s : State) (g : Graph) (n : Node) (k : State → Nat → State) : State :=
  let who := (0, g.gid, n.index)
  let fail (c : Nat) (info : BitVec 32) : State := ((s.endWait who).faultNode g.gid n.index 0x10 0 c n.code info.toNat).settle
  if s.pageAsked who then s
  else
    match s.translate g.ctx (s.physDie g.die) n.code 8 .read with
    | .error t =>
      if s.pageComes who g.ctx t then s.askPage who g.ctx ((s.physDie g.die).getD 0) g.gid n.code (s.missRecord g n.index 0 n.code t.info)
      else fail t.cause t.info
    | .ok p =>
      if s.poisoned p.key 8 then
        (((s.endWait who).logMemory 3 p.key g.region n.index).faultNode g.gid n.index 0x10 0 0x0E n.code 0).settle
      else (k ((s.endWait who).recallForRead p.key 8) (leVal (s.peekBytes p.km p.key 8))).settle

/-- The branch of a COND taken and the other retired without running, but for nodes outside a body that holds the COND, whose edge
its LOOP keeps (R57, R58). -/
def State.condBranch (s : State) (g : Graph) (n : Node) (holds : Bool) : State :=
  let yes := n.succ.take n.splitAt
  let no := n.succ.drop n.splitAt
  let taken := if holds then yes else no
  let skipped := ((if holds then no else yes).eraseDups).filter (fun m => !taken.contains m && !g.leavesBody n m)
  (skipped.foldl (fun s m => s.retireNode g.gid m .skipped) s).retire g.gid n.index .retired

/-- COND_EVAL (R58, R417): none is dispatched while its domain is halted (R336). -/
def execCondEval (gid i : Nat) (s : State) : Host.Outcome State Fault Refusal :=
  match s.graph gid, s.node gid i with
  | some g, some n =>
    if n.kind ≠ 5 || n.status != .ready || s.halted g.ctx g.region then .next s
    else .next (s.predicate g n (fun s p => s.condBranch g n (compareOp n.cop p n.cval)))
  | _, _ => .next s

/-- The body of a LOOP armed for an iteration (R59): predecessor counts as in the body, children of the last iteration gone,
every node without a predecessor inside ready. -/
def State.rearm (s : State) (g : Graph) (l : Node) : State :=
  let inside (i : Nat) : Bool := l.first ≤ i && i ≤ l.last
  let body := g.nodes.filter (fun n => n.spawner.isNone && inside n.index)
  let count (i : Nat) : Nat := sumBy (fun (m : Node) => m.succ.count i) body
  let arm (n : Node) : Node :=
    if n.spawner.isNone && inside n.index then
      { n with edges := count n.index, status := .waiting, it := l.loops, poisoned := false }
    else if n.index == l.index then { n with status := .running, loops := l.loops + 1 }
    else n
  let kept := (g.nodes.filter (fun n => match n.spawner with
    | some p => !inside p
    | none => true)).map arm
  let s1 := { s with graphs := mapIf (fun (x : Graph) => x.gid == g.gid) (fun x => { x with nodes := kept }) s.graphs }
  (body.filter (fun n => count n.index = 0)).foldl (fun s n => s.makeReady g.gid n.index) s1

/-- LOOP_EVAL (R59, R367, R417): one that has not begun is not dispatched while its domain is halted (R336). -/
def execLoopEval (gid i : Nat) (s : State) : Host.Outcome State Fault Refusal :=
  match s.graph gid, s.node gid i with
  | some g, some n =>
    if n.kind ≠ 6 || n.status != .ready || (n.loops == 0 && s.halted g.ctx g.region) then .next s
    else
      .next (s.predicate g n (fun s p => if p ≠ 0 ∧ n.loops < n.maxit then s.rearm g n else s.retire gid i .retired))
  | _, _ => .next s

/-! ## Pages (R245, R335) -/

/-- The address of the entry at which a walk of the firmware complex finds nothing mapped. -/
def State.absentEntry (s : State) (va : Nat) : Nat → Nat → Option Nat
  | level, table =>
    let at_ := table + 16 * (va / 2 ^ (12 + 9 * level) % 512)
    let e := s.pageEntry table (va / 2 ^ (12 + 9 * level) % 512)
    if (s.homeCause none table).isSome then none
    else if !e.getLsbD 0 then some at_
    else if e.getLsbD 1 then none
    else
      match level with
      | 0 => none
      | l + 1 => s.absentEntry va l (fieldN e 12 40 * 0x1000)

/-- The address that a record names (R123). -/
def recordAddr (r : BitVec 512) : Nat := fieldN r 384 64

/-- The record of the page fault for which a task waits that this part serves itself: one that the host has been asked about waits for the
host's answer alone (R65, R66). -/
def State.servedHere (s : State) (t : Task) : Option (BitVec 512) :=
  let record := match t.status with
    | .waitPage r => some r
    | _ => t.servicing
  record.filter (fun r => !s.port0.items.any (fun i => i.req == .fltsvc t.id.tid r))

/-- A task whose page is there returned to the pool (R245), or, where it waits in place, let go on (R344). -/
def State.wakeTask (s : State) (t : Task) : State :=
  match t.status with
  | .waitPage _ => (s.modTask t.id.tid (fun t => { t with status := .stopped 3 })).poolTask t
  | _ => s.modTask t.id.tid (fun t => { t with servicing := none })

/-- A task whose page is refused: its fault is delivered, with info bit 2 (R335, R380). -/
def State.refuseTask (s : State) (t : Task) (r : BitVec 512) : State := s.deliverFault t (fieldN r 0 8) (r ||| (4#512 <<< 448))

/-- The waits of a context for pages at addresses that meet a test ended, but for those on which the host has been asked. -/
def State.wake (s : State) (ctx : Nat) (hit : Nat → Bool) : State :=
  let s1 : State := { s with pageWaits := s.pageWaits.filter (fun w => !(w.ctx == ctx && !w.refused && hit (4096 * w.page))) }
  s.tasks.foldl (fun u t =>
    match s.servedHere t with
    | some r => if t.id.ctx == ctx && hit (recordAddr r) then u.wakeTask t else u
    | none => u) s1

/-- Whether the walk for an address of a context no longer finds an absent entry. -/
def State.mapped (s : State) (ctx va : Nat) : Bool :=
  match s.context ctx with
  | none => false
  | some c =>
    match s.pageOf none c va with
    | .error .absent => false
    | _ => true

/-- A page refused (R335): whoever waits for it meets its fault, but for those on which the host has been asked. -/
def State.refusePage (s : State) (ctx page : Nat) : State :=
  let s1 := { s with unservable := if s.unservable.contains (ctx, page) then s.unservable else (ctx, page) :: s.unservable }
  s.tasks.foldl (fun u t =>
    match s.servedHere t with
    | some r => if t.id.ctx == ctx && recordAddr r / 4096 == page then u.refuseTask t r else u
    | none => u) s1

/-- PAGE_ARRIVED (R245, R335): the service's entry for a page is written where its walk found none, and whoever waits for an address
that is mapped now goes on; an entry with v clear is the service's refusal. Copy runs and predicate reads are tried again by their own
steps. -/
def execPageArrived (ctx : BitVec 32) (va dw0 dw1 : BitVec 64) (s : State) : Host.Outcome State Fault Refusal :=
  match s.context ctx.toNat with
  | none => .next s
  | some c =>
    if !dw0.getLsbD 0 then .next (s.refusePage ctx.toNat (va.toNat / 4096))
    else
      let s1 := match s.absentEntry va.toNat 3 c.ptroot with
        | some a => s.agentWrite none (memKey 0 a) (bytesOf (dw0.toNat + 2 ^ 64 * dw1.toNat) 16)
        | none => s
      .next ((s1.wake ctx.toNat (fun a => s1.mapped ctx.toNat a)).settle)

/-! ## Watchdogs (R357) -/

/-- The limits of a task's partition for a count that began at a time in µs (R382). -/
def State.limitsOf (s : State) (t : Task) (began : Nat) : Limits :=
  match s.context t.id.ctx with
  | some c => s.limitsAt c.part began
  | none => Limits.reset

/-- Whether a time in µs has reached a limit in ns. -/
def reached (limit elapsed : Nat) : Bool := limit ≤ elapsed * 1000

/-- Whether the wait, run or split limit of a task has passed: a count goes on only while it holds a section. -/
def State.waitDue (s : State) (t : Task) : Bool :=
  t.status == .running && reached (s.limitsOf t t.progressAt).wait (t.heldSince t.progressAt s.micros)
def State.runDue (s : State) (t : Task) : Bool :=
  let limit := (s.limitsOf t t.startAt).run
  t.status == .running && limit != 0 && reached limit (t.runTime + (s.micros - t.runSince))
def State.splitDue (s : State) (t : Task) : Bool :=
  t.status == .running &&
  match t.split with
  | some sp => reached (s.limitsOf t sp.since).split (t.heldSince sp.since s.micros)
  | none => false

/-- The first party of a task, in the order of R337, that has a word to stand at. -/
def Task.standing (t : Task) : Party :=
  match t.split with
  | some sp =>
    match argLeast (fun th => th.elem) (sp.threads.filter (fun th => !th.joined)) with
    | some th => .lane th.elem
    | none => .control
  | none => if t.blocksLeft then .vector else .control

/-- The fault of a watchdog of a task, brought on stage. -/
def State.bite (s : State) (tid : Nat) (due : State → Task → Bool) (p : Task → Party) (trap : Task → Trap) : State :=
  match s.findTask tid with
  | none => s
  | some t =>
    if !due s t then s
    else
      let s1 := (s.onStage tid).enterBlock
      ({ s1 with cur := p s1.task } : State).takeFault (trap s1.task)

/-- WAIT_WATCHDOG. -/
def execWaitWatchdog (tid : Nat) (s : State) : Host.Outcome State Fault Refusal :=
  .next (s.bite tid State.waitDue Task.standing (fun _ => { cause := 0x0D, info := 1 }))

/-- RUN_WATCHDOG: the record names the control thread's next word. -/
def execRunWatchdog (tid : Nat) (s : State) : Host.Outcome State Fault Refusal :=
  .next (s.bite tid State.runDue (fun _ => .control) (fun _ => { cause := 0x0D, info := 2 }))

/-- SPLIT_WATCHDOG: the record names the VSPLIT. -/
def execSplitWatchdog (tid : Nat) (s : State) : Host.Outcome State Fault Refusal :=
  .next (s.bite tid State.splitDue (fun _ => .vector) (fun t =>
    { cause := 0x0D, info := 3,
      inBlock := match t.block, t.split with
        | some b, some sp => some (b.addr, sp.at_)
        | _, _ => none }))

/-! ## Errors in storage -/

/-- An error in a register word of a running task (R351): corrected in place and logged, or the word poisoned (R352). The location is
numbered as log 22 says. -/
def State.strikeRegister (s : State) (tid : Nat) (x : ImageSite) (number byte : Nat) (correctable : Bool) : State :=
  match s.findTask tid with
  | none => s
  | some t =>
    let there : Bool := t.status == .running && (match x with
      | .scalar r => 1 ≤ r && r < 32
      | .blockScalar r => 1 ≤ r && r < 32 && t.block.isSome
      | .queued _ _ => false
      | .vector r d => r < t.regCount && 8 * d < t.vlenb
      | .tile r d => r < 8 && d < 2048 && t.id.kind == 2)
    if !there then s
    else if correctable then s.logError 1 1 (s.siteOf t).1 (s.siteOf t).2 (number * 2 ^ 32 + byte) t.id.region t.id.node
    else s.modTask tid (fun t => t.spoil x)

/-- The address of the word that a party of a task is about to issue. -/
def Task.nextWord (t : Task) (p : Party) : Word :=
  match p, t.block, t.split with
  | .vector, some b, _ => b.wordAddr b.off
  | .lane e, some b, some sp => b.wordAddr (((sp.threads.find? (fun th => th.elem == e)).map (·.off)).getD b.off)
  | _, _, _ => t.pc

/-- An error in an instruction-cache line (R125): the line is invalidated and fetched again from memory. On a path fetched ahead it is
logged as a soft error, for which the log has no kind but corrected (log 22); on the line that is about to issue it is logged as corrected
if the word that comes back is good, and otherwise that word raises 0x0E when it issues. -/
def State.strikeCode (s : State) (tid : Nat) (p : Party) (ahead : Bool) : State :=
  match s.findTask tid with
  | none => s
  | some t =>
    let va := t.nextWord p
    let good := match (s.onStage tid).codeWord va with
      | .ok _ => true
      | .error _ => false
    let at_ := match s.translatePage t.id.ctx (some (s.dieOf t)) va .fetch with
      | .ok q => q.key % 2 ^ 52
      | .error _ => 0
    if t.status == .running && (ahead || good) then s.logError 1 2 (s.siteOf t).1 (s.siteOf t).2 at_ t.id.region t.id.node else s

/-- A granule of this Brynter's memory struck: also where a stash line holds a store that had covered it whole (R353). -/
def State.strikeGranule (s : State) (a : Nat) : State :=
  let g := memKey 0 a / 64
  { s.addPoison [g] with stash := s.stash.map (fun l => { l with cleared := l.cleared.filter (· != g) }) }

/-- An error in data of the stash, the L2 or GDDR-7 at a physical address (R351, R353). -/
def State.strikeMemory (s : State) (unit_ a : Nat) (correctable : Bool) : State :=
  match s.homeDie a with
  | none => s
  | some p => if correctable then s.logError 1 unit_ p 0xFF (a / 64 * 64) else s.strikeGranule a

/-- PATROL_SCRUB of an address of near SRAM (R351, R355). -/
def execPatrolScrub (a : Nat) (found : ScrubResult) (s : State) : Host.Outcome State Fault Refusal :=
  if 8 * 0x40000000 ≤ a then .next s
  else
    match s.homeDie a with
    | none => .next s
    | some p =>
      match found with
      | .clean => .next s
      | .corrected => .next (s.logError 1 5 p 0xFF a)
      | .uncorrectable => .next ((s.strikeGranule a).logError 2 5 p 0xFF a)

/-- The state with physical link or port k changed. -/
def State.modLink (s : State) (k : Nat) (f : Link → Link) : State :=
  { s with links := s.links.mapIdx (fun i l => if i = k then f l else l) }
def State.modPort (s : State) (k : Nat) (f : Port → Port) : State :=
  { s with ports := s.ports.mapIdx (fun i p => if i = k then f p else p) }

/-- An error of a link or port logged: the lower die of a link, or an I/O die; the location is its number. -/
def State.logPath (s : State) (kind : Nat) (lane : FlitPath) : State :=
  match lane with
  | .port n => s.logError kind 7 0xFF 0xFF n
  | .link n => s.logError kind 7 (linkEnds n).1 0xFF n

/-- A link or port marked as failed and reported as an uncontained error (R354, R386); it stays in use. -/
def State.failPath (s : State) (lane : FlitPath) : State :=
  (match lane with
    | .port n => s.modPort n (fun p => { p with failed := true, replays := 0 })
    | .link n => s.modLink n (fun l => { l with failed := true, replays := 0 })).logPath 4 lane

/-- Whether flits travel over a path: a link that is up, a port whose lanes are trained. -/
def State.carries (s : State) (lane : FlitPath) : Bool :=
  match lane with
  | .port n => ((s.ports[n]?).map (·.trained)).getD false
  | .link n => ((s.links[n]?).map (fun l => l.state == 0)).getD false

/-- An error of an entry of the directory, the ready pool or the meld slots, or of a path, logged with a kind (R351, R355). -/
def State.logEntry (s : State) (kind : Nat) (site : ErrorSite) : State :=
  match site with
  | .directoryLine line => s.logError kind 4 ((s.homeDie (128 * line)).getD 0xFF) 0xFF (128 * line)
  | .poolEntry g n => s.logError kind 8 (s.graphDie g) 0xFF n (((s.graph g).map (·.region)).getD 0) n
  | .meldSlot d k => s.logError kind 8 d 0xFF k
  | .path lane => s.logPath kind lane

/-- An entry that can no longer be used without 0x0E, and the error reported at once as uncontained (R354, R355). -/
def State.strikeEntry (s : State) (site : ErrorSite) : State :=
  match site with
  | .directoryLine line => ((s.strikeGranule (128 * line)).strikeGranule (128 * line + 64)).logEntry 4 site
  | .poolEntry g n => (s.modNode g n (fun x => { x with poisoned := true })).logEntry 4 site
  | .meldSlot d k =>
    let mark (x : Die) : Die := { x with melds := mapIf (fun (m : Meld) => m.slot == k) (fun m => { m with poisoned := true }) x.melds }
    (s.modDie d mark).logEntry 4 site
  | .path lane => s.failPath lane

/-- An error in a structure of R351, an event of the environment. One of the dealer's state, its pool and its slots, or of a directory, that
cannot be corrected is uncontained (R354). -/
def State.storageError (s : State) (site : StorageSite) (correctable : Bool) : State :=
  match site with
  | .scalar tid r => s.strikeRegister tid (.scalar r) r 0 correctable
  | .blockScalar tid r => s.strikeRegister tid (.blockScalar r) (32 + r) 0 correctable
  | .vector tid r d => s.strikeRegister tid (.vector r d) (64 + r) (8 * d) correctable
  | .tile tid r d => s.strikeRegister tid (.tile r d) (96 + r) (8 * d) correctable
  | .code tid p ahead => s.strikeCode tid p ahead
  | .cached a => s.strikeMemory 3 a correctable
  | .gddr a => if 8 * 0x40000000 ≤ a then s.strikeMemory 6 a correctable else s
  | .entry x => if correctable then s.logEntry 1 x else s.strikeEntry x
  | .dealer d => s.logError (if correctable then 1 else 4) 8 d 0xFF 0

/-- UNCONTAINED_ERROR (R354, R355). -/
def execUncontainedError (site : ErrorSite) (s : State) : Host.Outcome State Fault Refusal := .next (s.strikeEntry site)

/-! ## Flits and ports -/

/-- The injector of a path (R391). -/
def injectorOf (lane : FlitPath) : Nat :=
  match lane with
  | .port n => n
  | .link n => 18 + n

/-- What an injector makes of a flit that arrives for the first time, and the injector counted down (R391). -/
def State.injectFlit (s : State) (lane : FlitPath) (q : FlitQuality) : State × FlitQuality :=
  let k := injectorOf lane
  match s.port0.flits[k]? with
  | none => (s, q)
  | some f =>
    let replaying := match lane with
      | .port n => ((s.ports[n]?).map (·.replays)).getD 0 != 0
      | .link n => ((s.links[n]?).map (·.replays)).getD 0 != 0
    if replaying || f.count = 0 || (f.point ≠ 1 && f.point ≠ 2) then (s, q)
    else
      ({ s with port0 := { s.port0 with flits := s.port0.flits.setIfInBounds k { f with count := f.count - 1 } } },
       if f.point = 1 then .corrected else .crcFailed)

/-- The replays of the flit in hand. -/
def State.replays (s : State) (lane : FlitPath) : Nat :=
  match lane with
  | .port n => ((s.ports[n]?).map (·.replays)).getD 0
  | .link n => ((s.links[n]?).map (·.replays)).getD 0

/-- The replays of the flit in hand set. -/
def State.setReplays (s : State) (lane : FlitPath) (k : Nat) : State :=
  match lane with
  | .port n => s.modPort n (fun p => { p with replays := k })
  | .link n => s.modLink n (fun l => { l with replays := k })

/-- FLIT_RECEIVE (R386): a correction is logged, a failed CRC replays the flit, the failure of the seventh replay fails the path. -/
def execFlitReceive (lane : FlitPath) (quality : FlitQuality) (s : State) : Host.Outcome State Fault Refusal :=
  if !s.carries lane then .next s
  else
    let r := s.injectFlit lane quality
    match r.2 with
    | .good => .next (r.1.setReplays lane 0)
    | .corrected => .next ((r.1.setReplays lane 0).logPath 1 lane)
    | .crcFailed =>
      let k := r.1.replays lane
      .next (if 7 ≤ k then r.1.failPath lane else r.1.setReplays lane (k + 1))

/-- LINK_FAILED (R386): transfers over the path end with 0x0E from here on. -/
def execLinkFailed (lane : FlitPath) (s : State) : Host.Outcome State Fault Refusal :=
  .next (if s.carries lane then s.failPath lane else s)

/-- PORT_TRAINING_LOST (R387): a step leaves no flit in flight, and runs that start now choose among the other ports. -/
def execPortTrainingLost (n : Nat) (s : State) : Host.Outcome State Fault Refusal :=
  .next (s.modPort n (fun p => { p with trained := false, replays := 0 }))

/-- PORT_TRAINED (R387). -/
def execPortTrained (n : Nat) (s : State) : Host.Outcome State Fault Refusal :=
  .next (s.modPort n (fun p => { p with trained := true }))

/-- FABRIC_ADDRESS_ASSIGNED (R384). -/
def execFabricAddressAssigned (a : BitVec 16) (s : State) : Host.Outcome State Fault Refusal := .next { s with fabric := a }

/-- SERVICE_REQUEST (R380): the first item that waits on a function, once there is room. -/
def execServiceRequest (kind : Nat) (s : State) : Host.Outcome State Fault Refusal :=
  match s.port0.items.find? (fun i => !i.posted && i.kind == kind) with
  | some i => .next (if s.port0.srq.hasRoom then s.postItem i else s)
  | none => .next s

end Sys2Proof.Machine
end

