-- ==== Sys2Proof/Machine/Commands.lean ====
section
/-! DEFINITION. Commands of the command ring (R381): contexts (R382, R383), keys, translations, queues (R36, R51), partition limits,
engine images. -/

namespace Sys2Proof.Machine

/-! ## Entries -/

/-- Fields of a command entry (R381, R382): code, the 4 bytes at 0x04, the dwords at 0x08 and 0x10, the 64 bytes at 0x40, and the
sequence of a command of R382. -/
def cmdCode (e : BitVec 1024) : Nat := fieldN e 8 8
def cmdId (e : BitVec 1024) : Nat := fieldN e 32 32
def cmdA (e : BitVec 1024) : Word := e.extractLsb' 64 64
def cmdB (e : BitVec 1024) : Word := e.extractLsb' 128 64
def cmdData (e : BitVec 1024) : BitVec 512 := e.extractLsb' 512 512
def cmdSeq (e : BitVec 1024) : Nat := fieldN e (8 * 0x38) 32

/-- Whether every byte of a command of R382 but for those used is zero; op and sequence are always used. -/
def cmdClean (e : BitVec 1024) (used : List (Nat × Nat)) : Bool :=
  (rangeFrom 1 128).all (fun b =>
    ((0x38, 4) :: used).any (fun u => u.1 ≤ b && b < u.1 + u.2) || fieldN e (8 * b) 8 == 0)

/-- The index of the command that is being taken (R376, R379). -/
def State.cmdIndex (s : State) : Nat := s.port0.cmd.rd - 1

/-- The report of a command of R382: done, or refused. -/
def State.report (s : State) (e : BitVec 1024) (done : Bool) : State :=
  s.actionStatus (0x80 + fieldN e 0 8) (if done then 0 else 1) (cmdSeq e)

/-- A command of R382: its checks, then its effect; a refused command changes nothing. -/
def State.command (s : State) (e : BitVec 1024) (ok : Bool) (f : State → State) : Host.Outcome State Fault Refusal :=
  .next (if ok then (f s).report e true else s.report e false)

/-- UNLISTED_COMMAND: ignored and reported as source 5, reason 1 (R381). -/
def execUnlistedCommand (_e : BitVec 1024) (s : State) : Host.Outcome State Fault Refusal := .next (s.reject 1 s.cmdIndex)

/-- n bytes that the firmware complex reads at an address that no page table translates: memory of this Brynter where the address lies in a
range of R225, else host memory (R376, R383); none where the read fails, or the range cannot be reached. -/
def State.rawRead (s : State) (a n : Nat) : Option Nat :=
  if (s.rangeDie a).isSome then
    if (s.homeCause none a).isSome || s.poisoned (memKey 0 a) n then none else some (leVal (s.peekBytes none (memKey 0 a) n))
  else if 2 ^ 52 < a + n || s.hostRejects.any (fun w => w.1 < a + n && a < w.1 + w.2) then none
  else some (leVal (s.readHost a n))

/-- What such a read does to the stash (R239, R293). -/
def State.recallRaw (s : State) (a n : Nat) : State := s.recallForRead (if (s.rangeDie a).isSome then memKey 0 a else hostKey a) n

/-! ## Contexts -/

/-- Whether a byte of a context lies on a cacheable page of the context homed on this Brynter (R333, R383). -/
def State.homePage (s : State) (c : Context) (va : Nat) : Bool :=
  va < 2 ^ 48 &&
  match s.pageOf none c va with
  | .ok p => !p.uncached && p.home == 0 && p.owner == c.part && (s.homeCause none (p.keyAt va)).isNone
  | .error _ => false

/-- A fault-domain entry that R333 admits. -/
def State.domainOk (s : State) (c : Context) (k : Nat) : Bool :=
  let va := c.fdtab.toNat + 64 * k
  s.homePage c va &&
  match s.objectNat c va 64 with
  | none => false
  | some v =>
    let e : BitVec 512 := BitVec.ofNat 512 v
    let lsize := fieldN e 64 8
    4 ≤ lsize && lsize ≤ 16 && fieldN e 0 64 % (64 * 2 ^ lsize) == 0 && fieldN e 72 8 < 2 && fieldN e (8 * 0x0C) 32 < 2
      && fieldN e (8 * 0x28) 192 == 0

/-- The context that a record describes (R383). -/
def contextOf (r : BitVec 1024) : Context :=
  { id := fieldN r 0 32, part := fieldN r 32 8, ptroot := fieldN r 64 64, fdtab := r.extractLsb' 128 64, ndom := fieldN r 192 32,
    pool := r.extractLsb' 256 64, psize := fieldN r 320 64, halted := [], halts := [], copyImage := none, collImage := none }

/-- A context record that R383 and R333 admit. -/
def State.contextOk (s : State) (r : BitVec 1024) : Bool :=
  let c := contextOf r
  c.id != 0 && c.part < 8 && fieldN r 40 24 == 0 && c.ptroot % 0x2000 == 0 && c.fdtab.toNat % 64 == 0 && 1 ≤ c.ndom && c.ndom ≤ 65536
    && fieldN r 224 32 == 0 && c.pool.toNat % 4096 == 0 && c.psize != 0 && c.psize % 4096 == 0 && fieldN r 384 640 == 0
    && (List.range (c.psize / 4096)).all (fun i => s.homePage c (c.pool.toNat + 4096 * i))
    && (List.range c.ndom).all (s.domainOk c)

/-- The entries of a context's fault-domain table whose act is 1, as Yarrow finds them at the bind (R333). -/
def State.haltingEntries (s : State) (c : Context) : List Nat :=
  (List.range c.ndom).filter (fun k => (s.objectNat c (c.fdtab.toNat + 64 * k + 9) 1) == some 1)

/-- What the reads of a bind do to the stash: those of the record and of the fault-domain table that it names (R239, R333, R383). -/
def State.recallBind (s : State) (a : Nat) : State :=
  if s.stash.isEmpty then s
  else
    match (if a % 128 = 0 then s.rawRead a 128 else none) with
    | none => s
    | some v =>
      let c := contextOf (BitVec.ofNat 1024 v)
      (s.recallRaw a 128).recallObject c c.fdtab.toNat (64 * min c.ndom 65536)

/-- BIND_CONTEXT. -/
def execBindContext (e : BitVec 1024) (s : State) : Host.Outcome State Fault Refusal :=
  let a := (cmdA e).toNat
  let s := s.recallBind a
  match (if a % 128 = 0 then s.rawRead a 128 else none) with
  | none => .next (s.report e false)
  | some v =>
    let r : BitVec 1024 := BitVec.ofNat 1024 v
    s.command e (cmdClean e [(0x04, 4), (0x08, 8)] && cmdId e != 0 && (s.context (cmdId e)).isNone && fieldN r 0 32 == cmdId e
        && s.contextOk r)
      (fun s => { s with contexts := s.contexts ++ [{ contextOf r with halts := s.haltingEntries (contextOf r) }] })

/-- Whether a context has nothing enabled, queued, running or held (R382). -/
def State.contextIdle (s : State) (c : Nat) : Bool :=
  !s.queues.any (fun x => x.ctx == c) && !s.graphs.any (fun g => g.live && g.ctx == c) && !s.tasks.any (fun t => t.id.ctx == c)

/-- A context unbound: its retention registers released, its images dropped (R238, R382), and its regions, which no queue names,
released (R51). -/
def State.dropContext (s : State) (c : Nat) : State :=
  let release (d : Die) : Die := { d with retention := d.retention.map (fun r => match r with
    | some x => if x.ctx = c then none else r
    | none => none) }
  { s with contexts := s.contexts.filter (fun x => x.id != c)
           dies := s.dies.map release
           regions := s.regions.filter (fun r => r.ctx != c)
           segments := s.segments.filter (fun g => g.ctx != c)
           bounds := s.bounds.filter (fun b => b.ctx != c)
           kernels := s.kernels.filter (fun k => k.ctx != c)
           pageWaits := s.pageWaits.filter (fun w => w.ctx != c)
           engines := s.engines.filter (fun e => e.ctx != c) }

/-- UNBIND_CONTEXT. -/
def execUnbindContext (e : BitVec 1024) (s : State) : Host.Outcome State Fault Refusal :=
  s.command e (cmdClean e [(0x04, 4)] && (s.context (cmdId e)).isSome && s.contextIdle (cmdId e)) (fun s => s.dropContext (cmdId e))

/-! ## Keys and translations -/

/-- SET_KEY: key material programmed into the memory engines (R230, R382). -/
def execSetKey (e : BitVec 1024) (s : State) : Host.Outcome State Fault Refusal :=
  let k := cmdId e
  s.command e (cmdClean e [(0x04, 4), (0x40, 64)] && 1 ≤ k && k ≤ 4095)
    (fun s => { s with keys := (k, cmdData e) :: s.keys.filter (fun o => o.1 != k) })

/-- INVALIDATE_TRANSLATIONS (R233): the model walks at every access and holds no translation (log 12), so the command's two conditions
hold at once. -/
def execInvalidateTranslations (e : BitVec 1024) (s : State) : Host.Outcome State Fault Refusal :=
  let code := cmdCode e
  s.command e (cmdClean e [(0x01, 1), (0x04, 4), (0x08, 8), (0x10, 8)] && (s.context (cmdId e)).isSome
      && (code == 0 || (code == 1 && (cmdA e).toNat % 4096 == 0 && cmdB e != 0 && (cmdB e).toNat % 4096 == 0))) id

/-! ## Queues -/

/-- The read-only half of a queue (R36) as an entry of the queue table gives it, as it stands at an enable (R40). The error fields and fence, of which R40 says
nothing, are 0 (DESIGN CHOICE, log 34). -/
def queueOf (q : Nat) (r : BitVec 1024) : Queue :=
  { q := q, enabled := true, draining := false, drainSeq := 0, ring := r.extractLsb' 0 64, lsize := fieldN r 64 8, pcap := fieldN r 72 8,
    part := fieldN r 80 8, keyid := fieldN r 96 16, msix := fieldN r 112 16, root := r.extractLsb' 128 64, dbpage := fieldN r 192 64,
    mutAddr := r.extractLsb' 256 64, ctx := fieldN r 320 32, rdidx := 0, wrsnap := 0, doneidx := 0, status := 1, errcode := 0,
    erridx := 0, errtag := 0, fence := 0, errUnstarted := false, inBuffer := none, waiting := none, parsed := none }

/-- A dbpage that R375 admits. -/
def dbpageOk (d : Nat) : Bool := d % 4096 == 0 && 0x100000 ≤ d && d < 0x1100000

/-- A root RCB that R47, R48 and R51 admit: parent 0, every override bit, fields in range, a placement mask that is not empty. -/
def rootOk (b : BitVec 1024) : Bool :=
  fieldN b 0 64 == 0 && fieldN b 64 16 == 0xFF && rcbOk b && fieldN b (8 * 0x28) 128 != 0

/-- Whether the root of a queue is linked already, or may be linked (R51). -/
def State.rootReady (s : State) (x : Queue) : Bool :=
  x.root.toNat % 256 == 0 &&
  match s.region x.ctx x.root with
  | some r => r.root
  | none =>
    match s.readRcb x.ctx x.root with
    | some b => rootOk b
    | none => false

/-- The root of a queue linked by the first enable that names it (R51). -/
def State.linkRoot (s : State) (x : Queue) : State :=
  match s.region x.ctx x.root, s.readRcb x.ctx x.root with
  | none, some b =>
    ({ s with regions := s.regions ++ [newRegion x.ctx x.root 0 1 true b] } : State).writeRcb x.ctx x.root (bytesOf 0 8)
  | _, _ => s

/-- The checks of an enable (R36, R375, R382). -/
def State.enableOk (s : State) (x : Queue) (r : BitVec 1024) : Bool :=
  let mutOk := match s.translate x.ctx none x.mutAddr 128 .write with
    | .ok p => p.atHome
    | .error _ => false
  let part := (s.context x.ctx).map (·.part)
  fieldN r 88 8 == 1 && fieldN r 352 672 == 0 && 4 ≤ x.lsize && x.lsize ≤ 16 && x.pcap < 16 && part == some x.part
    && s.addressOk x x.ring (64 * 2 ^ x.lsize) 64 .read && x.mutAddr.toNat % 128 == 0 && mutOk && s.addressOk x x.root 256 128 .read
    && s.rootReady x && dbpageOk x.dbpage

/-- What the reads of an enable do to the stash: those of the queue's entry and of its root (R36, R51, R239). -/
def State.recallEnable (s : State) (q : Nat) : State :=
  if s.stash.isEmpty then s
  else
    match s.rawRead (s.port0.qtbase + 128 * q) 128 with
    | none => s
    | some v =>
      let x := queueOf q (BitVec.ofNat 1024 v)
      (s.recallRaw (s.port0.qtbase + 128 * q) 128).recallAt x.ctx x.root 128

/-- QUEUE_ENABLE: op 10 with any code but 2, of which only 1 is listed. A bad dbpage is reported as source 5 too (R375). -/
def execQueueEnable (e : BitVec 1024) (s : State) : Host.Outcome State Fault Refusal :=
  let q := cmdId e
  if !cmdClean e [(0x01, 1), (0x04, 4)] || cmdCode e != 1 || 4095 < q || (s.queue q).isSome then .next (s.report e false)
  else
    let s := s.recallEnable q
    match s.rawRead (s.port0.qtbase + 128 * q) 128 with
    | none => .next (s.report e false)
    | some v =>
      let r : BitVec 1024 := BitVec.ofNat 1024 v
      let x := queueOf q r
      if s.enableOk x r then
        let s1 := ({ s with queues := s.queues ++ [x] } : State).linkRoot x
        let s2 := match s1.translate x.ctx none x.mutAddr 128 .write with
          | .ok p => s1.agentWrite p.km p.key (List.replicate 128 0)
          | .error _ => s1
        .next ((s2.syncQueue q).report e true)
      else .next ((if dbpageOk x.dbpage then s else s.reject 3 x.dbpage).report e false)

/-- QUEUE_DISABLE: takes effect at once; its event waits for the packets that have started (R382). -/
def execQueueDisable (e : BitVec 1024) (s : State) : Host.Outcome State Fault Refusal :=
  let q := cmdId e
  let enabled := match s.queue q with
    | some x => x.enabled
    | none => false
  if cmdClean e [(0x01, 1), (0x04, 4)] && enabled then
    .next ((s.modQueue q (fun x => { x with enabled := false, draining := true, drainSeq := cmdSeq e, status := 0, parsed := none })).syncQueue q)
  else .next (s.report e false)

/-- Whether a disabled queue has no started packet left (R382). No packet of a half spliced buffer starts after the disable, so an INDIRECT with
some left never completes and its queue never drains (DESIGN CHOICE, log 34). -/
def State.drained (s : State) (x : Queue) : Bool := x.draining && !s.packets.any (fun p => p.q == x.q)

/-- QUEUE_DISABLE_COMPLETE: the event, the entry read no more, a root that no enabled queue names released (R51, R382). -/
def execQueueDisableComplete (q : Nat) (s : State) : Host.Outcome State Fault Refusal :=
  match s.queue q with
  | none => .next s
  | some x =>
    if s.drained x then
      let s1 : State := { s with queues := s.queues.filter (fun o => o.q != q) }
      .next (s1.releaseRoots.actionStatus 0x8A 0 x.drainSeq)
    else .next s

/-! ## Limits and images -/

/-- The four limits of a command (R382) in ns. -/
def limitsIn (e : BitVec 1024) : Limits :=
  { preempt := fieldN e (8 * 0x40) 64, wait := fieldN e (8 * 0x48) 64, run := fieldN e (8 * 0x50) 64, split := fieldN e (8 * 0x58) 64 }

/-- Limits inside the ranges of R89 and R357. -/
def Limits.inRange (l : Limits) : Bool :=
  1000 ≤ l.preempt && l.preempt ≤ 10000000 && 1000000 ≤ l.wait && l.wait ≤ 60000000000
    && (l.run == 0 || (1000000 ≤ l.run && l.run ≤ 3600000000000)) && 1000 ≤ l.split && l.split ≤ 60000000000

/-- The time moved on to the next whole µs, in which counts begin that are not to be taken for ones begun before. -/
def State.freshMicro (s : State) : State := { s with ticks := (s.micros + 1) * 100 }

/-- PARTITION_LIMITS: for passes and counts that begin after the command has completed, which it does as a new µs begins (R382; what a
command takes of time is not stated, log 6). -/
def execPartitionLimits (e : BitVec 1024) (s : State) : Host.Outcome State Fault Refusal :=
  s.command e (cmdClean e [(0x04, 4), (0x40, 32)] && cmdId e < 8 && (limitsIn e).inRange)
    (fun s =>
      let s := s.freshMicro
      { s with limits := s.limits.mapIdx (fun i l => if i = cmdId e then (s.micros, limitsIn e) :: l else l) })

/-- SET_ENGINE_IMAGE (R26, R382): the engines that hold the image which it replaces load anew at their next command. -/
def execSetEngineImage (e : BitVec 1024) (s : State) : Host.Outcome State Fault Refusal :=
  let code := cmdCode e
  let n := (cmdB e).toNat
  let set (c : Context) : Context :=
    if code = 1 then { c with copyImage := some (cmdA e, n) } else { c with collImage := some (cmdA e, n) }
  s.command e (cmdClean e [(0x01, 1), (0x04, 4), (0x08, 8), (0x10, 8)] && (code == 1 || code == 2) && (s.context (cmdId e)).isSome
      && 1 ≤ n && n ≤ 65536)
    (fun s => { s with contexts := mapIf (fun (c : Context) => c.id == cmdId e) set s.contexts
                       engines := s.engines.filter (fun x => !(x.ctx == cmdId e && x.kind == code)) })

end Sys2Proof.Machine
end

