-- ==== Sys2Proof/Machine/Answers.lean ====
section
/-! DEFINITION. What the host's answers do: trap answers to held tasks and halted domains (R339), service actions (R368 to R372) with
the approvals of REPAIR, and answers to service requests (R66, R380, R381). -/

namespace Sys2Proof.Machine

/-! ## Trap answers (R339) -/

/-- The held task that an answer names: context, the effective fdom of its region, node (either one of a meld), the seq of its
record; with the cause that holds it. -/
def State.heldTask (s : State) (e : BitVec 1024) : Option (Task × Nat) :=
  s.tasks.findSome? (fun t =>
    match t.status with
    | .held c =>
      if t.id.ctx == cmdId e && s.effFdom t.id.ctx t.id.region == fieldN e 64 16 && (t.id.node == fieldN e 80 32
            || ((s.meldOf t).map (·.c)) == some (fieldN e 80 32)) && t.fseq == (cmdB e).toNat + 1 then some (t, c) else none
    | _ => none)

/-- RESUME: the task returns to the ready pool; an answer that names no held task is ignored. -/
def execResume (e : BitVec 1024) (s : State) : Host.Outcome State Fault Refusal :=
  match s.heldTask e with
  | some (t, _) => .next (s.resumeHeld t)
  | none => .next s

/-- END: the task ends under R336 without a further record. -/
def execEndTask (e : BitVec 1024) (s : State) : Host.Outcome State Fault Refusal :=
  match s.heldTask e with
  | some (t, _) => .next (s.endTask t).settle
  | none => .next s

/-- The halted entry of a context's table that an answer's fdom selects (R333, R339). -/
def State.haltedEntry (s : State) (e : BitVec 1024) : Option (Context × Nat) :=
  match s.context (cmdId e) with
  | none => none
  | some c =>
    let k := c.entry (fieldN e 64 16)
    if c.halted.contains k then some (c, k) else none

/-- The halt of an entry lifted. -/
def State.liftHalt (s : State) (ctx k : Nat) : State :=
  { s with contexts := mapIf (fun (c : Context) => c.id == ctx) (fun c => { c with halted := c.halted.filter (· != k) }) s.contexts }

/-- RELEASE_DOMAIN. -/
def execReleaseDomain (e : BitVec 1024) (s : State) : Host.Outcome State Fault Refusal :=
  match s.haltedEntry e with
  | some (c, k) => .next (s.liftHalt c.id k).settle
  | none => .next s

/-- A graph of an aborted domain: what has not been dispatched is retired without running, a LOOP in progress goes no further, every
task ends without a record, an engine command too. -/
def State.abortGraph (s : State) (gid : Nat) : State :=
  match s.graph gid with
  | none => s
  | some g =>
    let s1 := s.skipAll gid (g.nodes.map (·.index))
    let s2 := (g.nodes.filter (fun n => n.kind == 6 && n.status == .running)).foldl (fun s n =>
      (s.modNode gid n.index (fun x => { x with status := .retired })).nodeInterrupt g n) s1
    let s3 := (s2.tasks.filter (fun t => t.id.gid == gid)).foldl (fun s t => s.endTask t) s2
    let s4 := (g.nodes.filter Node.onEngine).foldl (fun s n => s.retireNode gid n.index .faulted) s3
    s4.checkGraph gid

/-- ABORT_DOMAIN. -/
def execAbortDomain (e : BitVec 1024) (s : State) : Host.Outcome State Fault Refusal :=
  match s.haltedEntry e with
  | some (c, k) =>
    let gs := s.graphs.filter (fun g => g.live && g.ctx == c.id && c.entry (s.effFdom c.id g.region) == k)
    .next ((gs.foldl (fun s g => s.abortGraph g.gid) s).liftHalt c.id k).settle
  | none => .next s

/-! ## Service actions (R368 to R372) -/

/-- Arguments of a service action (R381): the section, link or target at 0x08, from at 0x0A, to at 0x0B; force and the timeout in µs
both at 0x0C, since no action takes both and the field holds 8 bytes; the section mask at 0x18. -/
def Action.code (a : Action) : Nat := cmdCode a.cmd
def Action.seq (a : Action) : Nat := cmdId a.cmd
def Action.target (a : Action) : Nat := fieldN a.cmd 64 16
def Action.from_ (a : Action) : Nat := fieldN a.cmd 80 8
def Action.to_ (a : Action) : Nat := fieldN a.cmd 88 8
def Action.force (a : Action) : Bool := a.cmd.getLsbD 96
def Action.timeout (a : Action) : Nat := fieldN a.cmd 96 32
def Action.mask (a : Action) : BitVec 128 := a.cmd.extractLsb' 192 128

/-- The logical sections that an action empties (R369, R370). -/
def Action.sections (a : Action) : List Nat :=
  if a.code = 1 then [a.target] else (List.range 128).filter a.mask.getLsbD

/-- The action under way changed. -/
def State.onAction (s : State) (f : Action → Action) : State := { s with action := s.action.map f }

/-- A reservation made anew for a node that waits, in its best section (R86, R369). Where no section is unreserved it stands like a node
that has suffered its eighth bypass, and reserves the first that frees up (log 32). -/
def State.reserveAnew (s : State) (k : Nat × Nat) : State :=
  match s.graph k.1, s.node k.1 k.2 with
  | some g, some n =>
    match s.bestSection (s.wantOf g n) with
    | some b => s.modSect b (fun x => { x with reserved := some k })
    | none => s.modNode k.1 k.2 (fun x => { x with bypasses := max x.bypasses 8 })
  | _, _ => s

/-- The sections of an action closed to dispatch; a reservation on one of them ends, and its node reserves anew (R369); a pre-emption that
serves the node goes on until it is dispatched (R89). -/
def State.closeSections (s : State) (a : Action) : State :=
  let ended := a.sections.filterMap (fun n => (s.sect n).bind (·.reserved))
  let s1 := a.sections.foldl (fun s n => s.modSect n (fun x => { x with closing := true })) s
  ended.foldl (fun s k => (s.cancelReservation k.1 k.2).reserveAnew k) s1

/-- The sections of an action open to dispatch again. -/
def State.openSections (s : State) (a : Action) : State :=
  a.sections.foldl (fun s n => s.modSect n (fun x => { x with closing := false })) s

/-- Whether an action on sections concerns a context: one that moves them, those of the from-partition (R370). -/
def State.actionOn (s : State) (a : Action) (ctx : Nat) : Bool := a.code != 2 || (s.context ctx).map (·.part) == some a.from_

/-- Tasks that an action concerns: those on its sections, or that left one of them and may resume nowhere else (R90); for a move, of
the from-partition. -/
def State.actionTasks (s : State) (a : Action) : List Task :=
  s.tasks.filter (fun t =>
    a.sections.contains t.id.section_ && (t.status == .running || !s.isMigratable t.id.ctx t.id.region)
      && s.actionOn a t.id.ctx)

/-- Whether a COPY or COLL node that an action concerns runs on one of its sections. It has no image and is waited for, whatever the flag
of its region (log 32). -/
def State.actionEngines (s : State) (a : Action) : Bool :=
  s.graphs.any (fun g => s.actionOn a g.ctx && g.nodes.any (fun n => n.onEngine && a.sections.contains n.section_))

/-- Tasks that an action stops with image reason 4: running, migratable, with an image that fits (R344, R369). -/
def State.movable (s : State) (t : Task) : Bool :=
  t.status == .running && s.isMigratable t.id.ctx t.id.region && s.poolHolds t

/-- Whether an action on sections has tasks or engine commands to wait for that it does not stop (R369). -/
def State.actionWaits (s : State) (a : Action) : Bool := s.actionEngines a || (s.actionTasks a).any (fun t => !s.movable t)

/-- An update of the enumeration table (R77): two increments of the epoch around the change. -/
def State.updateTable (s : State) (f : State → State) : State := { f s with epoch := s.epoch + 2 }

/-- Hops between two dies over the links that are up but for one. -/
def State.hopsWithout (s : State) (l a b : Nat) : Nat :=
  (linkDist s.links.toList (fun k => k.state == 0 && k.phys != l) a)[b]?.getD 99

/-- The physical link of a logical number. -/
def State.logicalLink (s : State) (n : Nat) : Option Link := s.links.toList.find? (fun l => l.llink == some n)

/-- Whether some pair of live dies would lie above four hops without a link (R371). -/
def State.linkNeeded (s : State) (l : Nat) : Bool :=
  (List.range 8).any (fun a => (List.range 8).any (fun b =>
    s.dieLive a && s.dieLive b && 4 < s.hopsWithout l a b))

/-- The image of a firmware update, read at its address: in memory of this Brynter where the address lies in a range of R225, else in host
memory (DESIGN CHOICE, log 32); none where it cannot be read, or is longer than the largest that R395 admits. -/
def State.updateImage (s : State) (a : Action) : Option Image :=
  let at_ := fieldN a.cmd 128 64
  match s.rawRead at_ 24 with
  | none => none
  | some h =>
    let n := 24 + h / 2 ^ 128 % 2 ^ 64 + 2420
    if 16 * 2 ^ 20 < n then none else (s.rawRead at_ n).map (fun v => Image.ofBytes (bytesOf v n))

/-- The image of a firmware update that passes the check of its target's kind (R372, R396). -/
def State.goodUpdate (s : State) (a : Action) : Option Image :=
  (s.updateImage a).filter (fun i => i.kind == a.target + 1 && (s.boot.check i).isNone)

/-- What stands against an action at its start (R368 to R372): an argument that names nothing, or a rule of the action. -/
def State.actionRefused (s : State) (a : Action) : Bool :=
  let live (n : Nat) : Bool := match s.sect n with
    | some x => !x.offline
    | none => false
  match a.code with
  | 1 => !live a.target || 10000000 < a.timeout || (a.timeout == 0 && s.actionWaits a)
  | 2 => a.mask == 0 || 8 ≤ a.from_ || 8 ≤ a.to_ || 10000000 < a.timeout || (a.timeout == 0 && s.actionWaits a)
      || !a.sections.all (fun n => live n && (s.sect n).bind (·.part) == some a.from_)
  | 3 =>
    match s.logicalLink a.target with
    | none => true
    | some l => l.state != 0 || (!a.force && s.linkNeeded l.phys)
  | 4 =>
    match s.logicalLink a.target with
    | none => true
    | some l => l.state == 2
  | _ => 2 < a.target || (s.goodUpdate a).isNone

/-- What an action that ends without success has begun taken back: stops that it has asked for, and an image that it would have switched to
(R368). -/
def State.dropAction (s : State) (a : Action) : State :=
  if a.code = 5 then s.onBoot (fun b => { b with updates := b.updates.filter (fun u => u.1 != a.target) })
  else
    let keep (t : Task) : Task := if t.stopAsked == some 4 then { t with stopAsked := none } else t
    { s with task := keep s.task, parked := s.parked.map keep }

/-- An action ended with a status (R368); its sections are open again. -/
def State.endAction (s : State) (status : Nat) : State :=
  match s.action with
  | none => s
  | some a =>
    let s0 := if status = 0 then s else s.dropAction a
    let s1 := if a.code ≤ 2 then s0.openSections a else s0
    (({ s1 with action := none } : State).actionStatus a.code status a.seq).settle

/-- What a step of an action makes of the state: the next step is due, the action waits, it is done, or it is refused. -/
inductive StepEnd where
  | more (s : State)
  | wait (s : State)
  | done (s : State)
  | refused

/-- What the read of an update's image does to the stash (R239). -/
def State.recallUpdate (s : State) (a : Action) : State :=
  if s.stash.isEmpty || a.code != 5 then s
  else
    let at_ := fieldN a.cmd 128 64
    match s.rawRead at_ 24 with
    | none => s
    | some h => s.recallRaw at_ (min (24 + h / 2 ^ 128 % 2 ^ 64 + 2420) (16 * 2 ^ 20))

/-- The image of a firmware update taken, to be switched to (R372): the one that stands at its address now and passes. -/
def State.startSwitch (s : State) (a : Action) : StepEnd :=
  match s.goodUpdate a with
  | some i => .more (s.onBoot (fun b => { b with updates := b.updates ++ [(a.target, i)] }))
  | none => .refused

/-- Step k of an action. Removing a section has the four steps of R369; moving sections its first two and the update of R370. The second
step asks the tasks that it moves to stop, and waits until they have; one of timeout 0 that has others to wait for is refused, also where they
have come since the action began. A link action has one step; a firmware update takes its image, then waits for the switch. -/
def State.actionStep (s : State) (a : Action) (k : Nat) : StepEnd :=
  let setLink (f : Link → Link) : State :=
    match s.logicalLink a.target with
    | none => s
    | some l => s.updateTable (fun s => s.modLink l.phys f)
  match a.code, k with
  | 3, _ => .done (setLink (fun l => { l with state := 1, replays := 0 }))
  | 4, _ => .done (setLink (fun l => { l with state := 0, failed := false, replays := 0 }))
  | 5, 1 => s.startSwitch a
  | 5, _ => if s.boot.updates.isEmpty then .done s else .wait s
  | _, 1 => .more (s.closeSections a)
  | _, 2 =>
    if a.timeout = 0 ∧ s.actionWaits a then .refused
    else
      let asked := ((s.actionTasks a).filter (fun t => s.movable t && t.stopAsked.isNone))
      let s1 := asked.foldl (fun s t => s.modTask t.id.tid (fun t => { t with stopAsked := some 4 })) s
      if (s1.actionTasks a).isEmpty && !s1.actionEngines a then .more s1 else .wait s1
  | 2, _ => .done (s.updateTable (fun s => a.sections.foldl (fun s n => s.modSect n (fun x => { x with part := some a.to_ })) s))
  | _, 3 => .more (s.flushLines (fun l => l.section_ == a.target))
  | _, _ =>
    .done (s.updateTable (fun s =>
      match s.sect a.target with
      | none => s
      | some x =>
        (s.modSect a.target (fun x => { x with offline := true })).modDie x.pdie
          (fun d => { d with soff := d.soff ||| (1#16 <<< x.psect) })))

/-- The steps that a service action takes until it waits or ends. With REPAIR set in DUTY each step waits for the host's approval
(R66, R368), and one that has been asked for waits on when REPAIR is cleared (R65). -/
def State.driveAction (s : State) : Nat → State
  | 0 => s
  | fuel + 1 =>
    match s.action with
    | none =>
      match s.actionQueue with
      | [] => s
      | a :: rest =>
        let s := s.recallUpdate a
        let s1 : State := { s with actionQueue := rest, action := some { a with deadline := s.micros + a.timeout } }
        if s1.actionRefused a then s1.endAction 1 |>.driveAction fuel else s1.driveAction fuel
    | some a =>
      if a.asked && !a.approved then s
      else if s.port0.duty.getLsbD 6 && !a.approved then
        (s.onAction (fun a => { a with asked := true })).postRequest 7 0xFF 0 (.repair a.step)
          (BitVec.ofNat 896 (leVal (layBytes [(a.code, 1), (a.step, 1), (0, 2), (a.seq, 4)])))
      else
        match (s.recallUpdate a).actionStep a a.step with
        | .wait s1 => s1.onAction (fun a => { a with approved := true }) |>.settle
        | .more s1 => (s1.onAction (fun a => { a with step := a.step + 1, asked := false, approved := false })).driveAction fuel
        | .done s1 => (s1.endAction 0).driveAction fuel
        | .refused => (s.endAction 1).driveAction fuel

/-- The steps of the action under way and of those that stand behind it. -/
def State.continueActions (s : State) : State := s.driveAction (8 * (s.actionQueue.length + 1) + 8)

/-- Whether the action under way waits for something that has come about. -/
def State.actionReady (s : State) : Bool :=
  match s.action with
  | none => false
  | some a =>
    (a.approved || (!s.port0.duty.getLsbD 6 && !a.asked)) &&
      (if a.code = 5 then s.boot.updates.isEmpty
       else a.step == 2 && (((s.actionTasks a).isEmpty && !s.actionEngines a)
         || (s.actionTasks a).any (fun t => s.movable t && t.stopAsked.isNone)))

/-- A service action put behind those before it (R368). -/
def State.startAction (s : State) (e : BitVec 1024) : State :=
  ({ s with actionQueue := s.actionQueue ++ [{ cmd := e, step := 1, deadline := 0, asked := false, approved := false }] } : State).continueActions

/-- REMOVE_SECTION (R369). -/
def execRemoveSection (e : BitVec 1024) (s : State) : Host.Outcome State Fault Refusal := .next (s.startAction e)

/-- MOVE_SECTIONS (R370). -/
def execMoveSections (e : BitVec 1024) (s : State) : Host.Outcome State Fault Refusal := .next (s.startAction e)

/-- LINK_DOWN (R371). -/
def execLinkDown (e : BitVec 1024) (s : State) : Host.Outcome State Fault Refusal := .next (s.startAction e)

/-- LINK_UP (R371). -/
def execLinkUp (e : BitVec 1024) (s : State) : Host.Outcome State Fault Refusal := .next (s.startAction e)

/-- FIRMWARE_UPDATE (R372): the image that stands at the address is checked; the action ends when its switch completes. -/
def execFirmwareUpdate (e : BitVec 1024) (s : State) : Host.Outcome State Fault Refusal := .next (s.startAction e)

/-- Whether the switch of a firmware update to a target is under way: its second step, approved where the host approves steps (R66, R368). -/
def State.switching (s : State) (target : Nat) : Bool :=
  match s.action with
  | none => false
  | some a => a.code == 5 && a.target == target && a.step == 2 && a.approved

/-- FIRMWARE_SWITCH_COMPLETE (R372, R396, R397): the register is extended, the module flash takes the image, the fused minimum rises. -/
def execFirmwareSwitchComplete (target : Nat) (s : State) : Host.Outcome State Fault Refusal :=
  match s.switching target, s.boot.updates.find? (fun u => u.1 == target) with
  | true, some u =>
    let take (b : Boot) : Boot :=
      let b1 := b.measure u.2
      { b1 with updates := b.updates.filter (fun o => o.1 != target)
                flash := mapIf (fun (i : Image) => i.kind == u.2.kind) (fun _ => u.2) b.flash
                fused := b.fused.setIfInBounds u.2.kind (max u.2.svn ((b.fused[u.2.kind]?).getD 0)) }
    .next (s.onBoot take).continueActions
  | _, _ => .next s

/-- The status of an action whose timeout has passed: one of timeout 0 that has tasks to wait for is refused (R369). -/
def State.lateStatus (s : State) : Nat := if (s.action.map Action.timeout).getD 0 = 0 then 1 else 2

/-- Whether the timeout of the action under way has passed while it waits for tasks, or for engine commands, that it does not stop
(R369). -/
def State.actionLate (s : State) : Bool :=
  match s.action with
  | none => false
  | some a =>
    a.code ≤ 2 && a.step == 2 && a.approved && a.deadline ≤ s.micros && s.actionWaits a

/-- SERVICE_ACTION_TIMEOUT (R369). -/
def execServiceActionTimeout (s : State) : Host.Outcome State Fault Refusal :=
  .next (if s.actionLate then (s.endAction s.lateStatus).continueActions else s)

/-! ## Answers to service requests (R380, R381) -/

/-- A packet run in a queue, by its kind. -/
def runPacket (q : Nat) (p : BitVec 512) (s : State) : Host.Outcome State Fault Refusal :=
  match fieldN p 0 8 with
  | 1 => execLaunchGraph q p s
  | 2 => execLaunchNode q p s
  | 3 => execWaitValue q p s
  | 4 => execWriteValue q p s
  | 5 => execIndirect q p s
  | 6 => execSetSeed q p s
  | 7 => execRegionCreate q p s
  | 8 => execRegionDestroy q p s
  | 9 => execFencePacket q p s
  | _ => execUnknownKindPacket q p s

/-- A packet that the host has returned goes through the steps after step 3 (R66): it starts where its own barrier bit lets it, or stands in
its place until every earlier packet has completed (R43). -/
def startParsed (q : Nat) (p : BitVec 512) (s : State) : Host.Outcome State Fault Refusal :=
  match s.queue q with
  | none => .next s
  | some x =>
    if s.mayStart x (x.inBuffer.map (·.1)) p then runPacket q p s else .next (s.modQueue q (fun x => { x with parsed := some p }))

/-- The host's word on a packet: if its queue still waits for this answer it waits no more, and what the answer says follows (R66). The
answer on a packet that has been discarded does nothing (R40). Where the queue has been stopped or stands in error when the answer comes, no
rule says what becomes of the answer: it is dropped, and the packet is taken up anew once the queue runs again, in the mode that DUTY then
has (DESIGN CHOICE, log 34). -/
def State.answerPacket (s : State) (q tag : Nat) (k : State → Host.Outcome State Fault Refusal) : Host.Outcome State Fault Refusal :=
  match s.queue q with
  | none => .next s
  | some x =>
    if x.waiting == some tag then
      let s1 := s.modQueue q (fun x => { x with waiting := none })
      if x.status == 1 && x.enabled then k s1 else .next s1
    else .next s

/-- The node that waits for an answer about a node: the node itself, or the one that it would be melded with (R129). -/
def State.askerOf (s : State) (gid n : Nat) : Option Node :=
  match s.graph gid with
  | none => none
  | some g => g.nodes.find? (fun x => x.asked && (x.index == n || x.draft.map (·.meld.c) == some n))

/-- A pair refused on the host's word, with the length of the body that had been built (R139); P waits no more, to be dispatched alone. -/
def State.refuseDraft (s : State) (g : Graph) (p : Node) (d : Draft) (code : Nat) : State :=
  ((s.refusePair g p { c := d.meld.c, code := code, words := d.meld.body.length, host := true }).modNode g.gid p.index
    (fun x => { x with asked := false, draft := none, spliceAnswer := some false, ctrAnswered := false })).settle

/-- The answer on a pair (R141): the meld that was evaluated goes on to its dispatch, or the pair is refused. -/
def State.answerPair (s : State) (gid p c : Nat) (ok : Bool) : State :=
  match s.graph gid, s.node gid p with
  | some g, some n =>
    match n.draft with
    | some d =>
      if n.asked && d.meld.c == c then
        if ok then (s.modNode gid p (fun x => { x with asked := false, spliceAnswer := some true })).settle
        else s.refuseDraft g n d 0x0D
      else s
    | none => s
  | _, _ => s

/-- The answer on a range that overlaps (R66, R129, R330): dispatch, or the fault of a strict region; no node that has been dispatched
waits for one. -/
def State.answerOverlap (s : State) (gid node : Nat) (ok : Bool) : State :=
  match s.graph gid, s.node gid node, s.askerOf gid node with
  | some g, some n, some p =>
    if ok then
      ((s.modNode gid node (fun x => { x with ctrAnswered := true })).modNode gid p.index (fun x => { x with asked := false })).settle
    else
      match p.draft with
      | some d => s.refuseDraft g p d 0x0F
      | none =>
        (((s.countOverlaps g.die true true g.region node (s.lapsOf g.die g n)).endReservation gid node).faultNode gid node 0 n.code
          0x0B 0 1).settle
  | _, _, _ => s

/-- The answer on a fault (R335, R380): the page is there, or it is refused. A task that waits in place is answered likewise (R344). -/
def State.answerFault (s : State) (tid : Nat) (record : BitVec 512) (ok : Bool) : State :=
  match s.findTask tid with
  | none => s
  | some t =>
    if t.status == .waitPage record || t.servicing == some record then
      if ok then (s.wakeTask t).settle else s.refuseTask t record
    else s

/-- What an answer does for the request that it answers. -/
def State.answerItem (s : State) (e : BitVec 1024) (i : Item) : Host.Outcome State Fault Refusal :=
  let val := (cmdA e).toNat
  match i.req with
  | .parse q _ p =>
    s.answerPacket q i.tag (fun s =>
      if val = 0 then startParsed q (cmdData e) s
      else .next (s.packetError q p (if val ≤ 0x0C then val else 0x01)))
  | .place q _ p => s.answerPacket q i.tag (fun s => .next (s.launchPacket q p (fieldN p 0 8 == 2) (some val)))
  | .fltsvc tid r => .next (s.answerFault tid r (val == 1))
  | .page who ctx va =>
    .next (if val = 1 then s
      else { s with pageWaits := { who := who, ctx := ctx, page := va / 4096, refused := true } :: s.pageWaits })
  | .splice _ gid p c => .next (s.answerPair gid p c (val == 1))
  | .triage r => .next (s.fileError r)
  | .ctrovl gid n _ => .next (s.answerOverlap gid n (val == 1))
  | .repair step =>
    .next (match s.action with
      | some a =>
        if a.asked && a.step == step then
          if val = 1 then (s.onAction (fun a => { a with approved := true })).continueActions else (s.endAction 1).continueActions
        else s
      | none => s)

/-- ANSWER: a posted request answered by its tag; any other tag is reported as source 5, reason 4 (R381). -/
def execAnswer (e : BitVec 1024) (s : State) : Host.Outcome State Fault Refusal :=
  match s.port0.items.find? (fun i => i.posted && i.tag == cmdId e) with
  | none => .next (s.reject 4 s.cmdIndex)
  | some i =>
    ({ s with port0 := { s.port0 with items := s.port0.items.filter (fun o => o.tag != i.tag) } } : State).answerItem e i

end Sys2Proof.Machine
end

