-- ==== Sys2Proof/Machine/Numbers.lean ====
section
/-! DEFINITION. Number formats (R179 to R183), exact values with their specials (R184, R185), rounding (R186), exact
arithmetic, comparison, and the approximation procedures (R197 to R201). -/

namespace Sys2Proof.Machine

/-! ## Formats (R180) -/

/-- A floating format: widths of its exponent and significand fields, bias, whether it has infinities, the code of its
largest finite value, its canonical NaN (E2M1 has none). -/
structure Fmt where
  e : Nat
  t : Nat
  bias : Nat
  hasInf : Bool
  top : Nat
  nan : Nat
  deriving DecidableEq, Repr

def binary64 : Fmt := { e := 11, t := 52, bias := 1023, hasInf := true, top := 0x7FEFFFFFFFFFFFFF, nan := 0x7FF8000000000000 }
def binary32 : Fmt := { e := 8, t := 23, bias := 127, hasInf := true, top := 0x7F7FFFFF, nan := 0x7FC00000 }
def binary16 : Fmt := { e := 5, t := 10, bias := 15, hasInf := true, top := 0x7BFF, nan := 0x7E00 }
def bfloat16 : Fmt := { e := 8, t := 7, bias := 127, hasInf := true, top := 0x7F7F, nan := 0x7FC0 }
def e5m2 : Fmt := { e := 5, t := 2, bias := 15, hasInf := true, top := 0x7B, nan := 0x7E }
def e4m3 : Fmt := { e := 4, t := 3, bias := 7, hasInf := false, top := 0x7E, nan := 0x7F }
def e2m1 : Fmt := { e := 2, t := 1, bias := 1, hasInf := false, top := 0x7, nan := 0x7 }

/-- Width of a format in bits. -/
def Fmt.bits (f : Fmt) : Nat := 1 + f.e + f.t

/-- The format that SEW and fk select, or none (R179). -/
def fmtOf (sew fk : Nat) : Option Fmt :=
  match sew, fk with
  | 64, 0 => some binary64
  | 32, 0 => some binary32
  | 16, 0 => some binary16
  | 16, 1 => some bfloat16
  | 8, 1 => some e5m2
  | 8, 2 => some e4m3
  | _, _ => none

/-! ## Exact values -/

/-- A value: NaN, an infinity, or sign, significand and power of two. A zero has a sign. With `more` set, the exact value
lies strictly between sig and sig + 1 units; sig then has at least 128 bits, beyond every rounding point. -/
inductive Num where
  | nan
  | inf (neg : Bool)
  | fin (neg : Bool) (sig : Nat) (exp : Int) (more : Bool)
  deriving DecidableEq, Repr

/-- A dyadic value without a rest. -/
def Num.dy (neg : Bool) (sig : Nat) (exp : Int) : Num := .fin neg sig exp false

/-- An integer. -/
def Num.ofInt (y : Int) : Num := .dy (y < 0) y.natAbs 0

/-- The value of a code (R180). -/
def Fmt.decode (f : Fmt) (x : Nat) : Num :=
  let neg := x / 2 ^ (f.e + f.t) % 2 == 1
  let mag := x % 2 ^ (f.e + f.t)
  let ef := mag / 2 ^ f.t
  let tf := mag % 2 ^ f.t
  if mag > f.top then (if f.hasInf && tf == 0 then .inf neg else .nan)
  else if ef = 0 then .dy neg tf (1 - (f.bias : Int) - f.t)
  else .dy neg (2 ^ f.t + tf) ((ef : Int) - f.bias - f.t)

/-- Whether a code stands for NaN, and its sign bit. -/
def Fmt.isNan (f : Fmt) (x : Nat) : Bool := f.decode x == .nan
def Fmt.signBit (f : Fmt) (x : Nat) : Bool := x / 2 ^ (f.e + f.t) % 2 == 1

/-! ## Rounding (R186) -/

/-- The sign bit of a format placed over a magnitude code. -/
def Fmt.signed (f : Fmt) (neg : Bool) (mag : Nat) : Nat := mag + (if neg then 2 ^ (f.e + f.t) else 0)

/-- The outcome of an infinite result (R185). -/
def Fmt.infinite (f : Fmt) (neg : Bool) : Nat :=
  if f.hasInf then f.signed neg (f.top + 1)
  else if f.nan = f.top then f.signed neg f.top
  else f.nan

/-- Whether a magnitude whose units below the rounding point are rem of 2^shift, and more, goes to the farther neighbour under
mode m with random integer r; odd says whether the nearer one has an odd last bit. -/
def roundsUp (m r : Nat) (neg odd : Bool) (rem shift : Nat) (more : Bool) : Bool :=
  let half := 2 ^ (shift - 1)
  if rem = 0 ∧ !more then false
  else
    match m with
    | 0 => rem > half || (rem == half && (more || odd))
    | 1 => false
    | 2 => neg
    | 3 => !neg
    | 4 => rem ≥ half
    | _ => r < rem * 2 ^ 32 / 2 ^ shift

/-- A magnitude rounded at a point shift bits above its unit, in units of that point. -/
def roundMag (m r : Nat) (neg : Bool) (sig : Nat) (shift : Int) (more : Bool) : Nat :=
  if shift ≤ 0 then sig * 2 ^ (-shift).toNat
  else
    let k := shift.toNat
    let q := sig / 2 ^ k
    if roundsUp m r neg (q % 2 == 1) (sig % 2 ^ k) k more then q + 1 else q

/-- The outcome of a finite value beyond the largest finite one (R186). -/
def Fmt.overflow (f : Fmt) (m : Nat) (neg : Bool) : Nat :=
  if !f.hasInf || m == 1 || (m == 2 && !neg) || (m == 3 && neg) then f.signed neg f.top else f.infinite neg

/-- round(y, f, m) with random integer r (R186). The rule's neighbours are taken of a y between two values of its grid; an exact y beyond the
largest finite value that is itself on the unbounded grid has no other nearest value and is kept, so that it overflows (DESIGN CHOICE,
log 24). -/
def Fmt.round (f : Fmt) (m r : Nat) (y : Num) : Nat :=
  match y with
  | .nan => f.nan
  | .inf neg => f.infinite neg
  | .fin neg sig exp more =>
    if sig = 0 then f.signed neg 0
    else
      let low : Int := 1 - (f.bias : Int) - f.t
      let point : Int := max (exp + (Nat.log2 sig : Int) - (f.t : Int)) low
      let mag := roundMag m r neg sig (point - exp) more
      let code := (point - low).toNat * 2 ^ f.t + mag
      if code > f.top then f.overflow m neg else f.signed neg code

/-- A value rounded to an integer under mode m (R207). -/
def roundInt (m r : Nat) (neg : Bool) (sig : Nat) (exp : Int) : Int :=
  let n : Int := roundMag m r neg sig (-exp) false
  if neg then -n else n

/-! ## Arithmetic (R184, R190) -/

/-- The signed significand at a smaller exponent. -/
def alignTo (neg : Bool) (sig : Nat) (exp e : Int) : Int :=
  let n : Int := sig * 2 ^ (exp - e).toNat
  if neg then -n else n

/-- a + b; the sign of an exact zero sum of opposite signs is minus under mode 2 only (R184). -/
def Num.add (m : Nat) (a b : Num) : Num :=
  match a, b with
  | .nan, _ => .nan
  | _, .nan => .nan
  | .inf p, .inf q => if p == q then .inf p else .nan
  | .inf p, _ => .inf p
  | _, .inf q => .inf q
  | .fin na sa ea _, .fin nb sb eb _ =>
    let e := min ea eb
    let y := alignTo na sa ea e + alignTo nb sb eb e
    if y = 0 then .dy (if na == nb then na else m == 2) 0 0 else .dy (y < 0) y.natAbs e

/-- −a. -/
def Num.neg (a : Num) : Num :=
  match a with
  | .nan => .nan
  | .inf p => .inf (!p)
  | .fin n s e r => .fin (!n) s e r

/-- a × b. -/
def Num.mul (a b : Num) : Num :=
  match a, b with
  | .nan, _ => .nan
  | _, .nan => .nan
  | .inf p, .inf q => .inf (p != q)
  | .inf p, .fin q s _ _ => if s = 0 then .nan else .inf (p != q)
  | .fin p s _ _, .inf q => if s = 0 then .nan else .inf (p != q)
  | .fin na sa ea _, .fin nb sb eb _ => .dy (na != nb) (sa * sb) (ea + eb)

/-- a ÷ b, with at least 128 bits of quotient. -/
def Num.div (a b : Num) : Num :=
  match a, b with
  | .nan, _ => .nan
  | _, .nan => .nan
  | .inf _, .inf _ => .nan
  | .inf p, .fin q _ _ _ => .inf (p != q)
  | .fin p _ _ _, .inf q => .dy (p != q) 0 0
  | .fin na sa ea _, .fin nb sb eb _ =>
    if sb = 0 then (if sa = 0 then .nan else .inf (na != nb))
    else if sa = 0 then .dy (na != nb) 0 0
    else
      let k := 130 + Nat.log2 sb
      let n := sa * 2 ^ k
      .fin (na != nb) (n / sb) (ea - eb - k) (n % sb != 0)

/-- The largest integer whose square does not exceed n, found bit by bit from bit k down. -/
def isqrtFrom (n : Nat) : Nat → Nat → Nat
  | 0, acc => if (acc + 1) * (acc + 1) ≤ n then acc + 1 else acc
  | k + 1, acc =>
    let x := acc + 2 ^ (k + 1)
    isqrtFrom n k (if x * x ≤ n then x else acc)

/-- isqrt(n) of R199. -/
def isqrt (n : Nat) : Nat := isqrtFrom n (Nat.log2 n / 2 + 1) 0

/-- The square root, with at least 128 bits. -/
def Num.sqrt (a : Num) : Num :=
  match a with
  | .nan => .nan
  | .inf p => if p then .nan else .inf false
  | .fin neg s e _ =>
    if s = 0 then .dy neg 0 0
    else if neg then .nan
    else
      let n := s * 2 ^ (260 + (e % 2).toNat)
      let q := isqrt n
      .fin false q ((e - e % 2 - 260) / 2) (q * q != n)

/-- a × 2^b; b is cut to a range beyond which every format overflows or underflows in the same way. -/
def Num.scale (a : Num) (b : Int) : Num :=
  match a with
  | .fin n s e r => .fin n s (e + max (-20000) (min 20000 b)) r
  | o => o

/-! ## Comparison (R191, R192) -/

/-- The order of two values that are not NaN: negative, zero or positive. -/
def Num.cmp (a b : Num) : Int :=
  let big (neg : Bool) : Int := if neg then -1 else 1
  match a, b with
  | .inf p, .inf q => if p == q then 0 else big p
  | .inf p, _ => big p
  | _, .inf q => - big q
  | .fin na sa ea _, .fin nb sb eb _ => alignTo na sa ea (min ea eb) - alignTo nb sb eb (min ea eb)
  | _, _ => 0

/-- a = b, a < b, a ≤ b; false with a NaN. -/
def Fmt.eq (f : Fmt) (a b : Nat) : Bool := !f.isNan a && !f.isNan b && (f.decode a).cmp (f.decode b) == 0
def Fmt.lt (f : Fmt) (a b : Nat) : Bool := !f.isNan a && !f.isNan b && (f.decode a).cmp (f.decode b) < 0
def Fmt.le (f : Fmt) (a b : Nat) : Bool := !f.isNan a && !f.isNan b && (f.decode a).cmp (f.decode b) ≤ 0

/-- Whether a comes before b, with −0 before +0. -/
def Fmt.before (f : Fmt) (a b : Nat) : Bool := f.lt a b || (f.eq a b && f.signBit a && !f.signBit b)

/-- minimumNumber and maximumNumber (R191). -/
def Fmt.minNum (f : Fmt) (a b : Nat) : Nat :=
  if f.isNan a then (if f.isNan b then f.nan else b) else if f.isNan b then a else if f.before b a then b else a
def Fmt.maxNum (f : Fmt) (a b : Nat) : Nat :=
  if f.isNan a then (if f.isNan b then f.nan else b) else if f.isNan b then a else if f.before a b then b else a

/-! ## Sign injections and classes (R194, R196) -/

/-- a with its sign bit replaced. -/
def Fmt.withSign (f : Fmt) (a : Nat) (neg : Bool) : Nat := f.signed neg (a % 2 ^ (f.e + f.t))

/-- The code that VFCLASS writes. -/
def Fmt.classify (f : Fmt) (a : Nat) : Nat :=
  match f.decode a with
  | .nan => if f.hasInf && a / 2 ^ (f.t - 1) % 2 == 0 then 8 else 9
  | .inf neg => if neg then 0 else 7
  | .fin neg s _ _ =>
    if s = 0 then (if neg then 3 else 4)
    else if s < 2 ^ f.t then (if neg then 2 else 5)
    else (if neg then 1 else 6)

/-! ## Approximations (R197 to R201): q before its rounding under mode 0 -/

/-- floor((m − 1) × c) for the normalised significand m of sig. -/
def normIndex (sig c : Nat) : Nat := sig * c / 2 ^ Nat.log2 sig - c

/-- Whether a significand is a power of two. -/
def isPow2 (sig : Nat) : Bool := sig == 2 ^ Nat.log2 sig

/-- VFRECIP (R198). -/
def Num.recip (a : Num) : Num :=
  match a with
  | .nan => .nan
  | .inf neg => .dy neg 0 0
  | .fin neg s e _ =>
    if s = 0 then .inf neg
    else
      let x : Int := e + Nat.log2 s
      if isPow2 s then .dy neg 1 (-x) else .dy neg (2 ^ 21 / (129 + 2 * normIndex s 64)) (-14 - x)

/-- VFRSQRT (R199). -/
def Num.rsqrt (a : Num) : Num :=
  match a with
  | .nan => .nan
  | .inf neg => if neg then .nan else .dy false 0 0
  | .fin neg s e _ =>
    if s = 0 then .inf neg
    else if neg then .nan
    else
      let x : Int := e + Nat.log2 s
      let odd := x % 2
      let j := s * 2 ^ odd.toNat * 32 / 2 ^ Nat.log2 s - 32
      if isPow2 s && odd == 0 then .dy false 1 (-(x / 2)) else .dy false (isqrt (2 ^ 34 / (65 + 2 * j))) (-14 - (x - odd) / 2)

/-- The largest n whose power p does not exceed x, from bit k down. -/
def rootFrom (p x : Nat) : Nat → Nat → Nat
  | 0, acc => acc
  | k + 1, acc =>
    let n := acc + 2 ^ k
    rootFrom p x k (if n ^ p ≤ x then n else acc)

/-- T(j) of R200. -/
def exp2Table (j : Nat) : Nat := rootFrom 128 (2 ^ (1792 + 2 * j + 1)) 16 0

/-- U(j) of R201: the integer part of 2^16 × log2((129 + 2j) / 128). -/
def log2Table (j : Nat) : Nat := Nat.log2 ((129 + 2 * j) ^ 65536) - 7 * 65536

/-- VFEXP2 (R200). -/
def Num.exp2 (a : Num) : Num :=
  match a with
  | .nan => .nan
  | .inf neg => if neg then .dy false 0 0 else .inf false
  | .fin neg s e _ =>
    let d : Int := 2 ^ (-e).toNat
    let n : Int := alignTo neg s (max e 0) 0
    let k : Int := if 0 ≤ e then n else n / d
    let j : Nat := if 0 ≤ e then 0 else ((n % d) * 64 / d).toNat
    let exact : Bool := 0 ≤ e || n % d == 0
    (if exact then Num.dy false 1 0 else Num.dy false (exp2Table j) (-14)).scale k

/-- VFLOG2 (R201). -/
def Num.log2 (a : Num) : Num :=
  match a with
  | .nan => .nan
  | .inf neg => if neg then .nan else .inf false
  | .fin neg s e _ =>
    if s = 0 then .inf true
    else if neg then .nan
    else
      let x : Int := e + Nat.log2 s
      if isPow2 s then .ofInt x
      else
        let q : Int := x * 65536 + log2Table (normIndex s 64)
        .dy (q < 0) q.natAbs (-16)

end Sys2Proof.Machine
end

