-- ==== Sys2Proof/Machine/VectorInt.lean ====
section
/-! DEFINITION. The integer operations of VA words in their four kinds (R98, R99, R154, R156 to R160), one meaning for each
instruction over the shared operations at the head of the file. -/

namespace Sys2Proof.Machine

/-! ## The second operand -/

/-- The operand in [19:15] of a VA word (R98). -/
inductive Src where
  | vv (vs1 : BitVec 5)
  | vx (xs : BitVec 5)
  | vi (simm : BitVec 5)
  | vr (vs1 : BitVec 5) (rsz : BitVec 2)

/-- The length of a replicate segment (R154). -/
def segLen (rsz : BitVec 2) : Nat := 4 ^ rsz.toNat

/-- b(i) of R156, a pattern of w bits. -/
def Src.value (src : Src) (s : State) (w i : Nat) : Nat :=
  match src with
  | .vv vs1 => s.task.elem w vs1.toNat i
  | .vx xs => (s.x xs).toNat % 2 ^ w
  | .vi simm => wrapN (sextN simm.toNat 5) w
  | .vr vs1 rsz => s.task.elem w vs1.toNat (i % segLen rsz)

/-- The index of VGATHER and VGATHERG (R159): a whole scalar, an immediate without its sign. -/
def Src.index (src : Src) (s : State) (w i : Nat) : Nat :=
  match src with
  | .vx xs => (s.x xs).toNat
  | .vi simm => simm.toNat
  | o => o.value s w i

/-- The source groups of the operand: a group, or the single register of a replicate source. -/
def Src.groups (src : Src) (lm : Nat) : List (Nat × Nat) :=
  match src with
  | .vv vs1 => [(vs1.toNat, lm)]
  | .vr vs1 _ => [(vs1.toNat, 1)]
  | _ => []

/-- The elements of the operand that a word reads: its active ones, or the whole segment of a replicate source. -/
def Src.readings (src : Src) (w : Nat) (is : List Nat) : List Reading :=
  match src with
  | .vv vs1 => [reading vs1.toNat w is]
  | .vr vs1 rsz => [reading vs1.toNat w (List.range (segLen rsz))]
  | _ => []

/-- The block scalar of the operand. -/
def Src.scalars (src : Src) : List (BitVec 5) :=
  match src with
  | .vx xs => [xs]
  | _ => []

/-! ## Results (R157): exact values narrowed to n bits -/

/-- VADD, VSUB, VMUL, with or without saturation. -/
def opSum (sat : Bool) (n a b : Nat) : Nat := narrowed sat n (sextN a n + sextN b n)
def opDif (sat : Bool) (n a b : Nat) : Nat := narrowed sat n (sextN a n - sextN b n)
def opProd (sat : Bool) (n a b : Nat) : Nat := narrowed sat n (sextN a n * sextN b n)
/-- VAND, VOR, VXOR. -/
def opBand (_sat : Bool) (_n a b : Nat) : Nat := a &&& b
def opBor (_sat : Bool) (_n a b : Nat) : Nat := a ||| b
def opBxor (_sat : Bool) (_n a b : Nat) : Nat := a ^^^ b
/-- VSLL, VSRL, VSRA: the shift is the low log2(n) bits of b. -/
def opSll (_sat : Bool) (n a b : Nat) : Nat := a * 2 ^ (b % n) % 2 ^ n
def opSrl (_sat : Bool) (n a b : Nat) : Nat := a / 2 ^ (b % n)
def opSra (_sat : Bool) (n a b : Nat) : Nat := wrapN (sextN a n / (2 : Int) ^ (b % n)) n
/-- VMIN, VMAX. -/
def opSmin (_sat : Bool) (n a b : Nat) : Nat := wrapN (min (sextN a n) (sextN b n)) n
def opSmax (_sat : Bool) (n a b : Nat) : Nat := wrapN (max (sextN a n) (sextN b n)) n

/-! ## The shapes of the words -/

/-- A word over the vs2 group and the operand, at SEW, with a destination. -/
def State.binaryWord (s : State) (vs2 : BitVec 5) (src : Src) (vm : BitVec 1) (dst : Nat × Nat)
    (k : State → Act) : Act :=
  let lm := s.task.lmul
  let w := s.task.sew
  s.vectorWord { srcs := (vs2.toNat, lm) :: src.groups lm, dsts := [dst] } vm
    (fun s => reading vs2.toNat w (s.actives vm) :: src.readings w (s.actives vm))
    (fun s => s.needX src.scalars [] k)

/-- The results of an elementwise operation for the active elements (R157). -/
def State.intResults (s : State) (vs2 : BitVec 5) (src : Src) (vm : BitVec 1) (f : Bool → Nat → Nat → Nat → Nat) :
    List (Nat × Nat) :=
  let w := s.task.sew
  (s.actives vm).map (fun i => (i, f s.task.sat w (s.task.elem w vs2.toNat i) (src.value s w i)))

/-- An elementwise integer word (R157). -/
def State.intWord (s : State) (vd vs2 : BitVec 5) (src : Src) (vm : BitVec 1) (f : Bool → Nat → Nat → Nat → Nat) : Act :=
  s.binaryWord vs2 src vm (vd.toNat, s.task.lmul) (fun s =>
    .go (s.onTask (fun t => t.setElems t.sew vd.toNat (s.intResults vs2 src vm f))))

/-- The mask bits of a comparison for the active elements (R158). -/
def State.cmpResults (s : State) (vs2 : BitVec 5) (src : Src) (vm : BitVec 1) (f : Nat → Nat → Nat → Bool) :
    List (Nat × Bool) :=
  let w := s.task.sew
  (s.actives vm).map (fun i => (i, f w (s.task.elem w vs2.toNat i) (src.value s w i)))

/-- Whether the destination of a comparison may stand where it does: with LMUL above 1, outside the source groups (R158). -/
def Task.cmpDstOk (t : Task) (vd vs2 : BitVec 5) (src : Src) : Bool :=
  t.lmul == 1 || (!overlap vd.toNat 1 vs2.toNat t.lmul &&
    (match src with
     | .vv vs1 => !overlap vd.toNat 1 vs1.toNat t.lmul
     | _ => true))

/-- A comparison (R158). -/
def State.cmpWord (s : State) (vd vs2 : BitVec 5) (src : Src) (vm : BitVec 1) (f : Nat → Nat → Nat → Bool) : Act :=
  if !s.task.cmpDstOk vd vs2 src then .trap s illegal
  else
    s.binaryWord vs2 src vm (vd.toNat, 1) (fun s =>
      .go (s.onTask (fun t => t.setMaskBits vd.toNat (s.cmpResults vs2 src vm f))))

/-- Whether the destination group of a gather stays clear of what it reads by index (R159, R160). -/
def Task.gatherDstOk (t : Task) (vd vs2 : BitVec 5) (n : Nat) (src : Src) : Bool :=
  !overlap vd.toNat t.lmul vs2.toNat n &&
    (match src with
     | .vv vs1 => !overlap vd.toNat t.lmul vs1.toNat t.lmul
     | _ => true)

/-- VGATHER (R159): any element of the vs2 group, 0 beyond vlmax. -/
def State.gatherWord (s : State) (vd vs2 : BitVec 5) (src : Src) (vm : BitVec 1) : Act :=
  let lm := s.task.lmul
  let w := s.task.sew
  let picks (s : State) : List (Nat × Nat) :=
    ((s.actives vm).map (fun i => (i, src.index s w i))).filter (fun p => p.2 < s.task.vlmax)
  if !s.task.gatherDstOk vd vs2 lm src then .trap s illegal
  else
    s.vectorWord { srcs := (vs2.toNat, lm) :: src.groups lm, dsts := [(vd.toNat, lm)] } vm
      (fun s => src.readings w (s.actives vm)) (fun s => s.needX src.scalars [] (fun s =>
        s.needClean [{ base := vs2.toNat, bits := w, elems := picks s }] (
          let vals := (s.actives vm).map (fun i =>
            let j := src.index s w i
            (i, if j < s.task.vlmax then s.task.elem w vs2.toNat j else 0))
          .go (s.onTask (fun t => t.setElems w vd.toNat vals)))))

/-- The registers that VGATHERG reads as one long vector (R160). -/
def Task.longLen (t : Task) (vs2 : BitVec 5) : Nat := min 8 (t.regCount - vs2.toNat)

/-- VGATHERG (R160): any element of up to eight registers from vs2 on. -/
def State.longGatherWord (s : State) (vd vs2 : BitVec 5) (src : Src) (vm : BitVec 1) : Act :=
  let lm := s.task.lmul
  let w := s.task.sew
  let c := s.task.longLen vs2
  let limit := c * s.task.perReg w
  let picks (s : State) : List (Nat × Nat) := ((s.actives vm).map (fun i => (i, src.index s w i))).filter (fun p => p.2 < limit)
  if !s.task.gatherDstOk vd vs2 c src then .trap s illegal
  else
    s.vectorWord { srcs := src.groups lm, dsts := [(vd.toNat, lm)], loose := [(vs2.toNat, c)] } vm
      (fun s => src.readings w (s.actives vm)) (fun s => s.needX src.scalars [] (fun s =>
        s.needClean [{ base := vs2.toNat, bits := w, elems := picks s }] (
          let vals := (s.actives vm).map (fun i =>
            let j := src.index s w i
            (i, if j < limit then s.task.elem w vs2.toNat j else 0))
          .go (s.onTask (fun t => t.setElems w vd.toNat vals)))))

/-! ## The instructions -/

/-- VADD, kind VV (R157). -/
def execVaddVV (vd vs2 vs1 : BitVec 5) (_c2 _c1 vm : BitVec 1) (s : State) : Host.Outcome State Fault Refusal :=
  s.issue .l true (fun s => s.intWord vd vs2 (.vv vs1) vm opSum)

/-- VADD, kind VX (R157). -/
def execVaddVX (vd vs2 xs : BitVec 5) (_c2 vm : BitVec 1) (s : State) : Host.Outcome State Fault Refusal :=
  s.issue .l true (fun s => s.intWord vd vs2 (.vx xs) vm opSum)

/-- VADD, kind VI (R157). -/
def execVaddVI (vd vs2 simm : BitVec 5) (_c2 vm : BitVec 1) (s : State) : Host.Outcome State Fault Refusal :=
  s.issue .l true (fun s => s.intWord vd vs2 (.vi simm) vm opSum)

/-- VADD, kind VR (R157). -/
def execVaddVR (vd vs2 vs1 : BitVec 5) (rsz : BitVec 2) (vm : BitVec 1) (s : State) : Host.Outcome State Fault Refusal :=
  s.issue .b true (fun s => s.intWord vd vs2 (.vr vs1 rsz) vm opSum)

/-- VSUB, kind VV (R157). -/
def execVsubVV (vd vs2 vs1 : BitVec 5) (_c2 _c1 vm : BitVec 1) (s : State) : Host.Outcome State Fault Refusal :=
  s.issue .l true (fun s => s.intWord vd vs2 (.vv vs1) vm opDif)

/-- VSUB, kind VX (R157). -/
def execVsubVX (vd vs2 xs : BitVec 5) (_c2 vm : BitVec 1) (s : State) : Host.Outcome State Fault Refusal :=
  s.issue .l true (fun s => s.intWord vd vs2 (.vx xs) vm opDif)

/-- VSUB, kind VI (R157). -/
def execVsubVI (vd vs2 simm : BitVec 5) (_c2 vm : BitVec 1) (s : State) : Host.Outcome State Fault Refusal :=
  s.issue .l true (fun s => s.intWord vd vs2 (.vi simm) vm opDif)

/-- VSUB, kind VR (R157). -/
def execVsubVR (vd vs2 vs1 : BitVec 5) (rsz : BitVec 2) (vm : BitVec 1) (s : State) : Host.Outcome State Fault Refusal :=
  s.issue .b true (fun s => s.intWord vd vs2 (.vr vs1 rsz) vm opDif)

/-- VMUL, kind VV (R157). -/
def execVmulVV (vd vs2 vs1 : BitVec 5) (_c2 _c1 vm : BitVec 1) (s : State) : Host.Outcome State Fault Refusal :=
  s.issue .l true (fun s => s.intWord vd vs2 (.vv vs1) vm opProd)

/-- VMUL, kind VX (R157). -/
def execVmulVX (vd vs2 xs : BitVec 5) (_c2 vm : BitVec 1) (s : State) : Host.Outcome State Fault Refusal :=
  s.issue .l true (fun s => s.intWord vd vs2 (.vx xs) vm opProd)

/-- VMUL, kind VI (R157). -/
def execVmulVI (vd vs2 simm : BitVec 5) (_c2 vm : BitVec 1) (s : State) : Host.Outcome State Fault Refusal :=
  s.issue .l true (fun s => s.intWord vd vs2 (.vi simm) vm opProd)

/-- VMUL, kind VR (R157). -/
def execVmulVR (vd vs2 vs1 : BitVec 5) (rsz : BitVec 2) (vm : BitVec 1) (s : State) : Host.Outcome State Fault Refusal :=
  s.issue .b true (fun s => s.intWord vd vs2 (.vr vs1 rsz) vm opProd)

/-- VGATHERG, kind VV (R160). -/
def execVgathergVV (vd vs2 vs1 : BitVec 5) (_c2 _c1 vm : BitVec 1) (s : State) : Host.Outcome State Fault Refusal :=
  s.issue .b true (fun s => s.longGatherWord vd vs2 (.vv vs1) vm)

/-- VGATHERG, kind VX (R160). -/
def execVgathergVX (vd vs2 xs : BitVec 5) (_c2 vm : BitVec 1) (s : State) : Host.Outcome State Fault Refusal :=
  s.issue .b true (fun s => s.longGatherWord vd vs2 (.vx xs) vm)

/-- VGATHERG, kind VI (R160). -/
def execVgathergVI (vd vs2 simm : BitVec 5) (_c2 vm : BitVec 1) (s : State) : Host.Outcome State Fault Refusal :=
  s.issue .b true (fun s => s.longGatherWord vd vs2 (.vi simm) vm)

/-- VGATHERG, kind VR (R160). -/
def execVgathergVR (vd vs2 vs1 : BitVec 5) (rsz : BitVec 2) (vm : BitVec 1) (s : State) : Host.Outcome State Fault Refusal :=
  s.issue .b true (fun s => s.longGatherWord vd vs2 (.vr vs1 rsz) vm)

/-- VAND, kind VV (R157). -/
def execVandVV (vd vs2 vs1 : BitVec 5) (_c2 _c1 vm : BitVec 1) (s : State) : Host.Outcome State Fault Refusal :=
  s.issue .l true (fun s => s.intWord vd vs2 (.vv vs1) vm opBand)

/-- VAND, kind VX (R157). -/
def execVandVX (vd vs2 xs : BitVec 5) (_c2 vm : BitVec 1) (s : State) : Host.Outcome State Fault Refusal :=
  s.issue .l true (fun s => s.intWord vd vs2 (.vx xs) vm opBand)

/-- VAND, kind VI (R157). -/
def execVandVI (vd vs2 simm : BitVec 5) (_c2 vm : BitVec 1) (s : State) : Host.Outcome State Fault Refusal :=
  s.issue .l true (fun s => s.intWord vd vs2 (.vi simm) vm opBand)

/-- VAND, kind VR (R157). -/
def execVandVR (vd vs2 vs1 : BitVec 5) (rsz : BitVec 2) (vm : BitVec 1) (s : State) : Host.Outcome State Fault Refusal :=
  s.issue .b true (fun s => s.intWord vd vs2 (.vr vs1 rsz) vm opBand)

/-- VOR, kind VV (R157). -/
def execVorVV (vd vs2 vs1 : BitVec 5) (_c2 _c1 vm : BitVec 1) (s : State) : Host.Outcome State Fault Refusal :=
  s.issue .l true (fun s => s.intWord vd vs2 (.vv vs1) vm opBor)

/-- VOR, kind VX (R157). -/
def execVorVX (vd vs2 xs : BitVec 5) (_c2 vm : BitVec 1) (s : State) : Host.Outcome State Fault Refusal :=
  s.issue .l true (fun s => s.intWord vd vs2 (.vx xs) vm opBor)

/-- VOR, kind VI (R157). -/
def execVorVI (vd vs2 simm : BitVec 5) (_c2 vm : BitVec 1) (s : State) : Host.Outcome State Fault Refusal :=
  s.issue .l true (fun s => s.intWord vd vs2 (.vi simm) vm opBor)

/-- VOR, kind VR (R157). -/
def execVorVR (vd vs2 vs1 : BitVec 5) (rsz : BitVec 2) (vm : BitVec 1) (s : State) : Host.Outcome State Fault Refusal :=
  s.issue .b true (fun s => s.intWord vd vs2 (.vr vs1 rsz) vm opBor)

/-- VXOR, kind VV (R157). -/
def execVxorVV (vd vs2 vs1 : BitVec 5) (_c2 _c1 vm : BitVec 1) (s : State) : Host.Outcome State Fault Refusal :=
  s.issue .l true (fun s => s.intWord vd vs2 (.vv vs1) vm opBxor)

/-- VXOR, kind VX (R157). -/
def execVxorVX (vd vs2 xs : BitVec 5) (_c2 vm : BitVec 1) (s : State) : Host.Outcome State Fault Refusal :=
  s.issue .l true (fun s => s.intWord vd vs2 (.vx xs) vm opBxor)

/-- VXOR, kind VI (R157). -/
def execVxorVI (vd vs2 simm : BitVec 5) (_c2 vm : BitVec 1) (s : State) : Host.Outcome State Fault Refusal :=
  s.issue .l true (fun s => s.intWord vd vs2 (.vi simm) vm opBxor)

/-- VXOR, kind VR (R157). -/
def execVxorVR (vd vs2 vs1 : BitVec 5) (rsz : BitVec 2) (vm : BitVec 1) (s : State) : Host.Outcome State Fault Refusal :=
  s.issue .b true (fun s => s.intWord vd vs2 (.vr vs1 rsz) vm opBxor)

/-- VSLL, kind VV (R157). -/
def execVsllVV (vd vs2 vs1 : BitVec 5) (_c2 _c1 vm : BitVec 1) (s : State) : Host.Outcome State Fault Refusal :=
  s.issue .l true (fun s => s.intWord vd vs2 (.vv vs1) vm opSll)

/-- VSLL, kind VX (R157). -/
def execVsllVX (vd vs2 xs : BitVec 5) (_c2 vm : BitVec 1) (s : State) : Host.Outcome State Fault Refusal :=
  s.issue .l true (fun s => s.intWord vd vs2 (.vx xs) vm opSll)

/-- VSLL, kind VI (R157). -/
def execVsllVI (vd vs2 simm : BitVec 5) (_c2 vm : BitVec 1) (s : State) : Host.Outcome State Fault Refusal :=
  s.issue .l true (fun s => s.intWord vd vs2 (.vi simm) vm opSll)

/-- VSLL, kind VR (R157). -/
def execVsllVR (vd vs2 vs1 : BitVec 5) (rsz : BitVec 2) (vm : BitVec 1) (s : State) : Host.Outcome State Fault Refusal :=
  s.issue .b true (fun s => s.intWord vd vs2 (.vr vs1 rsz) vm opSll)

/-- VSRL, kind VV (R157). -/
def execVsrlVV (vd vs2 vs1 : BitVec 5) (_c2 _c1 vm : BitVec 1) (s : State) : Host.Outcome State Fault Refusal :=
  s.issue .l true (fun s => s.intWord vd vs2 (.vv vs1) vm opSrl)

/-- VSRL, kind VX (R157). -/
def execVsrlVX (vd vs2 xs : BitVec 5) (_c2 vm : BitVec 1) (s : State) : Host.Outcome State Fault Refusal :=
  s.issue .l true (fun s => s.intWord vd vs2 (.vx xs) vm opSrl)

/-- VSRL, kind VI (R157). -/
def execVsrlVI (vd vs2 simm : BitVec 5) (_c2 vm : BitVec 1) (s : State) : Host.Outcome State Fault Refusal :=
  s.issue .l true (fun s => s.intWord vd vs2 (.vi simm) vm opSrl)

/-- VSRL, kind VR (R157). -/
def execVsrlVR (vd vs2 vs1 : BitVec 5) (rsz : BitVec 2) (vm : BitVec 1) (s : State) : Host.Outcome State Fault Refusal :=
  s.issue .b true (fun s => s.intWord vd vs2 (.vr vs1 rsz) vm opSrl)

/-- VSRA, kind VV (R157). -/
def execVsraVV (vd vs2 vs1 : BitVec 5) (_c2 _c1 vm : BitVec 1) (s : State) : Host.Outcome State Fault Refusal :=
  s.issue .l true (fun s => s.intWord vd vs2 (.vv vs1) vm opSra)

/-- VSRA, kind VX (R157). -/
def execVsraVX (vd vs2 xs : BitVec 5) (_c2 vm : BitVec 1) (s : State) : Host.Outcome State Fault Refusal :=
  s.issue .l true (fun s => s.intWord vd vs2 (.vx xs) vm opSra)

/-- VSRA, kind VI (R157). -/
def execVsraVI (vd vs2 simm : BitVec 5) (_c2 vm : BitVec 1) (s : State) : Host.Outcome State Fault Refusal :=
  s.issue .l true (fun s => s.intWord vd vs2 (.vi simm) vm opSra)

/-- VSRA, kind VR (R157). -/
def execVsraVR (vd vs2 vs1 : BitVec 5) (rsz : BitVec 2) (vm : BitVec 1) (s : State) : Host.Outcome State Fault Refusal :=
  s.issue .b true (fun s => s.intWord vd vs2 (.vr vs1 rsz) vm opSra)

/-- VMIN, kind VV (R157). -/
def execVminVV (vd vs2 vs1 : BitVec 5) (_c2 _c1 vm : BitVec 1) (s : State) : Host.Outcome State Fault Refusal :=
  s.issue .l true (fun s => s.intWord vd vs2 (.vv vs1) vm opSmin)

/-- VMIN, kind VX (R157). -/
def execVminVX (vd vs2 xs : BitVec 5) (_c2 vm : BitVec 1) (s : State) : Host.Outcome State Fault Refusal :=
  s.issue .l true (fun s => s.intWord vd vs2 (.vx xs) vm opSmin)

/-- VMIN, kind VI (R157). -/
def execVminVI (vd vs2 simm : BitVec 5) (_c2 vm : BitVec 1) (s : State) : Host.Outcome State Fault Refusal :=
  s.issue .l true (fun s => s.intWord vd vs2 (.vi simm) vm opSmin)

/-- VMIN, kind VR (R157). -/
def execVminVR (vd vs2 vs1 : BitVec 5) (rsz : BitVec 2) (vm : BitVec 1) (s : State) : Host.Outcome State Fault Refusal :=
  s.issue .b true (fun s => s.intWord vd vs2 (.vr vs1 rsz) vm opSmin)

/-- VMAX, kind VV (R157). -/
def execVmaxVV (vd vs2 vs1 : BitVec 5) (_c2 _c1 vm : BitVec 1) (s : State) : Host.Outcome State Fault Refusal :=
  s.issue .l true (fun s => s.intWord vd vs2 (.vv vs1) vm opSmax)

/-- VMAX, kind VX (R157). -/
def execVmaxVX (vd vs2 xs : BitVec 5) (_c2 vm : BitVec 1) (s : State) : Host.Outcome State Fault Refusal :=
  s.issue .l true (fun s => s.intWord vd vs2 (.vx xs) vm opSmax)

/-- VMAX, kind VI (R157). -/
def execVmaxVI (vd vs2 simm : BitVec 5) (_c2 vm : BitVec 1) (s : State) : Host.Outcome State Fault Refusal :=
  s.issue .l true (fun s => s.intWord vd vs2 (.vi simm) vm opSmax)

/-- VMAX, kind VR (R157). -/
def execVmaxVR (vd vs2 vs1 : BitVec 5) (rsz : BitVec 2) (vm : BitVec 1) (s : State) : Host.Outcome State Fault Refusal :=
  s.issue .b true (fun s => s.intWord vd vs2 (.vr vs1 rsz) vm opSmax)

/-- VMSEQ, kind VV (R158). -/
def execVmseqVV (vd vs2 vs1 : BitVec 5) (_c2 _c1 vm : BitVec 1) (s : State) : Host.Outcome State Fault Refusal :=
  s.issue .l true (fun s => s.cmpWord vd vs2 (.vv vs1) vm cmpEq)

/-- VMSEQ, kind VX (R158). -/
def execVmseqVX (vd vs2 xs : BitVec 5) (_c2 vm : BitVec 1) (s : State) : Host.Outcome State Fault Refusal :=
  s.issue .l true (fun s => s.cmpWord vd vs2 (.vx xs) vm cmpEq)

/-- VMSEQ, kind VI (R158). -/
def execVmseqVI (vd vs2 simm : BitVec 5) (_c2 vm : BitVec 1) (s : State) : Host.Outcome State Fault Refusal :=
  s.issue .l true (fun s => s.cmpWord vd vs2 (.vi simm) vm cmpEq)

/-- VMSEQ, kind VR (R158). -/
def execVmseqVR (vd vs2 vs1 : BitVec 5) (rsz : BitVec 2) (vm : BitVec 1) (s : State) : Host.Outcome State Fault Refusal :=
  s.issue .b true (fun s => s.cmpWord vd vs2 (.vr vs1 rsz) vm cmpEq)

/-- VMSLT, kind VV (R158). -/
def execVmsltVV (vd vs2 vs1 : BitVec 5) (_c2 _c1 vm : BitVec 1) (s : State) : Host.Outcome State Fault Refusal :=
  s.issue .l true (fun s => s.cmpWord vd vs2 (.vv vs1) vm cmpLt)

/-- VMSLT, kind VX (R158). -/
def execVmsltVX (vd vs2 xs : BitVec 5) (_c2 vm : BitVec 1) (s : State) : Host.Outcome State Fault Refusal :=
  s.issue .l true (fun s => s.cmpWord vd vs2 (.vx xs) vm cmpLt)

/-- VMSLT, kind VI (R158). -/
def execVmsltVI (vd vs2 simm : BitVec 5) (_c2 vm : BitVec 1) (s : State) : Host.Outcome State Fault Refusal :=
  s.issue .l true (fun s => s.cmpWord vd vs2 (.vi simm) vm cmpLt)

/-- VMSLT, kind VR (R158). -/
def execVmsltVR (vd vs2 vs1 : BitVec 5) (rsz : BitVec 2) (vm : BitVec 1) (s : State) : Host.Outcome State Fault Refusal :=
  s.issue .b true (fun s => s.cmpWord vd vs2 (.vr vs1 rsz) vm cmpLt)

/-- VMSLTU, kind VV (R158). -/
def execVmsltuVV (vd vs2 vs1 : BitVec 5) (_c2 _c1 vm : BitVec 1) (s : State) : Host.Outcome State Fault Refusal :=
  s.issue .l true (fun s => s.cmpWord vd vs2 (.vv vs1) vm cmpLtu)

/-- VMSLTU, kind VX (R158). -/
def execVmsltuVX (vd vs2 xs : BitVec 5) (_c2 vm : BitVec 1) (s : State) : Host.Outcome State Fault Refusal :=
  s.issue .l true (fun s => s.cmpWord vd vs2 (.vx xs) vm cmpLtu)

/-- VMSLTU, kind VI (R158). -/
def execVmsltuVI (vd vs2 simm : BitVec 5) (_c2 vm : BitVec 1) (s : State) : Host.Outcome State Fault Refusal :=
  s.issue .l true (fun s => s.cmpWord vd vs2 (.vi simm) vm cmpLtu)

/-- VMSLTU, kind VR (R158). -/
def execVmsltuVR (vd vs2 vs1 : BitVec 5) (rsz : BitVec 2) (vm : BitVec 1) (s : State) : Host.Outcome State Fault Refusal :=
  s.issue .b true (fun s => s.cmpWord vd vs2 (.vr vs1 rsz) vm cmpLtu)

/-- VGATHER, kind VV (R159). -/
def execVgatherVV (vd vs2 vs1 : BitVec 5) (_c2 _c1 vm : BitVec 1) (s : State) : Host.Outcome State Fault Refusal :=
  s.issue .b true (fun s => s.gatherWord vd vs2 (.vv vs1) vm)

/-- VGATHER, kind VX (R159). -/
def execVgatherVX (vd vs2 xs : BitVec 5) (_c2 vm : BitVec 1) (s : State) : Host.Outcome State Fault Refusal :=
  s.issue .b true (fun s => s.gatherWord vd vs2 (.vx xs) vm)

/-- VGATHER, kind VI (R159). -/
def execVgatherVI (vd vs2 simm : BitVec 5) (_c2 vm : BitVec 1) (s : State) : Host.Outcome State Fault Refusal :=
  s.issue .b true (fun s => s.gatherWord vd vs2 (.vi simm) vm)

/-- VGATHER, kind VR (R159). -/
def execVgatherVR (vd vs2 vs1 : BitVec 5) (rsz : BitVec 2) (vm : BitVec 1) (s : State) : Host.Outcome State Fault Refusal :=
  s.issue .b true (fun s => s.gatherWord vd vs2 (.vr vs1 rsz) vm)

end Sys2Proof.Machine
end

