-- ==== Sys2Proof/Machine/VectorMisc.lean ====
section
/-! DEFINITION. Moves, integer reductions, mask counts, VCOMPRESS (R161 to R164) and VRNG over the Philox generator
(R165). -/

namespace Sys2Proof.Machine

/-- A word over one source group at SEW. -/
def State.unaryWord (s : State) (vs2 : BitVec 5) (srcLen : Nat) (vm : BitVec 1) (dst : Nat × Nat) (k : State → Act) : Act :=
  let w := s.task.sew
  s.vectorWord { srcs := [(vs2.toNat, srcLen)], dsts := [dst] } vm
    (fun s => [reading vs2.toNat w (s.actives vm)]) k

/-! ## Moves (R161) -/

/-- VMV. -/
def execVmv (vd vs2 : BitVec 5) (_c2 vm : BitVec 1) (s : State) : Host.Outcome State Fault Refusal :=
  s.issue .l true (fun s => s.unaryWord vs2 s.task.lmul vm (vd.toNat, s.task.lmul) (fun s =>
    let vals := (s.actives vm).map (fun i => (i, s.task.elem s.task.sew vs2.toNat i))
    .go (s.onTask (fun t => t.setElems t.sew vd.toNat vals))))

/-- VSPLAT. -/
def execVsplat (vd xs : BitVec 5) (vm : BitVec 1) (s : State) : Host.Outcome State Fault Refusal :=
  s.issue .l true (fun s => s.vectorWord { srcs := [], dsts := [(vd.toNat, s.task.lmul)] } vm (fun _ => []) (fun s =>
    s.needX [xs] [] (fun s =>
      let vals := (s.actives vm).map (fun i => (i, (s.x xs).toNat))
      .go (s.onTask (fun t => t.setElems t.sew vd.toNat vals)))))

/-- VMVSX. -/
def execVmvsx (vd xs : BitVec 5) (s : State) : Host.Outcome State Fault Refusal :=
  s.issue .b true (fun s => s.vectorWord { srcs := [], dsts := [(vd.toNat, s.task.lmul)] } 1 (fun _ => []) (fun s =>
    s.needX [xs] [] (fun s =>
      if s.task.vstart = 0 ∧ 1 ≤ s.task.vl then .go (s.onTask (fun t => t.setElem t.sew vd.toNat 0 (s.x xs).toNat)) else .go s)))

/-- VMVXS: writes and pushes element 0, sign-extended. -/
def execVmvxs (xd vs2 : BitVec 5) (_c2 : BitVec 1) (s : State) : Host.Outcome State Fault Refusal :=
  s.issue .b true (fun s =>
    s.vectorWord { srcs := [(vs2.toNat, 1)], dsts := [] } 1
      (fun s => [reading vs2.toNat s.task.sew [0]]) (fun s => s.needX [] [xd] (fun s => s.needRoom (
        let v : Word := BitVec.ofInt 64 (sextN (s.task.elem s.task.sew vs2.toNat 0) s.task.sew)
        .go ((s.setX xd v).pushReply v)))))

/-- VID. -/
def execVid (vd : BitVec 5) (vm : BitVec 1) (s : State) : Host.Outcome State Fault Refusal :=
  s.issue .l true (fun s => s.vectorWord { srcs := [], dsts := [(vd.toNat, s.task.lmul)] } vm (fun _ => []) (fun s =>
    let vals := (s.actives vm).map (fun i => (i, i))
    .go (s.onTask (fun t => t.setElems t.sew vd.toNat vals))))

/-! ## Reductions (R162) -/

/-- The fold of the active elements of vs2 into element 0 of vd. -/
def State.reduceValue (s : State) (vd vs2 : BitVec 5) (vm : BitVec 1) (op : Nat → Nat → Nat → Nat) : Nat :=
  let w := s.task.sew
  (s.actives vm).foldl (fun acc i => op w acc (s.task.elem w vs2.toNat i)) (s.task.elem w vd.toNat 0)

/-- Element 0 of a single register, as a reading. -/
def accReading (s : State) (vd : BitVec 5) : Reading :=
  reading vd.toNat s.task.sew (if s.task.vl = 0 then [] else [0])

/-- A reduction. -/
def State.reduceWord (s : State) (vd vs2 : BitVec 5) (vm : BitVec 1) (op : Nat → Nat → Nat → Nat) : Act :=
  s.vectorWord { srcs := [(vs2.toNat, s.task.lmul)], dsts := [(vd.toNat, 1)] } vm
    (fun s => [accReading s vd, reading vs2.toNat s.task.sew (s.actives vm)]) (fun s =>
      if s.task.vl = 0 then .go s
      else .go (s.onTask (fun t => t.setElem t.sew vd.toNat 0 (s.reduceValue vd vs2 vm op))))

/-- The operations of the reductions at n bits. -/
def redSum (n a b : Nat) : Nat := (a + b) % 2 ^ n
def redMin (n a b : Nat) : Nat := if sextN b n < sextN a n then b else a
def redMax (n a b : Nat) : Nat := if sextN a n < sextN b n then b else a
def redAnd (_n a b : Nat) : Nat := a &&& b
def redOr (_n a b : Nat) : Nat := a ||| b
def redXor (_n a b : Nat) : Nat := a ^^^ b

/-- VREDSUM. -/
def execVredsum (vd vs2 : BitVec 5) (_c2 vm : BitVec 1) (s : State) : Host.Outcome State Fault Refusal :=
  s.issue .b true (fun s => s.reduceWord vd vs2 vm redSum)

/-- VREDMIN. -/
def execVredmin (vd vs2 : BitVec 5) (_c2 vm : BitVec 1) (s : State) : Host.Outcome State Fault Refusal :=
  s.issue .b true (fun s => s.reduceWord vd vs2 vm redMin)

/-- VREDMAX. -/
def execVredmax (vd vs2 : BitVec 5) (_c2 vm : BitVec 1) (s : State) : Host.Outcome State Fault Refusal :=
  s.issue .b true (fun s => s.reduceWord vd vs2 vm redMax)

/-- VREDAND. -/
def execVredand (vd vs2 : BitVec 5) (_c2 vm : BitVec 1) (s : State) : Host.Outcome State Fault Refusal :=
  s.issue .b true (fun s => s.reduceWord vd vs2 vm redAnd)

/-- VREDOR. -/
def execVredor (vd vs2 : BitVec 5) (_c2 vm : BitVec 1) (s : State) : Host.Outcome State Fault Refusal :=
  s.issue .b true (fun s => s.reduceWord vd vs2 vm redOr)

/-- VREDXOR. -/
def execVredxor (vd vs2 : BitVec 5) (_c2 vm : BitVec 1) (s : State) : Host.Outcome State Fault Refusal :=
  s.issue .b true (fun s => s.reduceWord vd vs2 vm redXor)

/-! ## Mask counts and VCOMPRESS (R163, R164) -/

/-- The active elements whose bit in mask register vs2 is 1. -/
def State.marked (s : State) (vs2 : BitVec 5) (vm : BitVec 1) : List Nat :=
  (s.actives vm).filter (fun i => s.task.maskBit vs2.toNat i)

/-- A word that counts mask bits of a single register into element 0 of the vd group (R142, R163). -/
def State.countWord (s : State) (vd vs2 : BitVec 5) (vm : BitVec 1) (f : State → Nat) : Act :=
  s.vectorWord { srcs := [(vs2.toNat, 1)], dsts := [(vd.toNat, s.task.lmul)] } vm
    (fun s => [reading vs2.toNat 1 (s.actives vm)]) (fun s =>
      if s.task.vl = 0 then .go s else .go (s.onTask (fun t => t.setElem t.sew vd.toNat 0 (f s))))

/-- VMPOPC. -/
def execVmpopc (vd vs2 : BitVec 5) (_c2 vm : BitVec 1) (s : State) : Host.Outcome State Fault Refusal :=
  s.issue .b true (fun s => s.countWord vd vs2 vm (fun s => (s.marked vs2 vm).length))

/-- VMFIRST: the lowest marked element, or all ones. -/
def execVmfirst (vd vs2 : BitVec 5) (_c2 vm : BitVec 1) (s : State) : Host.Outcome State Fault Refusal :=
  s.issue .b true (fun s => s.countWord vd vs2 vm (fun s => (s.marked vs2 vm).head?.getD (2 ^ s.task.sew - 1)))

/-- VCOMPRESS: the elements whose bit in v0 is set, packed from element 0. -/
def execVcompress (vd vs2 : BitVec 5) (_c2 : BitVec 1) (s : State) : Host.Outcome State Fault Refusal :=
  s.issue .b true (fun s =>
    let lm := s.task.lmul
    if overlap vd.toNat lm vs2.toNat lm then .trap s illegal
    else
      s.vectorWord { srcs := [(vs2.toNat, lm)], dsts := [(vd.toNat, lm)] } 0
        (fun s => [reading vs2.toNat s.task.sew (s.activesFrom0 0)]) (fun s =>
          let vals := (s.activesFrom0 0).mapIdx (fun k i => (k, s.task.elem s.task.sew vs2.toNat i))
          .go (s.onTask (fun t => t.setElems t.sew vd.toNat vals))))

/-! ## Random draws (R165) -/

/-- A state of the Philox4x32 rounds: four counter words and two key words. -/
structure Philox where
  c0 : BitVec 32
  c1 : BitVec 32
  c2 : BitVec 32
  c3 : BitVec 32
  k0 : BitVec 32
  k1 : BitVec 32
  deriving DecidableEq, Repr

/-- One round of the published generator, with the key bumped after it. -/
def Philox.round (p : Philox) : Philox :=
  let a : BitVec 64 := 0xD2511F53#64 * p.c0.setWidth 64
  let b : BitVec 64 := 0xCD9E8D57#64 * p.c2.setWidth 64
  { c0 := b.extractLsb' 32 32 ^^^ p.c1 ^^^ p.k0, c1 := b.setWidth 32, c2 := a.extractLsb' 32 32 ^^^ p.c3 ^^^ p.k1,
    c3 := a.setWidth 32, k0 := p.k0 + 0x9E3779B9#32, k1 := p.k1 + 0xBB67AE85#32 }

/-- Philox4x32-10 under a 64-bit key at counter (n mod 2^32, n >> 32, word2, 0). -/
def philox (seed n : BitVec 64) (word2 : BitVec 32) : Philox :=
  (List.range 10).foldl (fun p _ => p.round)
    { c0 := n.setWidth 32, c1 := n.extractLsb' 32 32, c2 := word2, c3 := 0, k0 := seed.setWidth 32, k1 := seed.extractLsb' 32 32 }

/-- The first draw of a counter, at w bits (R165). -/
def draw (seed n : BitVec 64) (w : Nat) : Nat :=
  let p := philox seed n 0
  if w = 64 then p.c1.toNat * 2 ^ 32 + p.c0.toNat else p.c0.toNat % 2 ^ w

/-- The counter range that the issuing word draws from: base and length (R165, R188). A word of C in a meld draws from C's
range (R133). -/
def State.drawRange (s : State) : Word × Nat :=
  match s.ofC, s.meldOf s.task with
  | true, some m => (m.cCtrbase + BitVec.ofNat 64 (m.it * m.cCtrlen), m.cCtrlen)
  | _, _ => (s.task.id.ctrbase + BitVec.ofNat 64 (s.task.id.it * s.task.id.ctrlen), s.task.id.ctrlen)

/-- The issuing lane thread changed. -/
def State.onThread (s : State) (f : LaneThread → LaneThread) : State :=
  match s.cur, s.task.split with
  | .lane e, some sp =>
    s.onTask (fun t => { t with split := some { sp with threads := mapIf (fun (th : LaneThread) => th.elem == e) f sp.threads } })
  | _, _ => s

/-- VRNG (R165): in lane mode each thread counts its own draws. -/
def execVrng (vd : BitVec 5) (vm : BitVec 1) (s : State) : Host.Outcome State Fault Refusal :=
  s.issue .l true (fun s =>
    s.vectorWord { srcs := [], dsts := [(vd.toNat, s.task.lmul)] } vm (fun _ => []) (fun s =>
      let m := match s.curThread with
        | some th => th.draws
        | none => 0
      let skip := s.task.vl * m
      if s.task.rngpos.toNat + s.task.vl * (m + 1) > s.drawRange.2 then .trap s (cause 0x0B)
      else
        let at_ (i : Nat) : Word := s.drawRange.1 + s.task.rngpos + BitVec.ofNat 64 (i + skip)
        let vals := (s.actives vm).map (fun i => (i, draw s.task.id.seed (at_ i) s.task.sew))
        let s1 := s.onTask (fun t => t.setElems t.sew vd.toNat vals)
        match s.cur with
        | .lane _ => .go (s1.onThread (fun th => { th with draws := th.draws + 1 }))
        | _ => .go (s1.onTask (fun t => { t with rngpos := t.rngpos + BitVec.ofNat 64 t.vl }))))

end Sys2Proof.Machine
end

