-- ==== Sys2Proof/Machine/VectorFloat.lean ====
section
/-! DEFINITION. The floating-point instructions (R187 to R208): the stochastic draws of mode 5 (R188), one meaning for each
instruction over the shared operations at the head of the file. -/

namespace Sys2Proof.Machine

/-! ## Rounding with the task's mode (R187, R188) -/

/-- The random integer of the rounding of index k under mode 5, 0 under every other mode (R188). -/
def State.roundDraw (s : State) (k : Nat) : Nat :=
  if s.task.rm = 5 then
    let m := match s.curThread with
      | some th => th.rounds
      | none => 0
    let n := s.drawRange.1 + BitVec.ofNat 64 (k % s.drawRange.2)
    (philox s.task.id.seed n (0x80000000#32 ||| BitVec.ofNat 32 ((s.task.srcount.toNat + m) % 2 ^ 31))).c0.toNat
  else 0

/-- A word that rounds under rm: under mode 5 with vl > 0 it raises 0x0B where no counters are declared, and counts itself
when it completes (R188). -/
def State.rounding (s : State) (k : State → Act) : Act :=
  if s.task.rm = 5 ∧ 0 < s.task.vl then
    if s.drawRange.2 = 0 then .trap s (cause 0x0B)
    else
      match k s with
      | .go s1 =>
        match s1.cur with
        | .lane _ => .go (s1.onThread (fun th => { th with rounds := th.rounds + 1 }))
        | _ => .go (s1.onTask (fun t => { t with srcount := t.srcount + 1 }))
      | a => a
  else k s

/-- A value rounded by the issuing word, as its k-th rounding. -/
def State.rnd (s : State) (f : Fmt) (k : Nat) (y : Num) : Nat := f.round s.task.rm (s.roundDraw k) y

/-- A floating word: SEW and fk must name a format (R179). -/
def State.withFmt (s : State) (k : Fmt → Act) : Act :=
  match fmtOf s.task.sew s.task.fk with
  | none => .trap s illegal
  | some f => k f

/-! ## The operations of VA words (R190) -/

/-- op(a, b, c) of R190: exact, before its one rounding. The pattern of b is also given, for VFSCALE. -/
abbrev FloatOp := Nat → Num → Num → Num → Nat → Nat → Num

def fAdd : FloatOp := fun m a b _ _ _ => a.add m b
def fSub : FloatOp := fun m a b _ _ _ => a.add m b.neg
def fMul : FloatOp := fun _ a b _ _ _ => a.mul b
def fDiv : FloatOp := fun _ a b _ _ _ => a.div b
def fMacc : FloatOp := fun m a b c _ _ => c.add m (a.mul b)
def fNmsac : FloatOp := fun m a b c _ _ => c.add m (a.mul b).neg
def fScale : FloatOp := fun _ a _ _ bits w => a.scale (sextN bits w)

/-- The results of an arithmetic word for the active elements. -/
def State.floatResults (s : State) (f : Fmt) (vd vs2 : BitVec 5) (src : Src) (vm : BitVec 1) (op : FloatOp) : List (Nat × Nat) :=
  let w := s.task.sew
  (s.actives vm).map (fun i =>
    let a := f.decode (s.task.elem w vs2.toNat i)
    let b := src.value s w i
    let c := f.decode (s.task.elem w vd.toNat i)
    (i, s.rnd f i (op s.task.rm a (f.decode b) c b w)))

/-- The elements of vd that a fused word reads. -/
def State.dstReading (s : State) (vd : BitVec 5) (vm : BitVec 1) (fused : Bool) : List Reading :=
  if fused then [reading vd.toNat s.task.sew (s.actives vm)] else []

/-- An arithmetic word (R190). -/
def State.floatWord (s : State) (vd vs2 : BitVec 5) (src : Src) (vm : BitVec 1) (fused : Bool) (op : FloatOp) : Act :=
  s.withFmt (fun f => s.binaryWord vs2 src vm (vd.toNat, s.task.lmul) (fun s => s.needClean (s.dstReading vd vm fused)
    (s.rounding (fun s => .go (s.onTask (fun t => t.setElems t.sew vd.toNat (s.floatResults f vd vs2 src vm op)))))))

/-- A word that picks or changes bits and never rounds (R191, R194). -/
def State.floatPick (s : State) (vd vs2 : BitVec 5) (src : Src) (vm : BitVec 1) (op : Fmt → Nat → Nat → Nat) : Act :=
  s.withFmt (fun f => s.binaryWord vs2 src vm (vd.toNat, s.task.lmul) (fun s =>
    let w := s.task.sew
    let vals := (s.actives vm).map (fun i => (i, op f (s.task.elem w vs2.toNat i) (src.value s w i)))
    .go (s.onTask (fun t => t.setElems t.sew vd.toNat vals))))

/-- A floating comparison (R192). -/
def State.floatCmp (s : State) (vd vs2 : BitVec 5) (src : Src) (vm : BitVec 1) (op : Fmt → Nat → Nat → Bool) : Act :=
  s.withFmt (fun f =>
    if !s.task.cmpDstOk vd vs2 src then .trap s illegal
    else
      s.binaryWord vs2 src vm (vd.toNat, 1) (fun s =>
        let w := s.task.sew
        let vals := (s.actives vm).map (fun i => (i, op f (s.task.elem w vs2.toNat i) (src.value s w i)))
        .go (s.onTask (fun t => t.setMaskBits vd.toNat vals))))

/-- The sign injections (R194). -/
def signOf (f : Fmt) (a b : Nat) : Nat := f.withSign a (f.signBit b)
def signNot (f : Fmt) (a b : Nat) : Nat := f.withSign a (!f.signBit b)
def signXor (f : Fmt) (a b : Nat) : Nat := f.withSign a (f.signBit a != f.signBit b)

/-! ## The operations of MISC words -/

/-- An elementwise word over one source whose results f gives, rounded under rm when `rounds` (R196, R207). -/
def State.floatMap (s : State) (vd vs2 : BitVec 5) (vm : BitVec 1) (rounds : Bool) (op : State → Fmt → Nat → Nat → Nat) : Act :=
  s.withFmt (fun f => s.unaryWord vs2 s.task.lmul vm (vd.toNat, s.task.lmul) (fun s =>
    let run (s : State) : Act :=
      let vals := (s.actives vm).map (fun i => (i, op s f i (s.task.elem s.task.sew vs2.toNat i)))
      .go (s.onTask (fun t => t.setElems t.sew vd.toNat vals))
    if rounds then s.rounding run else run s))

/-- An approximation (R197): mode 0 always. -/
def State.approxWord (s : State) (vd vs2 : BitVec 5) (vm : BitVec 1) (op : Num → Num) : Act :=
  s.floatMap vd vs2 vm false (fun _ f _ a => f.round 0 0 (op (f.decode a)))

/-- VCVTFI of one element (R207). -/
def State.toInteger (s : State) (f : Fmt) (i a : Nat) : Nat :=
  let w := s.task.sew
  match f.decode a with
  | .nan => 0
  | .inf neg => if neg then 2 ^ (w - 1) else 2 ^ (w - 1) - 1
  | .fin neg sig exp _ => wrapN (clampS (roundInt s.task.rm (s.roundDraw i) neg sig exp) w) w

/-! ## Reductions (R202 to R204) -/

/-- One level of the tree of R202: neighbours added, a lone one passed on; k counts the roundings. -/
def treeLevel (add : Nat → Nat → Nat → Nat) : Nat → List (Option Nat) → List (Option Nat) × Nat
  | k, some a :: some b :: ts =>
    let r := treeLevel add (k + 1) ts
    (some (add k a b) :: r.1, r.2)
  | k, some a :: none :: ts =>
    let r := treeLevel add k ts
    (some a :: r.1, r.2)
  | k, none :: b :: ts =>
    let r := treeLevel add k ts
    (b :: r.1, r.2)
  | k, [t] => ([t], k)
  | k, [] => ([], k)

/-- The levels of the tree, n of them. -/
def treeSum (add : Nat → Nat → Nat → Nat) : Nat → Nat → List (Option Nat) → Option Nat × Nat
  | 0, k, ts => (ts.head?.join, k)
  | n + 1, k, ts =>
    let r := treeLevel add k ts
    treeSum add n r.2 r.1

/-- The number of levels for vl elements. -/
def treeDepth (vl : Nat) : Nat := if vl ≤ 1 then 0 else Nat.log2 (vl - 1) + 1

/-- VFREDSUM's new element 0. -/
def State.treeResult (s : State) (f : Fmt) (vd vs2 : BitVec 5) (vm : BitVec 1) : Nat :=
  let w := s.task.sew
  let add (k a b : Nat) : Nat := s.rnd f k ((f.decode a).add s.task.rm (f.decode b))
  let depth := treeDepth s.task.vl
  let ts := (List.range (2 ^ depth)).map (fun i =>
    if (s.actives vm).contains i then some (s.task.elem w vs2.toNat i) else none)
  let acc := s.task.elem w vd.toNat 0
  match treeSum add depth 0 ts with
  | (some t, k) => add k acc t
  | (none, _) => acc

/-- VFREDOSUM's new element 0. -/
def State.orderedResult (s : State) (f : Fmt) (vd vs2 : BitVec 5) (vm : BitVec 1) : Nat :=
  let w := s.task.sew
  let step (a : Nat × Nat) (i : Nat) : Nat × Nat :=
    (s.rnd f a.2 ((f.decode a.1).add s.task.rm (f.decode (s.task.elem w vs2.toNat i))), a.2 + 1)
  ((s.actives vm).foldl step (s.task.elem w vd.toNat 0, 0)).1

/-- A fold of the active elements under R191. -/
def State.extremeResult (s : State) (f : Fmt) (vd vs2 : BitVec 5) (vm : BitVec 1) (op : Fmt → Nat → Nat → Nat) : Nat :=
  let w := s.task.sew
  (s.actives vm).foldl (fun acc i => op f acc (s.task.elem w vs2.toNat i)) (s.task.elem w vd.toNat 0)

/-- A floating reduction into element 0 of a single register. -/
def State.floatReduce (s : State) (vd vs2 : BitVec 5) (vm : BitVec 1) (rounds : Bool) (res : State → Fmt → Nat) : Act :=
  s.withFmt (fun f => s.vectorWord { srcs := [(vs2.toNat, s.task.lmul)], dsts := [(vd.toNat, 1)] } vm
    (fun s => [accReading s vd, reading vs2.toNat s.task.sew (s.actives vm)]) (fun s =>
      let run (s : State) : Act :=
        if s.task.vl = 0 then .go s else .go (s.onTask (fun t => t.setElem t.sew vd.toNat 0 (res s f)))
      if rounds then s.rounding run else run s))

/-! ## Conversions between widths (R205, R206) -/

/-- The wide partner of the format at SEW (R205). -/
def widePartner (sew fk : Nat) : Option Fmt :=
  match sew, fk with
  | 32, 0 => some binary64
  | 16, 0 => some binary32
  | 16, 1 => some binary32
  | 8, 1 => some bfloat16
  | 8, 2 => some bfloat16
  | _, _ => none

/-- A word between a group at SEW and one at 2 × SEW, of 2 × LMUL registers (R205): op gives each active element's result. -/
def State.resizeWord (s : State) (vd vs2 : BitVec 5) (vm : BitVec 1) (narrowing rounds : Bool) (op : State → Nat → Nat → Nat) : Act :=
  let lm := s.task.lmul
  let w := s.task.sew
  let src := if narrowing then (vs2.toNat, 2 * lm) else (vs2.toNat, lm)
  let dst := if narrowing then (vd.toNat, lm) else (vd.toNat, 2 * lm)
  let sw := if narrowing then 2 * w else w
  let dw := if narrowing then w else 2 * w
  if lm = 8 ∨ w = 64 ∨ overlap dst.1 dst.2 src.1 src.2 then .trap s illegal
  else
    s.vectorWord { srcs := [src], dsts := [dst] } vm (fun s => [reading src.1 sw (s.actives vm)]) (fun s =>
      let run (s : State) : Act :=
        let vals := (s.actives vm).map (fun i => (i, op s i (s.task.elem sw src.1 i)))
        .go (s.onTask (fun t => t.setElems dw dst.1 vals))
      if rounds then s.rounding run else run s)

/-- A conversion between the format at SEW and its wide partner. -/
def State.withPartner (s : State) (k : Fmt → Fmt → Act) : Act :=
  match fmtOf s.task.sew s.task.fk, widePartner s.task.sew s.task.fk with
  | some n, some w => k n w
  | _, _ => .trap s illegal

/-! ## The instructions -/

/-- VFADD, kind FVV (R190). -/
def execVfaddFVV (vd vs2 vs1 : BitVec 5) (_c2 _c1 vm : BitVec 1) (s : State) : Host.Outcome State Fault Refusal :=
  s.issue .l true (fun s => s.floatWord vd vs2 (.vv vs1) vm false fAdd)

/-- VFADD, kind FVX (R190). -/
def execVfaddFVX (vd vs2 xs : BitVec 5) (_c2 vm : BitVec 1) (s : State) : Host.Outcome State Fault Refusal :=
  s.issue .l true (fun s => s.floatWord vd vs2 (.vx xs) vm false fAdd)

/-- VFADD, kind FVR (R190). -/
def execVfaddFVR (vd vs2 vs1 : BitVec 5) (rsz : BitVec 2) (vm : BitVec 1) (s : State) : Host.Outcome State Fault Refusal :=
  s.issue .b true (fun s => s.floatWord vd vs2 (.vr vs1 rsz) vm false fAdd)

/-- VFSUB, kind FVV (R190). -/
def execVfsubFVV (vd vs2 vs1 : BitVec 5) (_c2 _c1 vm : BitVec 1) (s : State) : Host.Outcome State Fault Refusal :=
  s.issue .l true (fun s => s.floatWord vd vs2 (.vv vs1) vm false fSub)

/-- VFSUB, kind FVX (R190). -/
def execVfsubFVX (vd vs2 xs : BitVec 5) (_c2 vm : BitVec 1) (s : State) : Host.Outcome State Fault Refusal :=
  s.issue .l true (fun s => s.floatWord vd vs2 (.vx xs) vm false fSub)

/-- VFSUB, kind FVR (R190). -/
def execVfsubFVR (vd vs2 vs1 : BitVec 5) (rsz : BitVec 2) (vm : BitVec 1) (s : State) : Host.Outcome State Fault Refusal :=
  s.issue .b true (fun s => s.floatWord vd vs2 (.vr vs1 rsz) vm false fSub)

/-- VFMUL, kind FVV (R190). -/
def execVfmulFVV (vd vs2 vs1 : BitVec 5) (_c2 _c1 vm : BitVec 1) (s : State) : Host.Outcome State Fault Refusal :=
  s.issue .l true (fun s => s.floatWord vd vs2 (.vv vs1) vm false fMul)

/-- VFMUL, kind FVX (R190). -/
def execVfmulFVX (vd vs2 xs : BitVec 5) (_c2 vm : BitVec 1) (s : State) : Host.Outcome State Fault Refusal :=
  s.issue .l true (fun s => s.floatWord vd vs2 (.vx xs) vm false fMul)

/-- VFMUL, kind FVR (R190). -/
def execVfmulFVR (vd vs2 vs1 : BitVec 5) (rsz : BitVec 2) (vm : BitVec 1) (s : State) : Host.Outcome State Fault Refusal :=
  s.issue .b true (fun s => s.floatWord vd vs2 (.vr vs1 rsz) vm false fMul)

/-- VFDIV, kind FVV (R190). -/
def execVfdivFVV (vd vs2 vs1 : BitVec 5) (_c2 _c1 vm : BitVec 1) (s : State) : Host.Outcome State Fault Refusal :=
  s.issue .l true (fun s => s.floatWord vd vs2 (.vv vs1) vm false fDiv)

/-- VFDIV, kind FVX (R190). -/
def execVfdivFVX (vd vs2 xs : BitVec 5) (_c2 vm : BitVec 1) (s : State) : Host.Outcome State Fault Refusal :=
  s.issue .l true (fun s => s.floatWord vd vs2 (.vx xs) vm false fDiv)

/-- VFDIV, kind FVR (R190). -/
def execVfdivFVR (vd vs2 vs1 : BitVec 5) (rsz : BitVec 2) (vm : BitVec 1) (s : State) : Host.Outcome State Fault Refusal :=
  s.issue .b true (fun s => s.floatWord vd vs2 (.vr vs1 rsz) vm false fDiv)

/-- VFMACC, kind FVV (R190). -/
def execVfmaccFVV (vd vs2 vs1 : BitVec 5) (_c2 _c1 vm : BitVec 1) (s : State) : Host.Outcome State Fault Refusal :=
  s.issue .l true (fun s => s.floatWord vd vs2 (.vv vs1) vm true fMacc)

/-- VFMACC, kind FVX (R190). -/
def execVfmaccFVX (vd vs2 xs : BitVec 5) (_c2 vm : BitVec 1) (s : State) : Host.Outcome State Fault Refusal :=
  s.issue .l true (fun s => s.floatWord vd vs2 (.vx xs) vm true fMacc)

/-- VFMACC, kind FVR (R190). -/
def execVfmaccFVR (vd vs2 vs1 : BitVec 5) (rsz : BitVec 2) (vm : BitVec 1) (s : State) : Host.Outcome State Fault Refusal :=
  s.issue .b true (fun s => s.floatWord vd vs2 (.vr vs1 rsz) vm true fMacc)

/-- VFNMSAC, kind FVV (R190). -/
def execVfnmsacFVV (vd vs2 vs1 : BitVec 5) (_c2 _c1 vm : BitVec 1) (s : State) : Host.Outcome State Fault Refusal :=
  s.issue .l true (fun s => s.floatWord vd vs2 (.vv vs1) vm true fNmsac)

/-- VFNMSAC, kind FVX (R190). -/
def execVfnmsacFVX (vd vs2 xs : BitVec 5) (_c2 vm : BitVec 1) (s : State) : Host.Outcome State Fault Refusal :=
  s.issue .l true (fun s => s.floatWord vd vs2 (.vx xs) vm true fNmsac)

/-- VFNMSAC, kind FVR (R190). -/
def execVfnmsacFVR (vd vs2 vs1 : BitVec 5) (rsz : BitVec 2) (vm : BitVec 1) (s : State) : Host.Outcome State Fault Refusal :=
  s.issue .b true (fun s => s.floatWord vd vs2 (.vr vs1 rsz) vm true fNmsac)

/-- VFMIN, kind FVV (R191). -/
def execVfminFVV (vd vs2 vs1 : BitVec 5) (_c2 _c1 vm : BitVec 1) (s : State) : Host.Outcome State Fault Refusal :=
  s.issue .l true (fun s => s.floatPick vd vs2 (.vv vs1) vm Fmt.minNum)

/-- VFMIN, kind FVX (R191). -/
def execVfminFVX (vd vs2 xs : BitVec 5) (_c2 vm : BitVec 1) (s : State) : Host.Outcome State Fault Refusal :=
  s.issue .l true (fun s => s.floatPick vd vs2 (.vx xs) vm Fmt.minNum)

/-- VFMIN, kind FVR (R191). -/
def execVfminFVR (vd vs2 vs1 : BitVec 5) (rsz : BitVec 2) (vm : BitVec 1) (s : State) : Host.Outcome State Fault Refusal :=
  s.issue .b true (fun s => s.floatPick vd vs2 (.vr vs1 rsz) vm Fmt.minNum)

/-- VFMAX, kind FVV (R191). -/
def execVfmaxFVV (vd vs2 vs1 : BitVec 5) (_c2 _c1 vm : BitVec 1) (s : State) : Host.Outcome State Fault Refusal :=
  s.issue .l true (fun s => s.floatPick vd vs2 (.vv vs1) vm Fmt.maxNum)

/-- VFMAX, kind FVX (R191). -/
def execVfmaxFVX (vd vs2 xs : BitVec 5) (_c2 vm : BitVec 1) (s : State) : Host.Outcome State Fault Refusal :=
  s.issue .l true (fun s => s.floatPick vd vs2 (.vx xs) vm Fmt.maxNum)

/-- VFMAX, kind FVR (R191). -/
def execVfmaxFVR (vd vs2 vs1 : BitVec 5) (rsz : BitVec 2) (vm : BitVec 1) (s : State) : Host.Outcome State Fault Refusal :=
  s.issue .b true (fun s => s.floatPick vd vs2 (.vr vs1 rsz) vm Fmt.maxNum)

/-- VFMFEQ, kind FVV (R192). -/
def execVfmfeqFVV (vd vs2 vs1 : BitVec 5) (_c2 _c1 vm : BitVec 1) (s : State) : Host.Outcome State Fault Refusal :=
  s.issue .l true (fun s => s.floatCmp vd vs2 (.vv vs1) vm Fmt.eq)

/-- VFMFEQ, kind FVX (R192). -/
def execVfmfeqFVX (vd vs2 xs : BitVec 5) (_c2 vm : BitVec 1) (s : State) : Host.Outcome State Fault Refusal :=
  s.issue .l true (fun s => s.floatCmp vd vs2 (.vx xs) vm Fmt.eq)

/-- VFMFEQ, kind FVR (R192). -/
def execVfmfeqFVR (vd vs2 vs1 : BitVec 5) (rsz : BitVec 2) (vm : BitVec 1) (s : State) : Host.Outcome State Fault Refusal :=
  s.issue .b true (fun s => s.floatCmp vd vs2 (.vr vs1 rsz) vm Fmt.eq)

/-- VFMFLT, kind FVV (R192). -/
def execVfmfltFVV (vd vs2 vs1 : BitVec 5) (_c2 _c1 vm : BitVec 1) (s : State) : Host.Outcome State Fault Refusal :=
  s.issue .l true (fun s => s.floatCmp vd vs2 (.vv vs1) vm Fmt.lt)

/-- VFMFLT, kind FVX (R192). -/
def execVfmfltFVX (vd vs2 xs : BitVec 5) (_c2 vm : BitVec 1) (s : State) : Host.Outcome State Fault Refusal :=
  s.issue .l true (fun s => s.floatCmp vd vs2 (.vx xs) vm Fmt.lt)

/-- VFMFLT, kind FVR (R192). -/
def execVfmfltFVR (vd vs2 vs1 : BitVec 5) (rsz : BitVec 2) (vm : BitVec 1) (s : State) : Host.Outcome State Fault Refusal :=
  s.issue .b true (fun s => s.floatCmp vd vs2 (.vr vs1 rsz) vm Fmt.lt)

/-- VFMFLE, kind FVV (R192). -/
def execVfmfleFVV (vd vs2 vs1 : BitVec 5) (_c2 _c1 vm : BitVec 1) (s : State) : Host.Outcome State Fault Refusal :=
  s.issue .l true (fun s => s.floatCmp vd vs2 (.vv vs1) vm Fmt.le)

/-- VFMFLE, kind FVX (R192). -/
def execVfmfleFVX (vd vs2 xs : BitVec 5) (_c2 vm : BitVec 1) (s : State) : Host.Outcome State Fault Refusal :=
  s.issue .l true (fun s => s.floatCmp vd vs2 (.vx xs) vm Fmt.le)

/-- VFMFLE, kind FVR (R192). -/
def execVfmfleFVR (vd vs2 vs1 : BitVec 5) (rsz : BitVec 2) (vm : BitVec 1) (s : State) : Host.Outcome State Fault Refusal :=
  s.issue .b true (fun s => s.floatCmp vd vs2 (.vr vs1 rsz) vm Fmt.le)

/-- VFSGNJ, kind FVV (R194). -/
def execVfsgnjFVV (vd vs2 vs1 : BitVec 5) (_c2 _c1 vm : BitVec 1) (s : State) : Host.Outcome State Fault Refusal :=
  s.issue .l true (fun s => s.floatPick vd vs2 (.vv vs1) vm signOf)

/-- VFSGNJ, kind FVX (R194). -/
def execVfsgnjFVX (vd vs2 xs : BitVec 5) (_c2 vm : BitVec 1) (s : State) : Host.Outcome State Fault Refusal :=
  s.issue .l true (fun s => s.floatPick vd vs2 (.vx xs) vm signOf)

/-- VFSGNJ, kind FVR (R194). -/
def execVfsgnjFVR (vd vs2 vs1 : BitVec 5) (rsz : BitVec 2) (vm : BitVec 1) (s : State) : Host.Outcome State Fault Refusal :=
  s.issue .b true (fun s => s.floatPick vd vs2 (.vr vs1 rsz) vm signOf)

/-- VFSGNJN, kind FVV (R194). -/
def execVfsgnjnFVV (vd vs2 vs1 : BitVec 5) (_c2 _c1 vm : BitVec 1) (s : State) : Host.Outcome State Fault Refusal :=
  s.issue .l true (fun s => s.floatPick vd vs2 (.vv vs1) vm signNot)

/-- VFSGNJN, kind FVX (R194). -/
def execVfsgnjnFVX (vd vs2 xs : BitVec 5) (_c2 vm : BitVec 1) (s : State) : Host.Outcome State Fault Refusal :=
  s.issue .l true (fun s => s.floatPick vd vs2 (.vx xs) vm signNot)

/-- VFSGNJN, kind FVR (R194). -/
def execVfsgnjnFVR (vd vs2 vs1 : BitVec 5) (rsz : BitVec 2) (vm : BitVec 1) (s : State) : Host.Outcome State Fault Refusal :=
  s.issue .b true (fun s => s.floatPick vd vs2 (.vr vs1 rsz) vm signNot)

/-- VFSGNJX, kind FVV (R194). -/
def execVfsgnjxFVV (vd vs2 vs1 : BitVec 5) (_c2 _c1 vm : BitVec 1) (s : State) : Host.Outcome State Fault Refusal :=
  s.issue .l true (fun s => s.floatPick vd vs2 (.vv vs1) vm signXor)

/-- VFSGNJX, kind FVX (R194). -/
def execVfsgnjxFVX (vd vs2 xs : BitVec 5) (_c2 vm : BitVec 1) (s : State) : Host.Outcome State Fault Refusal :=
  s.issue .l true (fun s => s.floatPick vd vs2 (.vx xs) vm signXor)

/-- VFSGNJX, kind FVR (R194). -/
def execVfsgnjxFVR (vd vs2 vs1 : BitVec 5) (rsz : BitVec 2) (vm : BitVec 1) (s : State) : Host.Outcome State Fault Refusal :=
  s.issue .b true (fun s => s.floatPick vd vs2 (.vr vs1 rsz) vm signXor)

/-- VFSCALE, kind FVV (R190). -/
def execVfscaleFVV (vd vs2 vs1 : BitVec 5) (_c2 _c1 vm : BitVec 1) (s : State) : Host.Outcome State Fault Refusal :=
  s.issue .l true (fun s => s.floatWord vd vs2 (.vv vs1) vm false fScale)

/-- VFSCALE, kind FVX (R190). -/
def execVfscaleFVX (vd vs2 xs : BitVec 5) (_c2 vm : BitVec 1) (s : State) : Host.Outcome State Fault Refusal :=
  s.issue .l true (fun s => s.floatWord vd vs2 (.vx xs) vm false fScale)

/-- VFSCALE, kind FVR (R190). -/
def execVfscaleFVR (vd vs2 vs1 : BitVec 5) (rsz : BitVec 2) (vm : BitVec 1) (s : State) : Host.Outcome State Fault Refusal :=
  s.issue .b true (fun s => s.floatWord vd vs2 (.vr vs1 rsz) vm false fScale)

/-- VFRECIP (R198). -/
def execVfrecip (vd vs2 : BitVec 5) (_c2 vm : BitVec 1) (s : State) : Host.Outcome State Fault Refusal :=
  s.issue .l true (fun s => s.approxWord vd vs2 vm Num.recip)

/-- VFRSQRT (R199). -/
def execVfrsqrt (vd vs2 : BitVec 5) (_c2 vm : BitVec 1) (s : State) : Host.Outcome State Fault Refusal :=
  s.issue .l true (fun s => s.approxWord vd vs2 vm Num.rsqrt)

/-- VFEXP2 (R200). -/
def execVfexp2 (vd vs2 : BitVec 5) (_c2 vm : BitVec 1) (s : State) : Host.Outcome State Fault Refusal :=
  s.issue .l true (fun s => s.approxWord vd vs2 vm Num.exp2)

/-- VFLOG2 (R201). -/
def execVflog2 (vd vs2 : BitVec 5) (_c2 vm : BitVec 1) (s : State) : Host.Outcome State Fault Refusal :=
  s.issue .l true (fun s => s.approxWord vd vs2 vm Num.log2)

/-- VFSQRT (R196). -/
def execVfsqrt (vd vs2 : BitVec 5) (_c2 vm : BitVec 1) (s : State) : Host.Outcome State Fault Refusal :=
  s.issue .l true (fun s => s.floatMap vd vs2 vm true (fun s f i a => s.rnd f i (f.decode a).sqrt))

/-- VFCLASS (R196). -/
def execVfclass (vd vs2 : BitVec 5) (_c2 vm : BitVec 1) (s : State) : Host.Outcome State Fault Refusal :=
  s.issue .l true (fun s => s.floatMap vd vs2 vm false (fun _ f _ a => f.classify a))

/-- VFREDSUM (R202). -/
def execVfredsum (vd vs2 : BitVec 5) (_c2 vm : BitVec 1) (s : State) : Host.Outcome State Fault Refusal :=
  s.issue .b true (fun s => s.floatReduce vd vs2 vm true (fun s f => s.treeResult f vd vs2 vm))

/-- VFREDOSUM (R203). -/
def execVfredosum (vd vs2 : BitVec 5) (_c2 vm : BitVec 1) (s : State) : Host.Outcome State Fault Refusal :=
  s.issue .b true (fun s => s.floatReduce vd vs2 vm true (fun s f => s.orderedResult f vd vs2 vm))

/-- VFREDMIN (R204). -/
def execVfredmin (vd vs2 : BitVec 5) (_c2 vm : BitVec 1) (s : State) : Host.Outcome State Fault Refusal :=
  s.issue .b true (fun s => s.floatReduce vd vs2 vm false (fun s f => s.extremeResult f vd vs2 vm Fmt.minNum))

/-- VFREDMAX (R204). -/
def execVfredmax (vd vs2 : BitVec 5) (_c2 vm : BitVec 1) (s : State) : Host.Outcome State Fault Refusal :=
  s.issue .b true (fun s => s.floatReduce vd vs2 vm false (fun s f => s.extremeResult f vd vs2 vm Fmt.maxNum))

/-- VNCVT (R205). -/
def execVncvt (vd vs2 : BitVec 5) (_c2 vm : BitVec 1) (s : State) : Host.Outcome State Fault Refusal :=
  s.issue .b true (fun s => s.withPartner (fun n w => s.resizeWord vd vs2 vm true true (fun s i a => s.rnd n i (w.decode a))))

/-- VWCVT (R205). -/
def execVwcvt (vd vs2 : BitVec 5) (_c2 vm : BitVec 1) (s : State) : Host.Outcome State Fault Refusal :=
  s.issue .b true (fun s => s.withPartner (fun n w => s.resizeWord vd vs2 vm false false (fun _ _ a => w.round 0 0 (n.decode a))))

/-- VNCVTI (R206). -/
def execVncvti (vd vs2 : BitVec 5) (_c2 vm : BitVec 1) (s : State) : Host.Outcome State Fault Refusal :=
  s.issue .b true (fun s => s.resizeWord vd vs2 vm true false (fun s _ a => wrapN (clampS (sextN a (2 * s.task.sew)) s.task.sew) s.task.sew))

/-- VWCVTI (R206). -/
def execVwcvti (vd vs2 : BitVec 5) (_c2 vm : BitVec 1) (s : State) : Host.Outcome State Fault Refusal :=
  s.issue .b true (fun s => s.resizeWord vd vs2 vm false false (fun s _ a => wrapN (sextN a s.task.sew) (2 * s.task.sew)))

/-- VWCVTN (R206). -/
def execVwcvtn (vd vs2 : BitVec 5) (_c2 vm : BitVec 1) (s : State) : Host.Outcome State Fault Refusal :=
  s.issue .b true (fun s => s.resizeWord vd vs2 vm false false (fun _ _ a => a))

/-- VCVTIF (R207). -/
def execVcvtif (vd vs2 : BitVec 5) (_c2 vm : BitVec 1) (s : State) : Host.Outcome State Fault Refusal :=
  s.issue .l true (fun s => s.floatMap vd vs2 vm true (fun s f i a => s.rnd f i (.ofInt (sextN a s.task.sew))))

/-- VCVTFI (R207). -/
def execVcvtfi (vd vs2 : BitVec 5) (_c2 vm : BitVec 1) (s : State) : Host.Outcome State Fault Refusal :=
  s.issue .l true (fun s => s.floatMap vd vs2 vm true (fun s f i a => s.toInteger f i a))

/-! ## MXFP4 blocks (R208) -/

/-- The checks that VBSCALE and VCVTQ4 share. -/
def State.mxWord (s : State) (k : Act) : Act :=
  if s.task.sew ≠ 32 ∨ s.task.fk ≠ 0 then .trap s illegal
  else if s.task.vl % 32 ≠ 0 then .trap s (cause 0x08)
  else k

/-- The E8M0 scale of a block (R183, R208). -/
def blockScale (xs : List Num) : Nat :=
  if xs.any (fun x => match x with
    | .fin _ _ _ _ => false
    | _ => true) then 0xFF
  else
    -- floor(log2) of each nonzero magnitude
    let logs : List Int := xs.filterMap (fun x => match x with
      | .fin _ sig exp _ => if sig = 0 then none else some (exp + Nat.log2 sig)
      | _ => none)
    match logs with
    | [] => 0
    | l :: ls => (min (max (ls.foldl max l - 2 + 127) 0) 254).toNat

/-- VBSCALE (R208). -/
def execVbscale (vd vs2 : BitVec 5) (_c2 vm : BitVec 1) (s : State) : Host.Outcome State Fault Refusal :=
  s.issue .b true (fun s => s.mxWord (s.unaryWord vs2 s.task.lmul vm (vd.toNat, 1) (fun s =>
    let block (k : Nat) : Nat := blockScale (((List.range 32).map (fun j => 32 * k + j)).filterMap (fun i =>
      if s.task.vstart ≤ i && s.isActive vm i then some (binary32.decode (s.task.elem 32 vs2.toNat i)) else none))
    let vals := (List.range (min s.task.vl s.task.vlmax / 32)).map (fun k => (k, block k))
    .go (s.onTask (fun t => t.setElems 8 vd.toNat vals)))))

/-- One element of VCVTQ4: its E2M1 code under the scale byte v (R208). -/
def State.toQ4 (s : State) (i v a : Nat) : Nat :=
  if v = 0xFF then 0
  else
    match binary32.decode a with
    | .nan => 0
    | x => s.rnd e2m1 i (x.scale (127 - (v : Int)))

/-- The nibbles of packed E2M1 written; a byte's poison goes when both of its nibbles have been written (R181, R352). -/
def Task.setNibbles (t : Task) (vd : Nat) (vals : List (Nat × Nat)) : Task :=
  let t1 := t.setElems 4 vd vals
  if t.vPoison.isEmpty then t1
  else
    let whole := vals.filter (fun p => p.1 % 2 == 1 && vals.any (fun q => q.1 + 1 == p.1))
    { t1 with vPoison := whole.foldl (fun m p => unpoison m vd (p.1 / 2) (p.1 / 2 + 1)) t1.vPoison }

/-- VCVTQ4 (R193, R208). -/
def execVcvtq4 (vd vs2 vs1 : BitVec 5) (_c2 _c1 vm : BitVec 1) (s : State) : Host.Outcome State Fault Refusal :=
  s.issue .b true (fun s => s.mxWord (
    if overlap vd.toNat 1 vs2.toNat s.task.lmul || vd == vs1 then .trap s illegal
    else
      s.vectorWord { srcs := [(vs2.toNat, s.task.lmul), (vs1.toNat, 1)], dsts := [(vd.toNat, 1)] } vm
        (fun s => [reading vs2.toNat 32 (s.actives vm),
                   { base := vs1.toNat, bits := 8, elems := (s.actives vm).map (fun i => (i, i / 32)) }]) (fun s => s.rounding (fun s =>
          let vals := (s.actives vm).map (fun i =>
            (i, s.toQ4 i (s.task.elem 8 vs1.toNat (i / 32)) (s.task.elem 32 vs2.toNat i)))
          .go (s.onTask (fun t => t.setNibbles vd.toNat vals))))))

end Sys2Proof.Machine
end

