-- ==== Sys2Proof/Machine/Fx.lean ====
section
/-! DEFINITION. FX accumulators: their values (R324), the exact add (R325), VFXADD, FXRD, FXCLR (R326 to R329). They act on
memory directly in every region (R321). -/

namespace Sys2Proof.Machine

/-! ## Values (R324) -/

/-- The canonical patterns. -/
def fxInf (neg : Bool) : Nat := if neg then 0x80 * 2 ^ 504 else 0x40 * 2 ^ 504
def fxNan : Nat := 0xA0 * 2 ^ 504

/-- The value of an accumulator of 512 bits, in units of 2^−160. -/
def fxValue (a : Nat) : Num :=
  match a / 2 ^ 509 % 8 with
  | 2 => .inf false
  | 3 => .inf false
  | 4 => .inf true
  | 5 => .nan
  | _ =>
    let n := sextN a 512
    .dy (n < 0) n.natAbs (-160)

/-- The pattern of a finite value, saturated at 2^350 (R325). -/
def fxPattern (y : Int) : Nat := if y.natAbs < 2 ^ 510 then wrapN y 512 else fxInf (y < 0)

/-- A term brought onto the grid: a finite binary64 value truncated toward zero, or an infinity at 2^350 and beyond (R327). -/
def fxTerm (u : Num) : Num :=
  match u with
  | .fin neg sig exp _ =>
    if sig = 0 then u
    else if 350 ≤ exp + Nat.log2 sig then .inf neg
    else if -160 ≤ exp then u
    else .dy neg (sig / 2 ^ (-160 - exp).toNat) (-160)
  | o => o

/-- The FX add of a term into an accumulator (R325). -/
def fxAdd (a : Nat) (u : Num) : Nat :=
  match fxValue a, u with
  | .nan, _ => fxNan
  | _, .nan => fxNan
  | .inf p, .inf q => if p == q then fxInf p else fxNan
  | .inf p, _ => fxInf p
  | _, .inf q => fxInf q
  | .fin na sa _ _, .fin nb sb eb _ => fxPattern (alignTo na sa 0 0 + alignTo nb sb (eb + 160) 0)

/-! ## Accesses (R326) -/

/-- The address of accumulator i from a base. -/
def fxAddr (base : Word) (i : Nat) : Word := base + BitVec.ofNat 64 (64 * i)

/-- Every item of a list checked, in order. -/
def checkAll {α : Type} (f : α → Except Trap Place) : List α → Except Trap (List Place)
  | [] => .ok []
  | a :: as =>
    match f a with
    | .error t => .error t
    | .ok p =>
      match checkAll f as with
      | .error t => .error t
      | .ok ps => .ok (p :: ps)

/-- Every accumulator probed for a read and a write; after that a page that is uncached or homed elsewhere raises 0x06, and then the
memory behind them is reached, FXCLR as a store reading none of it (R326, R353). -/
def State.probeFx (s : State) (as : List Word) (reads : Bool) : Except Trap (List Place) :=
  match checkAll (fun a => s.translatePage s.task.id.ctx (some (s.dieOf s.task)) a .update) as with
  | .error t => .error t
  | .ok ps =>
    match ps.find? (fun p => !p.atHome) with
    | some p => .error { cause := 0x06, addr := some (BitVec.ofNat 64 p.va) }
    | none =>
      match checkAll (fun a => s.locate a 64 .update) as with
      | .error t => .error t
      | .ok qs => if reads then checkAll (fun p => s.cleanDirect p 64) qs else .ok qs

/-- One accumulator added to. -/
def State.fxAddAt (s : State) (p : Place) (u : Num) : State :=
  s.writeDirect p (bytesOf (fxAdd (s.readDirect p 64) u) 64)

/-- The elements that VFXADD and FXRD act on: no mask (R326). vl never exceeds vlmax (R61). -/
def State.fxElems (s : State) : List Nat := rangeFrom s.task.vstart (min s.task.vl s.task.vlmax)

/-- VFXADD (R327). -/
def execVfxadd (vs2 rs1 : BitVec 5) (s : State) : Host.Outcome State Fault Refusal :=
  s.issue .b true (fun s => s.withFmt (fun f =>
    s.vectorWord { srcs := [(vs2.toNat, s.task.lmul)], dsts := [] } 1
      (fun s => [reading vs2.toNat s.task.sew s.fxElems]) (fun s => s.needX [rs1] [] (fun s =>
        let base := s.x rs1
        if base.toNat % 64 ≠ 0 then .trap s { cause := 0x03, addr := some base }
        else
          orTrap s (s.probeFx (s.fxElems.map (fxAddr base)) true) (fun ps =>
            let terms := s.fxElems.map (fun i => fxTerm (f.decode (s.task.elem s.task.sew vs2.toNat i)))
            .go ((ps.zip terms).foldl (fun s p => s.fxAddAt p.1 p.2) s))))))

/-- The format that FXRD's fmt field asks for with SEW and fk (R328). -/
def fxrdFmt (fmt : Nat) (sew fk : Nat) : Option Fmt :=
  match fmt, sew, fk with
  | 0, 32, 0 => some binary32
  | 1, 16, 1 => some bfloat16
  | 2, 64, 0 => some binary64
  | _, _, _ => none

/-- FXRD (R328): each accumulator rounded once; a stash line that it reads is recalled (R239). -/
def execFxrd (vd rs1 : BitVec 5) (fmt : BitVec 2) (s : State) : Host.Outcome State Fault Refusal :=
  s.issue .b (fmt.toNat < 3) (fun s =>
    match fxrdFmt fmt.toNat s.task.sew s.task.fk with
    | none => .trap s illegal
    | some f =>
      s.vectorWord { srcs := [], dsts := [(vd.toNat, s.task.lmul)] } 1 (fun _ => []) (fun s => s.needX [rs1] [] (fun s =>
        let base := s.x rs1
        if base.toNat % 64 ≠ 0 then .trap s { cause := 0x03, addr := some base }
        else
          orTrap s (s.probeFx (s.fxElems.map (fxAddr base)) true) (fun ps => s.rounding (fun s =>
            let vals := (s.fxElems.zip ps).map (fun q =>
              (q.1, s.rnd f q.1 (fxValue (s.readDirect q.2 64))))
            let s1 := ps.foldl (fun s p => s.recallForRead p.key 64) s
            .go (s1.onTask (fun t => t.setElems t.sew vd.toNat vals)))))))

/-- FXCLR (R329). -/
def execFxclr (rs1 rs2 : BitVec 5) (s : State) : Host.Outcome State Fault Refusal :=
  s.issue .b true (fun s => s.needX [rs1, rs2] [] (fun s =>
    let base := s.x rs1
    let n := (s.x rs2).toNat
    if base.toNat % 64 ≠ 0 then .trap s { cause := 0x03, addr := some base }
    else if n > 65536 then .trap s (cause 0x08)
    else
      orTrap s (s.probeFx ((List.range n).map (fxAddr base)) false) (fun ps =>
        .go (ps.foldl (fun s p => s.writeDirect p (bytesOf 0 64)) s))))

end Sys2Proof.Machine
end

