-- ==== Sys2Proof/Machine/Packed.lean ====
section
/-! DEFINITION. Packed arithmetic: plans (R209 to R211), fields and packed values (R212, R213), the guard test (R214), extraction
(R215), and the packed instructions (R216 to R223). -/

namespace Sys2Proof.Machine

/-! ## Plans (R209) -/

/-- A field-layout register, read. -/
structure Plan where
  kind : Nat
  k : Nat
  w : Nat
  sa : Bool
  sb : Bool
  s : Nat
  offs : Nat
  d : Nat
  fp : Bool
  deriving DecidableEq, Repr

/-- The fields of a plan register. -/
def Plan.ofWord (f : Word) : Plan :=
  { kind := fieldN f 0 3, k := fieldN f 3 3 + 1, w := fieldN f 6 5, sa := f.getLsbD 11, sb := f.getLsbD 12,
    s := fieldN f 13 6, offs := fieldN f 19 21, d := fieldN f 40 6, fp := f.getLsbD 46 }

/-- The plan that a register name selects. -/
def Task.plan (t : Task) (fl : BitVec 2) : Plan := Plan.ofWord ((t.fl[fl.toNat]?).getD 0)

/-- Position p_j of field j. -/
def Plan.pos (p : Plan) (j : Nat) : Nat := p.offs / 8 ^ j % 8

/-- p_(k−1) and the top slot T (R213). -/
def Plan.last (p : Plan) : Nat := p.pos (p.k - 1)
def Plan.top (p : Plan) : Nat := 2 * p.last

/-- The differences of a bundle's positions. -/
def Plan.gaps (p : Plan) : List Nat :=
  (List.range p.k).flatMap (fun l => (List.range l).map (fun i => p.pos l - p.pos i))

/-- Width, stride, positions and budgets of a plan (R211, R276): operand words of a bits, products of b. -/
def Plan.shapeOk (p : Plan) (a b : Nat) : Bool :=
  1 ≤ p.w && p.w ≤ 16 && 2 ≤ p.s && p.w ≤ p.s && p.k ≤ 7 && p.pos 0 == 0
    && (List.range (p.k - 1)).all (fun j => p.pos j < p.pos (j + 1))
    && (List.range 7).all (fun j => j < p.k || p.pos j == 0)
    && (p.kind != 1 && p.kind != 2 || (List.range p.k).all (fun j => p.pos j == j))
    && (p.kind != 2 || p.k ≤ 4)
    && (p.kind != 3 || p.gaps.eraseDups.length == p.gaps.length)
    && p.s * p.last + p.w ≤ a && (p.top + 1) * p.s ≤ b

/-- The checks of R211. -/
def Plan.laneOk (p : Plan) : Bool := 1 ≤ p.kind && p.kind ≤ 3 && p.shapeOk 64 128 && !p.fp

/-! ## Fields and values (R212) -/

/-- Raw field j of a word. -/
def Plan.raw (p : Plan) (x j : Nat) : Nat := x / 2 ^ (p.s * p.pos j) % 2 ^ p.w

/-- fv(x, j, sg). -/
def Plan.fv (p : Plan) (x j : Nat) (sg : Bool) : Int :=
  let v := p.raw x j
  if sg && p.w == 2 && v == 2 then 0 else if sg then sextN v p.w else v

/-- Whether a read of a word's fields meets ternary code 0b10. -/
def Plan.ternary (p : Plan) (x : Nat) (sg : Bool) : Bool :=
  sg && p.w == 2 && (List.range p.k).any (fun j => p.raw x j == 2)

/-- val_a and val_b. -/
def Plan.valA (p : Plan) (x : Nat) : Int :=
  (List.range p.k).foldl (fun acc j => acc + p.fv x j p.sa * (2 : Int) ^ (p.s * p.pos j)) 0
def Plan.valB (p : Plan) (y : Nat) : Int :=
  let q (j : Nat) : Nat := if p.kind = 1 then p.pos (p.k - 1 - j) else p.pos j
  (List.range p.k).foldl (fun acc j => acc + p.fv y j p.sb * (2 : Int) ^ (p.s * q j)) 0

/-- The largest magnitude among the fields of a word. -/
def Plan.maxField (p : Plan) (x : Nat) (sg : Bool) : Nat :=
  (List.range p.k).foldl (fun m j => max m (p.fv x j sg).natAbs) 0

/-- The bound of the guard test, and whether it fails (R214). -/
def Plan.bound (p : Plan) (x y : Nat) : Nat := p.k * p.maxField x p.sa * p.maxField y p.sb * (p.d + 1)
def Plan.fails (p : Plan) (x y : Nat) : Bool := 2 ^ (p.s - 1) ≤ p.bound x y

/-! ## Extraction (R215) -/

/-- Number of result fields of a plan's kind, and the slot of field j (R213). -/
def Plan.results (p : Plan) : Nat := if p.kind = 1 then 1 else if p.kind = 2 then 2 * p.k - 1 else p.k
def Plan.slot (p : Plan) (j : Nat) : Nat := if p.kind = 1 then p.k - 1 else if p.kind = 2 then j else 2 * p.pos j

/-- The value of slot n of a 128-bit accumulator, with the borrow of the slot below. -/
def Plan.extract (p : Plan) (acc n : Nat) : Int :=
  let low : Nat := if n = 0 then 0 else acc / 2 ^ (n * p.s - 1) % 2
  if n = p.top then sextN (acc / 2 ^ (n * p.s)) (128 - n * p.s) + low
  else sextN ((acc / 2 ^ (n * p.s) % 2 ^ p.s + low) % 2 ^ p.s) p.s

/-! ## The shapes of the words (R216) -/

/-- ternl set (R212). -/
def Task.setTernl (t : Task) (hit : Bool) : Task := if hit then { t with astat := t.astat ||| 2 } else t

/-- The second operand of a packed product: a group, or a replicated segment of c words (R219). -/
def State.packedB (s : State) (vs1 : BitVec 5) (c : Option Nat) (i : Nat) : Nat :=
  match c with
  | none => s.task.elem 64 vs1.toNat i
  | some c => s.task.elem 64 vs1.toNat (i % c)

/-- The first active element that fails the guard test, with its bound. -/
def State.guardFailure (s : State) (p : Plan) (vs2 vs1 : BitVec 5) (c : Option Nat) (vm : BitVec 1) : Option (Nat × Nat) :=
  (s.actives vm).findSome? (fun i =>
    let x := s.task.elem 64 vs2.toNat i
    let y := s.packedB vs1 c i
    if p.fails x y then some (i, p.bound x y) else none)

/-- Whether some active element of the operands holds ternary code 0b10. -/
def State.ternaryRead (s : State) (p : Plan) (vs2 vs1 : BitVec 5) (c : Option Nat) (vm : BitVec 1) : Bool :=
  (s.actives vm).any (fun i => p.ternary (s.task.elem 64 vs2.toNat i) p.sa || p.ternary (s.packedB vs1 c i) p.sb)

/-- The readings of a packed product's operands. -/
def State.packedReadings (s : State) (vs2 vs1 : BitVec 5) (c : Option Nat) (vm : BitVec 1) : List Reading :=
  [reading vs2.toNat 64 (s.actives vm),
   match c with
   | none => reading vs1.toNat 64 (s.actives vm)
   | some c => reading vs1.toNat 64 (List.range c)]

/-- VPMUL, VPMACC, VPCONV: products into a 128-bit group, added to what it holds when `adds` (R217, R219). -/
def State.packedProduct (s : State) (vd : BitVec 5) (fl : BitVec 2) (vs2 vs1 : BitVec 5) (c : Option Nat) (vm : BitVec 1)
    (adds : Bool) : Act :=
  let lm := s.task.lmul
  let p := s.task.plan fl
  let bLen := if c.isSome then 1 else lm
  if s.task.sew ≠ 64 ∨ lm = 8 ∨ overlap vd.toNat (2 * lm) vs2.toNat lm ∨ overlap vd.toNat (2 * lm) vs1.toNat bLen then
    .trap s illegal
  else
    let words : List (Nat × Nat) := if adds then [(vd.toNat, 2 * lm)] else []
    s.vectorWord { srcs := (vs2.toNat, lm) :: (vs1.toNat, bLen) :: words, dsts := [(vd.toNat, 2 * lm)] } vm
      (fun s => s.packedReadings vs2 vs1 c vm ++ (if adds then [reading vd.toNat 128 (s.actives vm)] else [])) (fun s =>
        match s.guardFailure p vs2 vs1 c vm with
        | some (i, b) => .trap s { cause := 0x07, elem := some i, info := BitVec.ofNat 32 (min b 0xFFFFFFFF) }
        | none =>
          let vals := (s.actives vm).map (fun i =>
            let y := p.valA (s.task.elem 64 vs2.toNat i) * p.valB (s.packedB vs1 c i)
            (i, wrapN (if adds then sextN (s.task.elem 128 vd.toNat i) 128 + y else y) 128))
          .go (s.onTask (fun t => (t.setElems 128 vd.toNat vals).setTernl (s.ternaryRead p vs2 vs1 c vm))))
      (p.laneOk && (c.isNone || p.kind == 2))

/-- VPMUL (R217). -/
def execVpmul (vd : BitVec 5) (fl : BitVec 2) (vs2 vs1 : BitVec 5) (_c2 _c1 vm : BitVec 1) (s : State) :
    Host.Outcome State Fault Refusal :=
  s.issue .b true (fun s => s.packedProduct vd fl vs2 vs1 none vm false)

/-- VPMACC (R217). -/
def execVpmacc (vd : BitVec 5) (fl : BitVec 2) (vs2 vs1 : BitVec 5) (_c2 _c1 vm : BitVec 1) (s : State) :
    Host.Outcome State Fault Refusal :=
  s.issue .b true (fun s => s.packedProduct vd fl vs2 vs1 none vm true)

/-- VPCONV (R219). -/
def execVpconv (vd : BitVec 5) (fl : BitVec 2) (vs2 vs1 : BitVec 5) (cb _c2 vm : BitVec 1) (s : State) :
    Host.Outcome State Fault Refusal :=
  s.issue .b true (fun s => s.packedProduct vd fl vs2 vs1 (some (if cb = 1 then 32 else 16)) vm true)

/-- VPGUARD: the test of R214 into mask bits (R218). -/
def execVpguard (vd : BitVec 5) (fl : BitVec 2) (vs2 vs1 : BitVec 5) (_c2 _c1 vm : BitVec 1) (s : State) :
    Host.Outcome State Fault Refusal :=
  s.issue .b true (fun s =>
    let lm := s.task.lmul
    let p := s.task.plan fl
    if s.task.sew ≠ 64 ∨ !s.task.cmpDstOk vd vs2 (.vv vs1) then .trap s illegal
    else
      s.vectorWord { srcs := [(vs2.toNat, lm), (vs1.toNat, lm)], dsts := [(vd.toNat, 1)] } vm
        (fun s => s.packedReadings vs2 vs1 none vm) (fun s =>
          let vals := (s.actives vm).map (fun i =>
            (i, p.fails (s.task.elem 64 vs2.toNat i) (s.task.elem 64 vs1.toNat i)))
          .go (s.onTask (fun t => (t.setMaskBits vd.toNat vals).setTernl (s.ternaryRead p vs2 vs1 none vm))))
        p.laneOk)

/-! ## Packing and unpacking (R221, R222) -/

/-- The container width of a plan. -/
def Plan.container (p : Plan) : Nat := if p.w ≤ 8 then 8 else 16

/-- Whether groups 1 to k − 1 of the containers lie within the registers and clear of the group of packed words. -/
def Task.furtherOk (t : Task) (p : Plan) (first words : Nat) : Bool :=
  first + p.k * t.lmul ≤ t.regCount
    && (List.range p.k).all (fun j => j == 0 || !overlap words t.lmul (first + j * t.lmul) t.lmul)

/-- The encoding's checks of VPACK and VUNPACK (0x01, R221, R222), which come before those of the plan. -/
def State.packWord (s : State) (first words : BitVec 5) (vm : BitVec 1) (dst : Nat) (k : Act) : Act :=
  let lm := s.task.lmul
  if s.task.sew ≠ 64 || overlap first.toNat lm words.toNat lm || !s.task.groupOk first.toNat lm || !s.task.groupOk words.toNat lm
      || (vm == 0 && dst == 0) then .trap s illegal
  else k

/-- The plan's checks of VPACK and VUNPACK: its own (R211), then its further groups (R221, R222). A use of a bound register against R265
raises 0x01 before they raise 0x08; no rule orders the two (log 17). -/
def Task.packOk (t : Task) (p : Plan) (first words : BitVec 5) : Bool := p.laneOk && t.furtherOk p first.toNat words.toNat

/-- The k groups of containers, those of them that lie within the registers. -/
def Task.containerGroups (t : Task) (p : Plan) (first : BitVec 5) : List (Nat × Nat) :=
  ((List.range p.k).map (fun j => (first.toNat + j * t.lmul, t.lmul))).filter (fun g => t.groupOk g.1 g.2)

/-- VPACK (R221). -/
def execVpack (vd : BitVec 5) (fl : BitVec 2) (vs2 : BitVec 5) (_c2 vm : BitVec 1) (s : State) :
    Host.Outcome State Fault Refusal :=
  s.issue .b true (fun s =>
    let p := s.task.plan fl
    s.packWord vs2 vd vm vd.toNat (
      let gs := s.task.containerGroups p vs2
      let cw := p.container
      s.vectorWord { srcs := gs, dsts := [(vd.toNat, s.task.lmul)] } vm
        (fun s => gs.map (fun g => reading g.1 cw (s.actives vm))) (fun s =>
          let word (i : Nat) : Nat := (List.range p.k).foldl (fun acc j =>
            acc ||| (s.task.elem cw (vs2.toNat + j * s.task.lmul) i % 2 ^ p.w * 2 ^ (p.s * p.pos j))) 0
          let vals := (s.actives vm).map (fun i => (i, word i))
          .go (s.onTask (fun t => t.setElems 64 vd.toNat vals)))
        (s.task.packOk p vs2 vd)))

/-- VUNPACK (R222). -/
def execVunpack (vd : BitVec 5) (fl : BitVec 2) (vs2 : BitVec 5) (_c2 vm : BitVec 1) (s : State) :
    Host.Outcome State Fault Refusal :=
  s.issue .b true (fun s =>
    let p := s.task.plan fl
    s.packWord vd vs2 vm vd.toNat (
      let cw := p.container
      s.vectorWord { srcs := [(vs2.toNat, s.task.lmul)], dsts := s.task.containerGroups p vd } vm
        (fun s => [reading vs2.toNat 64 (s.actives vm)]) (fun s =>
          let word (i : Nat) : Nat := s.task.elem 64 vs2.toNat i
          let col (j : Nat) : List (Nat × Nat) := (s.actives vm).map (fun i => (i, wrapN (p.fv (word i) j p.sa) cw))
          .go (s.onTask (fun t =>
            ((List.range p.k).foldl (fun t j => t.setElems cw (vd.toNat + j * t.lmul) (col j)) t).setTernl
              ((s.actives vm).any (fun i => p.ternary (word i) p.sa)))))
        (s.task.packOk p vd vs2)))

/-- VPEXT (R223). -/
def execVpext (vd : BitVec 5) (fl : BitVec 2) (vs2 : BitVec 5) (j : BitVec 3) (_c2 vm : BitVec 1) (s : State) :
    Host.Outcome State Fault Refusal :=
  s.issue .b (j.toNat < 7) (fun s =>
    let lm := s.task.lmul
    let p := s.task.plan fl
    if s.task.sew ≠ 64 ∨ lm = 8 ∨ overlap vd.toNat lm vs2.toNat (2 * lm) then .trap s illegal
    else
      s.vectorWord { srcs := [(vs2.toNat, 2 * lm)], dsts := [(vd.toNat, lm)] } vm
        (fun s => [reading vs2.toNat 128 (s.actives vm)]) (fun s =>
          let vals := (s.actives vm).map (fun i => (i, wrapN (p.extract (s.task.elem 128 vs2.toNat i) (p.slot j.toNat)) 64))
          .go (s.onTask (fun t => t.setElems 64 vd.toNat vals)))
        (p.laneOk && j.toNat < p.results))

/-! ## Plan registers (R210, R273) -/

/-- FLSET: a nonzero reserved bit raises 0x01; every other field is checked by its user. -/
def execFlset (fl : BitVec 2) (xs : BitVec 5) (s : State) : Host.Outcome State Fault Refusal :=
  s.issue .b true (fun s => s.needX [xs] [] (fun s =>
    if fieldN (s.x xs) 47 17 ≠ 0 then .trap s illegal
    else .go (s.onTask (fun t => { t with fl := t.fl.setIfInBounds fl.toNat (s.x xs) }))))

/-- FLGET. -/
def execFlget (xd : BitVec 5) (fl : BitVec 2) (s : State) : Host.Outcome State Fault Refusal :=
  s.issue .b true (fun s => s.needX [] [xd] (fun s => .go (s.setX xd ((s.task.fl[fl.toNat]?).getD 0))))

end Sys2Proof.Machine
end

