-- ==== Sys2Proof/Machine/Atomics.lean ====
section
/-! DEFINITION. The A extension and the counters of the control core (R114, R115, R297, R306). One step is one atomic
action, and the orderings that aq and rl give are those that the model keeps everywhere (log 4). -/

namespace Sys2Proof.Machine

/-- The checks of an LR, SC or AMO of n bytes (R114, R297): poison of the sources, alignment, translation, a page homed here, the
memory behind it. -/
def State.atomicPlace (s : State) (rs : List (BitVec 5)) (rs1 : BitVec 5) (n : Nat) (acc : Access) (k : Place → Act) : Act :=
  let a := s.x rs1
  if s.xBad rs then .trap s (s.xTrap rs)
  else if a.toNat % n ≠ 0 then .trap s { cause := 0x03, addr := some a }
  else orTrap s (s.locateIf a n acc (fun p => p.page.home == 0) (walkInfo acc false)) k

/-- A value read by a word or dword atomic, as rd receives it. -/
def loaded (n v : Nat) : Word := if n = 4 then (BitVec.ofNat 32 v).signExtend 64 else BitVec.ofNat 64 v

/-- LR: a load that takes a reservation of the 128-byte line (R114). -/
def State.loadReserved (s : State) (rd rs1 : BitVec 5) (n : Nat) : Act :=
  s.atomicPlace [rs1] rs1 n .read (fun p =>
    .go (((s.afterRead p n 0).onTask (fun t => { t with resv := some (p.key / 128) })).setX rd (loaded n (s.viewNat p n))))

/-- SC: stores and writes 0 to rd while the reservation of the line stands, else writes 1; either way the reservation is
lost (R114). -/
def State.storeConditional (s : State) (rd rs1 rs2 : BitVec 5) (n : Nat) : Act :=
  s.atomicPlace [rs1, rs2] rs1 n .write (fun p =>
    if s.task.resv = some (p.key / 128) then
      orTrap s (s.storeAt p (bytesOf (s.x rs2).toNat n)) (fun s1 =>
        .go ((s1.onTask (fun t => { t with resv := none })).setX rd 0))
    else .go ((s.onTask (fun t => { t with resv := none })).setX rd 1))

/-- An AMO of n bytes: the old value to rd, op of the old value and x[rs2] to memory, both taken at n bytes. -/
def State.amo (s : State) (rd rs1 rs2 : BitVec 5) (n : Nat) (op : Nat → Nat → Nat) : Act :=
  s.atomicPlace [rs1, rs2] rs1 n .atomic (fun p =>
    let old := s.viewNat p n
    let new := op old ((s.x rs2).toNat % 2 ^ (8 * n))
    orTrap s ((s.afterRead p n 0).storeAt p (bytesOf new n)) (fun s1 => .go (s1.setX rd (loaded n old))))

/-- Signed minimum and maximum of n-byte values. -/
def minS (n a b : Nat) : Nat := if sextN a (8 * n) ≤ sextN b (8 * n) then a else b
def maxS (n a b : Nat) : Nat := if sextN a (8 * n) ≤ sextN b (8 * n) then b else a

/-- The value of a counter, or none where the CSR does not exist (R115). -/
def State.csr (s : State) (c : BitVec 12) : Option Word :=
  if c = 0xC00 then some s.cycle
  else if c = 0xC01 then some (BitVec.ofNat 64 s.ticks)
  else if c = 0xC02 then some s.task.instret
  else none

/-- A CSR instruction (R115): one that would write, or that names another CSR, raises 0x01. -/
def State.readCsr (s : State) (rd : BitVec 5) (c : BitVec 12) (writes : Bool) : Act :=
  match s.csr c with
  | none => .trap s illegal
  | some v => if writes then .trap s illegal else .go (s.setX rd v)

/-- LR.W (R114, R306). -/
def execLrW (rd rs1 : BitVec 5) (_aq _rl : BitVec 1) (s : State) : Host.Outcome State Fault Refusal :=
  s.issue .c true (fun s => s.loadReserved rd rs1 4)

/-- SC.W (R114, R306). -/
def execScW (rd rs1 rs2 : BitVec 5) (_aq _rl : BitVec 1) (s : State) : Host.Outcome State Fault Refusal :=
  s.issue .c true (fun s => s.storeConditional rd rs1 rs2 4)

/-- AMOSWAP.W (R306). -/
def execAmoswapW (rd rs1 rs2 : BitVec 5) (_aq _rl : BitVec 1) (s : State) : Host.Outcome State Fault Refusal :=
  s.issue .c true (fun s => s.amo rd rs1 rs2 4 (fun _ b => b))

/-- AMOADD.W (R306). -/
def execAmoaddW (rd rs1 rs2 : BitVec 5) (_aq _rl : BitVec 1) (s : State) : Host.Outcome State Fault Refusal :=
  s.issue .c true (fun s => s.amo rd rs1 rs2 4 (fun a b => a + b))

/-- AMOXOR.W (R306). -/
def execAmoxorW (rd rs1 rs2 : BitVec 5) (_aq _rl : BitVec 1) (s : State) : Host.Outcome State Fault Refusal :=
  s.issue .c true (fun s => s.amo rd rs1 rs2 4 (fun a b => a ^^^ b))

/-- AMOAND.W (R306). -/
def execAmoandW (rd rs1 rs2 : BitVec 5) (_aq _rl : BitVec 1) (s : State) : Host.Outcome State Fault Refusal :=
  s.issue .c true (fun s => s.amo rd rs1 rs2 4 (fun a b => a &&& b))

/-- AMOOR.W (R306). -/
def execAmoorW (rd rs1 rs2 : BitVec 5) (_aq _rl : BitVec 1) (s : State) : Host.Outcome State Fault Refusal :=
  s.issue .c true (fun s => s.amo rd rs1 rs2 4 (fun a b => a ||| b))

/-- AMOMIN.W (R306). -/
def execAmominW (rd rs1 rs2 : BitVec 5) (_aq _rl : BitVec 1) (s : State) : Host.Outcome State Fault Refusal :=
  s.issue .c true (fun s => s.amo rd rs1 rs2 4 (minS 4))

/-- AMOMAX.W (R306). -/
def execAmomaxW (rd rs1 rs2 : BitVec 5) (_aq _rl : BitVec 1) (s : State) : Host.Outcome State Fault Refusal :=
  s.issue .c true (fun s => s.amo rd rs1 rs2 4 (maxS 4))

/-- AMOMINU.W (R306). -/
def execAmominuW (rd rs1 rs2 : BitVec 5) (_aq _rl : BitVec 1) (s : State) : Host.Outcome State Fault Refusal :=
  s.issue .c true (fun s => s.amo rd rs1 rs2 4 (min))

/-- AMOMAXU.W (R306). -/
def execAmomaxuW (rd rs1 rs2 : BitVec 5) (_aq _rl : BitVec 1) (s : State) : Host.Outcome State Fault Refusal :=
  s.issue .c true (fun s => s.amo rd rs1 rs2 4 (max))

/-- LR.D (R114, R306). -/
def execLrD (rd rs1 : BitVec 5) (_aq _rl : BitVec 1) (s : State) : Host.Outcome State Fault Refusal :=
  s.issue .c true (fun s => s.loadReserved rd rs1 8)

/-- SC.D (R114, R306). -/
def execScD (rd rs1 rs2 : BitVec 5) (_aq _rl : BitVec 1) (s : State) : Host.Outcome State Fault Refusal :=
  s.issue .c true (fun s => s.storeConditional rd rs1 rs2 8)

/-- AMOSWAP.D (R306). -/
def execAmoswapD (rd rs1 rs2 : BitVec 5) (_aq _rl : BitVec 1) (s : State) : Host.Outcome State Fault Refusal :=
  s.issue .c true (fun s => s.amo rd rs1 rs2 8 (fun _ b => b))

/-- AMOADD.D (R306). -/
def execAmoaddD (rd rs1 rs2 : BitVec 5) (_aq _rl : BitVec 1) (s : State) : Host.Outcome State Fault Refusal :=
  s.issue .c true (fun s => s.amo rd rs1 rs2 8 (fun a b => a + b))

/-- AMOXOR.D (R306). -/
def execAmoxorD (rd rs1 rs2 : BitVec 5) (_aq _rl : BitVec 1) (s : State) : Host.Outcome State Fault Refusal :=
  s.issue .c true (fun s => s.amo rd rs1 rs2 8 (fun a b => a ^^^ b))

/-- AMOAND.D (R306). -/
def execAmoandD (rd rs1 rs2 : BitVec 5) (_aq _rl : BitVec 1) (s : State) : Host.Outcome State Fault Refusal :=
  s.issue .c true (fun s => s.amo rd rs1 rs2 8 (fun a b => a &&& b))

/-- AMOOR.D (R306). -/
def execAmoorD (rd rs1 rs2 : BitVec 5) (_aq _rl : BitVec 1) (s : State) : Host.Outcome State Fault Refusal :=
  s.issue .c true (fun s => s.amo rd rs1 rs2 8 (fun a b => a ||| b))

/-- AMOMIN.D (R306). -/
def execAmominD (rd rs1 rs2 : BitVec 5) (_aq _rl : BitVec 1) (s : State) : Host.Outcome State Fault Refusal :=
  s.issue .c true (fun s => s.amo rd rs1 rs2 8 (minS 8))

/-- AMOMAX.D (R306). -/
def execAmomaxD (rd rs1 rs2 : BitVec 5) (_aq _rl : BitVec 1) (s : State) : Host.Outcome State Fault Refusal :=
  s.issue .c true (fun s => s.amo rd rs1 rs2 8 (maxS 8))

/-- AMOMINU.D (R306). -/
def execAmominuD (rd rs1 rs2 : BitVec 5) (_aq _rl : BitVec 1) (s : State) : Host.Outcome State Fault Refusal :=
  s.issue .c true (fun s => s.amo rd rs1 rs2 8 (min))

/-- AMOMAXU.D (R306). -/
def execAmomaxuD (rd rs1 rs2 : BitVec 5) (_aq _rl : BitVec 1) (s : State) : Host.Outcome State Fault Refusal :=
  s.issue .c true (fun s => s.amo rd rs1 rs2 8 (max))

/-- CSRRW: always writes (R115). -/
def execCsrrw (rd _rs1 : BitVec 5) (csr : BitVec 12) (s : State) : Host.Outcome State Fault Refusal :=
  s.issue .c true (fun s => s.readCsr rd csr true)

/-- CSRRS (R115). -/
def execCsrrs (rd rs1 : BitVec 5) (csr : BitVec 12) (s : State) : Host.Outcome State Fault Refusal :=
  s.issue .c true (fun s => s.readCsr rd csr (rs1 != 0))

/-- CSRRC (R115). -/
def execCsrrc (rd rs1 : BitVec 5) (csr : BitVec 12) (s : State) : Host.Outcome State Fault Refusal :=
  s.issue .c true (fun s => s.readCsr rd csr (rs1 != 0))

/-- CSRRWI: always writes (R115). -/
def execCsrrwi (rd _uimm : BitVec 5) (csr : BitVec 12) (s : State) : Host.Outcome State Fault Refusal :=
  s.issue .c true (fun s => s.readCsr rd csr true)

/-- CSRRSI (R115). -/
def execCsrrsi (rd uimm : BitVec 5) (csr : BitVec 12) (s : State) : Host.Outcome State Fault Refusal :=
  s.issue .c true (fun s => s.readCsr rd csr (uimm != 0))

/-- CSRRCI (R115). -/
def execCsrrci (rd uimm : BitVec 5) (csr : BitVec 12) (s : State) : Host.Outcome State Fault Refusal :=
  s.issue .c true (fun s => s.readCsr rd csr (uimm != 0))

end Sys2Proof.Machine
end

