-- ==== Sys2Proof/Machine/VectorMem.lean ====
section
/-! DEFINITION. Vector memory: the six loads and stores (R242 to R245), VAMO (R305), VAPPEND (R175 to R177). -/

namespace Sys2Proof.Machine

/-! ## The probe (R243) -/

/-- What a memory word has found: the elements that passed, with their places, and the lowest one that failed. -/
structure Probe where
  good : List (Nat × Place)
  bad : Option (Nat × Trap)

/-- Every element checked in ascending order: alignment, then translation, and poison for a read. -/
def State.probe (s : State) (acc : Access) (n : Nat) : List (Nat × Word) → Probe
  | [] => { good := [], bad := none }
  | (i, a) :: es =>
    if a.toNat % n ≠ 0 then { good := [], bad := some (i, { cause := 0x03, addr := some a, elem := some i }) }
    else
      match (if acc == .write then s.locate a n acc else s.locateRead a n acc) with
      | .error t => { good := [], bad := some (i, { t with elem := some i }) }
      | .ok p =>
        let r := s.probe acc n es
        { r with good := (i, p) :: r.good }

/-- The probe of the active elements; a poisoned register dword that element i reads is a failure of element i (R352). -/
def State.probeActive (s : State) (acc : Access) (n : Nat) (vm : BitVec 1) (rs : List Reading) (addr : Nat → Word) : Probe :=
  let clean (is : List Nat) : List (Nat × Word) := is.map (fun i => (i, addr i))
  match s.task.badElem (maskReading vm s.touched ++ rs) with
  | none => s.probe acc n (clean (s.actives vm))
  | some b =>
    let r := s.probe acc n (clean ((s.actives vm).filter (· < b)))
    match r.bad with
    | some _ => r
    | none => { r with bad := some (b, s.task.elemTrap (maskReading vm s.touched ++ rs) b) }

/-- The end of a memory word: complete, or the fault of its lowest failing element with vstart naming it (R243); a lane word
leaves vstart 0 (R173). -/
def State.endMemory (s : State) (bad : Option (Nat × Trap)) : Act :=
  match bad with
  | none => .go s
  | some (f, t) =>
    match s.cur with
    | .lane _ => .trap s t
    | _ => .trap (s.onTask (fun x => { x with vstart := f })) t

/-- A memory word: its groups checked, its streams popped, its scalars read, and poison that it passes by logged when it completes
(R352). -/
def State.memoryWord (s : State) (eew : BitVec 3) (g : Groups) (vm : BitVec 1) (xs : List (BitVec 5)) (k : State → Act) : Act :=
  if eew.toNat ≠ s.task.sewCode || !s.task.groupsOk g vm then .trap s illegal
  else s.withStreams g.srcs g.dsts (fun s => s.needX xs [] (fun s =>
    match k s with
    | .go s1 => .go (if s.task.vPoison.isEmpty then s1 else s1.noteLatent g.srcs)
    | a => a))

/-! ## Addresses (R242) -/

/-- Addresses of element i: unit-stride, strided, indexed. -/
def State.unitAddr (s : State) (rs1 : BitVec 5) (i : Nat) : Word := s.x rs1 + BitVec.ofNat 64 (i * (s.task.sew / 8))
def State.stridedAddr (s : State) (rs1 rs2 : BitVec 5) (i : Nat) : Word := s.x rs1 + BitVec.ofNat 64 i * s.x rs2
def State.indexedAddr (s : State) (rs1 vs2 : BitVec 5) (i : Nat) : Word :=
  s.x rs1 + BitVec.ofNat 64 (s.task.elem s.task.sew vs2.toNat i)

/-! ## Loads and stores (R243) -/

/-- The caches after the reads of a word. -/
def State.afterReads (s : State) (n pol : Nat) (ps : List (Nat × Place)) : State :=
  ps.foldl (fun s p => s.afterRead p.2 n pol p.1) s

/-- The commit of a load. -/
def State.commitLoad (s : State) (vd : BitVec 5) (n pol : Nat) (ps : List (Nat × Place)) : State :=
  let vals := ps.map (fun p => (p.1, s.viewNat p.2 n))
  (s.afterReads n pol ps).onTask (fun t => t.setElems (8 * n) vd.toNat vals)

/-- A load of the active elements. -/
def State.loadWord (s : State) (vd : BitVec 5) (pol : BitVec 2) (vm : BitVec 1) (rs : List Reading) (addr : Nat → Word) : Act :=
  let n := s.task.sew / 8
  let r := s.probeActive .read n vm rs addr
  (s.commitLoad vd n pol.toNat r.good).endMemory r.bad

/-- The commit of a store, ascending: of elements that write one byte the highest stays (R244). -/
def State.commitStore (s : State) (n pol : Nat) : List (Nat × Place) → (Nat → Nat) → Except Trap State
  | [], _ => .ok s
  | p :: ps, v =>
    match s.storeAt p.2 (bytesOf (v p.1) n) pol p.1 with
    | .error t => .error t
    | .ok s1 => s1.commitStore n pol ps v

/-- The keys of the bytes that a store writes. -/
def writtenKeys (n : Nat) (ps : List (Nat × Place)) : List Nat := ps.flatMap (fun p => (List.range n).map (fun j => p.2.key + j))

/-- A store of the active elements of vs3. One that a write set cannot hold writes nothing (R318). -/
def State.storeWord (s : State) (vs3 : BitVec 5) (pol : BitVec 2) (vm : BitVec 1) (rs : List Reading) (addr : Nat → Word) : Act :=
  let w := s.task.sew
  let n := w / 8
  let r := s.probeActive .write n vm (reading vs3.toNat w (s.actives vm) :: rs) addr
  orTrap s (s.commitStore n pol.toNat r.good (fun i => s.task.elem w vs3.toNat i)) (fun s1 =>
    (s1.cleanStored (writtenKeys n r.good)).endMemory r.bad)

/-- VLE. -/
def execVle (vd rs1 : BitVec 5) (pol : BitVec 2) (eew : BitVec 3) (vm : BitVec 1) (s : State) : Host.Outcome State Fault Refusal :=
  s.issue .b (eew.toNat < 4) (fun s => s.memoryWord eew { srcs := [], dsts := [(vd.toNat, s.task.lmul)] } vm [rs1] (fun s =>
    s.loadWord vd pol vm [] (s.unitAddr rs1)))

/-- VLSE. -/
def execVlse (vd rs1 rs2 : BitVec 5) (pol : BitVec 2) (eew : BitVec 3) (vm : BitVec 1) (s : State) :
    Host.Outcome State Fault Refusal :=
  s.issue .b (eew.toNat < 4) (fun s => s.memoryWord eew { srcs := [], dsts := [(vd.toNat, s.task.lmul)] } vm [rs1, rs2] (fun s =>
    s.loadWord vd pol vm [] (s.stridedAddr rs1 rs2)))

/-- The elements of an index group that a word reads. -/
def State.indexReading (s : State) (vs2 : BitVec 5) (vm : BitVec 1) : Reading := reading vs2.toNat s.task.sew (s.actives vm)

/-- VLXE. -/
def execVlxe (vd vs2 rs1 : BitVec 5) (pol : BitVec 2) (eew : BitVec 3) (_c vm : BitVec 1) (s : State) :
    Host.Outcome State Fault Refusal :=
  s.issue .l (eew.toNat < 4) (fun s =>
    let lm := s.task.lmul
    if overlap vd.toNat lm vs2.toNat lm then .trap s illegal
    else
      s.memoryWord eew { srcs := [(vs2.toNat, lm)], dsts := [(vd.toNat, lm)] } vm [rs1] (fun s =>
        s.loadWord vd pol vm [s.indexReading vs2 vm] (s.indexedAddr rs1 vs2)))

/-- VSE. -/
def execVse (vs3 rs1 : BitVec 5) (pol : BitVec 2) (eew : BitVec 3) (_c vm : BitVec 1) (s : State) :
    Host.Outcome State Fault Refusal :=
  s.issue .b (eew.toNat < 4) (fun s => s.memoryWord eew { srcs := [(vs3.toNat, s.task.lmul)], dsts := [] } vm [rs1] (fun s =>
    s.storeWord vs3 pol vm [] (s.unitAddr rs1)))

/-- VSSE. -/
def execVsse (vs3 rs1 rs2 : BitVec 5) (pol : BitVec 2) (eew : BitVec 3) (_c vm : BitVec 1) (s : State) :
    Host.Outcome State Fault Refusal :=
  s.issue .b (eew.toNat < 4) (fun s => s.memoryWord eew { srcs := [(vs3.toNat, s.task.lmul)], dsts := [] } vm [rs1, rs2] (fun s =>
    s.storeWord vs3 pol vm [] (s.stridedAddr rs1 rs2)))

/-- VSXE. -/
def execVsxe (vs3 vs2 rs1 : BitVec 5) (pol : BitVec 2) (eew : BitVec 3) (_c vm : BitVec 1) (s : State) :
    Host.Outcome State Fault Refusal :=
  s.issue .l (eew.toNat < 4) (fun s =>
    let lm := s.task.lmul
    s.memoryWord eew { srcs := [(vs3.toNat, lm), (vs2.toNat, lm)], dsts := [] } vm [rs1] (fun s =>
      s.storeWord vs3 pol vm [s.indexReading vs2 vm] (s.indexedAddr rs1 vs2)))

/-! ## VAMO (R305) -/

/-- The commit of a VAMO, ascending: each element's old value to vd, op of it and vd's element to memory. -/
def State.commitAmo (s : State) (vd : BitVec 5) (n : Nat) (op : Nat → Nat → Nat → Nat) : List (Nat × Place) → Except Trap State
  | [] => .ok s
  | p :: ps =>
    let old := s.viewNat p.2 n
    let new := op (8 * n) old (s.task.elem (8 * n) vd.toNat p.1)
    match (s.afterRead p.2 n 0).storeAt p.2 (bytesOf new n) with
    | .error t => .error t
    | .ok s1 => (s1.onTask (fun t => t.setElem (8 * n) vd.toNat p.1 old)).commitAmo vd n op ps

/-- A VAMO; only memory homed on this Brynter admits it (R297). -/
def State.vamo (s : State) (vd vs2 rs1 : BitVec 5) (eew : BitVec 3) (vm : BitVec 1) (op : Nat → Nat → Nat → Nat) : Act :=
  let lm := s.task.lmul
  if s.task.sew < 32 || overlap vd.toNat lm vs2.toNat lm then .trap s illegal
  else
    s.memoryWord eew { srcs := [(vs2.toNat, lm)], dsts := [(vd.toNat, lm)] } vm [rs1] (fun s =>
      let w := s.task.sew
      let r := s.probeActive .atomic (w / 8) vm [reading vd.toNat w (s.actives vm), s.indexReading vs2 vm]
        (s.indexedAddr rs1 vs2)
      orTrap s (s.commitAmo vd (w / 8) op r.good) (fun s1 => s1.endMemory r.bad))

/-- The operations of VAMO at n bits, on the old value and the element. -/
def amoAdd (n a b : Nat) : Nat := (a + b) % 2 ^ n
def amoMin (n a b : Nat) : Nat := minS (n / 8) a b
def amoMax (n a b : Nat) : Nat := maxS (n / 8) a b
def amoSwap (_n _a b : Nat) : Nat := b
def amoXor (_n a b : Nat) : Nat := a ^^^ b

/-- VAMOADD. -/
def execVamoadd (vd vs2 rs1 : BitVec 5) (eew : BitVec 3) (vm : BitVec 1) (s : State) : Host.Outcome State Fault Refusal :=
  s.issue .l (eew.toNat < 4) (fun s => s.vamo vd vs2 rs1 eew vm amoAdd)

/-- VAMOMIN. -/
def execVamomin (vd vs2 rs1 : BitVec 5) (eew : BitVec 3) (vm : BitVec 1) (s : State) : Host.Outcome State Fault Refusal :=
  s.issue .l (eew.toNat < 4) (fun s => s.vamo vd vs2 rs1 eew vm amoMin)

/-- VAMOMAX. -/
def execVamomax (vd vs2 rs1 : BitVec 5) (eew : BitVec 3) (vm : BitVec 1) (s : State) : Host.Outcome State Fault Refusal :=
  s.issue .l (eew.toNat < 4) (fun s => s.vamo vd vs2 rs1 eew vm amoMax)

/-- VAMOSWAP. -/
def execVamoswap (vd vs2 rs1 : BitVec 5) (eew : BitVec 3) (vm : BitVec 1) (s : State) : Host.Outcome State Fault Refusal :=
  s.issue .l (eew.toNat < 4) (fun s => s.vamo vd vs2 rs1 eew vm amoSwap)

/-- VAMOXOR. -/
def execVamoxor (vd vs2 rs1 : BitVec 5) (eew : BitVec 3) (vm : BitVec 1) (s : State) : Host.Outcome State Fault Refusal :=
  s.issue .l (eew.toNat < 4) (fun s => s.vamo vd vs2 rs1 eew vm amoXor)

/-! ## VAPPEND (R174 to R177) -/

/-- The payload writes from the held element on: the keys of the bytes written, and the failure that names the first element not yet
written; what has been written stays. -/
def State.appendPayload (s : State) (vs3 : BitVec 5) (base t : Nat) (pol w : Nat) :
    List (Nat × Nat) → State × List Nat × Option Trap
  | [] => (s, [], none)
  | (i, j) :: es =>
    let a : Word := BitVec.ofNat 64 (base + (t + j) * (w / 8))
    match s.locate a (w / 8) .write with
    | .error e => (s, [], some { e with elem := some i })
    | .ok p =>
      match s.storeAt p (bytesOf (s.task.elem w vs3.toNat i) (w / 8)) pol i with
      | .error e => (s, [], some { e with elem := some i })
      | .ok s1 =>
        let s2 := s1.onTask (fun x => { x with heldAppend := x.heldAppend.map (fun h => { h with elem := i + 1 }) })
        let r := s2.appendPayload vs3 base t pol w es
        (r.1, writtenKeys (w / 8) [(i, p)] ++ r.2.1, r.2.2)

/-- The end of a VAPPEND: its reply pushed, after a wait while the queue is full. -/
def State.endAppend (s : State) (v : Word) : Act :=
  if s.task.replies.length < 16 then .go ((s.pushReply v).onTask (fun t => { t with heldAppend := none })) else .wait s

/-- What is left of a VAPPEND whose tail has advanced, its payload range fixed (R177): its payload, and its reply. -/
def State.finishAppend (s : State) (vs3 : BitVec 5) (pol : BitVec 2) (vm : BitVec 1) (h : HeldAppend) : Act :=
  let w := s.task.sew
  let slots := ((s.actives vm).mapIdx (fun j i => (i, j))).filter (fun p => h.elem ≤ p.1)
  if slots.isEmpty then s.endAppend h.t
  else if h.base.toNat % (w / 8) ≠ 0 then .trap s { cause := 0x03, addr := some h.base }
  else
    match s.appendPayload vs3 h.base.toNat h.t.toNat pol.toNat w slots with
    | (s1, keys, bad) =>
      let s2 := s1.cleanStored keys
      match bad with
      | some t => .trap s2 t
      | none => s2.endAppend h.t

/-- The tail advance of a VAPPEND (R175): one read-modify-write of the descriptor at a place. -/
def State.advanceTail (s : State) (vs3 : BitVec 5) (pol : BitVec 2) (vm : BitVec 1) (d : Word) (p : Place) : Act :=
  let at_ (off : Nat) : Place := { p with key := p.key + off, va := p.va + off }
  let get (off n : Nat) : Nat := s.viewNat (at_ off) n
  let k := (s.actives vm).length
  let t := get 0x10 8
  let held (v : Word) (elem : Nat) : HeldAppend := { desc := d, base := BitVec.ofNat 64 (get 0x00 8), t := v, elem := elem }
  let hold (h : HeldAppend) (s : State) : State := s.onTask (fun x => { x with heldAppend := some h })
  if k = 0 then (hold (held (BitVec.ofNat 64 t) s.task.vl) s).endAppend (BitVec.ofNat 64 t)
  else if t + k ≤ get 0x08 8 then
    orTrap s (s.storeAt (at_ 0x10) (bytesOf (t + k) 8)) (fun s1 =>
      let h := held (BitVec.ofNat 64 t) 0
      (hold h s1).finishAppend vs3 pol vm h)
  else
    orTrap s (s.storeAt (at_ 0x18) (bytesOf (get 0x18 4 ||| 1) 4)) (fun s1 =>
      (hold (held (BitVec.allOnes 64) s.task.vl) s1).endAppend (BitVec.allOnes 64))

/-- VAPPEND (R175). Its descriptor is checked before its atomic; once the tail has advanced the word is held until its payload
and its reply are complete, and the descriptor is read no more (R177). -/
def execVappend (vs3 rs1 : BitVec 5) (pol : BitVec 2) (eew : BitVec 3) (_c vm : BitVec 1) (s : State) :
    Host.Outcome State Fault Refusal :=
  s.issue .b (eew.toNat < 4) (fun s => s.memoryWord eew { srcs := [(vs3.toNat, s.task.lmul)], dsts := [] } vm [rs1] (fun s =>
    let clean := s.needClean (maskReading vm s.touched ++ [reading vs3.toNat s.task.sew (s.actives vm)])
    match s.task.heldAppend with
    | some h => clean (s.finishAppend vs3 pol vm h)
    | none =>
      let d := s.x rs1
      if d.toNat % 32 ≠ 0 then .trap s { cause := 0x03, addr := some d }
      else clean (orTrap s (s.locateRead d 32 .atomic) (fun p => (s.afterRead p 32 0).advanceTail vs3 pol vm d p))))

end Sys2Proof.Machine
end

