-- ==== Sys2Proof/Machine/Array.lean ====
section
/-! DEFINITION. The matrix and difference array (R268 to R292): its configuration words, operands, terms and sums, drains, the
trump chain, tile loads and stores, the centroid update. An array word completes when it issues; the queue of R290 and the
scoreboard of R291 then hold of themselves. -/

namespace Sys2Proof.Machine

/-! ## The state of the array (R268 to R272) -/

/-- Fields of mshape and mcfg. -/
def Task.rows (t : Task) : Nat := fieldN t.mshape 0 6 + 1
def Task.cols (t : Task) : Nat := fieldN t.mshape 6 6 + 1
def Task.metric (t : Task) : Nat := fieldN t.mcfg 0 2
def Task.tieHigh (t : Task) : Bool := t.mcfg.getLsbD 2
def Task.dsc (t : Task) : Nat := fieldN t.mcfg 3 2
def Task.num (t : Task) : Bool := t.mcfg.getLsbD 5
def Task.pl (t : Task) : Nat := fieldN t.mcfg 6 3
def Task.bs (t : Task) : Bool := t.mcfg.getLsbD 9
def Task.sra (t : Task) : Nat := fieldN t.mcfg 10 5
def Task.srb (t : Task) : Nat := fieldN t.mcfg 15 5
def Task.ef (t : Task) : Nat := fieldN t.mcfg 20 3

/-- Accumulator n = 64 i + j of a tile register. -/
def Task.acc (t : Task) (md n : Nat) : Nat := fieldN ((t.m[md]?).getD 0) (32 * n) 32

/-- Accumulators written; a dword's poison goes with its last byte (R352). -/
def Task.setAccs (t : Task) (md : Nat) (vals : List (Nat × Nat)) : Task :=
  let tile := vals.foldl (fun (m : Tile) p => setFieldN m (32 * p.1) 32 p.2) ((t.m[md]?).getD 0)
  { t with m := t.m.setIfInBounds md tile
           mPoison := if t.mPoison.isEmpty then []
                      else vals.foldl (fun m p => unpoison m md (4 * p.1) (4 * p.1 + 4)) t.mPoison }

/-- The accumulators of the active window, row by row (R269). -/
def Task.window (t : Task) : List Nat := (List.range t.rows).flatMap (fun i => (List.range t.cols).map (fun j => 64 * i + j))

/-- A poisoned accumulator among those that a word reads raises 0x0E, named by the element that reads it; poison of the tile that it
passes by is logged (R352). Tile registers have the numbers 96 to 103 in the error log (log 22). -/
def State.needTile (s : State) (md : Nat) (rs : List (Nat × Nat)) (k : State → Act) : Act :=
  if s.task.mPoison.isEmpty then k s
  else
    let holds (d : Nat) : Bool := s.task.mPoison.any (fun m => m.1 == md && m.2.1 == d)
    match argLeast (fun r => r.1) (rs.filter (fun r => holds (r.2 / 2))) with
    | none => k (s.noteWords ((s.task.mPoison.filter (fun m => m.1 == md)).map (fun m => (96 + md, m.2.1))))
    | some r => .trap s { cause := 0x0E, elem := some r.1, reg := some (96 + md, 8 * (r.2 / 2)) }

/-- An array instruction: 0x08 outside an ARRAY task, or with the array undeclared (R272, R116, R23). -/
def State.arrayWord (s : State) (k : Act) : Act := if s.task.id.kind ≠ 2 then .trap s (cause 0x08) else s.needArray k

/-! ## Configuration words (R269 to R273) -/

/-- mshape, mcfg written, also where a saved array word writes them (R347). -/
def Task.setMshape (t : Task) (v : Word) : Task := { t with mshape := v }.putAside (fun e => { e with mshape := v })
def Task.setMcfg (t : Task) (v : Word) : Task := { t with mcfg := v }.putAside (fun e => { e with mcfg := v })

/-- MSETSHAPE. -/
def execMsetshape (xs : BitVec 5) (s : State) : Host.Outcome State Fault Refusal :=
  s.issue .b true (fun s => s.arrayWord (s.needX [xs] [] (fun s =>
    if fieldN (s.x xs) 12 52 ≠ 0 then .trap s illegal else .go (s.onTask (fun t => t.setMshape (s.x xs))))))

/-- A value that mcfg may hold (R270, R273). -/
def mcfgOk (v : Word) : Bool :=
  fieldN v 23 41 == 0 && fieldN v 0 2 != 3 && fieldN v 3 2 != 3 && fieldN v 6 3 ≤ 4 && fieldN v 20 3 != 7

/-- MSETCFG. -/
def execMsetcfg (xs : BitVec 5) (s : State) : Host.Outcome State Fault Refusal :=
  s.issue .b true (fun s => s.arrayWord (s.needX [xs] [] (fun s =>
    if !mcfgOk (s.x xs) then .trap s illegal else .go (s.onTask (fun t => t.setMcfg (s.x xs))))))

/-- Block scalar r written in the block that a saved array word has put aside (R347). -/
def Task.putScalar (t : Task) (r : BitVec 5) (v : Word) : Task :=
  t.putAside (fun e => { e with block := e.block.map (fun b =>
    if r = 0 then b else { b with xs := b.xs.set r.toNat v, poison := b.poison &&& ~~~(1#32 <<< r.toNat) }) })

/-- MGETSTAT. -/
def execMgetstat (xd : BitVec 5) (s : State) : Host.Outcome State Fault Refusal :=
  s.issue .b true (fun s => s.needX [] [xd] (fun s => .go ((s.setX xd s.task.astat).onTask (fun t => t.putScalar xd s.task.astat))))

/-- MCLRSTAT. -/
def execMclrstat (s : State) : Host.Outcome State Fault Refusal :=
  s.issue .b true (fun s => .go (s.onTask (fun t => { t with astat := 0 })))

/-! ## Operands (R274 to R276) -/

/-- How an element is read (R275): integers of SEW bits, with the power of two that each stands for; a float; or the fields of
a plan, integers or floats. -/
inductive Values where
  | int (bits : Nat) (unit_ : Int)
  | float (f : Fmt)
  | fields (p : Plan)
  | floatFields (p : Plan) (f : Fmt)
  | doubled (p : Plan)
  | bytes (p : Plan)

/-- The plan that mcfg names. -/
def Task.arrayPlan (t : Task) : Plan := t.plan (BitVec.ofNat 2 (t.pl - 1))

/-- The format of an ef code (R270). -/
def efFmt (ef : Nat) : Option Fmt :=
  match ef with
  | 0 => some binary32
  | 1 => some binary16
  | 2 => some bfloat16
  | 3 => some e5m2
  | 4 => some e4m3
  | _ => none

/-- The combination of R275 that num, pl, ef and SEW select, if there is one. -/
def Task.values (t : Task) : Option Values :=
  let p := t.arrayPlan
  match t.num, t.pl with
  | false, 0 => if t.sew = 8 ∨ t.sew = 16 then some (.int t.sew 0) else none
  | false, _ => if t.sew = 64 ∧ !p.fp then some (.fields p) else none
  | true, 0 =>
    if t.ef = 6 then (if t.sew = 8 then some (.int 8 (-6)) else none)
    else
      match efFmt t.ef with
      | some f => if f.bits = t.sew then some (.float f) else none
      | none => none
  | true, _ =>
    if t.sew ≠ 64 ∨ !p.fp then none
    else if t.ef = 5 then (if p.w = 4 ∧ p.kind ≠ 2 then some (.doubled p) else none)
    else if t.ef = 6 then (if p.w = 8 ∧ p.kind ≠ 2 then some (.bytes p) else none)
    else if t.ef = 0 then none
    else
      match efFmt t.ef with
      | some f => if p.kind = 3 ∧ p.w = f.bits then some (.floatFields p f) else none
      | none => none

/-- The plan of a combination. -/
def Values.plan (v : Values) : Option Plan :=
  match v with
  | .int _ _ => none
  | .float _ => none
  | .fields p => some p
  | .floatFields p _ => some p
  | .doubled p => some p
  | .bytes p => some p

/-- The checks of R276 for a metric: 0 PROD, 1 L1, 2 L2. -/
def Values.planOk (v : Values) (metric : Nat) : Bool :=
  match v.plan with
  | none => true
  | some p => (p.kind == 1 || p.kind == 3) && p.shapeOk 56 112 && (metric != 2 || p.kind == 3)

/-- The field count of a combination. -/
def Values.k (v : Values) : Nat :=
  match v.plan with
  | none => 1
  | some p => p.k

/-- The integer that field j of a word holds on an integer path; A's sign bit or B's says whether a plan field is signed. -/
def Values.intField (v : Values) (x j : Nat) (sg : Bool) : Int :=
  match v with
  | .int bits _ => sextN x bits
  | .fields p => p.fv x j sg
  | .doubled p =>
    let c := p.raw x j
    let mag : Nat :=
      match c % 8 with
      | 5 => 6
      | 6 => 8
      | 7 => 12
      | m => m
    if c < 8 then Int.ofNat mag else Int.negOfNat mag
  | .bytes p => sextN (p.raw x j) 8
  | _ => 0

/-- The power of two of one factor of an integer path (R275). -/
def Values.unit (v : Values) : Int :=
  match v with
  | .int _ u => u
  | .doubled _ => -1
  | .bytes _ => -6
  | _ => 0

/-- The code of field j of a word on a floating path, with its format. -/
def Values.floatField (v : Values) (x j : Nat) : Option (Fmt × Nat) :=
  match v with
  | .float f => some (f, x)
  | .floatFields p f => some (f, p.raw x j)
  | _ => none

/-- The significand of a code, hidden bit included (R276). -/
def Fmt.significand (f : Fmt) (x : Nat) : Nat :=
  (if x / 2 ^ f.t % 2 ^ f.e = 0 then 0 else 2 ^ f.t) + x % 2 ^ f.t

/-- The magnitude of field j that the guard test takes (R276). -/
def Values.magnitude (v : Values) (x j : Nat) (sg : Bool) : Nat :=
  match v.floatField x j with
  | some (f, c) => f.significand c
  | none => (v.intField x j sg).natAbs

/-- Whether a combination's path is an integer one. -/
def Values.isInt (v : Values) : Bool :=
  match v with
  | .float _ => false
  | .floatFields _ _ => false
  | _ => true

/-- The bound of the guard test of a pair, if the metric runs one (R276). -/
def Values.bound (v : Values) (metric : Nat) (a b : Nat) : Option (Nat × Nat) :=
  match v.plan with
  | none => none
  | some p =>
    let largest (f : Nat → Nat) : Nat := (List.range p.k).foldl (fun m j => max m (f j)) 0
    if metric = 0 then
      some (p.k * largest (fun j => v.magnitude a j p.sa) * largest (fun j => v.magnitude b j p.sb), 2 ^ (p.s - 1))
    else if metric = 2 ∧ v.isInt then
      let md := largest (fun j => (v.intField a j p.sa - v.intField b j p.sb).natAbs)
      some (p.k * md * md, 2 ^ (p.s - 1))
    else none

/-! ## Terms (R277) -/

/-- |u|. -/
def Num.abs (u : Num) : Num :=
  match u with
  | .nan => .nan
  | .inf _ => .inf false
  | .fin _ s e r => .fin false s e r

/-- The term of one field pair under a metric, exact. -/
def Values.fieldTerm (v : Values) (metric : Nat) (a b j : Nat) (sa sb : Bool) : Num :=
  match v.floatField a j, v.floatField b j with
  | some (f, x), some (_, y) =>
    let u := f.decode x
    let w := f.decode y
    if metric = 0 then u.mul w
    else
      let d := u.add 0 w.neg
      if metric = 1 then d.abs else d.mul d
  | _, _ =>
    let x := v.intField a j sa
    let y := v.intField b j sb
    if metric = 0 then (Num.ofInt (x * y)).scale (2 * v.unit)
    else if metric = 1 then (Num.ofInt ((x - y).natAbs)).scale v.unit
    else (Num.ofInt ((x - y) * (x - y))).scale (2 * v.unit)

/-- The sum of the integer products of every field: the term of a dot plan. -/
def Values.dotTerm (v : Values) (a b : Nat) (p : Plan) : Num :=
  (Num.ofInt ((List.range p.k).foldl (fun acc j => acc + v.intField a j p.sa * v.intField b j p.sb) 0)).scale (2 * v.unit)

/-- The terms of a pair, in field order. -/
def Values.terms (v : Values) (metric : Nat) (a b : Nat) : List Num :=
  match v.plan with
  | none => [v.fieldTerm metric a b 0 true true]
  | some p =>
    if metric = 0 ∧ p.kind = 1 then [v.dotTerm a b p]
    else (List.range p.k).map (fun j => v.fieldTerm metric a b j p.sa p.sb)

/-! ## Sums (R278, R279) -/

/-- An accumulator and the sticky flags that its additions have set. -/
structure Cell where
  acc : Nat
  flags : BitVec 64

/-- The integer that an exact value of exponent 0 is. -/
def Num.toInt (u : Num) : Int :=
  match u with
  | .fin neg s _ _ => if neg then -(s : Int) else s
  | _ => 0

/-- add(acc, u) (R278). -/
def Cell.add (c : Cell) (num : Bool) (u : Num) : Cell :=
  if num then
    let a := binary32.round 0 0 ((binary32.decode c.acc).add 0 u)
    { acc := a, flags := if binary32.isNan a then c.flags ||| 8 else c.flags }
  else
    let y := sextN c.acc 32 + u.toInt
    { acc := wrapN y 32, flags := if y < -2147483648 ∨ 2147483648 ≤ y then c.flags ||| 1 else c.flags }

/-- A term block-scaled by two E8M0 bytes (R279). -/
def Cell.addScaled (c : Cell) (u : Num) (a b : Nat) : Cell :=
  if a = 0xFF ∨ b = 0xFF then { (c.add true .nan) with flags := (c.add true .nan).flags ||| 16 }
  else c.add true (u.scale ((a : Int) - 127 + (b - 127)))

/-- What a compute word works on: shape, operands, mask, metric. -/
structure Compute where
  m : Nat
  n : Nat
  k : Nat
  metric : Nat
  vals : Values
  num : Bool
  /-- The scale bytes of A and B by block, when the terms are block-scaled. -/
  scales : Option ((Nat → Nat → Nat) × (Nat → Nat → Nat))
  a : Nat → Nat → Nat
  b : Nat → Nat → Nat
  act : Nat → Nat → Bool

/-- The first pair that fails the guard test, in the order of R276: its element and bound. -/
def Compute.guardFailure (c : Compute) : Option (Nat × Nat) :=
  (List.range c.k).findSome? (fun t => (List.range c.m).findSome? (fun i =>
    if c.act t i then
      (List.range c.n).findSome? (fun j =>
        match c.vals.bound c.metric (c.a t i) (c.b t j) with
        | some (bound, limit) => if limit ≤ bound then some (t * c.m + i, bound) else none
        | none => none)
    else none))

/-- The new accumulator of cell (i, j) (R281). -/
def Compute.cell (c : Compute) (acc i j : Nat) : Cell :=
  (List.range c.k).foldl (fun cell t =>
    if c.act t i then
      let us := (c.vals.terms c.metric (c.a t i) (c.b t j)).mapIdx (fun f u => (f, u))
      us.foldl (fun cell p =>
        match c.scales with
        | none => cell.add c.num p.2
        | some (sa, sb) =>
          let blk := (t * c.vals.k + p.1) / 32
          cell.addScaled p.2 (sa blk i) (sb blk j)) cell
    else cell) { acc := acc, flags := 0 }

/-- Whether an operand that the word reads holds ternary code 0b10 (R276). -/
def Compute.ternary (c : Compute) : Bool :=
  match c.vals with
  | .fields p =>
    (List.range c.k).any (fun t =>
      (List.range c.m).any (fun i => c.act t i && p.ternary (c.a t i) p.sa)
        || (List.range c.n).any (fun j => p.ternary (c.b t j) p.sb))
  | _ => false

/-- The rows with an active element of A, whose accumulators a compute word reads and writes (R281). -/
def Compute.rows (c : Compute) : List Nat := (List.range c.m).filter (fun i => (List.range c.k).any (fun t => c.act t i))

/-- The tile after a compute word, with its sticky flags. -/
def Task.compute (t : Task) (md : Nat) (c : Compute) : Task :=
  let cells := c.rows.flatMap (fun i => (List.range c.n).map (fun j =>
    (64 * i + j, c.cell (t.acc md (64 * i + j)) i j)))
  let flags := cells.foldl (fun f p => f ||| p.2.flags) (if c.ternary then 4 else 0)
  { t.setAccs md (cells.map (fun p => (p.1, p.2.acc))) with astat := t.astat ||| flags }

/-! ## Compute words (R281, R283) -/

/-- The shape of R274, K and how the elements are read, if it passes the checks of R275, R276 and R279. -/
def Task.shape (t : Task) (metric : Nat) (distance : Bool) : Option (Nat × Values) :=
  if t.vl = 0 ∨ t.vl % t.rows ≠ 0 ∨ (distance && (metric == 0 || t.bs)) then none
  else
    match t.values with
    | none => none
    | some v =>
      let kk := t.vl / t.rows
      let nb := ceilDiv (kk * v.k) 32
      let dot := match v.plan with
        | some p => p.kind == 1
        | none => false
      if !v.planOk metric || (t.bs && (!t.num || (dot && 32 % v.k != 0) || nb * max t.rows t.cols > t.vlenb)) then none
      else some (kk, v)

/-- A word of a legal shape; any other raises 0x08 (R274). -/
def State.withShape (s : State) (metric : Nat) (distance : Bool) (k : Nat → Values → Act) : Act :=
  match s.task.shape metric distance with
  | none => .trap s (cause 0x08)
  | some (kk, v) => k kk v

/-- The scale registers that a block-scaled word reads, as single registers (R279). -/
def Task.scaleGroups (t : Task) : List (Nat × Nat) := if t.bs then [(t.sra, 1), (t.srb, 1)] else []

/-- Their readings, whole. -/
def Task.scaleReadings (t : Task) : List Reading :=
  if t.bs then [reading t.sra 8 (List.range t.vlenb), reading t.srb 8 (List.range t.vlenb)] else []

/-- The scale bytes of block b for row i and column j. -/
def Task.scaleBytes (t : Task) : Option ((Nat → Nat → Nat) × (Nat → Nat → Nat)) :=
  if t.bs then some (fun b i => t.elem 8 t.sra (b * t.rows + i), fun b j => t.elem 8 t.srb (b * t.cols + j)) else none

/-- The accumulators of the window that a word reads, named by row. -/
def Task.windowReads (t : Task) : List (Nat × Nat) := t.window.map (fun n => (n / 64, n))

/-- A compute word whose operands have been read: the guard test, then the scale registers and the accumulators that it reads, then the sums; a
word without an active element reads neither (R279, R281, R352). -/
def State.runCompute (s : State) (md : BitVec 3) (c : Compute) : Act :=
  match c.guardFailure with
  | some (e, bound) => .trap s { cause := 0x07, elem := some e, info := BitVec.ofNat 32 (min bound 0xFFFFFFFF) }
  | none =>
    s.needClean (if c.rows.isEmpty then [] else s.task.scaleReadings) (
      (if c.rows.isEmpty then s.noteLatent s.task.scaleGroups else s).needTile md.toNat
        (s.task.windowReads.filter (fun r => c.rows.contains r.1)) (fun s => .go (s.onTask (fun t => t.compute md.toNat c))))

/-- MOPA and MOPD. The shape is checked before an operand is read, the scale registers are read after the guard test, and only rows with an
active element read their accumulators (R274, R281, R352). -/
def State.outerWord (s : State) (md : BitVec 3) (vs2 vs1 : BitVec 5) (vm : BitVec 1) (distance : Bool) : Act :=
  s.arrayWord (
    let lm := s.task.lmul
    let w := s.task.sew
    let m := s.task.rows
    let n := s.task.cols
    let metric := if distance then s.task.metric else 0
    let shape := s.task.shape metric distance
    let fits := match shape with
      | some (k, _) => k * n ≤ s.task.vlmax
      | none => false
    let act (s : State) (e : Nat) : Bool := vm == 1 || s.task.maskBit 0 e
    let elems : List Nat := List.range s.task.vl
    s.vectorForm { srcs := (vs1.toNat, lm) :: (vs2.toNat, lm) :: s.task.scaleGroups, dsts := [] } 1
      (fun s => s.needClean (maskReading vm elems ++ [reading vs1.toNat w (elems.filter (act s)), reading vs2.toNat w (List.range (s.task.vl / m * n))])
        ((s.noteLatent [(vs1.toNat, lm), (vs2.toNat, lm)]).withShape metric distance (fun k v =>
          (s.noteLatent [(vs1.toNat, lm), (vs2.toNat, lm)]).runCompute md
            { m := m, n := n, k := k, metric := metric, vals := v, num := s.task.num, scales := s.task.scaleBytes,
              a := fun t i => s.task.elem w vs1.toNat (t * m + i), b := fun t j => s.task.elem w vs2.toNat (t * n + j),
              act := fun t i => act s (t * m + i) })))
      fits)

/-- MOPA (R281). -/
def execMopa (md : BitVec 3) (vs2 vs1 : BitVec 5) (_c2 _c1 vm : BitVec 1) (s : State) : Host.Outcome State Fault Refusal :=
  s.issue .b true (fun s => s.outerWord md vs2 vs1 vm false)

/-- MOPD (R281). -/
def execMopd (md : BitVec 3) (vs2 vs1 : BitVec 5) (_c2 _c1 vm : BitVec 1) (s : State) : Host.Outcome State Fault Refusal :=
  s.issue .b true (fun s => s.outerWord md vs2 vs1 vm true)

/-- MZERO (R282). -/
def execMzero (md : BitVec 3) (s : State) : Host.Outcome State Fault Refusal :=
  s.issue .b true (fun s => s.arrayWord (
    .go (s.onTask (fun t => { t with m := t.m.setIfInBounds md.toNat 0
                                     mPoison := t.mPoison.filter (fun p => p.1 != md.toNat) }))))

/-- Every word of n bytes of some addresses located, in their order. -/
def State.locateAll (s : State) (acc : Access) (n : Nat) : List Word → Except Trap (List Place)
  | [] => .ok []
  | a :: as =>
    match s.locate a n acc with
    | .error t => .error t
    | .ok p =>
      match s.locateAll acc n as with
      | .error t => .error t
      | .ok ps => .ok (p :: ps)

/-- The poison that a read of the words at some places meets, once all of them have been located (R243, R353). -/
def State.poisonIn (s : State) (n : Nat) (ps : List Place) : Option Trap :=
  ps.findSome? (fun p => match s.unpoisoned p n with
    | .error t => some t
    | .ok _ => none)

/-- What follows a read of the words at some places, unless it meets poison. -/
def State.needSound (s : State) (n : Nat) (ps : List Place) (k : Act) : Act :=
  match s.poisonIn n ps with
  | some t => .trap s t
  | none => k

/-- The values at some places, and the state after their reads. -/
def State.fetchAll (s : State) (n : Nat) (ps : List Place) : List Nat × State :=
  (ps.map (fun p => s.viewNat p n), ps.foldl (fun s p => s.afterRead p n 0) s)

/-- MFETCH (R283). -/
def execMfetch (md : BitVec 3) (xb xa : BitVec 5) (s : State) : Host.Outcome State Fault Refusal :=
  s.issue .b true (fun s => s.arrayWord (s.needX [xa, xb] [] (fun s =>
    let metric := s.task.metric
    s.vectorForm { srcs := s.task.scaleGroups, dsts := [] } 1 (fun s =>
      s.withShape metric (metric != 0) (fun k v =>
        let m := s.task.rows
        let n := s.task.cols
        let w := s.task.sew / 8
        let base (x : BitVec 5) (e : Nat) : Word := s.x x + BitVec.ofNat 64 (e * w)
        match [s.x xa, s.x xb].find? (fun a => a.toNat % w != 0) with
        | some a => .trap s { cause := 0x03, addr := some a }
        | none =>
          orTrap s (s.locateAll .read w ((List.range (k * m)).map (base xa))) (fun pa =>
            orTrap s (s.locateAll .read w ((List.range (k * n)).map (base xb))) (fun pb =>
              s.needSound w (pa ++ pb) (
                let fa := s.fetchAll w pa
                let fb := fa.2.fetchAll w pb
                fb.2.runCompute md
                  { m := m, n := n, k := k, metric := metric, vals := v, num := s.task.num, scales := s.task.scaleBytes,
                    a := fun t i => (fa.1[t * m + i]?).getD 0, b := fun t j => (fb.1[t * n + j]?).getD 0,
                    act := fun _ _ => true })))))
      (s.task.shape metric (metric != 0)).isSome)))

/-! ## Drains (R284 to R286) -/

/-- The accumulator that element i of a drain reads. -/
def Task.drained (t : Task) (row0 i : Nat) : Nat := 64 * (row0 + i / t.cols) + i % t.cols

/-- The value of an accumulator: an integer, or a binary32 number when num is 1. -/
def accValue (num : Bool) (a : Nat) : Num := if num then binary32.decode a else .ofInt (sextN a 32)

/-- The scaled value of element i of a drain. -/
def State.scaled (s : State) (md : BitVec 3) (c : Word) (i : Nat) : Num :=
  (accValue s.task.num (s.task.acc md.toNat (s.task.drained (fieldN c 0 6) i))).mul (binary32.decode (fieldN c 32 32))

/-- One element of a drain (R284). -/
def State.drainElem (s : State) (md : BitVec 3) (c : Word) (i : Nat) : Nat :=
  let w := s.task.sew
  match s.task.dsc with
  | 0 => s.task.acc md.toNat (s.task.drained (fieldN c 0 6) i)
  | 1 =>
    match fmtOf w s.task.fk with
    | some f => s.rnd f i (s.scaled md c i)
    | none => 0
  | _ =>
    match s.scaled md c i with
    | .nan => 0
    | .inf neg => if neg then 2 ^ (w - 1) else 2 ^ (w - 1) - 1
    | .fin neg sig exp _ => wrapN (clampS (roundInt s.task.rm (s.roundDraw i) neg sig exp) w) w

/-- The checks of a drain that read neither the mask nor the tile, for its word c (R284). -/
def Task.drainTrap (t : Task) (c : Word) : Option Trap :=
  if fieldN c 6 26 ≠ 0 ∨ t.rows ≤ fieldN c 0 6 ∨ (t.rows - fieldN c 0 6) * t.cols < t.vl then some (cause 0x08)
  else if t.dsc = 0 ∧ t.sew ≠ 32 then some (cause 0x08)
  else if t.dsc = 1 ∧ (fmtOf t.sew t.fk).isNone then some illegal
  else none

/-- The checks of a drain and its reads, then what follows with the state that it leaves (R284); vstart is ignored (R274). -/
def State.drainWord (s : State) (vd : BitVec 5) (md : BitVec 3) (xs : BitVec 5) (vm : BitVec 1) (k : State → Act) : Act :=
  s.vectorForm { srcs := [], dsts := [(vd.toNat, s.task.lmul)] } vm (fun s =>
    let c := s.x xs
    match s.task.drainTrap c with
    | some t => .trap s t
    | none =>
      s.needClean (maskReading vm (List.range (min s.task.vl s.task.vlmax)))
        (s.needTile md.toNat ((s.activesFrom0 vm).map (fun i => (i, s.task.drained (fieldN c 0 6) i))) (fun s =>
          let run (s : State) : Act :=
            let vals := (s.activesFrom0 vm).map (fun i => (i, s.drainElem md c i))
            k (s.onTask (fun t => t.setElems t.sew vd.toNat vals))
          if s.task.dsc = 0 then run s else s.rounding run)))

/-- MDRAIN (R284). -/
def execMdrain (vd : BitVec 5) (md : BitVec 3) (xs : BitVec 5) (vm : BitVec 1) (s : State) : Host.Outcome State Fault Refusal :=
  s.issue .b true (fun s => s.arrayWord (s.needX [xs] [] (fun s => s.drainWord vd md xs vm (fun s => .go s))))

/-- The largest magnitude that a drain raises its absmax word to, if some active value is a number (R286). -/
def State.absmax (s : State) (md : BitVec 3) (c : Word) (vm : BitVec 1) : Option Nat :=
  let ms := ((s.activesFrom0 vm).map (fun i => binary32.round 0 0 (s.scaled md c i).abs)).filter (fun x => !binary32.isNan x)
  match ms with
  | [] => none
  | x :: xs => some (xs.foldl binary32.maxNum x)

/-- MDRAINQ (R286). The absmax update acts on memory directly (R321); it is made, and so can meet poison (R353), only when some active value
is a number. -/
def execMdrainq (vd : BitVec 5) (md : BitVec 3) (xs : BitVec 5) (vm : BitVec 1) (s : State) : Host.Outcome State Fault Refusal :=
  s.issue .b true (fun s => s.arrayWord (
    if xs = 0 ∨ xs = 31 then .trap s illegal
    else
      s.needX [xs, xs + 1] [] (fun s =>
        let e := s.x (xs + 1)
        if e.toNat % 4 ≠ 0 then .trap s { cause := 0x03, addr := some e }
        else
          orTrap s (s.locate e 4 .atomic) (fun p =>
            let c := s.x xs
            s.drainWord vd md xs vm (fun s1 =>
              match s.absmax md c vm with
              | none => .go s1
              | some mx =>
                orTrap s (s.cleanDirect p 4) (fun p =>
                  .go (s1.writeDirect p (bytesOf (binary32.maxNum (s1.readDirect p 4) mx) 4))))))))

/-! ## The trump chain (R287) -/

/-- Whether x is better than y, and whether they count as the same. -/
def trumpBetter (num : Bool) (metric x y : Nat) : Bool :=
  let lt (a b : Nat) : Bool := if num then binary32.lt a b else sextN a 32 < sextN b 32
  if num && binary32.isNan x then false
  else if num && binary32.isNan y then true
  else if metric = 0 then lt y x else lt x y
def trumpSame (num : Bool) (x y : Nat) : Bool :=
  if num then (if binary32.isNan x || binary32.isNan y then binary32.isNan x && binary32.isNan y else binary32.eq x y) else x == y

/-- The best column of a row and its accumulator. -/
def Task.trump (t : Task) (md row : Nat) (cols : List Nat) : Option (Nat × Nat) :=
  cols.foldl (fun best j =>
    let x := t.acc md (64 * row + j)
    match best with
    | none => some (j, x)
    | some (_, bx) =>
      if trumpBetter t.num t.metric x bx || (trumpSame t.num x bx && t.tieHigh) then some (j, x) else best) none

/-- What MBEST writes beside no candidate. -/
def Task.trumpEmpty (t : Task) : Nat := if t.num then 0x7FC00000 else if t.metric = 0 then 0x80000000 else 0x7FFFFFFF

/-- MBEST (R287). -/
def execMbest (vd : BitVec 5) (md : BitVec 3) (vm : BitVec 1) (s : State) : Host.Outcome State Fault Refusal :=
  s.issue .b true (fun s => s.arrayWord (
    if s.task.sew ≠ 32 ∨ s.task.lmul ≠ 1 ∨ vd.toNat % 2 = 1 then .trap s illegal
    else if !s.task.groupsOk { srcs := [], dsts := [(vd.toNat, 1), (vd.toNat + 1, 1)] } vm then .trap s illegal
    else
      s.withStreams [] [(vd.toNat, 2)] (fun s =>
        if s.task.rows < s.task.vl then .trap s (cause 0x08)
        else
          s.needClean (maskReading vm (List.range s.task.cols)) (s.needTile md.toNat s.task.windowReads (fun s =>
            let cols := (List.range s.task.cols).filter (fun j => vm == 1 || s.task.maskBit 0 j)
            let best (i : Nat) : Option (Nat × Nat) := s.task.trump md.toNat i cols
            let col := (List.range s.task.vl).map (fun i => (i, match best i with
              | some b => b.1
              | none => 0xFFFFFFFF))
            let val := (List.range s.task.vl).map (fun i => (i, match best i with
              | some b => b.2
              | none => s.task.trumpEmpty))
            .go (s.onTask (fun t => (t.setElems 32 vd.toNat col).setElems 32 (vd.toNat + 1) val)))))))

/-! ## Tile loads and stores (R288) -/

/-- The address of accumulator (i, j) of the window in memory. -/
def tileAddr (b st : Word) (n : Nat) : Word := b + BitVec.ofNat 64 (n / 64) * st + BitVec.ofNat 64 (4 * (n % 64))

/-- The checks of MLD and MST: alignment, then every word of every row. -/
def State.tileWord (s : State) (xa xs : BitVec 5) (acc : Access) (k : List (Nat × Place) → Act) : Act :=
  let b := s.x xa
  let st := s.x xs
  if b.toNat % 4 ≠ 0 ∨ st.toNat % 4 ≠ 0 then .trap s { cause := 0x03, addr := some b }
  else
    orTrap s (s.locateAll acc 4 (s.task.window.map (tileAddr b st))) (fun ps => k (s.task.window.zip ps))

/-- MLD (R288). -/
def execMld (md : BitVec 3) (xa xs : BitVec 5) (s : State) : Host.Outcome State Fault Refusal :=
  s.issue .b true (fun s => s.arrayWord (s.needX [xa, xs] [] (fun s => s.tileWord xa xs .read (fun ps =>
    s.needSound 4 (ps.map (·.2)) (
      let vals := ps.map (fun p => (p.1, s.viewNat p.2 4))
      .go ((s.afterReads 4 0 ps).onTask (fun t => t.setAccs md.toNat vals)))))))

/-- MST (R288): words that overlap leave the value of the highest accumulator in row-major order. -/
def execMst (md : BitVec 3) (xa xs : BitVec 5) (s : State) : Host.Outcome State Fault Refusal :=
  s.issue .b true (fun s => s.arrayWord (s.needX [xa, xs] [] (fun s => s.tileWord xa xs .write (fun ps =>
    s.needTile md.toNat s.task.windowReads (fun s =>
      orTrap s (s.commitStore 4 0 ps (fun n => s.task.acc md.toNat n)) (fun s1 =>
        .go (s1.cleanStored (writtenKeys 4 ps))))))))

/-! ## Centroid update (R289) -/

/-- The active vectors with a centroid, lowest first. -/
def State.assigned (s : State) (vs1 : BitVec 5) (vm : BitVec 1) : List (Nat × Int) :=
  ((List.range s.task.rows).filter (fun v => vm == 1 || s.task.maskBit 0 v)).map (fun v =>
    (v, sextN (s.task.elem 32 vs1.toNat v) 32))

/-- The readings of v0 and of the indexes, which come before the probe; and of the vectors that are added, which come after it (R289,
R352). -/
def State.indexReadings (s : State) (vs1 : BitVec 5) (vm : BitVec 1) : List Reading :=
  maskReading vm (List.range s.task.rows) ++ [reading vs1.toNat 32 ((s.assigned vs1 vm).map (·.1))]
def State.addedReadings (s : State) (vs2 vs1 : BitVec 5) (vm : BitVec 1) : List Reading :=
  let added := ((s.assigned vs1 vm).filter (fun c => 0 ≤ c.2)).map (·.1)
  [reading vs2.toNat s.task.sew ((List.range s.task.vl).filter (fun e => added.contains (e % s.task.rows)))]

/-- MCUPD (R289): the base and the shape checked, the indexes read and checked, the accumulators probed, the vectors read, the sums
made. -/
def execMcupd (xb vs2 vs1 : BitVec 5) (_c2 _c1 vm : BitVec 1) (s : State) : Host.Outcome State Fault Refusal :=
  s.issue .b true (fun s => s.arrayWord (
    let lm := s.task.lmul
    let w := s.task.sew
    s.vectorForm { srcs := [(vs2.toNat, lm), (vs1.toNat, 1)], dsts := [] } 1
      (fun s => s.needX [xb] [] (fun s =>
        let base := s.x xb
        let m := s.task.rows
        let cs := s.assigned vs1 vm
        if s.task.num && (fmtOf w s.task.fk).isNone then .trap s illegal
        else if base.toNat % 64 ≠ 0 then .trap s { cause := 0x03, addr := some base }
        else if s.task.vl = 0 ∨ s.task.vl % m ≠ 0 then .trap s (cause 0x08)
        else s.needClean (s.indexReadings vs1 vm) (
         if cs.any (fun c => 63 < c.2) then .trap s (cause 0x08)
         else
          let dim := s.task.vl / m
          let value (v d : Nat) : Num :=
            let x := s.task.elem w vs2.toNat (d * m + v)
            if s.task.num then
              (match fmtOf w s.task.fk with
               | some f => fxTerm (f.decode x)
               | none => .nan)
            else .ofInt (sextN x w)
          let adds : List (Word × Num) := (cs.filter (fun c => 0 ≤ c.2)).flatMap (fun c =>
            ((List.range (dim + 1)).map (fun d =>
              (fxAddr base (c.2.toNat * (dim + 1) + d), if d < dim then value c.1 d else .ofInt 1))))
          orTrap s (s.probeFx (adds.map (·.1)) true) (fun ps =>
            s.needClean (s.addedReadings vs2 vs1 vm)
              (.go ((ps.zip (adds.map (·.2))).foldl (fun s p => s.fxAddAt p.1 p.2) (s.noteLatent [(vs2.toNat, lm), (vs1.toNat, 1)])))))))))

end Sys2Proof.Machine
end

