-- ==== Sys2Proof/Machine/BlockControl.lean ====
section
/-! DEFINITION. In-block control (R155): loop counters, vl, block scalars, posted replies. -/

namespace Sys2Proof.Machine

/-- A body offset that lies in the current block (R122). -/
def State.inBody (s : State) (off : Int) : Bool :=
  match s.task.block with
  | some b => 0 ≤ off && off < b.len
  | none => false

/-- The vector unit moved to a body offset by a taken branch. -/
def State.branchTo (s : State) (off : Int) : State := s.onTask (fun t => { t.moveVector off.toNat with progressAt := s.micros })

/-- A loop counter of the current block. -/
def Task.counter (t : Task) (lc : Nat) : Word :=
  match t.block with
  | some b => (b.lc[lc]?).getD 0
  | none => 0

/-- A loop counter written. -/
def Task.setCounter (t : Task) (lc : Nat) (v : Word) : Task :=
  { t with block := t.block.map (fun b => { b with lc := b.lc.setIfInBounds lc v }) }

/-- VSTRIP: vl := min(lc, vlmax) (R155). -/
def execVstrip (lc : BitVec 2) (s : State) : Host.Outcome State Fault Refusal :=
  s.issue .b true (fun s => s.needCounter lc.toNat (
    .go (s.onTask (fun t => { t with vl := min (t.counter lc.toNat).toNat t.vlmax, vstart := 0 }))))

/-- VLOOP: lc := x[xs] (R155). -/
def execVloop (lc : BitVec 2) (xs : BitVec 5) (s : State) : Host.Outcome State Fault Refusal :=
  s.issue .b true (fun s => s.needCounter lc.toNat (s.needX [xs] [] (fun s =>
    .go (s.onTask (fun t => t.setCounter lc.toNat (s.x xs))))))

/-- The counter after a VLBNZ (R155). -/
def stepCounter (lc : Word) (vl : Nat) : Word := if vl ≤ lc.toNat then lc - BitVec.ofNat 64 vl else 0

/-- VLBNZ: subtracts vl and goes round while the counter is not 0 (R155). A target outside the body raises 0x08 whether or
not the branch is taken (R122). -/
def execVlbnz (lc : BitVec 2) (dist : BitVec 10) (s : State) : Host.Outcome State Fault Refusal :=
  s.issue .b (1 ≤ dist.toNat && dist.toNat ≤ 253) (fun s => s.needCounter lc.toNat (
    let target : Int := (s.offset : Int) - dist.toNat
    if !s.inBody target then .trap s (cause 0x08)
    else
      let v := stepCounter (s.task.counter lc.toNat) s.task.vl
      let s1 := s.onTask (fun t => t.setCounter lc.toNat v)
      if v = 0 then .go s1 else .jump (s1.branchTo target)))

/-- BADDI: x[xd] := x[xd] + sext(simm10, 10) (R155). -/
def execBaddi (xd : BitVec 5) (simm : BitVec 10) (s : State) : Host.Outcome State Fault Refusal :=
  s.issue .b true (fun s => s.needX [xd] [xd] (fun s => .go (s.setX xd (s.x xd + simm.signExtend 64))))

/-- BADDVL: x[xd] := x[xd] + (vl << sh) (R155). -/
def execBaddvl (xd : BitVec 5) (sh : BitVec 3) (s : State) : Host.Outcome State Fault Refusal :=
  s.issue .b true (fun s => s.needX [xd] [xd] (fun s =>
    .go (s.setX xd (s.x xd + BitVec.ofNat 64 (s.task.vl * 2 ^ sh.toNat)))))

/-- The mask bits of a register that a masked word reads. -/
def bitReading (vs2 : BitVec 5) (is : List Nat) : Reading := reading vs2.toNat 1 is

/-- VCOND: pushes whether some active element's mask bit is 1 (R155). -/
def execVcond (vs2 : BitVec 5) (_c2 vm : BitVec 1) (s : State) : Host.Outcome State Fault Refusal :=
  s.issue .b true (fun s =>
    s.vectorWord { srcs := [(vs2.toNat, 1)], dsts := [] } vm (fun s => [bitReading vs2 (s.actives vm)]) (fun s => s.needRoom (
      let hit := (s.actives vm).any (fun i => s.task.maskBit vs2.toNat i)
      .go (s.pushReply (if hit then 1 else 0)))))

/-- VPOST: pushes x[xs] (R155, R119). -/
def execVpost (xs : BitVec 5) (s : State) : Host.Outcome State Fault Refusal :=
  s.issue .b true (fun s => s.needX [xs] [] (fun s => s.needRoom (.go (s.pushReply (s.x xs)))))

end Sys2Proof.Machine
end

