-- ==== Sys2Proof/Machine/Collective.lean ====
section
/-! DEFINITION. COLL nodes (R388, R389): the command, the reduction orders, the data that the other ranks bring, and the writes of this
rank. -/

namespace Sys2Proof.Machine

/-- The command of a COLL node (R388). -/
structure CollCommand where
  op : Nat
  algo : Nat
  dtype : Nat
  redop : Nat
  nranks : Nat
  rank : Nat
  count : Nat
  src : Word
  dst : Word
  peers : Word
  tok : Word
  root : Nat
  fxw : Nat
  fxb : Word
  deriving DecidableEq, Repr

/-- The 64 bytes of a COLL command read. -/
def CollCommand.of (c : BitVec 512) : CollCommand :=
  { op := fieldN c 0 8, algo := fieldN c 8 8, dtype := fieldN c 16 8, redop := fieldN c 24 8, nranks := fieldN c 32 16,
    rank := fieldN c 48 16, count := fieldN c 64 64, src := c.extractLsb' 128 64, dst := c.extractLsb' 192 64,
    peers := c.extractLsb' 256 64, tok := c.extractLsb' 320 64, root := fieldN c 384 16, fxw := fieldN c 400 48,
    fxb := c.extractLsb' 448 64 }

/-- The ranges of the table, and the rules of R389 on fxw and fxb's alignment. -/
def CollCommand.ok (c : CollCommand) : Bool :=
  1 ≤ c.op && c.op ≤ 4 && c.algo ≤ 1 && c.dtype ≤ 3 && c.redop ≤ 2 && !(c.dtype == 3 && c.redop != 0) && 2 ≤ c.nranks
    && c.nranks ≤ 256 && c.rank < c.nranks && 1 ≤ c.count && c.count ≤ 2 ^ 32
    && (if c.op == 4 || c.dtype == 3 then c.root < c.nranks else true)
    && (if c.dtype == 3 then c.count ≤ c.fxw && c.fxb.toNat % 64 == 0 else c.fxw == 0)

/-- Whether two commands take part in one collective (R389). -/
def CollCommand.agrees (a b : CollCommand) : Bool :=
  a.op == b.op && a.dtype == b.dtype && a.count == b.count && a.nranks == b.nranks

/-- Bytes of an element. -/
def CollCommand.size (c : CollCommand) : Nat := if c.dtype = 2 then 2 else 4

/-- Bytes of the source of each rank: a reduce-scatter takes an element of every rank's share from each. -/
def CollCommand.srcBytes (c : CollCommand) : Nat := c.size * c.count * (if c.op = 2 then c.nranks else 1)

/-- Element i of a rank's source. -/
def CollCommand.element (c : CollCommand) (part : List Byte) (i : Nat) : Nat := leVal ((part.drop (c.size * i)).take c.size)

/-! ## Reduction orders (R389) -/

/-- Two elements reduced. -/
def CollCommand.reduce (c : CollCommand) (a b : Nat) : Nat :=
  let f := if c.dtype = 2 then bfloat16 else binary32
  match c.dtype, c.redop with
  | 0, 0 => (a + b) % 2 ^ 32
  | 0, 1 => if sextN a 32 < sextN b 32 then b else a
  | 0, _ => if sextN b 32 < sextN a 32 then b else a
  | _, 0 => f.round 0 0 (Num.add 0 (f.decode a) (f.decode b))
  | _, 1 => f.maxNum a b
  | _, _ => f.minNum a b

/-- Element i reduced in ascending rank order; through FX exactly into an accumulator, which is returned with it. -/
def CollCommand.reduced (c : CollCommand) (parts : List (List Byte)) (acc i : Nat) : Nat × Nat :=
  if c.dtype = 3 then
    let a := parts.foldl (fun a p => fxAdd a (fxTerm (binary32.decode (c.element p i)))) acc
    (binary32.round 0 0 (fxValue a), a)
  else
    match parts.map (fun p => c.element p i) with
    | [] => (0, acc)
    | x :: xs => (xs.foldl c.reduce x, acc)

/-! ## Data -/

/-- Bytes written at the destination of a collective, a run of one page at a time, to its hidden backing (R254, R266). Every run is homed
where the first is, and not on the host (R259, log 21). -/
def State.engineWrite (s : State) (first : Option Nat) : Nat → Word → List Byte → Nat → State × Nat × CopyEnd
  | 0, _, _, done => (s, done, .complete)
  | k + 1, a, bs, done =>
    match bs with
    | [] => (s, done, .complete)
    | _ =>
      match s.translate s.task.id.ctx (some (s.dieOf s.task)) a 1 .write (hidden := true) with
      | .error t => (s, done, if s.pageComes s.task.engineWho s.task.id.ctx t then .hold a t.info else .fail t.cause a true)
      | .ok p =>
        let m := p.piece bs.length
        match s.translate s.task.id.ctx (some (s.dieOf s.task)) a m .write (hidden := true) with
        | .error t => (s, done, .fail t.cause a true)
        | .ok p =>
          if p.page.home == 0xFFF || p.page.home != first.getD p.page.home then (s, done, .fail 0x06 a true)
          else
            match s.storeAt p (bs.take m) with
            | .error t => (s, done, .fail t.cause a true)
            | .ok s1 => s1.engineWrite (some p.page.home) k (a + BitVec.ofNat 64 m) (bs.drop m) (done + m)

/-- What is found wrong with an accumulator of a dtype 3 command: it is not homed on the root's Brynter, or it cannot be reached. -/
inductive FxFlaw where
  | elsewhere
  | missed (t : Trap)

/-- An accumulator of a dtype 3 command tested (R389): where its page is homed, then the access that this rank makes to it, the root's one
that reads and writes, as for the FX words (R326). -/
def State.fxFlaw (s : State) (c : CollCommand) (home i : Nat) : Option FxFlaw :=
  match s.translatePage s.task.id.ctx (some (s.dieOf s.task)) (fxAddr c.fxb i) .write with
  | .error t => some (.missed t)
  | .ok q =>
    if q.page.home != home then some .elsewhere
    else
      match s.locate (fxAddr c.fxb i) 64 (if c.rank = c.root then .update else .write) with
      | .error t => some (.missed t)
      | .ok p =>
        match (if home = 0 then s.cleanDirect p 64 else .ok p) with
        | .error t => some (.missed t)
        | .ok _ => none

/-- The flaw of the first accumulator that has one. -/
def State.fxFlaws (s : State) (c : CollCommand) (home : Nat) : Option FxFlaw := (List.range c.fxw).findSome? (s.fxFlaw c home)

/-- What the runs to a partner meet (R259, R384, R387, R389), as those of a CPYX that writes there: its index is no peer's, its entry is not
valid or none of its ports is up, a failed port, a window that it does not open to writes, or no way there from the die of the node. -/
def State.partnerCause (s : State) (c : CollCommand) (home rank : Nat) : Option Nat :=
  let pa := Config.partnerAddr s.freeCtr rank
  let n := c.size * c.count
  if home = 0 then none
  else if 0xFFF ≤ home then some 0x06
  else (s.outsideCause home pa n true).orElse (fun _ => s.wayOut (s.dieOf s.task) home pa n)

/-- Whether data moves between this rank and another (R388): in a broadcast between the root and each other rank, else between every two
(log 21). -/
def CollCommand.partner (c : CollCommand) (rank : Nat) : Bool :=
  rank < c.nranks && rank != c.rank && (c.op != 4 || c.rank == c.root || rank == c.root)

/-- What the first partner that cannot be reached makes of a command. Which ranks a ring or a tree joins is not stated: data is taken to move
between every two (DESIGN CHOICE, log 21). -/
def State.partnersCause (s : State) (c : CollCommand) (peers : Nat) : Option Nat :=
  ((List.range c.nranks).filter c.partner).findSome? (fun r => s.partnerCause c (peers / 2 ^ (16 * r) % 2 ^ 16) r)

/-- The accumulators added to by the root rank (R325, R389), and the value of each element. -/
def State.addFx (s : State) (c : CollCommand) (parts : List (List Byte)) (first : Nat) : Nat → State × List Nat
  | 0 => (s, [])
  | n + 1 =>
    let r := s.addFx c parts first n
    match r.1.locate (fxAddr c.fxb n) 64 .atomic with
    | .error _ => r
    | .ok p =>
      let v := c.reduced parts (r.1.readDirect p 64) (first + n)
      (r.1.writeDirect p (bytesOf v.2 64), r.2 ++ [v.1])

/-- Element i of what a rank other than the root reads out of the accumulators (R389): those of an all-reduce as they stand once the root
has added to them, or, where they lie at a peer, as the root's additions leave them; in a reduce-scatter what they held before a rank's
share is not stated, a free value (log 5). -/
def State.readFx (s : State) (c : CollCommand) (parts : List (List Byte)) (home first i : Nat) : Nat :=
  match (if c.op = 2 then .error (cause 0) else s.locate (fxAddr c.fxb i) 64 .write) with
  | .error _ => (c.reduced parts (Config.freeSum s.freeCtr i) (first + i)).1
  | .ok p =>
    let acc := s.readDirect p 64
    if home = 0 then binary32.round 0 0 (fxValue acc) else (c.reduced parts acc (first + i)).1

/-- What the read of the accumulators does to the stash (R239). -/
def State.recallFx (s : State) (c : CollCommand) : State :=
  (List.range c.count).foldl (fun s i =>
    match s.locate (fxAddr c.fxb i) 64 .write with
    | .ok p => s.recallForRead p.key 64
    | .error _ => s) s

/-- What this rank writes to its destination, with the accumulators brought up to date on the root rank. -/
def State.collResult (s : State) (c : CollCommand) (parts : List (List Byte)) (home : Nat) : State × List Byte :=
  let n := c.count
  match c.op with
  | 3 => (s, parts.flatMap (fun p => p.take (c.size * n)))
  | 4 => (s, ((parts[c.root]?).getD []).take (c.size * n))
  | _ =>
    let first := if c.op = 2 then c.rank * n else 0
    if c.dtype = 3 then
      if c.rank = c.root then
        let r := s.addFx c parts first n
        (r.1, r.2.flatMap (fun v => bytesOf v c.size))
      else (s.recallFx c, (List.range n).flatMap (fun i => bytesOf (s.readFx c parts home first i) c.size))
    else (s, (List.range n).flatMap (fun i => bytesOf (c.reduced parts 0 (first + i)).1 c.size))

/-- Whether the root of a dtype 3 command, on this Brynter, has still to add to the accumulators: its node runs. -/
def State.rootPending (s : State) (c : CollCommand) : Bool :=
  s.graphs.any (fun g => g.ctx == s.task.id.ctx && g.nodes.any (fun n =>
    n.kind == 4 && n.status == .running && n.image.isNone &&
    match s.engineRead n.code 64 with
    | .error _ => false
    | .ok (_, raw) =>
      let o := CollCommand.of (BitVec.ofNat 512 raw)
      o.dtype == 3 && o.rank == o.root && o.fxb == c.fxb && c.agrees o))

/-- A COLL command carried out for the rank of the node on stage, with the sources of the ranks that have joined and rank 0's command,
and its status written to tok (R389). -/
def State.collCommand (s : State) (c zero : CollCommand) (parts : List (List Byte)) : State × CommandEnd :=
  let report (s : State) (st : Word) (f : Option (Word × Bool)) : State × CommandEnd :=
    if c.tok.toNat % 8 ≠ 0 then (s, .lost 0x08 none)
    else
      match s.writeStatus c.tok st with
      | .error t => (s, if s.pageComes s.task.engineWho s.task.id.ctx t then .hold c.tok t.info else .lost t.cause t.addr)
      | .ok s1 => (s1, .status st f)
  let ended (s : State) (done : Nat) (e : CopyEnd) : State × CommandEnd :=
    match e with
    | .hold va info => (s, .hold va info)
    | .fail cause a d => report s (failStatus cause done) (some (a, d))
    | .complete => report s (failStatus 0 done) none
  if !c.ok then report s (failStatus 0x08 0) none
  else
    match s.engineRead c.peers (2 * c.nranks) with
    | .error e => ended s 0 e
    | .ok (s, peers) =>
      match s.partnersCause c peers with
      | some cause => ended s 0 (.fail cause c.dst true)
      | none =>
        if parts.length < c.nranks then (s, .partners)
        else if !c.agrees zero then report s (failStatus 0x08 0) none
        else
          match s.engineBytes (fun p => p.home == 0 || p.home == 0xFFF) (c.srcBytes + 1) c.src c.srcBytes with
          | .error e => ended s 0 e
          | .ok (s, mine) =>
            let home := if c.root = c.rank then 0 else peers / 2 ^ (16 * c.root) % 2 ^ 16
            let all := (parts.take c.nranks).mapIdx (fun i p => if i = c.rank then mine else p)
            match (if c.dtype = 3 then s.fxFlaws c home else none) with
            | some .elsewhere => report s (failStatus 0x08 0) none
            | some (.missed t) =>
              let a := t.addr.getD c.fxb
              ended s 0 (if s.pageComes s.task.engineWho s.task.id.ctx t then .hold a t.info else .fail t.cause a true)
            | none =>
              if all.any (fun p => p.length < c.srcBytes) || (c.dtype == 3 && c.rank != c.root && home == 0 && s.rootPending c) then
                (s, .partners)
              else
                let r := s.collResult c all home
                match r.1.engineWrite none (r.2.length + 1) c.dst r.2 0 with
                | (s1, done, e) => ended s1 done e

/-- COLL_NODE_COMPLETE: a COLL node's command carried out by the image that it started on (R27, R389): under the default image its status
is written with release at tok; then the node retires. -/
def execCollNodeComplete (gid i : Nat) (parts : List (List (BitVec 8))) (rank0 : BitVec 512) (s : State) :
    Host.Outcome State Fault Refusal :=
  match s.graph gid, s.node gid i with
  | some g, some n =>
    if n.kind ≠ 4 || n.status != .running then .next s
    else
      match n.image with
      | some im => .next (s.runImage g n im).settle
      | none =>
        .next (s.runCommand g n 320 (fun c s => s.collCommand (CollCommand.of c) (CollCommand.of rank0) parts) (fun _ => false)).settle
  | _, _ => .next s

end Sys2Proof.Machine
end

