-- ==== Sys2Proof/Machine/Lanes.lean ====
section
/-! DEFINITION. Lane threads: VSPLIT, the lane branches, the join (R166 to R173, R320). -/

namespace Sys2Proof.Machine

/-- The word LJOIN (R170). -/
def ljoinWord : BitVec 32 := 0x6000605B

/-- The first LJOIN word of a block at or after an offset, in body order (R166); a body word that cannot be fetched gives
its fault. -/
def State.findJoin (s : State) (b : Block) : Nat → Nat → Except Trap (Option Nat)
  | _, 0 => .ok none
  | off, n + 1 =>
    match s.codeWord (b.wordAddr off) with
    | .error t => .error t
    | .ok w => if w = ljoinWord then .ok (some off) else s.findJoin b (off + 1) n

/-- What that search does to the stash: the words that it reads are fetched (R239). -/
def State.afterScan (s : State) (b : Block) : Nat → Nat → State
  | _, 0 => s
  | off, n + 1 =>
    match s.codeWord (b.wordAddr off) with
    | .error _ => s
    | .ok w =>
      let s1 := s.afterFetch (b.wordAddr off)
      if w = ljoinWord then s1 else s1.afterScan b (off + 1) n

/-- The threads of a split at its start (R165, R166, R188, R320). -/
def startThreads (es : List Nat) (target : Nat) : List LaneThread :=
  es.map (fun e => { elem := e, off := target, draws := 0, rounds := 0, joined := false, wset := [] })

/-- VSPLIT: each active element becomes a lane thread; with none, vector mode goes on after the join point (R166). -/
def execVsplit (off : BitVec 10) (vm : BitVec 1) (s : State) : Host.Outcome State Fault Refusal :=
  s.issue .b (off != 0) (fun s => s.needFlag 13 2 (
    let target : Int := s.offset + off.toInt
    match s.task.block with
    | none => .trap s (cause 0x08)
    | some b =>
      if !s.inBody target then .trap s (cause 0x08)
      else
        let join := s.findJoin b target.toNat (b.len - target.toNat)
        let s := s.afterScan b target.toNat (b.len - target.toNat)
        orTrap s join (fun join =>
          match join with
          | none => .trap s (cause 0x08)
          | some j =>
            s.needClean (maskReading vm s.touched) (
              let es := s.actives vm
              if es.isEmpty then .jump (s.branchTo (j + 1))
              else
                let sp : Split := { at_ := s.offset, join := j, threads := startThreads es target.toNat,
                                     view := s.task.wset ++ s.earlierWrites s.task, seen := s.orderedSegments, since := s.micros }
                .jump (s.onTask (fun t => { t with split := some sp, vstart := 0, progressAt := s.micros }))))))

/-! ## Lane branches -/

/-- The element whose thread issues. -/
def State.laneElem (s : State) : Nat :=
  match s.cur with
  | .lane e => e
  | _ => 0

/-- The issuing thread moved to a body offset. -/
def State.laneTo (s : State) (off : Int) : State :=
  s.onTask (fun t => { t.moveLane s.laneElem off.toNat with progressAt := s.micros })

/-- A lane branch over the thread's elements of two register groups (R169). A target outside the body raises 0x08 whether or
not the branch is taken (R122). -/
def State.laneBranch (s : State) (vs2 vs1 : BitVec 5) (off : BitVec 8) (taken : Nat → Nat → Nat → Bool) : Act :=
  let w := s.task.sew
  let e := s.laneElem
  let lm := s.task.lmul
  s.vectorWord { srcs := [(vs2.toNat, lm), (vs1.toNat, lm)], dsts := [] } 1
    (fun s => [reading vs2.toNat w [s.laneElem], reading vs1.toNat w [s.laneElem]])
    (fun s =>
      let target : Int := s.offset + off.toInt
      if !s.inBody target then .trap s (cause 0x08)
      else if taken w (s.task.elem w vs2.toNat e) (s.task.elem w vs1.toNat e) then .jump (s.laneTo target)
      else .go s)

/-- LBEQ (R169). -/
def execLbeq (vs2 vs1 : BitVec 5) (off : BitVec 8) (s : State) : Host.Outcome State Fault Refusal :=
  s.issue .lOnly (off != 0) (fun s => s.laneBranch vs2 vs1 off takenEq)

/-- LBNE (R169). -/
def execLbne (vs2 vs1 : BitVec 5) (off : BitVec 8) (s : State) : Host.Outcome State Fault Refusal :=
  s.issue .lOnly (off != 0) (fun s => s.laneBranch vs2 vs1 off takenNe)

/-- LBLT (R169). -/
def execLblt (vs2 vs1 : BitVec 5) (off : BitVec 8) (s : State) : Host.Outcome State Fault Refusal :=
  s.issue .lOnly (off != 0) (fun s => s.laneBranch vs2 vs1 off takenLt)

/-- LBGE (R169). -/
def execLbge (vs2 vs1 : BitVec 5) (off : BitVec 8) (s : State) : Host.Outcome State Fault Refusal :=
  s.issue .lOnly (off != 0) (fun s => s.laneBranch vs2 vs1 off takenGe)

/-- LJMP (R170). -/
def execLjmp (off : BitVec 10) (s : State) : Host.Outcome State Fault Refusal :=
  s.issue .lOnly (off != 0) (fun s =>
    let target : Int := s.offset + off.toInt
    if !s.inBody target then .trap s (cause 0x08) else .jump (s.laneTo target))

/-! ## The join -/

/-- The first conflict that merging threads in ascending element order meets (R320): the address, the higher and the lower
element. -/
def joinConflict : List LaneThread → List LaneThread → Option (Nat × Nat × Nat)
  | _, [] => none
  | done, t :: ts =>
    let clash := (t.wset.filter (fun c => !c.direct)).filterMap (fun c =>
      (done.find? (fun d => (setGet d.wset c.key).isSome)).map (fun d => (c.va, t.elem, d.elem)))
    match argLeast (fun c => c.1) clash with
    | some c => some c
    | none => joinConflict (done ++ [t]) ts

/-- The vector re-formed after the last join (R170): the write sets merged in ascending element order (R320), rngpos and
srcount advanced (R165, R188), vector mode at the word after the join point. -/
def Task.reform (t : Task) (sp : Split) : Task :=
  let draws := sp.threads.foldl (fun m th => max m th.draws) 0
  let rounds := sp.threads.foldl (fun m th => max m th.rounds) 0
  let w := sp.threads.foldl (fun w th => setOver th.wset w) t.wset
  { t with split := none, wset := w, rngpos := t.rngpos + BitVec.ofNat 64 (t.vl * draws),
           srcount := t.srcount + BitVec.ofNat 32 rounds }

/-- LJOIN: ends the thread at the split's join point; elsewhere it raises 0x08. The last thread re-forms the vector
(R170). -/
def execLjoin (s : State) : Host.Outcome State Fault Refusal :=
  s.issue .lOnly true (fun s =>
    match s.task.split with
    | none => .trap s (cause 0x08)
    | some sp =>
      if s.offset ≠ sp.join then .trap s (cause 0x08)
      else
        let ths := mapIf (fun (th : LaneThread) => th.elem == s.laneElem) (fun th => { th with joined := true }) sp.threads
        let sp1 := { sp with threads := ths }
        if ths.all (·.joined) then
          match joinConflict [] ths with
          | some (a, hi, lo) =>
            .trap s { cause := 0x0A, addr := some (BitVec.ofNat 64 a), elem := some hi, info := BitVec.ofNat 32 lo }
          | none =>
            .jump (s.onTask (fun t => { (t.reform sp1).moveVector (sp.join + 1) with progressAt := s.micros }))
        else .jump (s.onTask (fun t => { t with split := some sp1, progressAt := s.micros })))

end Sys2Proof.Machine
end

