-- ==== Sys2Proof/Machine/Image.lean ====
section
/-! DEFINITION. The commands that export and import a context image (R381), and the task that an imported image describes (R345 to R347).
Widths that the manual leaves open are those of log 30. -/

namespace Sys2Proof.Machine

/-! ## Export -/

/-- The image of a held task as it stands in the save pool, none where it can no longer be read or is poisoned (log 30). -/
def State.savedImage (s : State) (t : Task) : Option (List Byte) :=
  match s.context t.id.ctx, t.image with
  | some c, some (o, n) =>
    let va := c.pool.toNat + o
    let struck := !s.poison.isEmpty && (List.range (ceilDiv n 64)).any (fun g =>
      match s.poolPlace c (va + 64 * g) with
      | some p => s.poisoned p.1 64
      | none => false)
    if struck then none else s.readPool c va n
  | _, _ => none

/-- EXPORT_IMAGE: the image copied to the host, and the task ended as answer code 2 does. An answer that names no held task is ignored;
an image that cannot be read, or a host range that the host rejects, leaves the task held (log 30). -/
def execExportImage (e : BitVec 1024) (s : State) : Host.Outcome State Fault Refusal :=
  match s.heldTask e with
  | none => .next s
  | some (t, _) =>
    let a := fieldN e (8 * 0x18) 64
    let s := s.recallImage t
    match s.savedImage t with
    | none => .next (s.reject 1 s.cmdIndex)
    | some bs =>
      if 2 ^ 52 < a + bs.length || s.hostRejects.any (fun w => w.1 < a + bs.length && a < w.1 + w.2) then .next (s.reject 1 s.cmdIndex)
      else .next (((s.writeHost a bs).endTask t).settle)

/-! ## Import -/

/-- An image whose header R345 admits. -/
def imageShapeOk (img : List Byte) : Bool :=
  let fold := getN img 0x1B 1
  let foldOk (n : Nat) : Bool := n == 1 || n == 2 || n == 4
  getN img 0 4 == 0x49584341 && getN img 4 2 == 1 && foldOk (fold % 16) && foldOk (fold / 16) && 1 ≤ getN img 0x1A 1 && getN img 0x1A 1 ≤ 16
    && (getN img 0x1D 1 == 1 || getN img 0x1D 1 == 2) && getN img 0x1C 1 == 2

/-- The serial number of the block that runs in an image: above those of the blocks whose copies it holds. -/
def getSerial (copies : List Byte) : Nat := (List.range (copies.length / 360)).foldl (fun m i => max m (getN copies (360 * i + 340) 4)) 0 + 1

/-- The queue entries of an image, behind the block of a serial number. -/
def getQueue (bs : List Byte) (foldPending serial : Nat) : List QEntry :=
  (List.range (bs.length / 264)).map (fun i =>
    { addr := BitVec.ofNat 64 (getN bs (264 * i) 8), h0 := BitVec.ofNat 32 (getN bs (264 * i + 8) 4),
      h1 := BitVec.ofNat 32 (getN bs (264 * i + 12) 4), xs := getScalars bs (264 * i + 16), foldPending := foldPending, serial := serial + 1 + i,
      poison := 0 })

/-- The unstarted array words of an image (R347). -/
def getArrayQueue (bs : List Byte) : List ArrayEntry :=
  (List.range (bs.length / 128)).map (fun i =>
    let o := 128 * i
    let scalar (x : Vector Word 32) (j : Nat) : Vector Word 32 :=
      if j < getN bs (o + 7) 1 then x.setIfInBounds (getN bs (o + 48 + j) 1) (BitVec.ofNat 64 (getN bs (o + 56 + 8 * j) 8)) else x
    { word := BitVec.ofNat 32 (getN bs o 4), off := getN bs (o + 4) 2, vl := getN bs (o + 8) 8, vcfg := BitVec.ofNat 64 (getN bs (o + 16) 8),
      mshape := BitVec.ofNat 64 (getN bs (o + 24) 8), mcfg := BitVec.ofNat 64 (getN bs (o + 32) 8), fl := getN bs (o + 6) 1,
      plan := BitVec.ofNat 64 (getN bs (o + 40) 8), xs := (List.range 3).foldl scalar (Vector.replicate 32 0) })

/-- The bytes of a WSET segment, found again through the context's pages, each with its owner: 0 for the control thread, 1 more than the
element for a lane thread. -/
def State.getSet (s : State) (c : Context) (bs : List Byte) : List (Nat × SetByte) :=
  (List.range (bs.length / 16)).filterMap (fun i =>
    let va := getN bs (16 * i) 8
    match s.pageOf none c va with
    | .error _ => none
    | .ok p => some (getN bs (16 * i + 10) 4,
        { ofC := getN bs (16 * i + 9) 1 != 0, key := s.backedKey c p va false, km := s.pageKm p, va := va,
          byte := BitVec.ofNat 8 (getN bs (16 * i + 8) 1),
          direct := getN bs (16 * i + 14) 1 != 0 }))

/-- The bytes of a write set that belong to an owner. -/
def ownedBy (set : List (Nat × SetByte)) (owner : Nat) : List SetByte := (set.filter (fun c => c.1 == owner)).map (·.2)

/-- The join point of a split: the first LJOIN of the body from an offset on (R166). -/
def State.joinAt (s : State) (c : Context) (a : Word) (off : Nat) : Nat → Nat
  | 0 => off
  | n + 1 =>
    if s.objectNat c (a.toNat + 12 + 4 * off) 4 = some ljoinWord.toNat then off else s.joinAt c a (off + 1) n

/-- The body offset at which the VSPLIT of a block, its offset in bits [24:15], has its threads begin (R166). -/
def State.splitTarget (s : State) (c : Context) (b : Block) : Nat :=
  let w : BitVec 32 := BitVec.ofNat 32 ((s.objectNat c (b.wordAddr b.off).toNat 4).getD 0)
  ((b.off : Int) + (w.extractLsb' 15 10).toInt).toNat

/-- The lane threads of an image: every element below vl, those that have joined with their counts (R165, R188). -/
def getThreads (bs : List Byte) (vl : Nat) (set : List (Nat × SetByte)) : List LaneThread :=
  (List.range vl).map (fun e =>
    { elem := e, off := getN bs (6 * e) 2, draws := getN bs (6 * e + 2) 2, rounds := getN bs (6 * e + 4) 2,
      joined := (getN bs (6 * vl) (ceilDiv vl 8)).testBit e, wset := ownedBy set (e + 1) })

/-- The split of an image, which the VSPLIT at the block's offset has begun. Its view is what the segment had written (R320). Its count towards
the split limit begins anew at the import, since the image holds no time (DESIGN CHOICE, log 30). -/
def State.getSplit (s : State) (c : Context) (b : Block) (bs : List Byte) (vl : Nat) (set : List (Nat × SetByte)) : Split :=
  let target := s.splitTarget c b
  { at_ := b.off, join := s.joinAt c b.addr target (b.len - target), threads := getThreads bs vl set, view := ownedBy set 0, seen := [],
    since := s.micros }

/-- A layout of an image: the dwords before the first that is zero. -/
def getLayout (bs : List Byte) (off : Nat) : List (BitVec 64) :=
  ((List.range 16).map (fun i => BitVec.ofNat 64 (getN bs (off + 8 * i) 8))).takeWhile (fun l => fieldN l 0 24 != 0)

/-- The copies of an image (R256), counted back from the block of a serial number. -/
def getCopies (bs : List Byte) (serial : Nat) : List Copy :=
  (List.range (bs.length / 360)).map (fun i =>
    let at_ (o n : Nat) : Nat := getN bs (360 * i + o) n
    let w : BitVec 32 := BitVec.ofNat 32 (at_ 0 4)
    let flag (k : Nat) : Bool := (at_ 300 1).testBit k
    { word := w, off := at_ 336 2, serial := serial - at_ 340 4, block := BitVec.ofNat 64 (at_ 328 8), op := fieldN w 25 2, trap := w.getLsbD 27,
      tok := at_ 4 4 % 32, src := BitVec.ofNat 64 (at_ 16 8), dst := BitVec.ofNat 64 (at_ 24 8), srcLay := getLayout bs (360 * i + 32),
      dstLay := getLayout bs (360 * i + 160), ctl := BitVec.ofNat 64 (at_ 8 8), tokIn := BitVec.ofNat 64 (at_ 312 8),
      after := if at_ 344 4 = 0 then none else some (at_ 344 4 - 1), done := at_ 288 8, running := at_ 296 4, started := flag 1,
      home := if (at_ 301 1).testBit 0 then some (at_ 302 2) else none,
      flip := if flag 7 then some (at_ 352 8) else none,
      status := if flag 0 then none else some (BitVec.ofNat 64 (at_ 304 8)),
      failAt := if flag 5 then some (BitVec.ofNat 64 (at_ 320 8), flag 6) else none,
      handedOn := flag 4, read := flag 2, overwritten := flag 3 })

/-- What the reads behind an imported image do to the stash (R239): those of the headers of its block, of the body from its VSPLIT to the join
point, and of the base of a held VAPPEND. -/
def State.recallSources (s : State) (c : Context) (img : List Byte) : State :=
  let seg := getSegment img
  let app := getN (seg 15) 0 8
  let s1 := s.recallHeaders c (getN (seg 3) 0 8)
  let s2 :=
    match (s.getBlock c (seg 3) none 1).filter (fun _ => getN (seg 3) 328 8 != 0) with
    | none => s1
    | some b =>
      let target := s.splitTarget c b
      let join := s.joinAt c b.addr target (b.len - target)
      (s1.recallObject c (b.wordAddr b.off).toNat 4).recallObject c (b.wordAddr target).toNat (4 * (join + 1 - target))
  if (seg 15).isEmpty then s2 else s2.recallObject c app 8

/-- The held task that an image describes, for a node of a graph. A record that holds it gives its kernel; an image without such a
record resumes as it stands. The section that a task of a region that is not migratable left is not in the image: it counts as section 0, where
alone it may then resume (R90; DESIGN CHOICE, log 30). Its queued blocks and its block all carry the fold_pending of the header, since their
segments hold none (R148, R346; DESIGN CHOICE, log 30). The base of a held VAPPEND is read again, and is 0 where its descriptor cannot be read
(R177; DESIGN CHOICE, log 30). -/
def State.imageTask (s : State) (c : Context) (gid : Nat) (region : Word) (img : List Byte) : Task :=
  let fold := getN img 0x1B 1
  let seg := getSegment img
  let blockSeg := seg 3
  let serial := getSerial (seg 12)
  let b := (s.getBlock c blockSeg none (fold / 16)).map (fun b => { b with serial := serial })
  let vl := getN blockSeg 304 8
  let frec : BitVec 512 := BitVec.ofNat 512 (getN img 0x60 64)
  let held := fieldN frec 0 8
  let grant := getN img 0x1A 1
  let vlenb := grant * 512 * (fold % 16)
  let meld := getN img 0x2C 4
  let stash := seg 10
  let stream := seg 11
  let barrier := seg 13
  let app := seg 15
  let set := s.getSet c (seg 14)
  { Task.vacant with
    status := .held (if held = 0x10 ∨ held = 0x11 ∨ held = 0x12 then held else 0x0F)
    id := { tid := s.nextTid, ctx := c.id, gid := gid, node := getN img 0x28 4, region := region, kind := getN img 0x1D 1, grant := grant,
            section_ := 0, core := 0, prio := s.effPrio c.id region, seed := BitVec.ofNat 64 (getN img 0x40 8),
            ctrbase := BitVec.ofNat 64 (getN img 0x30 8), ctrlen := getN img 0x38 4, it := getN img 0x3C 4,
            kernel := frec.extractLsb' 128 64, meld := if meld = 0xFFFFFFFF then none else some meld,
            feat := BitVec.ofNat 64 (getN img 0x10 8), gen := getN img 0x18 1 }
    x := getScalars (seg 1) 0
    pc := BitVec.ofNat 64 (getN (seg 1) 248 8)
    fold := fold % 16
    foldPending := fold / 16
    vcfg := BitVec.ofNat 64 (getN blockSeg 312 8)
    vl := vl
    vstart := getN blockSeg 16 8
    v := Vector.ofFn (fun (i : Fin 32) => BitVec.ofNat 262144 (getN (seg 4) (vlenb * i.val) vlenb))
    rngpos := BitVec.ofNat 64 (getN img 0x48 8)
    srcount := BitVec.ofNat 32 (getN img 0x50 4)
    fl := Vector.ofFn (fun (i : Fin 4) => BitVec.ofNat 64 (getN (seg 7) (8 * i.val) 8))
    m := Vector.ofFn (fun (i : Fin 8) => BitVec.ofNat 131072 (getN (seg 8) (16 + 16384 * i.val) 16384))
    mshape := if (seg 8).isEmpty then 0x0FFF else BitVec.ofNat 64 (getN (seg 8) 0 8)
    mcfg := BitVec.ofNat 64 (getN (seg 8) 8 8)
    astat := BitVec.ofNat 64 (getN blockSeg 320 8)
    vq := getQueue (seg 2) (fold / 16) serial
    block := b
    nextSerial := serial + 1 + (seg 2).length / 264
    replies := (List.range (getN (seg 6) 0 8)).map (fun i => BitVec.ofNat 64 (getN (seg 6) (8 + 8 * i) 8))
    split := (b.filter (fun _ => getN blockSeg 328 8 != 0)).map (fun b => s.getSplit c b (seg 5) vl set)
    windows := Vector.ofFn (fun (i : Fin 8) =>
      if getN stash (16 * i.val + 8) 8 = 0 then none
      else some { base := getN stash (16 * i.val) 8, size := getN stash (16 * i.val + 8) 8, since := 0 })
    streams := Vector.ofFn (fun (i : Fin 8) =>
      if getN stream (80 * i.val) 8 = 0 then none
      else some { desc := BitVec.ofNat 512 (getN stream (80 * i.val + 8) 64), cursor := getN stream (80 * i.val + 72) 8 })
    copies := getCopies (seg 12) serial
    slots := ((List.range 4).filter (fun i => getN barrier (16 * i) 16 != 0)).map (fun i =>
      { obj := getN barrier (16 * i) 8, phase := BitVec.ofNat 64 (getN barrier (16 * i + 8) 8) })
    wset := ownedBy set 0
    segment := s.nextSegment
    heldAppend := if app.isEmpty then none
                  else some { desc := BitVec.ofNat 64 (getN app 0 8), base := BitVec.ofNat 64 ((s.objectNat c (getN app 0 8) 8).getD 0),
                              t := BitVec.ofNat 64 (getN app 8 8), elem := getN app 16 8 }
    aqueue := getArrayQueue (seg 9)
    fseq := getN img 0x54 4
    frec := frec
    progressAt := s.micros
    away := [(s.micros, s.micros)]
    startAt := s.micros }

/-- The bytes of an image in this part's memory, none where they cannot be read. -/
def State.readImage (s : State) (a : Nat) : Option (List Byte) :=
  let here (b : Nat) : Bool := s.homeDie b == s.homeDie a && (s.homeCause none b).isNone
  if !here a || !here (a + 255) || s.poisoned (memKey 0 a) 256 then none
  else
    let n := leVal (s.peekBytes none (memKey 0 (a + 8)) 8)
    if n < 256 || !here (a + n - 1) || s.poisoned (memKey 0 a) n then none else some (s.peekBytes none (memKey 0 a) n)

/-- The graph of an imported task: one node, dispatched in name, whose launch lies elsewhere. No launch of this part gives its priority cap, its
age and its home die: they are 15, 0 and the package dealer's choice among the candidates of the region (R81 to R83; DESIGN CHOICE, log 30). -/
def State.importGraph (s : State) (c : Context) (region : Word) (img : List Byte) : Graph :=
  let desc : BitVec 1024 := BitVec.ofNat 1024 (getN img 0x1D 1)
  { gid := s.nextGid, ctx := c.id, q := 4096, pid := 0, region := region, die := s.chooseDie (s.candidates c.id region),
    seed := BitVec.ofNat 64 (getN img 0x40 8), pcap := 15, single := true,
    nodes := [{ newNode (getN img 0x28 4) desc [] [] with status := .running, it := getN img 0x3C 4 }], before := [], live := true }

/-- IMPORT_IMAGE: a held task made of an image, in a region of the named context, its image put into the context's save pool; anything
else, and an image that the pool cannot hold, is reported as source 5 (R344, R381, log 30). -/
def execImportImage (e : BitVec 1024) (s : State) : Host.Outcome State Fault Refusal :=
  let region := cmdA e
  match s.context (cmdId e), s.region (cmdId e) region, s.readImage (cmdB e).toNat with
  | some c, some _, some img =>
    match poolOffset c.psize img.length (s.poolTaken c.id s.nextTid) with
    | some o =>
      let va := c.pool.toNat + o
      let s := (s.recallRaw (cmdB e).toNat img.length).recallSources c img
      if imageShapeOk img && !(s.candidates c.id region).isEmpty && s.poolPages c va img.length then
        let g := s.importGraph c region img
        let t := { s.imageTask c g.gid region img with image := some (o, img.length) }
        let s1 := s.writePool c (img.length / 4096 + 2) va img
        .next { s1 with graphs := s1.graphs ++ [g], nextGid := s1.nextGid + 1, parked := s1.parked ++ [t], nextTid := s1.nextTid + 1,
                        nextSegment := s1.nextSegment + 1 }
      else .next (s.reject 1 s.cmdIndex)
    | none => .next (s.reject 1 s.cmdIndex)
  | _, _, _ => .next (s.reject 1 s.cmdIndex)

end Sys2Proof.Machine
end

