-- ==== Sys2Proof/Machine/Registers.lean ====
section
/-! DEFINITION. Accesses from outside: the registers of BAR0 (R65, R375, R376, R378, R391) and the mailbox of BAR4 (R395), BAR2
windows (R377), CXL.mem (R378), requests of peers (R385). -/

namespace Sys2Proof.Machine

/-- The registers of the firmware page and the tables behind it changed. Until stage 4 BAR0 ignores writes (R394). -/
def State.onPort (s : State) (f : Port0 → Port0) : State := if s.boot.stage = 4 then { s with port0 := f s.port0 } else s

/-! ## The firmware page (R376) -/

/-- A write to DUTY: bits [6:0] are set, a nonzero reserved value is ignored (R65). -/
def Port0.writeDuty (p : Port0) (v : BitVec 64) : Port0 := { p with duty := v.setWidth 7 }

/-- DUTY_WRITE. -/
def execDutyWrite (v : BitVec 64) (s : State) : Host.Outcome State Fault Refusal := .next (s.onPort (·.writeDuty v))

/-- A write to a ring's control (R376): while en is set only a write that clears en acts, on en alone; an lsize outside 4 to 16
leaves en clear. -/
def Ring.control (r : Ring) (v : BitVec 64) : Ring :=
  let lsize := fieldN v 1 5
  if r.en then (if v.getLsbD 0 then r else { r with en := false })
  else { r with en := v.getLsbD 0 && 4 ≤ lsize && lsize ≤ 16, lsize := lsize, msix := fieldN v 16 11 }

/-- A write to a ring's base, ignored while en is set (R376). -/
def Ring.rebase (r : Ring) (v : BitVec 64) : Ring := if r.en then r else { r with base := v.toNat }

/-- One of the rings changed. -/
def Port0.onRing (p : Port0) (name : RingName) (f : Ring → Ring) : Port0 :=
  match name with
  | .event => { p with ev := f p.ev }
  | .request => { p with srq := f p.srq }
  | .command => { p with cmd := f p.cmd }

/-- RING_CONTROL_WRITE. -/
def execRingControlWrite (ring : RingName) (v : BitVec 64) (s : State) : Host.Outcome State Fault Refusal :=
  .next (s.onPort (·.onRing ring (·.control v)))

/-- A write to QTBASE, ignored while a queue is enabled or its disable has not reported (R376). -/
def State.writeQtbase (s : State) (v : BitVec 64) : State :=
  if s.queues.isEmpty then s.onPort (fun p => { p with qtbase := v.toNat }) else s

/-- QTBASE_WRITE. -/
def execQtbaseWrite (v : BitVec 64) (s : State) : Host.Outcome State Fault Refusal := .next (s.writeQtbase v)

/-- A write to PORTCFG: coh is writable when the port is CXL and no context is bound (R378). -/
def State.writePortcfg (s : State) (v : BitVec 64) : State :=
  if s.port0.cxl && s.contexts.isEmpty then s.onPort (fun p => { p with coh := v.getLsbD 1 }) else s

/-- PORTCFG_WRITE. -/
def execPortcfgWrite (v : BitVec 64) (s : State) : Host.Outcome State Fault Refusal := .next (s.writePortcfg v)

/-- A dword of a BAR2 window's entry written (R377). -/
def BarWindow.write (w : BarWindow) (high : Bool) (v : BitVec 64) : BarWindow :=
  if high then { w with keyid := fieldN v 0 16 } else { w with en := v.getLsbD 0, pbase := fieldN v 32 20 }

/-- A dword of an inbound window's entry written (R385). -/
def InboundWindow.write (w : InboundWindow) (high : Bool) (v : BitVec 64) : InboundWindow :=
  if high then { w with pages := fieldN v 0 32, keyid := fieldN v 32 16, src := fieldN v 48 16 }
  else { w with en := v.getLsbD 0, rd := v.getLsbD 1, wr := v.getLsbD 2, pbase := fieldN v 12 40 }

/-- An aligned 8-byte write to the firmware page (R376); read-only registers and unlisted offsets ignore it. -/
def State.firmwareWrite (s : State) (off : Nat) (v : BitVec 64) : State :=
  let ring (name : RingName) (k : Nat) : State :=
    match k with
    | 0x00 => s.onPort (·.onRing name (·.rebase v))
    | 0x08 => s.onPort (·.onRing name (·.control v))
    | 0x18 => if name = .command then s else s.onPort (·.onRing name (fun r => { r with rd := v.toNat }))
    | 0x10 => if name = .command then s.onPort (·.onRing name (fun r => { r with wr := v.toNat })) else s
    | _ => s
  if off = 0x000 then s.onPort (·.writeDuty v)
  else if 0x040 ≤ off ∧ off < 0x060 then ring .event (off - 0x040)
  else if 0x080 ≤ off ∧ off < 0x0A0 then ring .request (off - 0x080)
  else if 0x0C0 ≤ off ∧ off < 0x0E0 then ring .command (off - 0x0C0)
  else if off = 0x0E0 then s.writeQtbase v
  else if off = 0x200 then s.writePortcfg v
  else if off = 0x208 then s.onPort (fun p => { p with peertab := v.toNat })
  else if 0x100 ≤ off ∧ off < 0x200 then
    let k := (off - 0x100) / 16
    s.onPort (fun p => { p with bar2 := p.bar2.mapIdx (fun i w => if i = k then w.write (off % 16 == 8) v else w) })
  else if 0x400 ≤ off ∧ off < 0x600 then
    let k := (off - 0x400) / 16
    s.onPort (fun p => { p with inbound := p.inbound.mapIdx (fun i w => if i = k then w.write (off % 16 == 8) v else w) })
  else s

/-! ## The rest of BAR0 and BAR4 -/

/-- An aligned 8-byte write to the injection page (R391). A write that arms the copy injector starts its count. -/
def State.injectionWrite (s : State) (off : Nat) (v : BitVec 64) : State :=
  if off = 0 then
    s.onPort (fun p =>
      { p with injArm := v.getLsbD 0, injSkip := fieldN v 8 8, injBit := fieldN v 16 3, injSeen := 0, injChosen := false,
               injArms := p.injArms + 1 })
  else if off = 8 then s.onPort (fun p => { p with injOff := fieldN v 0 40 })
  else if 0x100 ≤ off ∧ off < 0x100 + 16 * 28 ∧ off % 16 = 0 then
    s.onPort (fun p => { p with flits := p.flits.setIfInBounds ((off - 0x100) / 16) { point := fieldN v 0 2, count := fieldN v 8 8 } })
  else s

/-- An aligned 8-byte write to a doorbell page (R38): the queue of that page takes it. -/
def State.doorbellWrite (s : State) (off : Nat) (v : BitVec 64) : Host.Outcome State Fault Refusal :=
  match s.queues.find? (fun x => x.enabled && x.dbpage == off / 4096 * 4096) with
  | none => .next s
  | some x =>
    match off % 4096 with
    | 0 => execWridx x.q v s
    | 8 =>
      match v.toNat with
      | 1 => execQctlSkip x.q s
      | 2 => execQctlDiscard x.q s
      | 3 => execQctlStop x.q s
      | 4 => execQctlResume x.q s
      | _ => .next s
    | _ => .next s

/-- A write of n bytes to BAR0 by its layout (R375); registers take aligned 8-byte accesses. -/
def State.bar0Write (s : State) (off n : Nat) (v : BitVec 64) : Host.Outcome State Fault Refusal :=
  let whole := n == 8 && off % 8 == 0
  if s.boot.stage ≠ 4 then .next s
  else if 0x20000 ≤ off ∧ off + n ≤ 0x28000 then
    .next (s.onPort (fun p => { p with msixTable := Memory.setMany p.msixTable (off - 0x20000) (bytesOf v.toNat n) }))
  else if !whole then .next s
  else if off < 0x1000 then .next (s.firmwareWrite off v)
  else if 0x12000 ≤ off ∧ off < 0x13000 then .next (s.injectionWrite (off - 0x12000) v)
  else if 0x100000 ≤ off ∧ off < 0x1100000 then s.doorbellWrite off v
  else .next s

/-- A dword of the nonce written. -/
def Boot.writeNonce (b : Boot) (k : Nat) (v : BitVec 64) : Boot := { b with mbnonce := setField b.mbnonce (64 * k) v }

/-- An aligned 8-byte write to the mailbox (R395). A command that is not listed is valid in no stage. -/
def State.mailboxWrite (s : State) (off : Nat) (v : BitVec 64) : Host.Outcome State Fault Refusal :=
  if off = 0x008 then
    match v.toNat with
    | 1 => execPushRecoveryImage s
    | 2 => execAttest s
    | _ => .next (if s.boot.busy then s else s.mailboxError)
  else if off = 0x010 then .next (s.onBoot (fun b => { b with mbaddr := v }))
  else if off = 0x018 then .next (s.onBoot (fun b => { b with mblen := v }))
  else if 0x020 ≤ off ∧ off < 0x040 then .next (s.onBoot (·.writeNonce ((off - 0x020) / 8) v))
  else .next s

/-- REGISTER_WRITE. -/
def execRegisterWrite (bar : BarName) (off : Nat) (size : Nat) (v : BitVec 64) (s : State) : Host.Outcome State Fault Refusal :=
  match bar with
  | .bar0 => s.bar0Write off size v
  | .bar4 => if size = 8 ∧ off % 8 = 0 then s.mailboxWrite off v else .next s

/-! ## Reads of BAR0 and BAR4 (R375, R395) -/

/-- What an access returns to the outside. -/
def State.answer (s : State) (bs : List Byte) (refused : Option Nat) : State :=
  { s with port0 := { s.port0 with lastRead := bs, lastRefused := refused } }

/-- A bit as a number. -/
def bitNat (b : Bool) : Nat := if b then 1 else 0

/-- A register of a ring: base, control, the entries written and consumed (R376). -/
def Ring.read (r : Ring) (k : Nat) : Nat :=
  match k with
  | 0x00 => r.base
  | 0x08 => bitNat r.en + 2 * r.lsize + 2 ^ 16 * r.msix
  | 0x10 => r.wr
  | 0x18 => r.rd
  | _ => 0

/-- A dword of a BAR2 window's entry (R377). -/
def BarWindow.read (w : BarWindow) (high : Bool) : Nat := if high then w.keyid else bitNat w.en + 2 ^ 32 * w.pbase

/-- A dword of an inbound window's entry (R385). -/
def InboundWindow.read (w : InboundWindow) (high : Bool) : Nat :=
  if high then w.pages + 2 ^ 32 * w.keyid + 2 ^ 48 * w.src
  else bitNat w.en + 2 * bitNat w.rd + 4 * bitNat w.wr + 2 ^ 12 * w.pbase

/-- A register of the firmware page (R376); offsets that it leaves out read zero. -/
def Port0.firmware (p : Port0) (off : Nat) : Nat :=
  if off = 0x000 then p.duty.toNat
  else if 0x040 ≤ off ∧ off < 0x060 then p.ev.read (off - 0x040)
  else if off = 0x060 then p.evlost
  else if 0x080 ≤ off ∧ off < 0x0A0 then p.srq.read (off - 0x080)
  else if 0x0C0 ≤ off ∧ off < 0x0E0 then p.cmd.read (off - 0x0C0)
  else if off = 0x0E0 then p.qtbase
  else if 0x100 ≤ off ∧ off < 0x200 then ((p.bar2[(off - 0x100) / 16]?).map (·.read (off % 16 == 8))).getD 0
  else if off = 0x200 then bitNat p.cxl + 2 * bitNat p.coh
  else if off = 0x208 then p.peertab
  else if 0x400 ≤ off ∧ off < 0x600 then ((p.inbound[(off - 0x400) / 16]?).map (·.read (off % 16 == 8))).getD 0
  else 0

/-- A register of the injection page (R391): the count of a flit injector as it stands. -/
def Port0.injectors (p : Port0) (off : Nat) : Nat :=
  if off = 0 then bitNat p.injArm + 2 ^ 8 * p.injSkip + 2 ^ 16 * p.injBit
  else if off = 8 then p.injOff
  else if 0x100 ≤ off ∧ off < 0x100 + 16 * 28 ∧ off % 16 = 0 then
    ((p.flits[(off - 0x100) / 16]?).map (fun f => f.point + 2 ^ 8 * f.count)).getD 0
  else 0

/-- A splice counter of a die (R140). -/
def Die.spliceCounter (d : Die) (k : Nat) : Nat :=
  match k with
  | 0x00 => d.formed.toNat
  | 0x08 => d.elided.toNat
  | 0x10 => d.kept.toNat
  | 0x18 => d.mfaults.toNat
  | 0x20 => d.mpreempt.toNat
  | _ => if 0x40 ≤ k ∧ k < 0xB8 then ((d.refused[(k - 0x40) / 8]?).getD 0).toNat else 0

/-- The dword at an aligned offset of BAR0 (R375); what the layout leaves out reads zero, and so do the doorbell pages, whose wridx and qctl are
registers for writes (DESIGN CHOICE, log 33). -/
def State.bar0Dword (s : State) (off : Nat) : Nat :=
  if off < 0x1000 then s.port0.firmware off
  else if 0x10000 ≤ off ∧ off < 0x11000 then leVal ((s.enumTable.drop (off - 0x10000)).take 8)
  else if 0x11000 ≤ off ∧ off < 0x11800 then (s.die ((off - 0x11000) / 0x100)).spliceCounter (off % 0x100)
  else if 0x11800 ≤ off ∧ off < 0x11880 then
    let d := s.die ((off - 0x11800) / 16)
    if off % 16 = 0 then d.overlaps.toNat else d.strictFaults.toNat
  else if 0x12000 ≤ off ∧ off < 0x13000 then s.port0.injectors (off - 0x12000)
  else if 0x20000 ≤ off ∧ off < 0x28000 then leVal ((List.range 8).map (fun i => Memory.get s.port0.msixTable (off - 0x20000 + i)))
  else if 0x28000 ≤ off ∧ off < 0x28100 then fieldN s.port0.msixPending (8 * (off - 0x28000)) 64
  else 0

/-- The dword at an aligned offset of BAR4 (R395). MBCMD, which R395 makes a register for writes, reads 0 (DESIGN CHOICE, log 33). -/
def State.mailboxDword (s : State) (off : Nat) : Nat :=
  let b := s.boot
  if off = 0x000 then b.stage + 2 ^ 4 * b.err + 2 ^ 12 * bitNat b.busy
  else if off = 0x010 then b.mbaddr.toNat
  else if off = 0x018 then b.mblen.toNat
  else if 0x020 ≤ off ∧ off < 0x040 then fieldN b.mbnonce (8 * (off - 0x020)) 64
  else if off = 0x040 then b.junction + 2 ^ 16 * bitNat b.throttled + 2 ^ 17 * bitNat b.tripped
  else if 0x1000 ≤ off ∧ off < 0x2000 then leVal ((b.mbreport.drop (off - 0x1000)).take 8)
  else 0

/-- n bytes from an offset on, read dword by dword. -/
def readDwords (dword : Nat → Nat) (off n : Nat) : List Byte :=
  (((rangeFrom (off / 8) (ceilDiv (off + n) 8)).flatMap (fun d => bytesOf (dword (8 * d)) 8)).drop (off % 8)).take n

/-- Whether a page of BAR0 takes aligned 8-byte accesses only (R376, R391). -/
def wholeOnly (off : Nat) : Bool := off < 0x1000 || (0x12000 ≤ off && off < 0x13000)

/-- A read of BAR0 or BAR4. Until stage 4 BAR0 reads zero (R394). An access that a page does not take is ignored, and reads zero
(DESIGN CHOICE, log 33). -/
def State.hostRead (s : State) (bar off n : Nat) : State :=
  let whole := n == 8 && off % 8 == 0
  let zeros := List.replicate n 0
  s.answer
    (if bar = 4 then (if whole then readDwords s.mailboxDword off n else zeros)
     else if s.boot.stage ≠ 4 || (!whole && (wholeOnly off || wholeOnly (off + n - 1))) then zeros
     else readDwords s.bar0Dword off n) none

/-! ## BAR2 (R377) -/

/-- An access that misses: ones for a read, an event of source 5 (R377). -/
def State.missAccess (s : State) (n index : Nat) : State := (s.reject 2 index).answer (List.replicate n 0xFF) none

/-- What an access from outside meets on the way from an I/O die to the home die of its bytes (R67, R371, R386). -/
def State.wayIn (s : State) (exits : List Nat) (pa : Nat) : Option Nat := (s.homeDie pa).bind (fun d => s.exitCause d exits)

/-- Whether the home slices serve an access from outside: its bytes lie in a range and its way there is whole. R377 names the fate of
an access in no range alone; one whose home die cannot be reached shares it (DESIGN CHOICE, log 33). -/
def State.serves (s : State) (exits : List Nat) (pa n : Nat) : Bool := s.inRange pa n && (s.wayIn exits pa).isNone

/-- A read at the home slices that does not recall stash lines (R239, R377). -/
def State.sliceRead (s : State) (exits : List Nat) (keyid pa n index : Nat) : State :=
  if s.serves exits pa n then
    s.answer ((List.range n).map (fun i => s.readPlain (s.keyMaterial keyid) (memKey 0 (pa + i)))) none
  else s.missAccess n index

/-- The queue in whose mutable half a byte lies, with its offset there (R37). -/
def State.mutableAt (s : State) (k : Nat) : Option (Nat × Nat) :=
  s.queues.findSome? (fun x =>
    match s.translate x.ctx none x.mutAddr 128 .write with
    | .ok p => if p.key ≤ k && k < p.key + 128 then some (x.q, k - p.key) else none
    | .error _ => none)

/-- Whether a byte lies in the mutable half of a queue. -/
def State.inMutable (s : State) (k : Nat) : Bool := (s.mutableAt k).isSome

/-- An attempt to write mutable halves logged (R37): each queue once, with the lowest offset. -/
def State.logAttempts (s : State) (hits : List (Nat × Nat)) : State :=
  let first := (hits.map (·.1)).eraseDups.filterMap (fun q => hits.find? (fun h => h.1 == q))
  { s with port0 := { s.port0 with attempts := s.port0.attempts ++ first } }

/-- A write at the home slices: stash lines are recalled first (R377); bytes of a mutable half are dropped, and the attempt is logged
(R37). -/
def State.sliceWrite (s : State) (exits : List Nat) (keyid pa : Nat) (bs : List Byte) (index : Nat) : State :=
  let km := s.keyMaterial keyid
  let cells := bs.mapIdx (fun i b => (memKey 0 (pa + i), b))
  if !s.serves exits pa bs.length then s.missAccess 0 index
  else if cells.any (fun c => s.inMutable c.1) then
    (((cells.filter (fun c => !s.inMutable c.1)).foldl (fun s c => s.agentWrite km c.1 [c.2]) s).logAttempts
      (cells.filterMap (fun c => s.mutableAt c.1))).answer [] none
  else (s.agentWrite km (memKey 0 pa) bs).answer [] none

/-- The window of a BAR2 offset, and the physical address behind it. -/
def State.bar2Window (s : State) (off : Nat) : Option (BarWindow × Nat) :=
  match s.port0.bar2[off / 2 ^ 32]? with
  | some w => if w.en then some (w, w.pbase * 2 ^ 32 + off % 2 ^ 32) else none
  | none => none

/-- BAR2_READ. Until stage 4 BAR2 reads all ones (R394). -/
def execBar2Read (off n : Nat) (s : State) : Host.Outcome State Fault Refusal :=
  if s.boot.stage ≠ 4 then .next (s.answer (List.replicate n 0xFF) none)
  else
    match s.bar2Window off with
    | some (w, pa) => .next (s.sliceRead westExits w.keyid pa n off)
    | none => .next (s.missAccess n off)

/-- BAR2_WRITE. -/
def execBar2Write (off : Nat) (bytes : List (BitVec 8)) (s : State) : Host.Outcome State Fault Refusal :=
  if s.boot.stage ≠ 4 then .next s
  else
    match s.bar2Window off with
    | some (w, pa) => .next (s.sliceWrite westExits w.keyid pa bytes off)
    | none => .next (s.missAccess 0 off)

/-! ## Peers and CXL.mem -/

/-- An access at the home slices. -/
def State.sliceAccess (s : State) (exits : List Nat) (keyid pa : Nat) (req : Transfer) (index : Nat) : State :=
  match req with
  | .read n => s.sliceRead exits keyid pa n index
  | .write bs => s.sliceWrite exits keyid pa bs index

/-- Whether an inbound window admits a request (R385). -/
def InboundWindow.admits (w : InboundWindow) (src : BitVec 16) (a : Nat) (req : Transfer) : Bool :=
  let n := match req with
    | .read n => n
    | .write bs => bs.length
  let right := match req with
    | .read _ => w.rd
    | .write _ => w.wr
  w.en && right && (w.src == 0xFFFF || w.src == src.toNat) && w.pbase * 4096 ≤ a && a + n ≤ (w.pbase + w.pages) * 4096

/-- The dies that the I/O die attaches to whose port brings a peer's request: which port of the part the switch takes is not stated
(log 5). -/
def State.inboundExits (s : State) : List Nat := if Config.inboundEast s.freeCtr then eastExits else westExits

/-- PEER_INBOUND_REQUEST (R385): a request that no window admits is refused, and the sender sees 0x06. The sender of one whose home die
cannot be reached, or lies behind a failed link, sees that cause (R354, R371). -/
def execPeerInboundRequest (src : BitVec 16) (a : Nat) (req : Transfer) (s : State) : Host.Outcome State Fault Refusal :=
  match (if s.boot.stage = 4 then s.port0.inbound.toList.find? (fun w => w.admits src a req) else none) with
  | some w =>
    match s.wayIn s.inboundExits a with
    | some cause => .next (s.answer [] (some cause))
    | none => .next (s.sliceAccess s.inboundExits w.keyid a req a)
  | none => .next (s.answer [] (some 0x06))

/-- CXL_MEM_REQUEST (R378): with coherent caching through the coherent hierarchy, stash lines recalled; else as a BAR2 access. A port
that trained as plain PCI Express has no such range. What a write does at the home slice is the same either way: it takes stash lines away,
and changes no byte of a queue's mutable half, which only the device writes (R37; that such a write is logged too is DEDUCED, log 34). -/
def execCxlMemRequest (a : Nat) (req : Transfer) (s : State) : Host.Outcome State Fault Refusal :=
  if s.boot.stage ≠ 4 ∨ !s.port0.cxl then .next (s.answer [] (some 0x06))
  else if !s.port0.coh then .next (s.sliceAccess westExits 0 a req a)
  else
    match req with
    | .read n =>
      if s.serves westExits a n then
        let s1 := s.recallForRead (memKey 0 a) n
        .next (s1.answer (s1.peekBytes none (memKey 0 a) n) none)
      else .next (s.missAccess n a)
    | .write bs => .next (s.sliceWrite westExits 0 a bs a)

end Sys2Proof.Machine
end

