-- ==== Sys2Proof/Machine/Scalar.lean ====
section
/-! DEFINITION. The base subset of the control core but for its A and Zicsr instructions (R92, R113, R114, R340): one
meaning for each instruction over the shared operations at the head of the file. -/

namespace Sys2Proof.Machine

/-- A control word that reads rs and writes v to rd. A poisoned source raises 0x0E (R352). -/
def State.alu (s : State) (rs : List (BitVec 5)) (rd : BitVec 5) (v : Word) : Act :=
  if s.xBad rs then .trap s (s.xTrap rs) else .go (s.setX rd v)

/-- The low 32 bits of a value, sign-extended: the result of every word form (R113). -/
def sextW (v : Word) : Word := (v.setWidth 32).signExtend 64

/-- 1 or 0, as a set-if-less instruction writes it. -/
def flagWord (b : Bool) : Word := if b then 1 else 0

/-- The upper immediate of LUI and AUIPC: 20 bits above 12 zeros, sign-extended. -/
def upperImm (imm : BitVec 20) : Word := (imm ++ 0#12).signExtend 64

/-- The offset of a conditional branch: 12 bits, in units of 2. -/
def branchOffset (imm : BitVec 12) : Word := (imm ++ 0#1).signExtend 64

/-- The offset of JAL: 20 bits, in units of 2. -/
def jumpOffset (imm : BitVec 20) : Word := (imm ++ 0#1).signExtend 64

/-- A jump to a target with a link; a target that is not a multiple of 4 raises 0x03, the jump does not happen and rd is
unchanged (R92). -/
def State.jumpTo (s : State) (rd : BitVec 5) (target : Word) : Act :=
  if target.toNat % 4 ≠ 0 then .trap s { cause := 0x03, addr := some target }
  else .jump ((s.setX rd (s.task.pc + 4)).advance.onTask (fun t => { t with pc := target }))

/-- A conditional branch (R92, R113). -/
def State.branch (s : State) (rs1 rs2 : BitVec 5) (taken : Bool) (imm : BitVec 12) : Act :=
  if s.xBad [rs1, rs2] then .trap s (s.xTrap [rs1, rs2])
  else if taken then s.jumpTo 0 (s.task.pc + branchOffset imm)
  else .go s

/-- The address of a base load or store. -/
def State.baseAddr (s : State) (rs1 : BitVec 5) (imm : BitVec 12) : Word := s.x rs1 + imm.signExtend 64

/-- A base load of n bytes (R114): alignment, then translation, then poison; ext widens the value read. -/
def State.load (s : State) (rd rs1 : BitVec 5) (imm : BitVec 12) (n : Nat) (ext : Nat → Word) : Act :=
  let a := s.baseAddr rs1 imm
  if s.xBad [rs1] then .trap s (s.xTrap [rs1])
  else if a.toNat % n ≠ 0 then .trap s { cause := 0x03, addr := some a }
  else orTrap s (s.locateRead a n) (fun p => .go ((s.afterRead p n 0).setX rd (ext (s.viewNat p n))))

/-- A base store of the low n bytes of x[rs2] (R114). -/
def State.store (s : State) (rs1 rs2 : BitVec 5) (imm : BitVec 12) (n : Nat) : Act :=
  let a := s.baseAddr rs1 imm
  if s.xBad [rs1, rs2] then .trap s (s.xTrap [rs1, rs2])
  else if a.toNat % n ≠ 0 then .trap s { cause := 0x03, addr := some a }
  else orTrap s (s.locate a n .write) (fun p =>
    orTrap s (s.storeAt p (bytesOf (s.x rs2).toNat n)) (fun s => .go s))

/-- Division of the published ISA, signed: by zero −1, overflow the dividend (R114). -/
def divS {n : Nat} (a b : BitVec n) : BitVec n := if b = 0 then BitVec.allOnes n else a.sdiv b

/-- Division of the published ISA, unsigned: by zero all ones (R114). -/
def divU {n : Nat} (a b : BitVec n) : BitVec n := if b = 0 then BitVec.allOnes n else a.udiv b

/-- Remainder of the published ISA, signed: by zero the dividend, overflow 0 (R114). -/
def remS {n : Nat} (a b : BitVec n) : BitVec n := if b = 0 then a else a.srem b

/-- Remainder of the published ISA, unsigned: by zero the dividend (R114). -/
def remU {n : Nat} (a b : BitVec n) : BitVec n := if b = 0 then a else a.umod b

/-- Bits 127 to 64 of a product of integers. -/
def highWord (y : Int) : Word := BitVec.ofInt 64 (y / 2 ^ 64)

/-- LUI (R113). -/
def execLui (rd : BitVec 5) (imm : BitVec 20) (s : State) : Host.Outcome State Fault Refusal :=
  s.issue .c true (fun s => s.alu [] rd (upperImm imm))

/-- AUIPC (R113). -/
def execAuipc (rd : BitVec 5) (imm : BitVec 20) (s : State) : Host.Outcome State Fault Refusal :=
  s.issue .c true (fun s => s.alu [] rd (s.task.pc + upperImm imm))

/-- JAL (R92, R113). -/
def execJal (rd : BitVec 5) (imm : BitVec 20) (s : State) : Host.Outcome State Fault Refusal :=
  s.issue .c true (fun s => s.jumpTo rd (s.task.pc + jumpOffset imm))

/-- JALR: the target drops its lowest bit (R92, R113). -/
def execJalr (rd rs1 : BitVec 5) (imm : BitVec 12) (s : State) : Host.Outcome State Fault Refusal :=
  s.issue .c true (fun s =>
    if s.xBad [rs1] then .trap s (s.xTrap [rs1])
    else s.jumpTo rd ((s.x rs1 + imm.signExtend 64) &&& ~~~1#64))

/-- BEQ (R113). -/
def execBeq (rs1 rs2 : BitVec 5) (imm : BitVec 12) (s : State) : Host.Outcome State Fault Refusal :=
  s.issue .c true (fun s => s.branch rs1 rs2 (s.x rs1 == s.x rs2) imm)

/-- BNE (R113). -/
def execBne (rs1 rs2 : BitVec 5) (imm : BitVec 12) (s : State) : Host.Outcome State Fault Refusal :=
  s.issue .c true (fun s => s.branch rs1 rs2 (s.x rs1 != s.x rs2) imm)

/-- BLT (R113). -/
def execBlt (rs1 rs2 : BitVec 5) (imm : BitVec 12) (s : State) : Host.Outcome State Fault Refusal :=
  s.issue .c true (fun s => s.branch rs1 rs2 ((s.x rs1).slt (s.x rs2)) imm)

/-- BGE (R113). -/
def execBge (rs1 rs2 : BitVec 5) (imm : BitVec 12) (s : State) : Host.Outcome State Fault Refusal :=
  s.issue .c true (fun s => s.branch rs1 rs2 (!(s.x rs1).slt (s.x rs2)) imm)

/-- BLTU (R113). -/
def execBltu (rs1 rs2 : BitVec 5) (imm : BitVec 12) (s : State) : Host.Outcome State Fault Refusal :=
  s.issue .c true (fun s => s.branch rs1 rs2 ((s.x rs1).ult (s.x rs2)) imm)

/-- BGEU (R113). -/
def execBgeu (rs1 rs2 : BitVec 5) (imm : BitVec 12) (s : State) : Host.Outcome State Fault Refusal :=
  s.issue .c true (fun s => s.branch rs1 rs2 (!(s.x rs1).ult (s.x rs2)) imm)

/-- LB (R113, R114). -/
def execLb (rd rs1 : BitVec 5) (imm : BitVec 12) (s : State) : Host.Outcome State Fault Refusal :=
  s.issue .c true (fun s => s.load rd rs1 imm 1 (fun v => (BitVec.ofNat 8 v).signExtend 64))

/-- LH (R113, R114). -/
def execLh (rd rs1 : BitVec 5) (imm : BitVec 12) (s : State) : Host.Outcome State Fault Refusal :=
  s.issue .c true (fun s => s.load rd rs1 imm 2 (fun v => (BitVec.ofNat 16 v).signExtend 64))

/-- LW (R113, R114). -/
def execLw (rd rs1 : BitVec 5) (imm : BitVec 12) (s : State) : Host.Outcome State Fault Refusal :=
  s.issue .c true (fun s => s.load rd rs1 imm 4 (fun v => (BitVec.ofNat 32 v).signExtend 64))

/-- LD (R113, R114). -/
def execLd (rd rs1 : BitVec 5) (imm : BitVec 12) (s : State) : Host.Outcome State Fault Refusal :=
  s.issue .c true (fun s => s.load rd rs1 imm 8 (fun v => BitVec.ofNat 64 v))

/-- LBU (R113, R114). -/
def execLbu (rd rs1 : BitVec 5) (imm : BitVec 12) (s : State) : Host.Outcome State Fault Refusal :=
  s.issue .c true (fun s => s.load rd rs1 imm 1 (fun v => BitVec.ofNat 64 v))

/-- LHU (R113, R114). -/
def execLhu (rd rs1 : BitVec 5) (imm : BitVec 12) (s : State) : Host.Outcome State Fault Refusal :=
  s.issue .c true (fun s => s.load rd rs1 imm 2 (fun v => BitVec.ofNat 64 v))

/-- LWU (R113, R114). -/
def execLwu (rd rs1 : BitVec 5) (imm : BitVec 12) (s : State) : Host.Outcome State Fault Refusal :=
  s.issue .c true (fun s => s.load rd rs1 imm 4 (fun v => BitVec.ofNat 64 v))

/-- SB (R113, R114). -/
def execSb (rs1 rs2 : BitVec 5) (imm : BitVec 12) (s : State) : Host.Outcome State Fault Refusal :=
  s.issue .c true (fun s => s.store rs1 rs2 imm 1)

/-- SH (R113, R114). -/
def execSh (rs1 rs2 : BitVec 5) (imm : BitVec 12) (s : State) : Host.Outcome State Fault Refusal :=
  s.issue .c true (fun s => s.store rs1 rs2 imm 2)

/-- SW (R113, R114). -/
def execSw (rs1 rs2 : BitVec 5) (imm : BitVec 12) (s : State) : Host.Outcome State Fault Refusal :=
  s.issue .c true (fun s => s.store rs1 rs2 imm 4)

/-- SD (R113, R114). -/
def execSd (rs1 rs2 : BitVec 5) (imm : BitVec 12) (s : State) : Host.Outcome State Fault Refusal :=
  s.issue .c true (fun s => s.store rs1 rs2 imm 8)

/-- ADDI (R113). -/
def execAddi (rd rs1 : BitVec 5) (imm : BitVec 12) (s : State) : Host.Outcome State Fault Refusal :=
  s.issue .c true (fun s => s.alu [rs1] rd (s.x rs1 + imm.signExtend 64))

/-- SLTI (R113). -/
def execSlti (rd rs1 : BitVec 5) (imm : BitVec 12) (s : State) : Host.Outcome State Fault Refusal :=
  s.issue .c true (fun s => s.alu [rs1] rd (flagWord ((s.x rs1).slt (imm.signExtend 64))))

/-- SLTIU (R113). -/
def execSltiu (rd rs1 : BitVec 5) (imm : BitVec 12) (s : State) : Host.Outcome State Fault Refusal :=
  s.issue .c true (fun s => s.alu [rs1] rd (flagWord ((s.x rs1).ult (imm.signExtend 64))))

/-- XORI (R113). -/
def execXori (rd rs1 : BitVec 5) (imm : BitVec 12) (s : State) : Host.Outcome State Fault Refusal :=
  s.issue .c true (fun s => s.alu [rs1] rd (s.x rs1 ^^^ imm.signExtend 64))

/-- ORI (R113). -/
def execOri (rd rs1 : BitVec 5) (imm : BitVec 12) (s : State) : Host.Outcome State Fault Refusal :=
  s.issue .c true (fun s => s.alu [rs1] rd (s.x rs1 ||| imm.signExtend 64))

/-- ANDI (R113). -/
def execAndi (rd rs1 : BitVec 5) (imm : BitVec 12) (s : State) : Host.Outcome State Fault Refusal :=
  s.issue .c true (fun s => s.alu [rs1] rd (s.x rs1 &&& imm.signExtend 64))

/-- SLLI (R113). -/
def execSlli (rd rs1 : BitVec 5) (shamt : BitVec 6) (s : State) : Host.Outcome State Fault Refusal :=
  s.issue .c true (fun s => s.alu [rs1] rd (s.x rs1 <<< shamt.toNat))

/-- SRLI (R113). -/
def execSrli (rd rs1 : BitVec 5) (shamt : BitVec 6) (s : State) : Host.Outcome State Fault Refusal :=
  s.issue .c true (fun s => s.alu [rs1] rd (s.x rs1 >>> shamt.toNat))

/-- SRAI (R113). -/
def execSrai (rd rs1 : BitVec 5) (shamt : BitVec 6) (s : State) : Host.Outcome State Fault Refusal :=
  s.issue .c true (fun s => s.alu [rs1] rd ((s.x rs1).sshiftRight shamt.toNat))

/-- ADD (R113). -/
def execAdd (rd rs1 rs2 : BitVec 5) (s : State) : Host.Outcome State Fault Refusal :=
  s.issue .c true (fun s => s.alu [rs1, rs2] rd (s.x rs1 + s.x rs2))

/-- SUB (R113). -/
def execSub (rd rs1 rs2 : BitVec 5) (s : State) : Host.Outcome State Fault Refusal :=
  s.issue .c true (fun s => s.alu [rs1, rs2] rd (s.x rs1 - s.x rs2))

/-- SLL (R113). -/
def execSll (rd rs1 rs2 : BitVec 5) (s : State) : Host.Outcome State Fault Refusal :=
  s.issue .c true (fun s => s.alu [rs1, rs2] rd (s.x rs1 <<< ((s.x rs2).toNat % 64)))

/-- SLT (R113). -/
def execSlt (rd rs1 rs2 : BitVec 5) (s : State) : Host.Outcome State Fault Refusal :=
  s.issue .c true (fun s => s.alu [rs1, rs2] rd (flagWord ((s.x rs1).slt (s.x rs2))))

/-- SLTU (R113). -/
def execSltu (rd rs1 rs2 : BitVec 5) (s : State) : Host.Outcome State Fault Refusal :=
  s.issue .c true (fun s => s.alu [rs1, rs2] rd (flagWord ((s.x rs1).ult (s.x rs2))))

/-- XOR (R113). -/
def execXor (rd rs1 rs2 : BitVec 5) (s : State) : Host.Outcome State Fault Refusal :=
  s.issue .c true (fun s => s.alu [rs1, rs2] rd (s.x rs1 ^^^ s.x rs2))

/-- SRL (R113). -/
def execSrl (rd rs1 rs2 : BitVec 5) (s : State) : Host.Outcome State Fault Refusal :=
  s.issue .c true (fun s => s.alu [rs1, rs2] rd (s.x rs1 >>> ((s.x rs2).toNat % 64)))

/-- SRA (R113). -/
def execSra (rd rs1 rs2 : BitVec 5) (s : State) : Host.Outcome State Fault Refusal :=
  s.issue .c true (fun s => s.alu [rs1, rs2] rd ((s.x rs1).sshiftRight ((s.x rs2).toNat % 64)))

/-- OR (R113). -/
def execOr (rd rs1 rs2 : BitVec 5) (s : State) : Host.Outcome State Fault Refusal :=
  s.issue .c true (fun s => s.alu [rs1, rs2] rd (s.x rs1 ||| s.x rs2))

/-- AND (R113). -/
def execAnd (rd rs1 rs2 : BitVec 5) (s : State) : Host.Outcome State Fault Refusal :=
  s.issue .c true (fun s => s.alu [rs1, rs2] rd (s.x rs1 &&& s.x rs2))

/-- ADDIW (R113). -/
def execAddiw (rd rs1 : BitVec 5) (imm : BitVec 12) (s : State) : Host.Outcome State Fault Refusal :=
  s.issue .c true (fun s => s.alu [rs1] rd (sextW (s.x rs1 + imm.signExtend 64)))

/-- SLLIW (R113). -/
def execSlliw (rd rs1 shamt : BitVec 5) (s : State) : Host.Outcome State Fault Refusal :=
  s.issue .c true (fun s => s.alu [rs1] rd (sextW (s.x rs1 <<< shamt.toNat)))

/-- SRLIW (R113). -/
def execSrliw (rd rs1 shamt : BitVec 5) (s : State) : Host.Outcome State Fault Refusal :=
  s.issue .c true (fun s => s.alu [rs1] rd ((((s.x rs1).setWidth 32) >>> shamt.toNat).signExtend 64))

/-- SRAIW (R113). -/
def execSraiw (rd rs1 shamt : BitVec 5) (s : State) : Host.Outcome State Fault Refusal :=
  s.issue .c true (fun s => s.alu [rs1] rd (((((s.x rs1).setWidth 32) : BitVec 32).sshiftRight shamt.toNat).signExtend 64))

/-- ADDW (R113). -/
def execAddw (rd rs1 rs2 : BitVec 5) (s : State) : Host.Outcome State Fault Refusal :=
  s.issue .c true (fun s => s.alu [rs1, rs2] rd (sextW (s.x rs1 + s.x rs2)))

/-- SUBW (R113). -/
def execSubw (rd rs1 rs2 : BitVec 5) (s : State) : Host.Outcome State Fault Refusal :=
  s.issue .c true (fun s => s.alu [rs1, rs2] rd (sextW (s.x rs1 - s.x rs2)))

/-- SLLW (R113). -/
def execSllw (rd rs1 rs2 : BitVec 5) (s : State) : Host.Outcome State Fault Refusal :=
  s.issue .c true (fun s => s.alu [rs1, rs2] rd (sextW (s.x rs1 <<< ((s.x rs2).toNat % 32))))

/-- SRLW (R113). -/
def execSrlw (rd rs1 rs2 : BitVec 5) (s : State) : Host.Outcome State Fault Refusal :=
  s.issue .c true (fun s => s.alu [rs1, rs2] rd (((((s.x rs1).setWidth 32) : BitVec 32) >>> ((s.x rs2).toNat % 32)).signExtend 64))

/-- SRAW (R113). -/
def execSraw (rd rs1 rs2 : BitVec 5) (s : State) : Host.Outcome State Fault Refusal :=
  s.issue .c true (fun s => s.alu [rs1, rs2] rd (((((s.x rs1).setWidth 32) : BitVec 32).sshiftRight ((s.x rs2).toNat % 32)).signExtend 64))

/-- FENCE: orders accesses that the model performs in order (R114, log 4). -/
def execFence (_fm : BitVec 1) (_pred _succ : BitVec 4) (s : State) : Host.Outcome State Fault Refusal :=
  s.issue .c true (fun s => .go s)

/-- ECALL (R114, R340). -/
def execEcall  (s : State) : Host.Outcome State Fault Refusal :=
  s.issue .c true (fun s => .trap s (cause 0x10))

/-- EBREAK (R114, R340). -/
def execEbreak  (s : State) : Host.Outcome State Fault Refusal :=
  s.issue .c true (fun s => .trap s (cause 0x11))

/-- MUL (R113, R114). -/
def execMul (rd rs1 rs2 : BitVec 5) (s : State) : Host.Outcome State Fault Refusal :=
  s.issue .c true (fun s => s.alu [rs1, rs2] rd (s.x rs1 * s.x rs2))

/-- MULH (R113, R114). -/
def execMulh (rd rs1 rs2 : BitVec 5) (s : State) : Host.Outcome State Fault Refusal :=
  s.issue .c true (fun s => s.alu [rs1, rs2] rd (highWord ((s.x rs1).toInt * (s.x rs2).toInt)))

/-- MULHSU (R113, R114). -/
def execMulhsu (rd rs1 rs2 : BitVec 5) (s : State) : Host.Outcome State Fault Refusal :=
  s.issue .c true (fun s => s.alu [rs1, rs2] rd (highWord ((s.x rs1).toInt * ((s.x rs2).toNat : Int))))

/-- MULHU (R113, R114). -/
def execMulhu (rd rs1 rs2 : BitVec 5) (s : State) : Host.Outcome State Fault Refusal :=
  s.issue .c true (fun s => s.alu [rs1, rs2] rd (highWord (((s.x rs1).toNat : Int) * ((s.x rs2).toNat : Int))))

/-- DIV (R113, R114). -/
def execDiv (rd rs1 rs2 : BitVec 5) (s : State) : Host.Outcome State Fault Refusal :=
  s.issue .c true (fun s => s.alu [rs1, rs2] rd (divS (s.x rs1) (s.x rs2)))

/-- DIVU (R113, R114). -/
def execDivu (rd rs1 rs2 : BitVec 5) (s : State) : Host.Outcome State Fault Refusal :=
  s.issue .c true (fun s => s.alu [rs1, rs2] rd (divU (s.x rs1) (s.x rs2)))

/-- REM (R113, R114). -/
def execRem (rd rs1 rs2 : BitVec 5) (s : State) : Host.Outcome State Fault Refusal :=
  s.issue .c true (fun s => s.alu [rs1, rs2] rd (remS (s.x rs1) (s.x rs2)))

/-- REMU (R113, R114). -/
def execRemu (rd rs1 rs2 : BitVec 5) (s : State) : Host.Outcome State Fault Refusal :=
  s.issue .c true (fun s => s.alu [rs1, rs2] rd (remU (s.x rs1) (s.x rs2)))

/-- MULW (R113, R114). -/
def execMulw (rd rs1 rs2 : BitVec 5) (s : State) : Host.Outcome State Fault Refusal :=
  s.issue .c true (fun s => s.alu [rs1, rs2] rd (sextW (s.x rs1 * s.x rs2)))

/-- DIVW (R113, R114). -/
def execDivw (rd rs1 rs2 : BitVec 5) (s : State) : Host.Outcome State Fault Refusal :=
  s.issue .c true (fun s => s.alu [rs1, rs2] rd ((divS (((s.x rs1).setWidth 32) : BitVec 32) ((s.x rs2).setWidth 32)).signExtend 64))

/-- DIVUW (R113, R114). -/
def execDivuw (rd rs1 rs2 : BitVec 5) (s : State) : Host.Outcome State Fault Refusal :=
  s.issue .c true (fun s => s.alu [rs1, rs2] rd ((divU (((s.x rs1).setWidth 32) : BitVec 32) ((s.x rs2).setWidth 32)).signExtend 64))

/-- REMW (R113, R114). -/
def execRemw (rd rs1 rs2 : BitVec 5) (s : State) : Host.Outcome State Fault Refusal :=
  s.issue .c true (fun s => s.alu [rs1, rs2] rd ((remS (((s.x rs1).setWidth 32) : BitVec 32) ((s.x rs2).setWidth 32)).signExtend 64))

/-- REMUW (R113, R114). -/
def execRemuw (rd rs1 rs2 : BitVec 5) (s : State) : Host.Outcome State Fault Refusal :=
  s.issue .c true (fun s => s.alu [rs1, rs2] rd ((remU (((s.x rs1).setWidth 32) : BitVec 32) ((s.x rs2).setWidth 32)).signExtend 64))

end Sys2Proof.Machine
end

