-- ==== Sys2Proof/Machine/Stash.lean ====
section
/-! DEFINITION. Stash windows (R239, R240), STWB and STDROP (R241), retention registers (R237, R238). -/

namespace Sys2Proof.Machine

/-! ## Windows -/

/-- The checks of a window's range (R240). -/
def rangeOk (g z : Nat) : Bool := g % 256 == 0 && z % 256 == 0 && z != 0 && z ≤ 2 ^ 30 && g + z ≤ 2 ^ 48

/-- Whether a range overlaps a window of a task. -/
def Task.overlapsWindow (t : Task) (g z : Nat) : Bool :=
  t.windows.toList.any (fun w =>
    match w with
    | some w => overlap g z w.base w.size
    | none => false)

/-- The first block that a window mapped now serves: on the control core the next one dispatched (R240). -/
def State.windowSince (s : State) : Nat :=
  match s.cur, s.task.block with
  | .control, _ => s.task.nextSerial
  | _, some b => b.serial
  | _, none => s.task.nextSerial

/-- STMAP (R240). -/
def execStmap (rs1 rs2 rs3 : BitVec 5) (s : State) : Host.Outcome State Fault Refusal :=
  s.issue .cb true (fun s => s.needX [rs1, rs2, rs3] [] (fun s =>
    let w := (s.x rs1).toNat
    let g := (s.x rs2).toNat
    let z := (s.x rs3).toNat
    if 7 < w then .trap s (cause 0x08)
    else if !rangeOk g z then .trap s (cause 0x03)
    else if ((s.task.windows[w]?).getD none).isSome || s.task.overlapsWindow g z then .trap s (cause 0x08)
    else if !s.stashRoom s.task.id.ctx s.task.id.region z then .trap s (cause 0x0C)
    else
      .go (s.onTask (fun t => { t with windows := t.windows.setIfInBounds w (some { base := g, size := z, since := s.windowSince }) }))))

/-- A window removed: its lines written back and invalidated (R240). -/
def State.unmapWindow (s : State) (w : Nat) : State :=
  match (s.task.windows[w]?).getD none with
  | none => s
  | some r =>
    (s.flushLines (s.task.ownsLine (fun a => r.base ≤ a && a < r.base + r.size))).onTask
      (fun t => { t with windows := t.windows.setIfInBounds w none })

/-- STUNMAP; on the control core it first waits until every earlier block has completed (R240). -/
def execStunmap (rs1 : BitVec 5) (s : State) : Host.Outcome State Fault Refusal :=
  s.issue .cb true (fun s => s.needX [rs1] [] (fun s =>
    if 7 < (s.x rs1).toNat then .trap s (cause 0x08)
    else if s.cur == .control && s.task.blocksLeft then .wait s
    else .go (s.unmapWindow (s.x rs1).toNat)))

/-- The task's lines in a range (R241). -/
def State.linesIn (s : State) (a z : Nat) : StashLine → Bool := s.task.ownsLine (fun l => a ≤ l && l < a + z)

/-- STWB: the task's dirty lines in the range are written back and stay, clean (R241). -/
def execStwb (rs1 rs2 : BitVec 5) (s : State) : Host.Outcome State Fault Refusal :=
  s.issue .cb true (fun s => s.needX [rs1, rs2] [] (fun s =>
    let a := (s.x rs1).toNat
    let z := (s.x rs2).toNat
    if a % 256 ≠ 0 ∨ z % 256 ≠ 0 then .trap s (cause 0x03) else .go (s.cleanLines (s.linesIn a z))))

/-- STDROP: the task's lines in the range are invalidated, their unwritten stores lost; not in a deterministic region (R241,
R322). -/
def execStdrop (rs1 rs2 : BitVec 5) (s : State) : Host.Outcome State Fault Refusal :=
  s.issue .cb true (fun s => s.needX [rs1, rs2] [] (fun s =>
    let a := (s.x rs1).toNat
    let z := (s.x rs2).toNat
    if a % 256 ≠ 0 ∨ z % 256 ≠ 0 then .trap s (cause 0x03)
    else if s.det then .trap s (cause 0x08)
    else .go (s.dropLines (s.linesIn a z))))

/-! ## Retention registers -/

/-- Retention register n of a die. -/
def Die.retained (d : Die) (n : Nat) : Option Retention := (d.retention[n]?).getD none

/-- The ways that the other retention registers of a die hold (R238). -/
def Die.otherWays (d : Die) (n : Nat) : Nat :=
  sumBy (fun i => if i = n then 0 else
    match d.retained i with
    | some r => r.ways
    | none => 0) (List.range 8)

/-- Whether another context holds retention register n. -/
def Die.heldByOther (d : Die) (n ctx : Nat) : Bool :=
  match d.retained n with
  | some r => r.ctx != ctx
  | none => false

/-- L2PIN (R238). -/
def execL2pin (n : BitVec 3) (rs1 rs2 ways : BitVec 5) (s : State) : Host.Outcome State Fault Refusal :=
  s.issue .c (1 ≤ ways.toNat && ways.toNat ≤ 8) (fun s => s.needX [rs1, rs2] [] (fun s =>
    let b := (s.x rs1).toNat
    let z := (s.x rs2).toNat
    let p := s.dieOf s.task
    if b % 128 ≠ 0 ∨ z % 128 ≠ 0 ∨ z = 0 ∨ b + z > 2 ^ 48 then .trap s (cause 0x03)
    else if (s.die p).heldByOther n.toNat s.task.id.ctx then .trap s (cause 0x06)
    else if (s.die p).otherWays n.toNat + ways.toNat > 8 then .trap s (cause 0x08)
    else
      let r : Retention := { base := b, size := z, ways := ways.toNat, ctx := s.task.id.ctx }
      .go (s.modDie p (fun d => { d with retention := d.retention.setIfInBounds n.toNat (some r) }))))

/-- L2UNPIN (R238). -/
def execL2unpin (n : BitVec 3) (s : State) : Host.Outcome State Fault Refusal :=
  s.issue .c true (fun s =>
    let p := s.dieOf s.task
    if (s.die p).heldByOther n.toNat s.task.id.ctx then .trap s (cause 0x06)
    else .go (s.modDie p (fun d => { d with retention := d.retention.setIfInBounds n.toNat none })))

end Sys2Proof.Machine
end

