-- ==== Sys2Proof/Machine/Streams.lean ====
section
/-! DEFINITION. Stream bindings: SBIND, SUNBIND (R263, R264), and refills (R265). Pops stand with the operand forms. -/

namespace Sys2Proof.Machine

/-- The fields of a stream descriptor that R263 restricts; dimension j is unused from ndim on. -/
def streamOk (d : BitVec 512) : Bool :=
  let ndim := fieldN d (8 * 0x39) 8
  streamEew d ≤ 3 && 1 ≤ ndim && ndim ≤ 4 && fieldN d (8 * 0x3A) 8 ≤ 3 && fieldN d (8 * 0x3B) 40 == 0
    && fieldN d 0 64 % 2 ^ streamEew d == 0
    && (List.range 4).all (fun j => streamExt d j != 0 && (j < ndim || (streamExt d j == 1 && streamStride d j == 0)))

/-- A register bound or unbound. -/
def Task.setBinding (t : Task) (vd : Nat) (b : Option Stream) : Task := { t with streams := t.streams.setIfInBounds (vd - 24) b }

/-- SBIND (R264). -/
def execSbind (vd rs1 : BitVec 5) (s : State) : Host.Outcome State Fault Refusal :=
  s.issue .b (24 ≤ vd.toNat) (fun s => s.needFlag 12 1 (
    if s.task.fold ≠ 1 then .trap s illegal
    else s.needX [rs1] [] (fun s =>
      let a := s.x rs1
      if a.toNat % 64 ≠ 0 then .trap s { cause := 0x03, addr := some a }
      else orTrap s (s.locateRead a 64) (fun p =>
        let d : BitVec 512 := BitVec.ofNat 512 (s.viewNat p 64)
        if !streamOk d then .trap s (cause 0x08)
        else .go ((s.afterRead p 64 0).onTask (fun t => t.setBinding vd.toNat (some { desc := d, cursor := 0 })))))))

/-- SUNBIND: unbinds the register and zeroes it (R264). -/
def execSunbind (vd : BitVec 5) (s : State) : Host.Outcome State Fault Refusal :=
  s.issue .b (24 ≤ vd.toNat) (fun s => s.needFlag 12 1 (
    if s.task.fold ≠ 1 then .trap s illegal
    else if (s.task.binding vd.toNat).isNone then .go s
    else
      .go (s.onTask (fun t =>
        { t.setBinding vd.toNat none with v := t.v.setIfInBounds vd.toNat 0
                                          vPoison := t.vPoison.filter (fun m => m.1 != vd.toNat) }))))

/-- STREAM_REFILL: refilling ahead of the cursor changes timing only (R265). -/
def execStreamRefill (_tid : Nat) (_vd : BitVec 5) (s : State) : Host.Outcome State Fault Refusal := .next s

end Sys2Proof.Machine
end

