-- ==== Sys2Proof/Machine/Dispatch.lean ====
section
/-! DEFINITION. One arm for each instruction of the opcode table: its meaning, or a rejection by name. -/

namespace Sys2Proof.Machine

def exec (i : Instr) (s : State) : Host.Outcome State Fault Refusal :=
  match i with
  | .lui rd imm => Sys2Proof.Machine.execLui rd imm s
  | .auipc rd imm => Sys2Proof.Machine.execAuipc rd imm s
  | .jal rd imm => Sys2Proof.Machine.execJal rd imm s
  | .jalr rd rs1 imm => Sys2Proof.Machine.execJalr rd rs1 imm s
  | .beq rs1 rs2 imm => Sys2Proof.Machine.execBeq rs1 rs2 imm s
  | .bne rs1 rs2 imm => Sys2Proof.Machine.execBne rs1 rs2 imm s
  | .blt rs1 rs2 imm => Sys2Proof.Machine.execBlt rs1 rs2 imm s
  | .bge rs1 rs2 imm => Sys2Proof.Machine.execBge rs1 rs2 imm s
  | .bltu rs1 rs2 imm => Sys2Proof.Machine.execBltu rs1 rs2 imm s
  | .bgeu rs1 rs2 imm => Sys2Proof.Machine.execBgeu rs1 rs2 imm s
  | .lb rd rs1 imm => Sys2Proof.Machine.execLb rd rs1 imm s
  | .lh rd rs1 imm => Sys2Proof.Machine.execLh rd rs1 imm s
  | .lw rd rs1 imm => Sys2Proof.Machine.execLw rd rs1 imm s
  | .ld rd rs1 imm => Sys2Proof.Machine.execLd rd rs1 imm s
  | .lbu rd rs1 imm => Sys2Proof.Machine.execLbu rd rs1 imm s
  | .lhu rd rs1 imm => Sys2Proof.Machine.execLhu rd rs1 imm s
  | .lwu rd rs1 imm => Sys2Proof.Machine.execLwu rd rs1 imm s
  | .sb rs1 rs2 imm => Sys2Proof.Machine.execSb rs1 rs2 imm s
  | .sh rs1 rs2 imm => Sys2Proof.Machine.execSh rs1 rs2 imm s
  | .sw rs1 rs2 imm => Sys2Proof.Machine.execSw rs1 rs2 imm s
  | .sd rs1 rs2 imm => Sys2Proof.Machine.execSd rs1 rs2 imm s
  | .addi rd rs1 imm => Sys2Proof.Machine.execAddi rd rs1 imm s
  | .slti rd rs1 imm => Sys2Proof.Machine.execSlti rd rs1 imm s
  | .sltiu rd rs1 imm => Sys2Proof.Machine.execSltiu rd rs1 imm s
  | .xori rd rs1 imm => Sys2Proof.Machine.execXori rd rs1 imm s
  | .ori rd rs1 imm => Sys2Proof.Machine.execOri rd rs1 imm s
  | .andi rd rs1 imm => Sys2Proof.Machine.execAndi rd rs1 imm s
  | .slli rd rs1 shamt => Sys2Proof.Machine.execSlli rd rs1 shamt s
  | .srli rd rs1 shamt => Sys2Proof.Machine.execSrli rd rs1 shamt s
  | .srai rd rs1 shamt => Sys2Proof.Machine.execSrai rd rs1 shamt s
  | .add rd rs1 rs2 => Sys2Proof.Machine.execAdd rd rs1 rs2 s
  | .sub rd rs1 rs2 => Sys2Proof.Machine.execSub rd rs1 rs2 s
  | .sll rd rs1 rs2 => Sys2Proof.Machine.execSll rd rs1 rs2 s
  | .slt rd rs1 rs2 => Sys2Proof.Machine.execSlt rd rs1 rs2 s
  | .sltu rd rs1 rs2 => Sys2Proof.Machine.execSltu rd rs1 rs2 s
  | .xor rd rs1 rs2 => Sys2Proof.Machine.execXor rd rs1 rs2 s
  | .srl rd rs1 rs2 => Sys2Proof.Machine.execSrl rd rs1 rs2 s
  | .sra rd rs1 rs2 => Sys2Proof.Machine.execSra rd rs1 rs2 s
  | .or rd rs1 rs2 => Sys2Proof.Machine.execOr rd rs1 rs2 s
  | .and rd rs1 rs2 => Sys2Proof.Machine.execAnd rd rs1 rs2 s
  | .addiw rd rs1 imm => Sys2Proof.Machine.execAddiw rd rs1 imm s
  | .slliw rd rs1 shamt => Sys2Proof.Machine.execSlliw rd rs1 shamt s
  | .srliw rd rs1 shamt => Sys2Proof.Machine.execSrliw rd rs1 shamt s
  | .sraiw rd rs1 shamt => Sys2Proof.Machine.execSraiw rd rs1 shamt s
  | .addw rd rs1 rs2 => Sys2Proof.Machine.execAddw rd rs1 rs2 s
  | .subw rd rs1 rs2 => Sys2Proof.Machine.execSubw rd rs1 rs2 s
  | .sllw rd rs1 rs2 => Sys2Proof.Machine.execSllw rd rs1 rs2 s
  | .srlw rd rs1 rs2 => Sys2Proof.Machine.execSrlw rd rs1 rs2 s
  | .sraw rd rs1 rs2 => Sys2Proof.Machine.execSraw rd rs1 rs2 s
  | .fence fm pred succ => Sys2Proof.Machine.execFence fm pred succ s
  | .ecall => Sys2Proof.Machine.execEcall s
  | .ebreak => Sys2Proof.Machine.execEbreak s
  | .mul rd rs1 rs2 => Sys2Proof.Machine.execMul rd rs1 rs2 s
  | .mulh rd rs1 rs2 => Sys2Proof.Machine.execMulh rd rs1 rs2 s
  | .mulhsu rd rs1 rs2 => Sys2Proof.Machine.execMulhsu rd rs1 rs2 s
  | .mulhu rd rs1 rs2 => Sys2Proof.Machine.execMulhu rd rs1 rs2 s
  | .div rd rs1 rs2 => Sys2Proof.Machine.execDiv rd rs1 rs2 s
  | .divu rd rs1 rs2 => Sys2Proof.Machine.execDivu rd rs1 rs2 s
  | .rem rd rs1 rs2 => Sys2Proof.Machine.execRem rd rs1 rs2 s
  | .remu rd rs1 rs2 => Sys2Proof.Machine.execRemu rd rs1 rs2 s
  | .mulw rd rs1 rs2 => Sys2Proof.Machine.execMulw rd rs1 rs2 s
  | .divw rd rs1 rs2 => Sys2Proof.Machine.execDivw rd rs1 rs2 s
  | .divuw rd rs1 rs2 => Sys2Proof.Machine.execDivuw rd rs1 rs2 s
  | .remw rd rs1 rs2 => Sys2Proof.Machine.execRemw rd rs1 rs2 s
  | .remuw rd rs1 rs2 => Sys2Proof.Machine.execRemuw rd rs1 rs2 s
  | .lrW rd rs1 aq rl => Sys2Proof.Machine.execLrW rd rs1 aq rl s
  | .lrD rd rs1 aq rl => Sys2Proof.Machine.execLrD rd rs1 aq rl s
  | .scW rd rs1 rs2 aq rl => Sys2Proof.Machine.execScW rd rs1 rs2 aq rl s
  | .scD rd rs1 rs2 aq rl => Sys2Proof.Machine.execScD rd rs1 rs2 aq rl s
  | .amoswapW rd rs1 rs2 aq rl => Sys2Proof.Machine.execAmoswapW rd rs1 rs2 aq rl s
  | .amoswapD rd rs1 rs2 aq rl => Sys2Proof.Machine.execAmoswapD rd rs1 rs2 aq rl s
  | .amoaddW rd rs1 rs2 aq rl => Sys2Proof.Machine.execAmoaddW rd rs1 rs2 aq rl s
  | .amoaddD rd rs1 rs2 aq rl => Sys2Proof.Machine.execAmoaddD rd rs1 rs2 aq rl s
  | .amoxorW rd rs1 rs2 aq rl => Sys2Proof.Machine.execAmoxorW rd rs1 rs2 aq rl s
  | .amoxorD rd rs1 rs2 aq rl => Sys2Proof.Machine.execAmoxorD rd rs1 rs2 aq rl s
  | .amoandW rd rs1 rs2 aq rl => Sys2Proof.Machine.execAmoandW rd rs1 rs2 aq rl s
  | .amoandD rd rs1 rs2 aq rl => Sys2Proof.Machine.execAmoandD rd rs1 rs2 aq rl s
  | .amoorW rd rs1 rs2 aq rl => Sys2Proof.Machine.execAmoorW rd rs1 rs2 aq rl s
  | .amoorD rd rs1 rs2 aq rl => Sys2Proof.Machine.execAmoorD rd rs1 rs2 aq rl s
  | .amominW rd rs1 rs2 aq rl => Sys2Proof.Machine.execAmominW rd rs1 rs2 aq rl s
  | .amominD rd rs1 rs2 aq rl => Sys2Proof.Machine.execAmominD rd rs1 rs2 aq rl s
  | .amomaxW rd rs1 rs2 aq rl => Sys2Proof.Machine.execAmomaxW rd rs1 rs2 aq rl s
  | .amomaxD rd rs1 rs2 aq rl => Sys2Proof.Machine.execAmomaxD rd rs1 rs2 aq rl s
  | .amominuW rd rs1 rs2 aq rl => Sys2Proof.Machine.execAmominuW rd rs1 rs2 aq rl s
  | .amominuD rd rs1 rs2 aq rl => Sys2Proof.Machine.execAmominuD rd rs1 rs2 aq rl s
  | .amomaxuW rd rs1 rs2 aq rl => Sys2Proof.Machine.execAmomaxuW rd rs1 rs2 aq rl s
  | .amomaxuD rd rs1 rs2 aq rl => Sys2Proof.Machine.execAmomaxuD rd rs1 rs2 aq rl s
  | .csrrw rd rs1 csr => Sys2Proof.Machine.execCsrrw rd rs1 csr s
  | .csrrs rd rs1 csr => Sys2Proof.Machine.execCsrrs rd rs1 csr s
  | .csrrc rd rs1 csr => Sys2Proof.Machine.execCsrrc rd rs1 csr s
  | .csrrwi rd uimm csr => Sys2Proof.Machine.execCsrrwi rd uimm csr s
  | .csrrsi rd uimm csr => Sys2Proof.Machine.execCsrrsi rd uimm csr s
  | .csrrci rd uimm csr => Sys2Proof.Machine.execCsrrci rd uimm csr s
  | .vaddVV vd vs2 vs1 c2 c1 vm => Sys2Proof.Machine.execVaddVV vd vs2 vs1 c2 c1 vm s
  | .vaddVX vd vs2 xs c2 vm => Sys2Proof.Machine.execVaddVX vd vs2 xs c2 vm s
  | .vaddVI vd vs2 simm c2 vm => Sys2Proof.Machine.execVaddVI vd vs2 simm c2 vm s
  | .vaddVR vd vs2 vs1 rsz vm => Sys2Proof.Machine.execVaddVR vd vs2 vs1 rsz vm s
  | .vsubVV vd vs2 vs1 c2 c1 vm => Sys2Proof.Machine.execVsubVV vd vs2 vs1 c2 c1 vm s
  | .vsubVX vd vs2 xs c2 vm => Sys2Proof.Machine.execVsubVX vd vs2 xs c2 vm s
  | .vsubVI vd vs2 simm c2 vm => Sys2Proof.Machine.execVsubVI vd vs2 simm c2 vm s
  | .vsubVR vd vs2 vs1 rsz vm => Sys2Proof.Machine.execVsubVR vd vs2 vs1 rsz vm s
  | .vmulVV vd vs2 vs1 c2 c1 vm => Sys2Proof.Machine.execVmulVV vd vs2 vs1 c2 c1 vm s
  | .vmulVX vd vs2 xs c2 vm => Sys2Proof.Machine.execVmulVX vd vs2 xs c2 vm s
  | .vmulVI vd vs2 simm c2 vm => Sys2Proof.Machine.execVmulVI vd vs2 simm c2 vm s
  | .vmulVR vd vs2 vs1 rsz vm => Sys2Proof.Machine.execVmulVR vd vs2 vs1 rsz vm s
  | .vgathergVV vd vs2 vs1 c2 c1 vm => Sys2Proof.Machine.execVgathergVV vd vs2 vs1 c2 c1 vm s
  | .vgathergVX vd vs2 xs c2 vm => Sys2Proof.Machine.execVgathergVX vd vs2 xs c2 vm s
  | .vgathergVI vd vs2 simm c2 vm => Sys2Proof.Machine.execVgathergVI vd vs2 simm c2 vm s
  | .vgathergVR vd vs2 vs1 rsz vm => Sys2Proof.Machine.execVgathergVR vd vs2 vs1 rsz vm s
  | .vandVV vd vs2 vs1 c2 c1 vm => Sys2Proof.Machine.execVandVV vd vs2 vs1 c2 c1 vm s
  | .vandVX vd vs2 xs c2 vm => Sys2Proof.Machine.execVandVX vd vs2 xs c2 vm s
  | .vandVI vd vs2 simm c2 vm => Sys2Proof.Machine.execVandVI vd vs2 simm c2 vm s
  | .vandVR vd vs2 vs1 rsz vm => Sys2Proof.Machine.execVandVR vd vs2 vs1 rsz vm s
  | .vorVV vd vs2 vs1 c2 c1 vm => Sys2Proof.Machine.execVorVV vd vs2 vs1 c2 c1 vm s
  | .vorVX vd vs2 xs c2 vm => Sys2Proof.Machine.execVorVX vd vs2 xs c2 vm s
  | .vorVI vd vs2 simm c2 vm => Sys2Proof.Machine.execVorVI vd vs2 simm c2 vm s
  | .vorVR vd vs2 vs1 rsz vm => Sys2Proof.Machine.execVorVR vd vs2 vs1 rsz vm s
  | .vxorVV vd vs2 vs1 c2 c1 vm => Sys2Proof.Machine.execVxorVV vd vs2 vs1 c2 c1 vm s
  | .vxorVX vd vs2 xs c2 vm => Sys2Proof.Machine.execVxorVX vd vs2 xs c2 vm s
  | .vxorVI vd vs2 simm c2 vm => Sys2Proof.Machine.execVxorVI vd vs2 simm c2 vm s
  | .vxorVR vd vs2 vs1 rsz vm => Sys2Proof.Machine.execVxorVR vd vs2 vs1 rsz vm s
  | .vsllVV vd vs2 vs1 c2 c1 vm => Sys2Proof.Machine.execVsllVV vd vs2 vs1 c2 c1 vm s
  | .vsllVX vd vs2 xs c2 vm => Sys2Proof.Machine.execVsllVX vd vs2 xs c2 vm s
  | .vsllVI vd vs2 simm c2 vm => Sys2Proof.Machine.execVsllVI vd vs2 simm c2 vm s
  | .vsllVR vd vs2 vs1 rsz vm => Sys2Proof.Machine.execVsllVR vd vs2 vs1 rsz vm s
  | .vsrlVV vd vs2 vs1 c2 c1 vm => Sys2Proof.Machine.execVsrlVV vd vs2 vs1 c2 c1 vm s
  | .vsrlVX vd vs2 xs c2 vm => Sys2Proof.Machine.execVsrlVX vd vs2 xs c2 vm s
  | .vsrlVI vd vs2 simm c2 vm => Sys2Proof.Machine.execVsrlVI vd vs2 simm c2 vm s
  | .vsrlVR vd vs2 vs1 rsz vm => Sys2Proof.Machine.execVsrlVR vd vs2 vs1 rsz vm s
  | .vsraVV vd vs2 vs1 c2 c1 vm => Sys2Proof.Machine.execVsraVV vd vs2 vs1 c2 c1 vm s
  | .vsraVX vd vs2 xs c2 vm => Sys2Proof.Machine.execVsraVX vd vs2 xs c2 vm s
  | .vsraVI vd vs2 simm c2 vm => Sys2Proof.Machine.execVsraVI vd vs2 simm c2 vm s
  | .vsraVR vd vs2 vs1 rsz vm => Sys2Proof.Machine.execVsraVR vd vs2 vs1 rsz vm s
  | .vminVV vd vs2 vs1 c2 c1 vm => Sys2Proof.Machine.execVminVV vd vs2 vs1 c2 c1 vm s
  | .vminVX vd vs2 xs c2 vm => Sys2Proof.Machine.execVminVX vd vs2 xs c2 vm s
  | .vminVI vd vs2 simm c2 vm => Sys2Proof.Machine.execVminVI vd vs2 simm c2 vm s
  | .vminVR vd vs2 vs1 rsz vm => Sys2Proof.Machine.execVminVR vd vs2 vs1 rsz vm s
  | .vmaxVV vd vs2 vs1 c2 c1 vm => Sys2Proof.Machine.execVmaxVV vd vs2 vs1 c2 c1 vm s
  | .vmaxVX vd vs2 xs c2 vm => Sys2Proof.Machine.execVmaxVX vd vs2 xs c2 vm s
  | .vmaxVI vd vs2 simm c2 vm => Sys2Proof.Machine.execVmaxVI vd vs2 simm c2 vm s
  | .vmaxVR vd vs2 vs1 rsz vm => Sys2Proof.Machine.execVmaxVR vd vs2 vs1 rsz vm s
  | .vmseqVV vd vs2 vs1 c2 c1 vm => Sys2Proof.Machine.execVmseqVV vd vs2 vs1 c2 c1 vm s
  | .vmseqVX vd vs2 xs c2 vm => Sys2Proof.Machine.execVmseqVX vd vs2 xs c2 vm s
  | .vmseqVI vd vs2 simm c2 vm => Sys2Proof.Machine.execVmseqVI vd vs2 simm c2 vm s
  | .vmseqVR vd vs2 vs1 rsz vm => Sys2Proof.Machine.execVmseqVR vd vs2 vs1 rsz vm s
  | .vmsltVV vd vs2 vs1 c2 c1 vm => Sys2Proof.Machine.execVmsltVV vd vs2 vs1 c2 c1 vm s
  | .vmsltVX vd vs2 xs c2 vm => Sys2Proof.Machine.execVmsltVX vd vs2 xs c2 vm s
  | .vmsltVI vd vs2 simm c2 vm => Sys2Proof.Machine.execVmsltVI vd vs2 simm c2 vm s
  | .vmsltVR vd vs2 vs1 rsz vm => Sys2Proof.Machine.execVmsltVR vd vs2 vs1 rsz vm s
  | .vmsltuVV vd vs2 vs1 c2 c1 vm => Sys2Proof.Machine.execVmsltuVV vd vs2 vs1 c2 c1 vm s
  | .vmsltuVX vd vs2 xs c2 vm => Sys2Proof.Machine.execVmsltuVX vd vs2 xs c2 vm s
  | .vmsltuVI vd vs2 simm c2 vm => Sys2Proof.Machine.execVmsltuVI vd vs2 simm c2 vm s
  | .vmsltuVR vd vs2 vs1 rsz vm => Sys2Proof.Machine.execVmsltuVR vd vs2 vs1 rsz vm s
  | .vgatherVV vd vs2 vs1 c2 c1 vm => Sys2Proof.Machine.execVgatherVV vd vs2 vs1 c2 c1 vm s
  | .vgatherVX vd vs2 xs c2 vm => Sys2Proof.Machine.execVgatherVX vd vs2 xs c2 vm s
  | .vgatherVI vd vs2 simm c2 vm => Sys2Proof.Machine.execVgatherVI vd vs2 simm c2 vm s
  | .vgatherVR vd vs2 vs1 rsz vm => Sys2Proof.Machine.execVgatherVR vd vs2 vs1 rsz vm s
  | .vfaddFVV vd vs2 vs1 c2 c1 vm => Sys2Proof.Machine.execVfaddFVV vd vs2 vs1 c2 c1 vm s
  | .vfaddFVX vd vs2 xs c2 vm => Sys2Proof.Machine.execVfaddFVX vd vs2 xs c2 vm s
  | .vfaddFVR vd vs2 vs1 rsz vm => Sys2Proof.Machine.execVfaddFVR vd vs2 vs1 rsz vm s
  | .vfsubFVV vd vs2 vs1 c2 c1 vm => Sys2Proof.Machine.execVfsubFVV vd vs2 vs1 c2 c1 vm s
  | .vfsubFVX vd vs2 xs c2 vm => Sys2Proof.Machine.execVfsubFVX vd vs2 xs c2 vm s
  | .vfsubFVR vd vs2 vs1 rsz vm => Sys2Proof.Machine.execVfsubFVR vd vs2 vs1 rsz vm s
  | .vfmulFVV vd vs2 vs1 c2 c1 vm => Sys2Proof.Machine.execVfmulFVV vd vs2 vs1 c2 c1 vm s
  | .vfmulFVX vd vs2 xs c2 vm => Sys2Proof.Machine.execVfmulFVX vd vs2 xs c2 vm s
  | .vfmulFVR vd vs2 vs1 rsz vm => Sys2Proof.Machine.execVfmulFVR vd vs2 vs1 rsz vm s
  | .vfdivFVV vd vs2 vs1 c2 c1 vm => Sys2Proof.Machine.execVfdivFVV vd vs2 vs1 c2 c1 vm s
  | .vfdivFVX vd vs2 xs c2 vm => Sys2Proof.Machine.execVfdivFVX vd vs2 xs c2 vm s
  | .vfdivFVR vd vs2 vs1 rsz vm => Sys2Proof.Machine.execVfdivFVR vd vs2 vs1 rsz vm s
  | .vfmaccFVV vd vs2 vs1 c2 c1 vm => Sys2Proof.Machine.execVfmaccFVV vd vs2 vs1 c2 c1 vm s
  | .vfmaccFVX vd vs2 xs c2 vm => Sys2Proof.Machine.execVfmaccFVX vd vs2 xs c2 vm s
  | .vfmaccFVR vd vs2 vs1 rsz vm => Sys2Proof.Machine.execVfmaccFVR vd vs2 vs1 rsz vm s
  | .vfnmsacFVV vd vs2 vs1 c2 c1 vm => Sys2Proof.Machine.execVfnmsacFVV vd vs2 vs1 c2 c1 vm s
  | .vfnmsacFVX vd vs2 xs c2 vm => Sys2Proof.Machine.execVfnmsacFVX vd vs2 xs c2 vm s
  | .vfnmsacFVR vd vs2 vs1 rsz vm => Sys2Proof.Machine.execVfnmsacFVR vd vs2 vs1 rsz vm s
  | .vfminFVV vd vs2 vs1 c2 c1 vm => Sys2Proof.Machine.execVfminFVV vd vs2 vs1 c2 c1 vm s
  | .vfminFVX vd vs2 xs c2 vm => Sys2Proof.Machine.execVfminFVX vd vs2 xs c2 vm s
  | .vfminFVR vd vs2 vs1 rsz vm => Sys2Proof.Machine.execVfminFVR vd vs2 vs1 rsz vm s
  | .vfmaxFVV vd vs2 vs1 c2 c1 vm => Sys2Proof.Machine.execVfmaxFVV vd vs2 vs1 c2 c1 vm s
  | .vfmaxFVX vd vs2 xs c2 vm => Sys2Proof.Machine.execVfmaxFVX vd vs2 xs c2 vm s
  | .vfmaxFVR vd vs2 vs1 rsz vm => Sys2Proof.Machine.execVfmaxFVR vd vs2 vs1 rsz vm s
  | .vfmfeqFVV vd vs2 vs1 c2 c1 vm => Sys2Proof.Machine.execVfmfeqFVV vd vs2 vs1 c2 c1 vm s
  | .vfmfeqFVX vd vs2 xs c2 vm => Sys2Proof.Machine.execVfmfeqFVX vd vs2 xs c2 vm s
  | .vfmfeqFVR vd vs2 vs1 rsz vm => Sys2Proof.Machine.execVfmfeqFVR vd vs2 vs1 rsz vm s
  | .vfmfltFVV vd vs2 vs1 c2 c1 vm => Sys2Proof.Machine.execVfmfltFVV vd vs2 vs1 c2 c1 vm s
  | .vfmfltFVX vd vs2 xs c2 vm => Sys2Proof.Machine.execVfmfltFVX vd vs2 xs c2 vm s
  | .vfmfltFVR vd vs2 vs1 rsz vm => Sys2Proof.Machine.execVfmfltFVR vd vs2 vs1 rsz vm s
  | .vfmfleFVV vd vs2 vs1 c2 c1 vm => Sys2Proof.Machine.execVfmfleFVV vd vs2 vs1 c2 c1 vm s
  | .vfmfleFVX vd vs2 xs c2 vm => Sys2Proof.Machine.execVfmfleFVX vd vs2 xs c2 vm s
  | .vfmfleFVR vd vs2 vs1 rsz vm => Sys2Proof.Machine.execVfmfleFVR vd vs2 vs1 rsz vm s
  | .vcvtq4 vd vs2 vs1 c2 c1 vm => Sys2Proof.Machine.execVcvtq4 vd vs2 vs1 c2 c1 vm s
  | .vfsgnjFVV vd vs2 vs1 c2 c1 vm => Sys2Proof.Machine.execVfsgnjFVV vd vs2 vs1 c2 c1 vm s
  | .vfsgnjFVX vd vs2 xs c2 vm => Sys2Proof.Machine.execVfsgnjFVX vd vs2 xs c2 vm s
  | .vfsgnjFVR vd vs2 vs1 rsz vm => Sys2Proof.Machine.execVfsgnjFVR vd vs2 vs1 rsz vm s
  | .vfsgnjnFVV vd vs2 vs1 c2 c1 vm => Sys2Proof.Machine.execVfsgnjnFVV vd vs2 vs1 c2 c1 vm s
  | .vfsgnjnFVX vd vs2 xs c2 vm => Sys2Proof.Machine.execVfsgnjnFVX vd vs2 xs c2 vm s
  | .vfsgnjnFVR vd vs2 vs1 rsz vm => Sys2Proof.Machine.execVfsgnjnFVR vd vs2 vs1 rsz vm s
  | .vfsgnjxFVV vd vs2 vs1 c2 c1 vm => Sys2Proof.Machine.execVfsgnjxFVV vd vs2 vs1 c2 c1 vm s
  | .vfsgnjxFVX vd vs2 xs c2 vm => Sys2Proof.Machine.execVfsgnjxFVX vd vs2 xs c2 vm s
  | .vfsgnjxFVR vd vs2 vs1 rsz vm => Sys2Proof.Machine.execVfsgnjxFVR vd vs2 vs1 rsz vm s
  | .vfscaleFVV vd vs2 vs1 c2 c1 vm => Sys2Proof.Machine.execVfscaleFVV vd vs2 vs1 c2 c1 vm s
  | .vfscaleFVX vd vs2 xs c2 vm => Sys2Proof.Machine.execVfscaleFVX vd vs2 xs c2 vm s
  | .vfscaleFVR vd vs2 vs1 rsz vm => Sys2Proof.Machine.execVfscaleFVR vd vs2 vs1 rsz vm s
  | .vmv vd vs2 c2 vm => Sys2Proof.Machine.execVmv vd vs2 c2 vm s
  | .vsplat vd xs vm => Sys2Proof.Machine.execVsplat vd xs vm s
  | .vmvsx vd xs => Sys2Proof.Machine.execVmvsx vd xs s
  | .vmvxs xd vs2 c2 => Sys2Proof.Machine.execVmvxs xd vs2 c2 s
  | .vid vd vm => Sys2Proof.Machine.execVid vd vm s
  | .vredsum vd vs2 c2 vm => Sys2Proof.Machine.execVredsum vd vs2 c2 vm s
  | .vredmin vd vs2 c2 vm => Sys2Proof.Machine.execVredmin vd vs2 c2 vm s
  | .vredmax vd vs2 c2 vm => Sys2Proof.Machine.execVredmax vd vs2 c2 vm s
  | .vredand vd vs2 c2 vm => Sys2Proof.Machine.execVredand vd vs2 c2 vm s
  | .vredor vd vs2 c2 vm => Sys2Proof.Machine.execVredor vd vs2 c2 vm s
  | .vredxor vd vs2 c2 vm => Sys2Proof.Machine.execVredxor vd vs2 c2 vm s
  | .vmpopc vd vs2 c2 vm => Sys2Proof.Machine.execVmpopc vd vs2 c2 vm s
  | .vmfirst vd vs2 c2 vm => Sys2Proof.Machine.execVmfirst vd vs2 c2 vm s
  | .vcompress vd vs2 c2 => Sys2Proof.Machine.execVcompress vd vs2 c2 s
  | .vrng vd vm => Sys2Proof.Machine.execVrng vd vm s
  | .vfrecip vd vs2 c2 vm => Sys2Proof.Machine.execVfrecip vd vs2 c2 vm s
  | .vfrsqrt vd vs2 c2 vm => Sys2Proof.Machine.execVfrsqrt vd vs2 c2 vm s
  | .vfexp2 vd vs2 c2 vm => Sys2Proof.Machine.execVfexp2 vd vs2 c2 vm s
  | .vflog2 vd vs2 c2 vm => Sys2Proof.Machine.execVflog2 vd vs2 c2 vm s
  | .vfsqrt vd vs2 c2 vm => Sys2Proof.Machine.execVfsqrt vd vs2 c2 vm s
  | .vfclass vd vs2 c2 vm => Sys2Proof.Machine.execVfclass vd vs2 c2 vm s
  | .vfredsum vd vs2 c2 vm => Sys2Proof.Machine.execVfredsum vd vs2 c2 vm s
  | .vfredosum vd vs2 c2 vm => Sys2Proof.Machine.execVfredosum vd vs2 c2 vm s
  | .vfredmin vd vs2 c2 vm => Sys2Proof.Machine.execVfredmin vd vs2 c2 vm s
  | .vfredmax vd vs2 c2 vm => Sys2Proof.Machine.execVfredmax vd vs2 c2 vm s
  | .vncvt vd vs2 c2 vm => Sys2Proof.Machine.execVncvt vd vs2 c2 vm s
  | .vwcvt vd vs2 c2 vm => Sys2Proof.Machine.execVwcvt vd vs2 c2 vm s
  | .vncvti vd vs2 c2 vm => Sys2Proof.Machine.execVncvti vd vs2 c2 vm s
  | .vwcvti vd vs2 c2 vm => Sys2Proof.Machine.execVwcvti vd vs2 c2 vm s
  | .vwcvtn vd vs2 c2 vm => Sys2Proof.Machine.execVwcvtn vd vs2 c2 vm s
  | .vcvtif vd vs2 c2 vm => Sys2Proof.Machine.execVcvtif vd vs2 c2 vm s
  | .vcvtfi vd vs2 c2 vm => Sys2Proof.Machine.execVcvtfi vd vs2 c2 vm s
  | .vbscale vd vs2 c2 vm => Sys2Proof.Machine.execVbscale vd vs2 c2 vm s
  | .vle vd rs1 pol eew vm => Sys2Proof.Machine.execVle vd rs1 pol eew vm s
  | .vlse vd rs1 rs2 pol eew vm => Sys2Proof.Machine.execVlse vd rs1 rs2 pol eew vm s
  | .vlxe vd vs2 rs1 pol eew c vm => Sys2Proof.Machine.execVlxe vd vs2 rs1 pol eew c vm s
  | .vse vs3 rs1 pol eew c vm => Sys2Proof.Machine.execVse vs3 rs1 pol eew c vm s
  | .vsse vs3 rs1 rs2 pol eew c vm => Sys2Proof.Machine.execVsse vs3 rs1 rs2 pol eew c vm s
  | .vsxe vs3 vs2 rs1 pol eew c vm => Sys2Proof.Machine.execVsxe vs3 vs2 rs1 pol eew c vm s
  | .vappend vs3 rs1 pol eew c vm => Sys2Proof.Machine.execVappend vs3 rs1 pol eew c vm s
  | .vamoadd vd vs2 rs1 eew vm => Sys2Proof.Machine.execVamoadd vd vs2 rs1 eew vm s
  | .vamomin vd vs2 rs1 eew vm => Sys2Proof.Machine.execVamomin vd vs2 rs1 eew vm s
  | .vamomax vd vs2 rs1 eew vm => Sys2Proof.Machine.execVamomax vd vs2 rs1 eew vm s
  | .vamoswap vd vs2 rs1 eew vm => Sys2Proof.Machine.execVamoswap vd vs2 rs1 eew vm s
  | .vamoxor vd vs2 rs1 eew vm => Sys2Proof.Machine.execVamoxor vd vs2 rs1 eew vm s
  | .mopa md vs2 vs1 c2 c1 vm => Sys2Proof.Machine.execMopa md vs2 vs1 c2 c1 vm s
  | .mopd md vs2 vs1 c2 c1 vm => Sys2Proof.Machine.execMopd md vs2 vs1 c2 c1 vm s
  | .mzero md => Sys2Proof.Machine.execMzero md s
  | .mcupd xb vs2 vs1 c2 c1 vm => Sys2Proof.Machine.execMcupd xb vs2 vs1 c2 c1 vm s
  | .mdrain vd md xs vm => Sys2Proof.Machine.execMdrain vd md xs vm s
  | .mdrainq vd md xs vm => Sys2Proof.Machine.execMdrainq vd md xs vm s
  | .mbest vd md vm => Sys2Proof.Machine.execMbest vd md vm s
  | .mld md xa xs => Sys2Proof.Machine.execMld md xa xs s
  | .mst md xa xs => Sys2Proof.Machine.execMst md xa xs s
  | .mfetch md xb xa => Sys2Proof.Machine.execMfetch md xb xa s
  | .vpmul vd fl vs2 vs1 c2 c1 vm => Sys2Proof.Machine.execVpmul vd fl vs2 vs1 c2 c1 vm s
  | .vpmacc vd fl vs2 vs1 c2 c1 vm => Sys2Proof.Machine.execVpmacc vd fl vs2 vs1 c2 c1 vm s
  | .vpconv vd fl vs2 vs1 cb c2 vm => Sys2Proof.Machine.execVpconv vd fl vs2 vs1 cb c2 vm s
  | .vpguard vd fl vs2 vs1 c2 c1 vm => Sys2Proof.Machine.execVpguard vd fl vs2 vs1 c2 c1 vm s
  | .vpack vd fl vs2 c2 vm => Sys2Proof.Machine.execVpack vd fl vs2 c2 vm s
  | .vunpack vd fl vs2 c2 vm => Sys2Proof.Machine.execVunpack vd fl vs2 c2 vm s
  | .vpext vd fl vs2 j c2 vm => Sys2Proof.Machine.execVpext vd fl vs2 j c2 vm s
  | .flset fl xs => Sys2Proof.Machine.execFlset fl xs s
  | .flget xd fl => Sys2Proof.Machine.execFlget xd fl s
  | .msetshape xs => Sys2Proof.Machine.execMsetshape xs s
  | .msetcfg xs => Sys2Proof.Machine.execMsetcfg xs s
  | .mgetstat xd => Sys2Proof.Machine.execMgetstat xd s
  | .mclrstat => Sys2Proof.Machine.execMclrstat s
  | .vblk xs => Sys2Proof.Machine.execVblk xs s
  | .vreply xd => Sys2Proof.Machine.execVreply xd s
  | .vdrainq => Sys2Proof.Machine.execVdrainq s
  | .vstrip lc => Sys2Proof.Machine.execVstrip lc s
  | .vloop lc xs => Sys2Proof.Machine.execVloop lc xs s
  | .vlbnz lc dist => Sys2Proof.Machine.execVlbnz lc dist s
  | .baddi xd simm => Sys2Proof.Machine.execBaddi xd simm s
  | .baddvl xd sh => Sys2Proof.Machine.execBaddvl xd sh s
  | .vcond vs2 c2 vm => Sys2Proof.Machine.execVcond vs2 c2 vm s
  | .vpost xs => Sys2Proof.Machine.execVpost xs s
  | .vsplit off vm => Sys2Proof.Machine.execVsplit off vm s
  | .lbeq vs2 vs1 off => Sys2Proof.Machine.execLbeq vs2 vs1 off s
  | .lbne vs2 vs1 off => Sys2Proof.Machine.execLbne vs2 vs1 off s
  | .lblt vs2 vs1 off => Sys2Proof.Machine.execLblt vs2 vs1 off s
  | .lbge vs2 vs1 off => Sys2Proof.Machine.execLbge vs2 vs1 off s
  | .ljmp off => Sys2Proof.Machine.execLjmp off s
  | .ljoin => Sys2Proof.Machine.execLjoin s
  | .vsetcfgi rd imm => Sys2Proof.Machine.execVsetcfgi rd imm s
  | .vsetcfg rd rs1 => Sys2Proof.Machine.execVsetcfg rd rs1 s
  | .vdecl code => Sys2Proof.Machine.execVdecl code s
  | .sybind rs1 rs2 rs3 => Sys2Proof.Machine.execSybind rs1 rs2 rs3 s
  | .acq rs1 scope => Sys2Proof.Machine.execAcq rs1 scope s
  | .rel rs1 scope => Sys2Proof.Machine.execRel rs1 scope s
  | .fencev scope => Sys2Proof.Machine.execFencev scope s
  | .bara rs1 scope => Sys2Proof.Machine.execBara rs1 scope s
  | .barw rs1 scope => Sys2Proof.Machine.execBarw rs1 scope s
  | .publish rs1 => Sys2Proof.Machine.execPublish rs1 s
  | .cpy rd pair rs1 rs2 => Sys2Proof.Machine.execCpy rd pair rs1 rs2 s
  | .cpyc rd pair rs1 rs2 trap => Sys2Proof.Machine.execCpyc rd pair rs1 rs2 trap s
  | .cpyx rd pair rs1 rs2 trap => Sys2Proof.Machine.execCpyx rd pair rs1 rs2 trap s
  | .stmap rs1 rs2 rs3 => Sys2Proof.Machine.execStmap rs1 rs2 rs3 s
  | .stunmap rs1 => Sys2Proof.Machine.execStunmap rs1 s
  | .stwb rs1 rs2 => Sys2Proof.Machine.execStwb rs1 rs2 s
  | .stdrop rs1 rs2 => Sys2Proof.Machine.execStdrop rs1 rs2 s
  | .l2pin n rs1 rs2 ways => Sys2Proof.Machine.execL2pin n rs1 rs2 ways s
  | .l2unpin n => Sys2Proof.Machine.execL2unpin n s
  | .sbind vd rs1 => Sys2Proof.Machine.execSbind vd rs1 s
  | .sunbind vd => Sys2Proof.Machine.execSunbind vd s
  | .vfxadd vs2 rs1 => Sys2Proof.Machine.execVfxadd vs2 rs1 s
  | .fxrd vd rs1 fmt => Sys2Proof.Machine.execFxrd vd rs1 fmt s
  | .fxclr rs1 rs2 => Sys2Proof.Machine.execFxclr rs1 rs2 s
  | .tdone => Sys2Proof.Machine.execTdone s
  | .tspawn rs1 => Sys2Proof.Machine.execTspawn rs1 s
  | .tyield => Sys2Proof.Machine.execTyield s
  | .tinfo rd rs1 => Sys2Proof.Machine.execTinfo rd rs1 s
  | .trapc rs1 => Sys2Proof.Machine.execTrapc rs1 s
  | .wridx q v => Sys2Proof.Machine.execWridx q v s
  | .qctlSkip q => Sys2Proof.Machine.execQctlSkip q s
  | .qctlDiscard q => Sys2Proof.Machine.execQctlDiscard q s
  | .qctlStop q => Sys2Proof.Machine.execQctlStop q s
  | .qctlResume q => Sys2Proof.Machine.execQctlResume q s
  | .launchGraph q p => Sys2Proof.Machine.execLaunchGraph q p s
  | .launchNode q p => Sys2Proof.Machine.execLaunchNode q p s
  | .waitValue q p => Sys2Proof.Machine.execWaitValue q p s
  | .waitValueMet pid => Sys2Proof.Machine.execWaitValueMet pid s
  | .waitValueTimeout pid => Sys2Proof.Machine.execWaitValueTimeout pid s
  | .writeValue q p => Sys2Proof.Machine.execWriteValue q p s
  | .indirect q p => Sys2Proof.Machine.execIndirect q p s
  | .setSeed q p => Sys2Proof.Machine.execSetSeed q p s
  | .regionCreate q p => Sys2Proof.Machine.execRegionCreate q p s
  | .regionDestroy q p => Sys2Proof.Machine.execRegionDestroy q p s
  | .regionDestroyComplete pid => Sys2Proof.Machine.execRegionDestroyComplete pid s
  | .fencePacket q p => Sys2Proof.Machine.execFencePacket q p s
  | .unknownKindPacket q p => Sys2Proof.Machine.execUnknownKindPacket q p s
  | .preempt g n => Sys2Proof.Machine.execPreempt g n s
  | .condEval g n => Sys2Proof.Machine.execCondEval g n s
  | .loopEval g n => Sys2Proof.Machine.execLoopEval g n s
  | .pageArrived ctx va dw0 dw1 => Sys2Proof.Machine.execPageArrived ctx va dw0 dw1 s
  | .copyComplete tid k => Sys2Proof.Machine.execCopyComplete tid k s
  | .copyNodeComplete g n => Sys2Proof.Machine.execCopyNodeComplete g n s
  | .collNodeComplete g n parts rank0 => Sys2Proof.Machine.execCollNodeComplete g n parts rank0 s
  | .streamRefill tid vd => Sys2Proof.Machine.execStreamRefill tid vd s
  | .waitWatchdog tid => Sys2Proof.Machine.execWaitWatchdog tid s
  | .runWatchdog tid => Sys2Proof.Machine.execRunWatchdog tid s
  | .splitWatchdog tid => Sys2Proof.Machine.execSplitWatchdog tid s
  | .patrolScrub a found => Sys2Proof.Machine.execPatrolScrub a found s
  | .uncontainedError site => Sys2Proof.Machine.execUncontainedError site s
  | .flitReceive lane quality => Sys2Proof.Machine.execFlitReceive lane quality s
  | .linkFailed lane => Sys2Proof.Machine.execLinkFailed lane s
  | .portTrainingLost port => Sys2Proof.Machine.execPortTrainingLost port s
  | .serviceRequest kind => Sys2Proof.Machine.execServiceRequest kind s
  | .answer e => Sys2Proof.Machine.execAnswer e s
  | .resume e => Sys2Proof.Machine.execResume e s
  | .endTask e => Sys2Proof.Machine.execEndTask e s
  | .releaseDomain e => Sys2Proof.Machine.execReleaseDomain e s
  | .abortDomain e => Sys2Proof.Machine.execAbortDomain e s
  | .removeSection e => Sys2Proof.Machine.execRemoveSection e s
  | .moveSections e => Sys2Proof.Machine.execMoveSections e s
  | .linkDown e => Sys2Proof.Machine.execLinkDown e s
  | .linkUp e => Sys2Proof.Machine.execLinkUp e s
  | .firmwareUpdate e => Sys2Proof.Machine.execFirmwareUpdate e s
  | .firmwareSwitchComplete target => Sys2Proof.Machine.execFirmwareSwitchComplete target s
  | .serviceActionTimeout => Sys2Proof.Machine.execServiceActionTimeout s
  | .exportImage e => Sys2Proof.Machine.execExportImage e s
  | .importImage e => Sys2Proof.Machine.execImportImage e s
  | .bindContext e => Sys2Proof.Machine.execBindContext e s
  | .unbindContext e => Sys2Proof.Machine.execUnbindContext e s
  | .setKey e => Sys2Proof.Machine.execSetKey e s
  | .invalidateTranslations e => Sys2Proof.Machine.execInvalidateTranslations e s
  | .queueEnable e => Sys2Proof.Machine.execQueueEnable e s
  | .queueDisable e => Sys2Proof.Machine.execQueueDisable e s
  | .queueDisableComplete q => Sys2Proof.Machine.execQueueDisableComplete q s
  | .partitionLimits e => Sys2Proof.Machine.execPartitionLimits e s
  | .setEngineImage e => Sys2Proof.Machine.execSetEngineImage e s
  | .unlistedCommand e => Sys2Proof.Machine.execUnlistedCommand e s
  | .dutyWrite v => Sys2Proof.Machine.execDutyWrite v s
  | .ringControlWrite ring v => Sys2Proof.Machine.execRingControlWrite ring v s
  | .qtbaseWrite v => Sys2Proof.Machine.execQtbaseWrite v s
  | .portcfgWrite v => Sys2Proof.Machine.execPortcfgWrite v s
  | .registerWrite bar off size v => Sys2Proof.Machine.execRegisterWrite bar off size v s
  | .bar2Read off n => Sys2Proof.Machine.execBar2Read off n s
  | .bar2Write off bytes => Sys2Proof.Machine.execBar2Write off bytes s
  | .peerInboundRequest src a req => Sys2Proof.Machine.execPeerInboundRequest src a req s
  | .pushRecoveryImage => Sys2Proof.Machine.execPushRecoveryImage s
  | .attest => Sys2Proof.Machine.execAttest s
  | .moduleReset => Sys2Proof.Machine.execModuleReset s
  | .throttleStep => Sys2Proof.Machine.execThrottleStep s
  | .thermalTrip => Sys2Proof.Machine.execThermalTrip s
  | .wordNotAnInstruction w => Sys2Proof.Machine.execWordNotAnInstruction w s
  | .fetchFault cause info a => Sys2Proof.Machine.execFetchFault cause info a s
  | .portTrained port => Sys2Proof.Machine.execPortTrained port s
  | .cxlMemRequest a req => Sys2Proof.Machine.execCxlMemRequest a req s
  | .fabricAddressAssigned a => Sys2Proof.Machine.execFabricAddressAssigned a s

end Sys2Proof.Machine
end

