-- ==== Sys2Proof/Machine/Loader.lean ====
section
/-! DEFINITION. What the host's loader hands the dealers of a code object that it has placed: the SPLICE and REGS records of its TEXT section
(R20 to R22). How they travel from the loader to the part is not stated (log 40). -/

namespace Sys2Proof.Machine

/-- The n-th word of a TEXT section. -/
def textWord (code : List Byte) (n : Nat) : BitVec 32 := BitVec.ofNat 32 (getN code (4 * n) 4)

/-- The values that the dealer takes of a kernel without a REGS record: the most demanding ones (R22). -/
def Kernel.plain (ctx : Nat) (entry : Word) : Kernel :=
  { ctx := ctx, entry := entry, hasRegs := false, vdecl := 32, lcmask := 0xF, flmask := 0xF, uses := 7, xmask := 0xFFFFFFFE, marks := [] }

/-- A REGS record: the offset of its kernel, and what it says of the kernel at an entry (R22). -/
def regsRecord (bs : List Byte) (i : Nat) : Nat × (Kernel → Kernel) :=
  let get (o n : Nat) : Nat := getN bs (16 * i + o) n
  (get 0 4, fun k =>
    { k with hasRegs := true, vdecl := get 4 1, lcmask := BitVec.ofNat 4 (get 5 1), flmask := BitVec.ofNat 4 (get 6 1),
             uses := BitVec.ofNat 3 (get 7 1), xmask := BitVec.ofNat 32 (get 8 4) })

/-- A SPLICE record: the offsets of its kernel and of its block, and its mark, for a TEXT section at an address (R20). -/
def spliceRecord (text : Word) (bs : List Byte) (i : Nat) : Nat × Nat × SpliceMark :=
  let get (o n : Nat) : Nat := getN bs (32 * i + o) n
  (get 0 4, get 4 4,
    { block := text + BitVec.ofNat 64 (get 4 4), role := get 8 1, operand := get 9 1, word := get 10 1, eligible := (get 11 1).testBit 0,
      inner := get 12 4 })

/-- Whether a mark stands in its TEXT section as R21 asks: its block's header there, the word that it names a unit-stride store of a producer
or load of a consumer, its loop, up to a VLBNZ, within the block. -/
def markStands (code : List Byte) (block : Nat) (m : SpliceMark) : Bool :=
  let h := block / 4
  let len := fieldN (textWord code h) 0 8
  let body (j : Nat) : BitVec 32 := textWord code (h + 3 + j)
  block % 4 == 0 && block + 12 + 4 * len ≤ code.length && headerOk (textWord code h) (textWord code (h + 1)) && m.word < len
    && (if m.role = 1 then isVse (body m.word) else m.role == 2 && isVle (body m.word))
    && (rangeFrom m.inner len).any (fun j => isVlbnz (body j))

/-- The kernels of a TEXT section at an address of a context, with their REGS figures and the marks that the loader has not dropped; none where
a record's vdecl makes it refuse the object (R20 to R22). -/
def loadedKernels (ctx : Nat) (text : Word) (code splice regs : List Byte) : Option (List Kernel) :=
  let rs := (List.range (regs.length / 16)).map (regsRecord regs)
  let ms := (List.range (splice.length / 32)).map (spliceRecord text splice)
  let good := ms.filter (fun m => markStands code m.2.1 m.2.2)
  let kernel (off : Nat) : Kernel :=
    let k := Kernel.plain ctx (text + BitVec.ofNat 64 off)
    { ((rs.find? (fun r => r.1 == off)).map (fun r => r.2 k)).getD k with marks := (good.filter (fun m => m.1 == off)).map (fun m => m.2.2) }
  let vdecls := (List.range (regs.length / 16)).map (fun i => getN regs (16 * i + 4) 1)
  if vdecls.all (fun n => n == 32 || n == 12 || n == 6) then
    some (((rs.map (·.1)) ++ ms.map (·.1)).eraseDups.map kernel)
  else none

/-- The state without the records of the kernels of a context whose entries lie in n bytes at an address. -/
def State.unloadRecords (s : State) (ctx : Nat) (text : Word) (n : Nat) : State :=
  { s with kernels := s.kernels.filter (fun k => !(k.ctx == ctx && (k.entry - text).toNat < n)) }

/-- The records of a code object handed over by the loader, for a context that is bound: those of the TEXT section that stood there before
are gone (R20 to R22; log 40). -/
def State.loadRecords (s : State) (ctx : Nat) (text : Word) (code splice regs : List Byte) : State :=
  if s.boot.stage ≠ 4 ∨ (s.contexts.all (fun c => c.id != ctx)) then s
  else
    match loadedKernels ctx text code splice regs with
    | none => s
    | some ks =>
      let s1 := s.unloadRecords ctx text code.length
      { s1 with kernels := s1.kernels ++ ks }

end Sys2Proof.Machine
end

