-- ==== Sys2Proof/Machine/Turns.lean ====
section
/-! DEFINITION. The choice of a turn from State's own schedule (log 3), and the passing of time (log 6). -/

namespace Sys2Proof.Machine

/-- A turn that step can take. -/
inductive Choice where
  | turn (t : Turn)
  | idle
  deriving DecidableEq, Repr

/-- The parties of a task that may have a word to fetch, the vector unit and the lanes first; saved array words come before lane threads
(R172). -/
def Task.parties (t : Task) : List Party :=
  if t.status != .running || t.servicing.isSome then []
  else
    (match t.aqueue, t.split with
      | _ :: _, _ => [.vector]
      | [], some sp => (sp.threads.filter (fun th => !th.joined)).map (fun th => Party.lane th.elem)
      | [], none => if t.blocksLeft then [.vector] else []) ++ [.control]

/-- Words that the parties of a task may fetch, the commands of its copies, and the stop that has been asked of it. -/
noncomputable def Task.turns (t : Task) : List Turn :=
  let open_ : List Nat := (List.range t.copies.length).filter (fun k => ((t.copies[k]?).map (·.status.isNone)).getD false)
  let copies : List Turn := if t.status == .running then open_.map (fun k => .inject (.copyComplete t.id.tid k)) else []
  t.parties.map (fun p => Turn.party t.id.tid p) ++ copies ++ (if t.stopAsked.isSome then [.reach t.id.tid] else [])

/-- Limits of a task that have passed (R357). -/
noncomputable def State.biteTurns (s : State) (t : Task) : List Turn :=
  (if s.waitDue t then [.inject (.waitWatchdog t.id.tid)] else []) ++ (if s.runDue t then [.inject (.runWatchdog t.id.tid)] else [])
    ++ (if s.splitDue t then [.inject (.splitWatchdog t.id.tid)] else [])

/-- What the engines, the command processors and the dealers have to do for a node (R26, R58, R59, R89, R262). -/
noncomputable def State.nodeTurn (s : State) (g : Graph) (n : Node) : Option Turn :=
  if n.kind == 5 && n.status == .ready then some (.inject (.condEval g.gid n.index))
  else if n.kind == 6 && n.status == .ready then some (.inject (.loopEval g.gid n.index))
  else if n.kind == 3 && n.status == .running then some (.inject (.copyNodeComplete g.gid n.index))
  else if n.kind == 4 && n.status == .running && n.image.isSome then some (.inject (.collNodeComplete g.gid n.index [] 0))
  else if s.mayPreempt g n then some (.inject (.preempt g.gid n.index))
  else none

/-- What a command processor has to do for a started packet: the polls of a WAIT_VALUE and its timeout, the end of a REGION_DESTROY (R42, R44,
R50). -/
noncomputable def State.packetTurn (s : State) (p : Packet) : Option Turn :=
  if p.kind == 3 then
    some (.inject (if !s.waitHolds p && s.waitExpired p then .waitValueTimeout p.pid else .waitValueMet p.pid))
  else if (s.destroyDone p).isSome then some (.inject (.regionDestroyComplete p.pid))
  else none

/-- What the clover cores have to do for a queue (R43, R382). -/
noncomputable def State.queueTurn (s : State) (x : Queue) : Option Turn :=
  if s.drained x then some (.inject (.queueDisableComplete x.q))
  else if x.served then some (.clover x.q)
  else none

/-- What Yarrow has to do (R368, R369, R376, R380, R401). -/
noncomputable def State.yarrowTurns (s : State) : List Turn :=
  (if s.bootDue then [.boot] else []) ++ (if s.nextCommand.isSome then [.yarrow] else []) ++ (if s.actionReady then [.action] else [])
    ++ (if s.actionLate then [.inject .serviceActionTimeout] else [])
    ++ (match firstUnposted s.port0.items [] with
      | some i => if s.port0.srq.hasRoom then [.inject (.serviceRequest i.kind)] else []
      | none => [])

/-- What the part does to its own power and clock as soon as it is due, in every stage of the boot: its power removed at the trip point,
a step of throttling (R403). -/
noncomputable def State.thermalTurn (s : State) : Option Turn :=
  if s.boot.junction ≥ 110 && !s.boot.tripped then some (.inject .thermalTrip)
  else if s.throttleDue && !s.boot.tripped then some (.inject .throttleStep)
  else none

/-- The turns that the part could take by itself, those of the task on stage first. What a COLL node needs of other ranks, pages that
arrive, errors, flits, the junction's temperature and everything that the host does come from outside, by the schedule. -/
noncomputable def State.turns (s : State) : List Turn :=
  s.tasks.flatMap Task.turns ++ s.tasks.flatMap s.biteTurns ++ s.graphs.flatMap (fun g => g.nodes.filterMap (s.nodeTurn g))
    ++ s.packets.filterMap s.packetTurn ++ s.queues.filterMap s.queueTurn ++ s.yarrowTurns

/-- The next turn: the head of the schedule, or else what the junction's temperature makes due, the next stage of the boot, or one of the
turns that the part could take, in rotation. -/
noncomputable def State.pick (s : State) : Choice × State :=
  match s.sched with
  | t :: rest => (.turn t, { s with sched := rest })
  | [] =>
    match s.thermalTurn with
    | some t => (.turn t, s)
    | none =>
      if s.boot.stage ≠ 4 then (if s.bootDue then (.turn .boot, s) else (.idle, s))
      else
        let ts := s.turns
        match ts[s.freeCtr % ts.length]? with
        | some t => (.turn t, s)
        | none => (.idle, s)

/-- Time passed in a step: an amount that the manual does not fix (log 6). -/
def State.tick (s : State) : State :=
  { s with cycle := s.cycle + 1 + BitVec.ofNat 64 (Config.freeCycles (2 * s.freeCtr))
           ticks := s.ticks + Config.freeCycles (2 * s.freeCtr + 1)
           freeCtr := s.freeCtr + 1 }

end Sys2Proof.Machine
end

