-- ==== Sys2Proof/Machine/Step.lean ====
section
/-! DEFINITION. One step of the machine, and the placing of one instruction where the next step fetches it. -/

namespace Sys2Proof.Machine

noncomputable section

/-- The word that a party has fetched, decoded and run; a word that is no instruction, and a fetch that fails, raise their
faults (R94, R125). -/
def runFetched : Fetched → State → Host.Outcome State Fault Refusal
  | .idle, s => .next s
  | .bad s t, _ =>
    match t.addr with
    | some a => exec (.fetchFault (BitVec.ofNat 8 t.cause) t.info a) s
    | none => .next (s.takeFault t)
  | .word s w, _ =>
    match decode w with
    | .instr i => exec i s
    | .reject _ => exec (.wordNotAnInstruction w) s

/-- What the turn of a party leaves: a saved array word that has waited gives back what it had put aside (R347). -/
def closeEntry : Host.Outcome State Fault Refusal → Host.Outcome State Fault Refusal
  | .next s => .next (s.onTask Task.leaveEntry)
  | o => o

/-- A turn of a party: its task on stage, its word fetched and run. -/
def runParty (tid : Nat) (p : Party) (s : State) : Host.Outcome State Fault Refusal :=
  let s1 := s.onStage tid
  if s1.task.id.tid = tid then closeEntry (runFetched (s1.fetch p) s1) else .next s

/-- A visit of a queue by its clover core: the next packet checked and started, or sent to the host under PARSE (R64, R66). A queue whose
packet must wait is passed, and the rotation goes on behind it. A packet that the host has returned is not sent again. -/
def runQueue (q : Nat) (s : State) : Host.Outcome State Fault Refusal :=
  match s.visitQueue q with
  | .nothing => .next (s.passQueue q)
  | .unreadable => .next (s.loseQueue q)
  | .parsed p => exec (decodePacket q p) (s.modQueue q (fun x => { x with parsed := none }))
  | .packet p => if s.port0.duty.getLsbD 0 then .next ((s.countPacket q).askParse q p) else exec (decodePacket q p) (s.countPacket q)

/-- A turn of a clover core, for the queue that its rotation gives (R64). -/
def runClover (q : Nat) (s : State) : Host.Outcome State Fault Refusal := runQueue (s.cloverQueue q) (s.recallVisit (s.cloverQueue q))

/-- A turn of Yarrow: the next command of the command ring taken (R381). -/
def runYarrow (s : State) : Host.Outcome State Fault Refusal :=
  match s.nextCommand with
  | none => .next s
  | some e => exec (decodeCommand e) s.takeCommand

/-- A turn taken. -/
def runTurn (t : Turn) (s : State) : Host.Outcome State Fault Refusal :=
  match t with
  | .party tid p => runParty tid p s
  | .clover q => runClover q s
  | .yarrow => runYarrow s
  | .inject i => exec i s
  | .action => .next s.continueActions
  | .reach tid => .next (s.reachStop tid)
  | .boot => .next s.bootStep
  | .hostRead bar off n => .next (s.hostRead bar off n)
  | .storage site correctable => .next (s.storageError site correctable)
  | .powerCycle => .next s.powerCycle
  | .temperature c => .next (s.setJunction c)
  | .hostMemory a bs => .next (s.hostStores a bs)
  | .peerMemory fab a bs => .next (s.peerStores fab a bs)
  | .admits ws rs => .next (s.setAdmits ws rs)
  | .loadRecords ctx text code splice regs => .next (s.loadRecords ctx text code splice regs)
  | .unloadRecords ctx text n => .next (s.unloadRecords ctx text n)

/-- One step: the next turn chosen and taken. A part that has removed its own power at the trip point takes no step but a power cycle; its
mailbox shows the trip, its junction cools, and what surrounds it goes on (R403). -/
def step (s : State) : Host.Outcome State Fault Refusal :=
  let c := s.pick
  let s1 := c.2.tick
  match c.1 with
  | .turn t => if s.boot.tripped && !t.outside then .fault .powerOff else runTurn t s1
  | .idle => if s.boot.tripped then .fault .powerOff else .next s1

/-- s with the instruction whose bits are w placed where the next step fetches it (log 2). -/
def State.withFetchWord (s : State) (nbits w : Nat) : State := s.placeWord (BitVec.ofNat 32 (w % 2 ^ nbits))

end

end Sys2Proof.Machine
end

