-- ==== Sys2Proof/Safety.lean ====
section
/-! DEFINITION. What counts as a safe run, and the terms that the statements use: where a word issues undisturbed, and what a
word over elements leaves. -/

namespace Sys2Proof.Machine

/-- A step that neither faults at the host level nor refuses. -/
def stepsOn (s : State) : Prop := ∃ t, step s = .next t

/-- The memory invariant: the list of cells is in its canonical form. -/
def State.memoryOk (s : State) : Prop := Memory.wf s.mem

/-! ## Where a word issues -/

/-- The control thread of the task on stage issues, with no poisoned register (R352). -/
structure State.AtControl (s : State) : Prop where
  party : s.cur = .control
  clean : s.task.xPoison = 0

/-- A block runs, with no poison (R352), no copy whose token a word could read (R251), and no stream bound (R264). -/
structure Task.Runs (t : Task) (b : Block) : Prop where
  block : t.block = some b
  scalars : b.poison = 0
  registers : t.vPoison = []
  tiles : t.mPoison = []
  copies : t.copies = []
  streams : ∀ n, t.binding n = none

/-- The vector unit issues a word of block b in vector mode. -/
structure State.AtBlock (s : State) (b : Block) : Prop where
  party : s.cur = .vector
  runs : s.task.Runs b

/-- The vector unit, in vector mode or as the lane thread of an element, issues a word of block b. -/
structure State.AtWord (s : State) (b : Block) : Prop where
  party : s.cur = .vector ∨ ∃ e, s.cur = .lane e
  runs : s.task.Runs b

/-- The control thread, or the vector unit in vector mode, issues undisturbed: the words of both (R95). -/
def State.AtEither (s : State) : Prop := s.AtControl ∨ ∃ b, s.AtBlock b

/-- The vector unit issues a word of block b as the lane thread of element e. -/
structure State.AtLane (s : State) (b : Block) (e : Nat) : Prop where
  party : s.cur = .lane e
  runs : s.task.Runs b

/-- The vector unit issues a word of block b in an ARRAY task that declares the array (R272, R116, R23). -/
structure State.AtArray (s : State) (b : Block) : Prop where
  block : s.AtBlock b
  kind : s.task.id.kind = 2
  header : b.h0.getLsbD 11 = true
  record : s.regsAllow 0 = true

/-- Memory is plain for the task on stage: no deterministic region (R315), no stash line anywhere and no window (R239), no
poisoned granule (R353). -/
structure State.Plain (s : State) : Prop where
  region : s.det = false
  stash : s.stash = []
  windows : ∀ va, s.inWindow va = false
  poison : s.poison = []

/-! ## What the checks of a packet decide -/

/-- Checks of a packet of queue q that stand in order, each with the error code of its failure: the first one that fails decides the outcome o,
an error in state s, and where all hold, the rest says what the packet does (R418). A failure without a code is that of the queue's own root,
which stops the queue (R36). -/
def State.Decides (s : State) (o : Host.Outcome State Fault Refusal) (q : Nat) (p : BitVec 512) : List (Prop × Option Nat) → Prop → Prop
  | [], rest => rest
  | (holds, code) :: cs, rest =>
    (¬holds → o = .next (match code with
      | some c => s.packetError q p c
      | none => s.loseQueue q)) ∧
    (holds → s.Decides o q p cs rest)

/-- Checks that stand in order, each with the code of its failure: the answer r is the code of the first one that fails, or none (R128). -/
def FirstFailure : List (Prop × Nat) → Option Nat → Prop
  | [], r => r = none
  | (holds, code) :: rest, r => (¬holds → r = some code) ∧ (holds → FirstFailure rest r)

/-! ## What a store leaves -/

/-- t is s with some bytes stored at a place, and nothing else changed but the LR reservations that the store ends (R114)
and the records of replaced bytes that the store makes stale (R317): under
the place's key material those bytes read as stored and every other byte reads as before (R230); cells and key material of every
other 16-byte block are as before; memory stays in its canonical form. -/
structure State.Stored (s t : State) (p : Place) (bs : List Byte) : Prop where
  rest : t = { s.breakReservations p.key bs.length with mem := t.mem, tags := t.tags }
  bytes : ∀ k, t.readPlain p.km k =
    if p.key ≤ k ∧ k < p.key + bs.length then (bs[k - p.key]?).getD 0 else s.readPlain p.km k
  others : ∀ k, k / 16 < p.key / 16 ∨ (p.key + bs.length - 1) / 16 < k / 16 →
    Memory.get t.mem k = Memory.get s.mem k ∧ t.tagOf k = s.tagOf k
  form : Memory.wf s.mem → Memory.wf t.mem

/-- t is s with the bytes of some stores in memory, one store after another: of stores to one byte the last stays (R244). -/
def State.StoredAll (s t : State) : List (Place × List Byte) → Prop
  | [] => t = s
  | (p, bs) :: ps => ∃ u, s.Stored u p bs ∧ u.StoredAll t ps

/-- What t has in memory when the unwritten bytes of those stash lines of s that meet a test have been written back (R239, R241): the poison
that they have cleared is gone (R353); each byte of a single line reads back under its key, every other byte as before; other blocks of memory
are as before; memory stays in its canonical form. -/
structure State.WroteBack (s t : State) (hit : StashLine → Bool) : Prop where
  poison : t.poison = s.poison.filter (fun g => !s.stash.any (fun l => hit l && l.cleared.contains g))
  form : Memory.wf s.mem → Memory.wf t.mem
  bytes : ∀ l, s.stash.filter hit = [l] → l.dirty.Pairwise (fun c d => c.1 ≠ d.1) →
    (∀ c ∈ l.dirty, t.readPlain l.km c.1 = c.2) ∧
    ∀ k, (∀ c ∈ l.dirty, k ≠ c.1) → t.readPlain l.km k = s.readPlain l.km k
  others : ∀ k, (∀ l ∈ s.stash, hit l = true → ∀ c ∈ l.dirty, k / 16 ≠ c.1 / 16) →
    Memory.get t.mem k = Memory.get s.mem k ∧ t.tagOf k = s.tagOf k

/-- t is s after some read-modify-writes of n bytes, one after another (R305): each leaves the old value in element i of the group
at vd, and in memory op of the old value and what that element held. -/
def State.AmoAll (s t : State) (vd n : Nat) (op : Nat → Nat → Nat) : List (Nat × Place) → Prop
  | [] => t = s
  | (i, p) :: ps =>
    let old := leVal ((List.range n).map (fun j => s.readPlain p.km (p.key + j)))
    ∃ u, s.Stored u p (bytesOf (op old (s.task.elem (8 * n) vd i)) n) ∧
      (u.onTask (fun x => x.setElem (8 * n) vd i old)).AmoAll t vd n op ps

/-- t is s after some terms have been added to FX accumulators, one after another (R325). -/
def State.FxAll (s t : State) : List (Place × Num) → Prop
  | [] => t = s
  | (p, x) :: ps =>
    ∃ u, s.Stored u p (bytesOf (fxAdd (leVal ((List.range 64).map (fun j => s.readPlain p.km (p.key + j)))) x) 64) ∧ u.FxAll t ps

/-- u is t with accumulators of tile md written: number x is f x where f gives a value, and as before elsewhere (R269). -/
structure WroteAccs (t u : Task) (md : Nat) (f : Nat → Option Nat) : Prop where
  rest : u = { t with m := u.m }
  others : ∀ r : Fin 8, r.val ≠ md → u.m[r] = t.m[r]
  accs : ∀ x, x < 4096 → u.acc md x = (f x).getD (t.acc md x)

/-! ## What a word over elements leaves -/

/-- Element i of the group of size registers at n, at a width in bits, is f i where f gives a value, and as before elsewhere; no
other register and nothing else of the task has changed. Elements that lie past the end of a register do not exist. -/
structure WroteElems (t u : Task) (bits n size : Nat) (f : Nat → Option Nat) : Prop where
  rest : u = { t with v := u.v }
  others : ∀ r : Fin 32, ¬(n ≤ r.val ∧ r.val < n + size) → u.v[r] = t.v[r]
  elems : ∀ i, i < size * t.perReg bits → (i % t.perReg bits + 1) * bits ≤ 262144 →
    u.elem bits n i = ((f i).map (· % 2 ^ bits)).getD (t.elem bits n i)

/-- Bit i of mask register n is f i where f gives a value, and as before elsewhere; nothing else of the task has changed. -/
structure WroteBits (t u : Task) (n : Nat) (f : Nat → Option Bool) : Prop where
  rest : u = { t with v := u.v }
  others : ∀ r : Fin 32, r.val ≠ n → u.v[r] = t.v[r]
  bits : ∀ i, i < 262144 → u.maskBit n i = (f i).getD (t.maskBit n i)

/-- The word i completes: its elements are written, the state changed by g, and its party moves on. -/
def State.Writes (s : State) (i : Instr) (bits n size : Nat) (f : Nat → Option Nat) (g : State → State := id) : Prop :=
  ∃ u, exec i s = .next (g { s with task := u }).advance ∧ WroteElems s.task u bits n size f

/-- The word i completes: its mask bits are written, and its party moves on. -/
def State.WritesBits (s : State) (i : Instr) (n : Nat) (f : Nat → Option Bool) : Prop :=
  ∃ u, exec i s = .next ({ s with task := u } : State).advance ∧ WroteBits s.task u n f

/-- A value for each element of a list, none for the others. -/
def forElems (is : List Nat) (f : Nat → Nat) (i : Nat) : Option Nat := if i ∈ is then some (f i) else none

/-- A mask bit for each element of a list, none for the others. -/
def forBits (is : List Nat) (f : Nat → Bool) (i : Nat) : Option Bool := if i ∈ is then some (f i) else none

/-- A word that rounds counts itself under mode 5 with vl > 0: in srcount, or in its lane thread (R188). -/
def State.countRounding (s : State) : State :=
  if s.task.rm = 5 ∧ 0 < s.task.vl then
    match s.cur with
    | .lane _ => s.onThread (fun th => { th with rounds := th.rounds + 1 })
    | _ => s.onTask (fun t => { t with srcount := t.srcount + 1 })
  else s

/-- Under mode 5 a word that rounds needs counters (R188). -/
def State.MayRound (s : State) : Prop := s.task.rm = 5 → 0 < s.task.vl → s.drawRange.2 ≠ 0

end Sys2Proof.Machine
end

