-- ==== Sys2Proof/Certificates/Slice0/Obligations.lean ====
section
/-! DEFINITION. The obligations: what the provers are to prove of the model, each a rule of spec/ or drawn from some. -/

section

open Sys2Proof Sys2Proof.Machine

/-- Words written out from the spec's encodings decode to the instructions that they stand for: a sanity statement. -/
def Obligations.DecodeWords : Prop :=
  decode (0xFFF#12 ++ 6#5 ++ 0b000#3 ++ 5#5 ++ 0x13#7 : BitVec 32) = .instr (.addi 5 6 0xFFF) ∧
  decode (0x20#7 ++ 11#5 ++ 10#5 ++ 0b000#3 ++ 12#5 ++ 0x33#7 : BitVec 32) = .instr (.sub 12 10 11) ∧
  decode (0b0000#4 ++ 1#1 ++ 0#1 ++ 1#1 ++ 8#5 ++ 12#5 ++ 0b000#3 ++ 4#5 ++ 0b0001011#7 : BitVec 32) = .instr (.vaddVV 4 8 12 1 0 1) ∧
  decode (0b1111#4 ++ 0b10#2 ++ 0#1 ++ 8#5 ++ 12#5 ++ 0b011#3 ++ 4#5 ++ 0b0001011#7 : BitVec 32) = .instr (.vgatherVR 4 8 12 0b10 0) ∧
  decode (0b0100#4 ++ 0#1 ++ 0#1 ++ 1#1 ++ 2#5 ++ 3#5 ++ 0b101#3 ++ 1#5 ++ 0b0001011#7 : BitVec 32) = .instr (.vfmaccFVX 1 2 3 0 1) ∧
  decode (0b110#3 ++ 0b01#2 ++ 1#1 ++ 0#1 ++ 20#5 ++ 9#5 ++ 0b010#3 ++ 16#5 ++ 0b0101011#7 : BitVec 32) = .instr (.vsxe 16 20 9 0b01 0b010 1 0) ∧
  decode (0b0001#4 ++ 0#1 ++ 0#1 ++ 1#1 ++ 5#5 ++ 6#5 ++ 0b000#3 ++ 3#5 ++ 0b1011011#7 : BitVec 32) = .instr (.mopd 3 5 6 0 0 1) ∧
  decode (0b0001#4 ++ 0#1 ++ 0#1 ++ 1#1 ++ 2#5 ++ 1#5 ++ 0b011#3 ++ 4#5 ++ 0b1011011#7 : BitVec 32) = .instr (.vpmul 4 1 2 1 0 0 1) ∧
  decode (0b0001#4 ++ 0b100#3 ++ 7#5 ++ 6#5 ++ 0b110#3 ++ 0b00010#5 ++ 0b1011011#7 : BitVec 32) = .instr (.lbeq 7 6 0b10000010) ∧
  decode (0x01#7 ++ 0b00010#5 ++ 9#5 ++ 0b010#3 ++ 0#5 ++ 0b1111011#7 : BitVec 32) = .instr (.acq 9 2) ∧
  decode (0b0011#4 ++ 1#1 ++ 0b01#2 ++ 12#5 ++ 11#5 ++ 0b011#3 ++ 10#5 ++ 0b1111011#7 : BitVec 32) = .instr (.cpyc 10 3 11 12 1) ∧
  (0x0224A07B#32 : BitVec 32) = (0x01#7 ++ 0b00010#5 ++ 9#5 ++ 0b010#3 ++ 0#5 ++ 0b1111011#7) ∧
  decode 0#32 = .reject .allZero ∧
  decode 0xFFFFFFFF#32 = .reject .longerLength

/-- Decode and encode agree, from the instruction's side (R92 to R113). -/
def Obligations.EncodeDecode : Prop :=
  ∀ (i : Instr) (w : BitVec 32), encode i = some w → decode w = .instr i

/-- Decode and encode agree, from the word's side: a word in which a constant field holds anything else is no instruction (R94). -/
def Obligations.DecodeEncode : Prop :=
  ∀ (w : BitVec 32) (i : Instr), decode w = .instr i → encode i = some w

/-- An invariant of the model's memory over every step: instructions, host commands, boot and service actions alike. The form and the blank byte are the model's own (log 1). -/
def Obligations.StepKeepsMemoryForm : Prop :=
  ∀ s t : State, s.memoryOk → step s = .next t → t.memoryOk

/-- The per-instruction statements reach a run through this one, and R94. How a turn comes to stand in the schedule is the model's own (log 3),
and so is that a task that waits in place for its page fetches nothing (log 16), and that in a deterministic region the words of a block wait for
a copy that holds (log 19). -/
def Obligations.StepRunsDecoded : Prop :=
  (∀ (s : State) (p : Party) (rest : List Turn), s.boot.tripped = false →
    s.sched = .party s.task.id.tid p :: rest → s.task.status = .running →
    let fetched := (({ s with sched := rest } : State).tick).fetch p
    (∀ s1 w i, fetched = .word s1 w → decode w = .instr i → step s = closeEntry (exec i s1)) ∧
    (∀ s1 w r, fetched = .word s1 w → decode w = .reject r → step s = closeEntry (exec (.wordNotAnInstruction w) s1)) ∧
    (∀ s1 t a, fetched = .bad s1 t → t.addr = some a →
      step s = closeEntry (exec (.fetchFault (BitVec.ofNat 8 t.cause) t.info a) s1))) ∧
  (∀ s : State, (s.task.entrySave = none → closeEntry (.next s) = .next s) ∧
    ∀ e, s.task.entrySave = some e → closeEntry (.next s) = .next (s.onTask (fun t =>
      { t with block := e.block, vl := e.vl, vcfg := e.vcfg, mshape := e.mshape, mcfg := e.mcfg, fl := e.fl, entrySave := none }))) ∧
  (∀ (s : State) (w : BitVec 32), s.task.status = .running → s.task.servicing = none →
    ({ s with cur := .control } : State).codeWord s.task.pc = .ok w →
    s.fetch .control = .word (({ s with cur := .control } : State).afterFetch s.task.pc) w) ∧
  (∀ (s : State) (b : Block) (w : BitVec 32), s.task.status = .running → s.task.servicing = none → s.copyHolds = false →
    s.task.aqueue = [] → s.task.split = none → s.task.block = some b → s.task.h2Unread = false → b.off < b.len →
    ({ s with cur := .vector } : State).codeWord (b.wordAddr b.off) = .ok w →
    s.fetch .vector = .word (({ s with cur := .vector } : State).afterFetch (b.wordAddr b.off)) w) ∧
  (∀ (s : State) (b : Block) (th : LaneThread) (e : Nat) (w : BitVec 32), s.task.status = .running → s.task.servicing = none →
    s.copyHolds = false → s.task.aqueue = [] → s.task.block = some b → ({ s with cur := .lane e } : State).curThread = some th → th.joined = false → th.off < b.len →
    ({ s with cur := .lane e } : State).codeWord (b.wordAddr th.off) = .ok w →
    s.fetch (.lane e) = .word (({ s with cur := .lane e } : State).afterFetch (b.wordAddr th.off)) w) ∧
  (∀ (s : State) (a : ArrayEntry) (as : List ArrayEntry), s.task.status = .running → s.task.servicing = none → s.copyHolds = false →
    s.task.aqueue = a :: as →
    s.fetch .vector = .word ({ s with cur := .vector, task := s.task.enterEntry } : State) a.word) ∧
  (∀ (s : State) (p : Party), s.task.status ≠ .running ∨ s.task.servicing.isSome = true ∨ (p ≠ .control ∧ s.copyHolds = true) →
    s.fetch p = .idle) ∧
  (∀ s : State, s.copyHolds = true ↔ s.det = true ∧ ∃ c ∈ s.task.copies, c.status = none) ∧
  (∀ (s : State) (a : Word), s.stash = [] → s.afterFetch a = s) ∧
  (∀ (s : State) (c : BitVec 8) (info : BitVec 32) (a : BitVec 64),
    exec (.fetchFault c info a) s = .next (s.takeFault { cause := c.toNat, info := info, addr := some a })) ∧
  (∀ s : State, exec (.wordNotAnInstruction 0#32) s = .next (s.takeFault { cause := 0x02 })) ∧
  (∀ (s : State) (w : BitVec 32), w ≠ 0#32 → exec (.wordNotAnInstruction w) s = .next (s.takeFault { cause := 0x01 })) ∧
  (decode 0#32 = .reject .allZero) ∧
  (∀ w : BitVec 32, w ≠ 0#32 → w.extractLsb' 0 2 ≠ 3#2 → decode w = .reject .notThirtyTwoBit) ∧
  (∀ w : BitVec 32, w.extractLsb' 0 2 = 3#2 → w.extractLsb' 2 3 = 7#3 → decode w = .reject .longerLength)

/-- The reset values that the manual states. Those that it leaves open (log 7 and log 1) are not part of this statement, but for memory, whose
blank byte is the model's choice (log 1): what is stated here is that nothing is listed. The epoch is 2 when the part starts running (R393), which
the boot step does that forms the table; that it is 0 until then, when no table can be read, is the model's choice (log 7). -/
def Obligations.ResetState : Prop :=
  State.reset.mem = [] ∧ State.reset.keys = [] ∧ State.reset.poison = [] ∧ State.reset.stash = [] ∧
  State.reset.queues = [] ∧ State.reset.contexts = [] ∧ State.reset.graphs = [] ∧ State.reset.regions = [] ∧
  State.reset.tasks = [] ∧ State.reset.boot.stage = 0 ∧ State.reset.boot.err = 0 ∧ State.reset.cycle = 0 ∧
  State.reset.ticks = 0 ∧ State.reset.port0.duty = 0 ∧
  (∀ r ∈ [State.reset.port0.ev, State.reset.port0.srq, State.reset.port0.cmd], r = { base := 0, en := false, lsize := 0, msix := 0, wr := 0, rd := 0 }) ∧
  State.reset.port0.evlost = 0 ∧ State.reset.port0.qtbase = 0 ∧ State.reset.port0.coh = false ∧ State.reset.port0.peertab = 0 ∧
  (∀ w ∈ State.reset.port0.bar2.toList, w.en = false) ∧ (∀ w ∈ State.reset.port0.inbound.toList, w.en = false) ∧
  State.reset.epoch = 0 ∧ (∀ s : State, s.boot.stage = 3 → s.boot.gradeRecord.valid = true → s.bootStep.epoch = 2) ∧
  State.reset.memoryOk

/-- R54, R145 and R272: the data that every task starts from, what the start of a task makes of them, and the dispatch of a node by itself,
which starts one. -/
def Obligations.TaskStart : Prop :=
  (∀ r : BitVec 5, Task.vacant.x[r.toNat] = 0) ∧ Task.vacant.fold = 1 ∧ Task.vacant.vcfg = 0 ∧ Task.vacant.vl = 0 ∧
  Task.vacant.vstart = 0 ∧ (∀ r : Fin 32, Task.vacant.v[r] = 0) ∧ Task.vacant.rngpos = 0 ∧ Task.vacant.srcount = 0 ∧
  (∀ k : Fin 4, Task.vacant.fl[k] = 0) ∧ (∀ k : Fin 8, Task.vacant.m[k] = 0) ∧ Task.vacant.rows = 64 ∧ Task.vacant.cols = 64 ∧
  Task.vacant.mcfg = 0 ∧ Task.vacant.astat = 0 ∧ Task.vacant.vq = [] ∧ Task.vacant.block = none ∧ Task.vacant.replies = [] ∧
  Task.vacant.resv = none ∧ (∀ n, Task.vacant.binding n = none) ∧ Task.vacant.windows = Vector.replicate 8 none ∧
  (∀ (s : State) (g : Graph) (n : Node) (w : Want) (sec grant : Nat),
    let t := s.startTask g n w sec grant
    t.status = .running ∧ t.id.node = n.index ∧ t.id.kind = n.kind ∧ t.id.section_ = sec ∧ t.id.grant = grant ∧ t.id.kernel = n.code ∧
    t.id.ctrbase = n.ctrbase ∧ t.id.ctrlen = n.ctrlen ∧ t.id.seed = g.seed ∧ t.pc = n.desc.extractLsb' 64 64 ∧
    (∀ i : Fin 6, t.x[10 + i.val] = n.desc.extractLsb' (8 * 0x28 + 64 * i.val) 64) ∧
    (∀ r : Fin 32, r.val < 10 ∨ 15 < r.val → t.x[r] = 0) ∧
    (∀ r : Fin 32, t.v[r] = 0) ∧ t.vcfg = 0 ∧ t.vl = 0 ∧ t.vstart = 0 ∧ t.fold = 1 ∧ t.foldPending = 1 ∧ t.vlmax = grant * 16 * 32 ∧
    t.rngpos = 0 ∧ t.srcount = 0 ∧ (∀ k : Fin 4, t.fl[k] = 0) ∧ (∀ k : Fin 8, t.m[k] = 0) ∧ t.rows = 64 ∧ t.cols = 64 ∧ t.mshape = 0x0FFF ∧
    t.mcfg = 0 ∧ t.astat = 0 ∧ t.vq = [] ∧ t.block = none ∧ t.replies = [] ∧ t.resv = none ∧ (∀ n, t.binding n = none) ∧
    t.windows = Vector.replicate 8 none) ∧
  (∀ (s : State) (g : Graph) (n : Node) (w : Want) (sec : Nat), s.graph w.gid = some g → s.node w.gid w.node = some n →
    n.poisoned = false → w.resumed = false → w.kind ≤ 2 → s.lapsOf w.die g n = [] →
    s.startTask g n w sec (s.grantIn w sec) ∈ (s.dispatchNode w sec).parked)

/-- R96 of x[n]: a write to x[0] is dropped, a read of it gives 0; inside a block xn is block scalar n. R92, R115, R118, R168, R347 of moving on: the words of a block, and the saved array words of a restored task. That vstart is 0 after every word of a block in vector mode is the reading of R144 that log 14 names. -/
def Obligations.RegistersAndProgress : Prop :=
  (∀ s : State, s.x 0 = 0) ∧ (∀ (s : State) (v : Word), s.setX 0 v = s) ∧
  (∀ (s : State) (r q : BitVec 5) (v : Word), (s.cur = .control ∨ s.task.block.isSome) → r ≠ 0 →
    ((s.setX r v).x q = if q = r then v else s.x q) ∧
    (s.setX r v).xPoison.getLsbD q.toNat = (s.xPoison.getLsbD q.toNat && q != r)) ∧
  (∀ (s : State) (r : BitVec 5) (v : Word), s.cur = .control →
    ∃ xs p, s.setX r v = { s with task := { s.task with x := xs, xPoison := p } }) ∧
  (∀ (s : State) (b : Block) (r : BitVec 5) (v : Word), s.cur ≠ .control → s.task.block = some b →
    ∃ xs p, s.setX r v = { s with task := { s.task with block := some { b with xs := xs, poison := p } } }) ∧
  (∀ s : State, s.cur = .control → s.advance =
    { s with task := { s.task with pc := s.task.pc + 4, instret := s.task.instret + 1, progressAt := s.micros } }) ∧
  (∀ (s : State) (b : Block), s.cur = .vector → s.task.block = some b → s.task.entrySave = none → b.off + 1 < b.len → s.advance =
    { s with task := { s.task with block := some { b with off := b.off + 1 }, vstart := 0, progressAt := s.micros } }) ∧
  (∀ (s : State) (a : EntrySave), s.cur = .vector → s.task.entrySave = some a → s.advance =
    { s with task := { s.task with block := a.block, vl := a.vl, vcfg := a.vcfg, mshape := a.mshape, mcfg := a.mcfg, fl := a.fl,
                                   entrySave := none, aqueue := s.task.aqueue.drop 1, progressAt := s.micros } }) ∧
  (∀ (s : State) (b : Block), s.cur = .vector → s.task.block = some b → s.task.entrySave = none → b.len ≤ b.off + 1 →
    ∃ u : Task, s.advance = { s with task := { u with block := none, vstart := 0, progressAt := s.micros } } ∧
      u = { s.task with v := u.v, vPoison := u.vPoison } ∧
      ∀ r : Fin 32, u.v[r] = if s.task.fold = 1 ∧ b.h2.getLsbD r.val then 0 else s.task.v[r]) ∧
  (∀ (s : State) (e : Nat) (sp : Split), s.cur = .lane e → s.task.split = some sp →
    ∃ ths, s.advance = { s with task := { s.task with split := some { sp with threads := ths }, progressAt := s.micros } } ∧
      ths = sp.threads.map (fun th => if th.elem = e then { th with off := s.offset + 1 } else th))

/-- R113 and R92 of the base words of the control core, and R114 for division and FENCE: `sdiv`, `udiv`, `srem`, `umod` are the truncating
operations, and the overflow case stands after them. `setX` and `advance` are what RegistersAndProgress says: nothing but rd, pc and instret
changes. What FENCE orders, the model performs in program order (log 4). A branch links nothing: its register is x0, which a write leaves. -/
def Obligations.ControlCoreWords : Prop :=
  (∀ (s : State) (rd rs1 rs2 : BitVec 5), s.AtControl →
    let a := s.x rs1
    let b := s.x rs2
    let gives (v : Word) : Host.Outcome State Fault Refusal := .next (s.setX rd v).advance
    exec (.add rd rs1 rs2) s = gives (a + b) ∧
    exec (.sub rd rs1 rs2) s = gives (a - b) ∧
    exec (.sll rd rs1 rs2) s = gives (a <<< (b.toNat % 64)) ∧
    exec (.slt rd rs1 rs2) s = gives (if a.slt b then 1 else 0) ∧
    exec (.sltu rd rs1 rs2) s = gives (if a.ult b then 1 else 0) ∧
    exec (.xor rd rs1 rs2) s = gives (a ^^^ b) ∧
    exec (.srl rd rs1 rs2) s = gives (a >>> (b.toNat % 64)) ∧
    exec (.sra rd rs1 rs2) s = gives (a.sshiftRight (b.toNat % 64)) ∧
    exec (.or rd rs1 rs2) s = gives (a ||| b) ∧
    exec (.and rd rs1 rs2) s = gives (a &&& b) ∧
    exec (.addw rd rs1 rs2) s = gives (((a + b).setWidth 32).signExtend 64) ∧
    exec (.subw rd rs1 rs2) s = gives (((a - b).setWidth 32).signExtend 64) ∧
    exec (.sllw rd rs1 rs2) s = gives (((a <<< (b.toNat % 32)).setWidth 32).signExtend 64) ∧
    exec (.srlw rd rs1 rs2) s = gives (((a.setWidth 32 : BitVec 32) >>> (b.toNat % 32)).signExtend 64) ∧
    exec (.sraw rd rs1 rs2) s = gives (((a.setWidth 32 : BitVec 32).sshiftRight (b.toNat % 32)).signExtend 64)) ∧
  (∀ (s : State) (rd rs1 rs2 : BitVec 5), s.AtControl →
    let a := s.x rs1
    let b := s.x rs2
    let gives (v : Word) : Host.Outcome State Fault Refusal := .next (s.setX rd v).advance
    exec (.mul rd rs1 rs2) s = gives (a * b) ∧
    exec (.mulh rd rs1 rs2) s = gives (BitVec.ofInt 64 (a.toInt * b.toInt / 2 ^ 64)) ∧
    exec (.mulhsu rd rs1 rs2) s = gives (BitVec.ofInt 64 (a.toInt * (b.toNat : Int) / 2 ^ 64)) ∧
    exec (.mulhu rd rs1 rs2) s = gives (BitVec.ofInt 64 ((a.toNat : Int) * (b.toNat : Int) / 2 ^ 64)) ∧
    exec (.div rd rs1 rs2) s = gives (if b = 0 then BitVec.allOnes 64 else a.sdiv b) ∧
    exec (.divu rd rs1 rs2) s = gives (if b = 0 then BitVec.allOnes 64 else a.udiv b) ∧
    exec (.rem rd rs1 rs2) s = gives (if b = 0 then a else a.srem b) ∧
    exec (.remu rd rs1 rs2) s = gives (if b = 0 then a else a.umod b) ∧
    exec (.mulw rd rs1 rs2) s = gives (((a * b).setWidth 32).signExtend 64) ∧
    exec (.divw rd rs1 rs2) s = gives ((if (b.setWidth 32 : BitVec 32) = 0 then BitVec.allOnes 32 else (a.setWidth 32 : BitVec 32).sdiv (b.setWidth 32 : BitVec 32)).signExtend 64) ∧
    exec (.divuw rd rs1 rs2) s = gives ((if (b.setWidth 32 : BitVec 32) = 0 then BitVec.allOnes 32 else (a.setWidth 32 : BitVec 32).udiv (b.setWidth 32 : BitVec 32)).signExtend 64) ∧
    exec (.remw rd rs1 rs2) s = gives ((if (b.setWidth 32 : BitVec 32) = 0 then (a.setWidth 32 : BitVec 32) else (a.setWidth 32 : BitVec 32).srem (b.setWidth 32 : BitVec 32)).signExtend 64) ∧
    exec (.remuw rd rs1 rs2) s = gives ((if (b.setWidth 32 : BitVec 32) = 0 then (a.setWidth 32 : BitVec 32) else (a.setWidth 32 : BitVec 32).umod (b.setWidth 32 : BitVec 32)).signExtend 64)) ∧
  (BitVec.intMin 64).sdiv (BitVec.allOnes 64) = BitVec.intMin 64 ∧ (BitVec.intMin 64).srem (BitVec.allOnes 64) = 0 ∧
  (BitVec.intMin 32).sdiv (BitVec.allOnes 32) = BitVec.intMin 32 ∧ (BitVec.intMin 32).srem (BitVec.allOnes 32) = 0 ∧
  (∀ (s : State) (rd rs1 sw : BitVec 5) (sh : BitVec 6) (imm : BitVec 12) (up : BitVec 20) (fm : BitVec 1) (pred succ : BitVec 4),
     s.AtControl →
     let a := s.x rs1
     let gives (v : Word) : Host.Outcome State Fault Refusal := .next (s.setX rd v).advance
     exec (.addi rd rs1 imm) s = gives (a + imm.signExtend 64) ∧
     exec (.slti rd rs1 imm) s = gives (if a.slt (imm.signExtend 64) then 1 else 0) ∧
     exec (.sltiu rd rs1 imm) s = gives (if a.ult (imm.signExtend 64) then 1 else 0) ∧
     exec (.xori rd rs1 imm) s = gives (a ^^^ imm.signExtend 64) ∧
     exec (.ori rd rs1 imm) s = gives (a ||| imm.signExtend 64) ∧
     exec (.andi rd rs1 imm) s = gives (a &&& imm.signExtend 64) ∧
     exec (.addiw rd rs1 imm) s = gives (((a + imm.signExtend 64).setWidth 32).signExtend 64) ∧
     exec (.slli rd rs1 sh) s = gives (a <<< sh.toNat) ∧
     exec (.srli rd rs1 sh) s = gives (a >>> sh.toNat) ∧
     exec (.srai rd rs1 sh) s = gives (a.sshiftRight sh.toNat) ∧
     exec (.slliw rd rs1 sw) s = gives (((a <<< sw.toNat).setWidth 32).signExtend 64) ∧
     exec (.srliw rd rs1 sw) s = gives (((a.setWidth 32 : BitVec 32) >>> sw.toNat).signExtend 64) ∧
     exec (.sraiw rd rs1 sw) s = gives (((a.setWidth 32 : BitVec 32).sshiftRight sw.toNat).signExtend 64) ∧
     exec (.lui rd up) s = gives ((up ++ 0#12).signExtend 64) ∧
     exec (.auipc rd up) s = gives (s.task.pc + (up ++ 0#12).signExtend 64) ∧
     exec (.fence fm pred succ) s = .next s.advance) ∧
  (∀ (s : State) (rd rs1 rs2 : BitVec 5) (j : BitVec 20) (imm off : BitVec 12), s.AtControl →
     let a := s.x rs1
     let b := s.x rs2
     let gives (rd : BitVec 5) (target : Word) : Host.Outcome State Fault Refusal :=
       if target.toNat % 4 = 0 then .next (((s.setX rd (s.task.pc + 4)).advance).onTask (fun t => { t with pc := target }))
       else .next (s.takeFault { cause := 0x03, addr := some target })
     exec (.jal rd j) s = gives rd (s.task.pc + (j ++ 0#1).signExtend 64) ∧
     exec (.jalr rd rs1 imm) s = gives rd ((a + imm.signExtend 64) &&& ~~~1#64) ∧
     (a = b → exec (.beq rs1 rs2 off) s = gives 0 (s.task.pc + (off ++ 0#1).signExtend 64)) ∧ (¬(a = b) → exec (.beq rs1 rs2 off) s = .next s.advance) ∧
     (a ≠ b → exec (.bne rs1 rs2 off) s = gives 0 (s.task.pc + (off ++ 0#1).signExtend 64)) ∧ (¬(a ≠ b) → exec (.bne rs1 rs2 off) s = .next s.advance) ∧
     (a.slt b = true → exec (.blt rs1 rs2 off) s = gives 0 (s.task.pc + (off ++ 0#1).signExtend 64)) ∧ (¬(a.slt b = true) → exec (.blt rs1 rs2 off) s = .next s.advance) ∧
     (a.slt b = false → exec (.bge rs1 rs2 off) s = gives 0 (s.task.pc + (off ++ 0#1).signExtend 64)) ∧ (¬(a.slt b = false) → exec (.bge rs1 rs2 off) s = .next s.advance) ∧
     (a.ult b = true → exec (.bltu rs1 rs2 off) s = gives 0 (s.task.pc + (off ++ 0#1).signExtend 64)) ∧ (¬(a.ult b = true) → exec (.bltu rs1 rs2 off) s = .next s.advance) ∧
     (a.ult b = false → exec (.bgeu rs1 rs2 off) s = gives 0 (s.task.pc + (off ++ 0#1).signExtend 64)) ∧ (¬(a.ult b = false) → exec (.bgeu rs1 rs2 off) s = .next s.advance))

/-- R163: the word completes with the number in element 0, at vl 0 with nothing written, and is out of place anywhere but in vector mode. -/
def Obligations.MaskCounts : Prop :=
  (∀ (s : State) (b : Block) (vd vs2 : BitVec 5) (c2 vm : BitVec 1), s.AtBlock b →
    s.task.groupsOk { srcs := [(vs2.toNat, 1)], dsts := [(vd.toNat, s.task.lmul)] } vm = true →
    let marked := (s.actives vm).filter (fun i => s.task.maskBit vs2.toNat i)
    let first (i : Instr) (v : Nat) : Prop :=
      (0 < s.task.vl → s.Writes i s.task.sew vd.toNat 1 (fun k => if k = 0 then some v else none)) ∧
      (s.task.vl = 0 → s.Writes i s.task.sew vd.toNat 1 (fun _ => none))
    first (.vmpopc vd vs2 c2 vm) marked.length ∧ first (.vmfirst vd vs2 c2 vm) (marked.head?.getD (2 ^ s.task.sew - 1))) ∧
  (∀ (s : State) (vd vs2 : BitVec 5) (c2 vm : BitVec 1), s.cur ≠ .vector →
    exec (.vmpopc vd vs2 c2 vm) s = .next (s.takeFault { cause := 0x01 }) ∧
    exec (.vmfirst vd vs2 c2 vm) s = .next (s.takeFault { cause := 0x01 }))

/-- R113 and R114. `locateRead` is translation with the rights of a load, and the poison check (see Translation). The address stored to is the one
that the meaning uses, and `Stored` asserts what every byte of memory reads as. -/
def Obligations.LoadsAndStores : Prop :=
  (∀ (s : State) (rd rs1 : BitVec 5) (imm : BitVec 12), s.AtControl →
     let a := s.x rs1 + imm.signExtend 64
     let value (p : Place) (n : Nat) : Nat := leVal ((List.range n).map (fun i => s.readPlain p.km (p.key + i)))
     let asserts (i : Instr) (n : Nat) (ext : Nat → Word) : Prop :=
       (∀ p, s.Plain → a.toNat % n = 0 → s.locateRead a n = .ok p → exec i s = .next (s.setX rd (ext (value p n))).advance) ∧
       (a.toNat % n ≠ 0 → exec i s = .next (s.takeFault { cause := 0x03, addr := some a })) ∧
       (∀ t, a.toNat % n = 0 → s.locateRead a n = .error t → exec i s = .next (s.takeFault t))
     asserts (.lb rd rs1 imm) 1 (fun v => (BitVec.ofNat 8 v).signExtend 64) ∧
     asserts (.lh rd rs1 imm) 2 (fun v => (BitVec.ofNat 16 v).signExtend 64) ∧
     asserts (.lw rd rs1 imm) 4 (fun v => (BitVec.ofNat 32 v).signExtend 64) ∧
     asserts (.ld rd rs1 imm) 8 (fun v => BitVec.ofNat 64 v) ∧
     asserts (.lbu rd rs1 imm) 1 (fun v => BitVec.ofNat 64 v) ∧
     asserts (.lhu rd rs1 imm) 2 (fun v => BitVec.ofNat 64 v) ∧
     asserts (.lwu rd rs1 imm) 4 (fun v => BitVec.ofNat 64 v)) ∧
  (∀ (s : State) (rs1 rs2 : BitVec 5) (imm : BitVec 12), s.AtControl →
     let a := s.x rs1 + imm.signExtend 64
     let asserts (i : Instr) (n : Nat) : Prop :=
       (∀ p, s.Plain → a.toNat % n = 0 → s.locate a n .write = .ok p →
         ∃ t, exec i s = .next t.advance ∧ s.Stored t p (bytesOf (s.x rs2).toNat n)) ∧
       (a.toNat % n ≠ 0 → exec i s = .next (s.takeFault { cause := 0x03, addr := some a })) ∧
       (∀ t, a.toNat % n = 0 → s.locate a n .write = .error t → exec i s = .next (s.takeFault t))
     asserts (.sb rs1 rs2 imm) 1 ∧
     asserts (.sh rs1 rs2 imm) 2 ∧
     asserts (.sw rs1 rs2 imm) 4 ∧
     asserts (.sd rs1 rs2 imm) 8)

/-- R114 of reservations, R297; R306 with the operations of the published ISA. aq and rl order accesses that the model performs in order
(log 4). -/
def Obligations.ControlAtomics : Prop :=
  (∀ (s : State) (rd rs1 rs2 : BitVec 5) (aq rl : BitVec 1), s.AtControl →
     let a := s.x rs1
     let value (p : Place) (n : Nat) : Nat := leVal ((List.range n).map (fun i => s.readPlain p.km (p.key + i)))
     let lr (i : Instr) (n : Nat) (ext : Nat → Word) : Prop :=
       (∀ p, s.Plain → a.toNat % n = 0 → s.locateRead a n = .ok p → p.page.home = 0 →
         exec i s = .next ((s.onTask (fun t => { t with resv := some (p.key / 128) })).setX rd (ext (value p n))).advance) ∧
       (∀ p, a.toNat % n = 0 → s.locateRead a n = .ok p → p.page.home ≠ 0 →
         exec i s = .next (s.takeFault { cause := 0x06, addr := some a })) ∧
       (a.toNat % n ≠ 0 → exec i s = .next (s.takeFault { cause := 0x03, addr := some a }))
     let sc (i : Instr) (n : Nat) : Prop :=
       (∀ p, s.Plain → a.toNat % n = 0 → s.locate a n .write = .ok p → p.page.home = 0 → s.task.resv = some (p.key / 128) →
         ∃ t, exec i s = .next ((t.onTask (fun t => { t with resv := none })).setX rd 0).advance ∧
           s.Stored t p (bytesOf (s.x rs2).toNat n)) ∧
       (∀ p, a.toNat % n = 0 → s.locate a n .write = .ok p → p.page.home = 0 → s.task.resv ≠ some (p.key / 128) →
         exec i s = .next ((s.onTask (fun t => { t with resv := none })).setX rd 1).advance) ∧
       (∀ p, a.toNat % n = 0 → s.locate a n .write = .ok p → p.page.home ≠ 0 →
         exec i s = .next (s.takeFault { cause := 0x06, info := 1, addr := some a })) ∧
       (a.toNat % n ≠ 0 → exec i s = .next (s.takeFault { cause := 0x03, addr := some a }))
     lr (.lrW rd rs1 aq rl) 4 (fun v => (BitVec.ofNat 32 v).signExtend 64) ∧ lr (.lrD rd rs1 aq rl) 8 (BitVec.ofNat 64) ∧
     sc (.scW rd rs1 rs2 aq rl) 4 ∧ sc (.scD rd rs1 rs2 aq rl) 8) ∧
  (∀ (s : State) (rd rs1 rs2 : BitVec 5) (aq rl : BitVec 1), s.AtControl →
     let addr := s.x rs1
     let value (p : Place) (n : Nat) : Nat := leVal ((List.range n).map (fun i => s.readPlain p.km (p.key + i)))
     let ext (n v : Nat) : Word := if n = 4 then (BitVec.ofNat 32 v).signExtend 64 else BitVec.ofNat 64 v
     let asserts (i : Instr) (n : Nat) (op : Nat → Nat → Nat → Nat) : Prop :=
       (∀ p, s.Plain → addr.toNat % n = 0 → s.locateRead addr n .atomic = .ok p → p.page.home = 0 →
         ∃ t, exec i s = .next (t.setX rd (ext n (value p n))).advance ∧
           s.Stored t p (bytesOf (op n (value p n) ((s.x rs2).toNat % 2 ^ (8 * n))) n)) ∧
       (addr.toNat % n ≠ 0 → exec i s = .next (s.takeFault { cause := 0x03, addr := some addr }))
     asserts (.amoswapW rd rs1 rs2 aq rl) 4 (fun n a b => b) ∧
     asserts (.amoswapD rd rs1 rs2 aq rl) 8 (fun n a b => b) ∧
     asserts (.amoaddW rd rs1 rs2 aq rl) 4 (fun n a b => (a + b) % 2 ^ (8 * n)) ∧
     asserts (.amoaddD rd rs1 rs2 aq rl) 8 (fun n a b => (a + b) % 2 ^ (8 * n)) ∧
     asserts (.amoxorW rd rs1 rs2 aq rl) 4 (fun n a b => a ^^^ b) ∧
     asserts (.amoxorD rd rs1 rs2 aq rl) 8 (fun n a b => a ^^^ b) ∧
     asserts (.amoandW rd rs1 rs2 aq rl) 4 (fun n a b => a &&& b) ∧
     asserts (.amoandD rd rs1 rs2 aq rl) 8 (fun n a b => a &&& b) ∧
     asserts (.amoorW rd rs1 rs2 aq rl) 4 (fun n a b => a ||| b) ∧
     asserts (.amoorD rd rs1 rs2 aq rl) 8 (fun n a b => a ||| b) ∧
     asserts (.amominW rd rs1 rs2 aq rl) 4 (fun n a b => if sextN a (8 * n) ≤ sextN b (8 * n) then a else b) ∧
     asserts (.amominD rd rs1 rs2 aq rl) 8 (fun n a b => if sextN a (8 * n) ≤ sextN b (8 * n) then a else b) ∧
     asserts (.amomaxW rd rs1 rs2 aq rl) 4 (fun n a b => if sextN a (8 * n) ≤ sextN b (8 * n) then b else a) ∧
     asserts (.amomaxD rd rs1 rs2 aq rl) 8 (fun n a b => if sextN a (8 * n) ≤ sextN b (8 * n) then b else a) ∧
     asserts (.amominuW rd rs1 rs2 aq rl) 4 (fun n a b => min a b) ∧
     asserts (.amominuD rd rs1 rs2 aq rl) 8 (fun n a b => min a b) ∧
     asserts (.amomaxuW rd rs1 rs2 aq rl) 4 (fun n a b => max a b) ∧
     asserts (.amomaxuD rd rs1 rs2 aq rl) 8 (fun n a b => max a b))

/-- R115. CSRRW and CSRRWI complete nowhere: the manual stops them on every path. -/
def Obligations.CounterReads : Prop :=
  ∀ (s : State) (rd r : BitVec 5) (c : BitVec 12), s.AtControl →
    let reads (i : Instr) : Prop :=
      (c = 0xC00 → exec i s = .next (s.setX rd s.cycle).advance) ∧
      (c = 0xC01 → exec i s = .next (s.setX rd (BitVec.ofNat 64 s.ticks)).advance) ∧
      (c = 0xC02 → exec i s = .next (s.setX rd s.task.instret).advance) ∧
      (c ≠ 0xC00 → c ≠ 0xC01 → c ≠ 0xC02 → exec i s = .next (s.takeFault { cause := 0x01 }))
    let refused (i : Instr) : Prop := exec i s = .next (s.takeFault { cause := 0x01 })
    reads (.csrrs rd 0 c) ∧ reads (.csrrc rd 0 c) ∧ reads (.csrrsi rd 0 c) ∧ reads (.csrrci rd 0 c) ∧
    refused (.csrrw rd r c) ∧ refused (.csrrwi rd r c) ∧
    (r ≠ 0 → refused (.csrrs rd r c) ∧ refused (.csrrc rd r c) ∧ refused (.csrrsi rd r c) ∧ refused (.csrrci rd r c))

/-- R333 to R336, R339, R350; what the fault service is asked, and what a meld's fault counts, R66, R140 and R358: once for one fault, whether
it is served or comes to the host's table in the end. That a trap whose image the pool cannot hold ends its task, and that a page swap then waits in place, are readings of R344 (log 16); the act that a domain goes by
whose entry cannot be read is the model's own (log 36). -/
def Obligations.FaultDelivery : Prop :=
  (∀ (s : State) (ctx fdom : Nat) (r : BitVec 512) (c : Context), s.context ctx = some c →
    let entry : Word := c.fdtab + BitVec.ofNat 64 (64 * (if fdom < c.ndom then fdom else 0))
    let b := s.recallAt ctx entry 64
    (∀ p w, b.yarrowPlace ctx entry 64 .read = some p → b.yarrowPlace ctx entry 64 .write = some w →
      let field (off n : Nat) : Nat := leVal (b.peekBytes p.km (p.key + off) n)
      let wridx := field 0x10 8
      let slot : Word := BitVec.ofNat 64 (field 0 8 + wridx % 2 ^ field 8 1 * 64)
      (wridx - field 0x18 8 < 2 ^ field 8 1 →
        (∀ q, b.yarrowPlace ctx slot 64 .write = some q →
          s.deliverRecord ctx fdom r = (((b.agentWrite q.km q.key (bytesOf r.toNat 64)).agentWrite p.km (p.key + 0x10)
            (bytesOf (wridx + 1) 8)).fireMsix (field 0x0A 2), true)) ∧
        (b.yarrowPlace ctx slot 64 .write = none → s.deliverRecord ctx fdom r = (b.reject 5 fdom, false))) ∧
      (2 ^ field 8 1 ≤ wridx - field 0x18 8 →
        s.deliverRecord ctx fdom r = (b.agentWrite p.km (p.key + 0x20) (bytesOf (field 0x20 8 + 1) 8), false))) ∧
    (b.yarrowPlace ctx entry 64 .read = none ∨ b.yarrowPlace ctx entry 64 .write = none →
      s.deliverRecord ctx fdom r = (b.reject 5 fdom, false)) ∧
    (∀ p, s.yarrowPlace ctx (entry + 9) 1 .read = some p → (s.domainHalts ctx fdom = true ↔ s.peekByte p.km p.key = 1)) ∧
    (s.yarrowPlace ctx (entry + 9) 1 .read = none → s.domainHalts ctx fdom = c.halts.contains (if fdom < c.ndom then fdom else 0))) ∧
  (∀ (s : State) (t : Task) (c : Nat) (r : BitVec 512),
    let fdom := s.effFdom t.id.ctx t.id.region
    let d := s.deliverRecord t.id.ctx fdom r
    let counted := if d.2 = true ∧ t.offered r = false then d.1.countMeld t.id.gid r else d.1
    let u := counted.modTask t.id.tid (fun x => { x with fseq := x.fseq + 1, frec := r })
    let asks := (c = 0x0F ∨ c = 0x10 ∨ c = 0x11 ∨ c = 0x12) ∧ d.2 = true
    let holds := asks ∧ (t.status ≠ .running ∨ s.poolHolds t = true)
    (asks → t.status ≠ .running → s.deliverFault t c r = (u.modTask t.id.tid (fun x => { x with status := .held c })).settle) ∧
    (asks → t.status = .running → s.poolHolds t = true → s.deliverFault t c r = (u.stopTask t.id.tid (.held c)).settle) ∧
    (¬holds → s.domainHalts t.id.ctx fdom = true →
      s.deliverFault t c r = ((u.haltDomain t.id.ctx fdom).endTask t).settle) ∧
    (¬holds → s.domainHalts t.id.ctx fdom = false → s.deliverFault t c r = (u.endTask t).settle)) ∧
  (∀ (s : State) (t : Task) (r : BitVec 512),
    (r.getLsbD 10 = true → s.countMeld t.id.gid r = s.modDie (s.graphDie t.id.gid) (fun x => { x with mfaults := x.mfaults + 1 })) ∧
    (r.getLsbD 10 = false → s.countMeld t.id.gid r = s) ∧
    (∀ q, t.status = .waitPage q → (t.offered r = true ↔ q ||| 4#512 <<< 448 = r ||| 4#512 <<< 448)) ∧
    ((∀ q, t.status ≠ .waitPage q) → (t.offered r = true ↔ ∃ q, t.servicing = some q ∧ q ||| 4#512 <<< 448 = r ||| 4#512 <<< 448)) ∧
    (s.port0.duty.getLsbD 2 = false → s.askService t r = s.countMeld t.id.gid r) ∧
    (s.port0.duty.getLsbD 2 = true → s.askService t r =
      (s.countMeld t.id.gid r).postRequest 3 (s.dieOf t) t.id.ctx (.fltsvc t.id.tid r) (r.setWidth 896)) ∧
    let out := (s.stopTask t.id.tid (.waitPage r)).modTask t.id.tid (fun x => { x with servicing := none })
    (t.offered r = false → s.swapOut t r = (out.askService t r).settle) ∧ (t.offered r = true → s.swapOut t r = out.settle)) ∧
  (∀ (s : State) (tr : Trap), tr.whole = none → s.task.entrySave = none →
    let record := s.recordOf s.task s.cur tr
    let served := (tr.cause = 0x04 ∨ tr.cause = 0x05) ∧ tr.info.getLsbD 1 = false ∧ tr.fromCopy = false ∧
      ∃ a, tr.addr = some a ∧ a.toNat < 2 ^ 48 ∧ (s.task.id.ctx, a.toNat / 4096) ∉ s.unservable
    (served → s.poolHolds s.task = true → s.takeFault tr = s.swapOut s.task record) ∧
    (served → s.poolHolds s.task = false →
      (s.task.servicing = some record → s.takeFault tr = s) ∧
      (s.task.servicing ≠ some record → s.takeFault tr =
        (s.modTask s.task.id.tid (fun x => { x with servicing := some record })).askService s.task record)) ∧
    (¬served → tr.cause ≠ 0x0E → s.takeFault tr = s.deliverFault s.task tr.cause record) ∧
    (tr.cause = 0x0E → s.takeFault tr = (s.logConsumed s.task tr).deliverFault s.task 0x0E record))

/-- R352: the fault names the first poisoned x register that the word reads, or the lowest element concerned; what no active element reads raises
nothing. The numbers of registers in the error log are the model's (log 22): x registers 0 to 31, block scalars 32 to 63, v registers 64 to 95, tile
registers 96 to 103. -/
def Obligations.PoisonedRegisters : Prop :=
  (∀ (s : State) (rd rs1 rs2 : BitVec 5) (imm : BitVec 12), s.cur = .control → rs1 ≠ 0 → s.task.xPoison.getLsbD rs1.toNat = true →
    let bad (i : Instr) : Prop := ∃ r : BitVec 5, (r = rs1 ∨ r = rs2) ∧ r ≠ 0 ∧ s.task.xPoison.getLsbD r.toNat = true ∧
      exec i s = .next (s.takeFault { cause := 0x0E, reg := some (r.toNat, 0) })
    bad (.add rd rs1 rs2) ∧ bad (.add rd rs2 rs1) ∧ bad (.addi rd rs1 imm) ∧ bad (.beq rs1 rs2 imm) ∧ bad (.jalr rd rs1 imm) ∧
    bad (.ld rd rs1 imm) ∧ bad (.sd rs2 rs1 imm) ∧ bad (.amoaddD rd rs1 rs2 0 0) ∧ bad (.acq rs1 0) ∧ bad (.tspawn rs1)) ∧
  (∀ (s : State) (b : Block) (r : BitVec 5) (simm : BitVec 10) (sh : BitVec 3), s.cur = .vector → s.task.block = some b → s.task.copies = [] →
    r ≠ 0 → b.poison.getLsbD r.toNat = true →
    let bad (i : Instr) : Prop := exec i s = .next (s.takeFault { cause := 0x0E, reg := some (32 + r.toNat, 0) })
    bad (.vpost r) ∧ bad (.baddi r simm) ∧ bad (.baddvl r sh) ∧ bad (.trapc r)) ∧
  (∀ (s : State) (b : Block) (vd vs2 : BitVec 5) (c2 : BitVec 1) (k : Nat) (bytes : BitVec 8), s.cur = .vector → s.task.block = some b →
    s.task.copies = [] → (∀ n, s.task.binding n = none) → s.task.lmul = 1 → s.task.vPoison = [(vs2.toNat, k, bytes)] → bytes ≠ 0 →
    s.task.groupsOk { srcs := [(vs2.toNat, 1)], dsts := [(vd.toNat, 1)] } 1 = true →
    let w := s.task.sew
    let reads (i : Nat) : Prop := i ∈ s.actives 1 ∧ 64 * k < i * w + w ∧ i * w < 64 * k + 64
    (∀ i, reads i → (∀ j, reads j → i ≤ j) →
      exec (.vmv vd vs2 c2 1) s = .next (s.takeFault { cause := 0x0E, elem := some i, reg := some (64 + vs2.toNat, 8 * k) })) ∧
    ((∀ i, ¬reads i) → (64 + vs2.toNat, k) ∈ s.task.latent → vd ≠ vs2 →
      s.Writes (.vmv vd vs2 c2 1) w vd.toNat 1 (forElems (s.actives 1) (fun i => s.task.elem w vs2.toNat i)))) ∧
  (∀ (s : State) (b : Block) (vd xs : BitVec 5) (md : BitVec 3) (k : Nat) (bytes : BitVec 8), s.cur = .vector → s.task.block = some b →
    s.task.copies = [] → (∀ n, s.task.binding n = none) → b.poison = 0 → s.task.vPoison = [] → s.task.mPoison = [(md.toNat, k, bytes)] →
    s.task.id.kind = 2 → b.h0.getLsbD 11 = true → s.regsAllow 0 = true → s.task.dsc = 0 → s.task.sew = 32 →
    s.task.groupsOk { srcs := [], dsts := [(vd.toNat, s.task.lmul)] } 1 = true →
    let n := fieldN s.task.mshape 6 6 + 1
    let row0 := fieldN (s.x xs) 0 6
    let reads (i : Nat) : Prop := i < s.task.vl ∧ i < s.task.vlmax ∧ (64 * (row0 + i / n) + i % n) / 2 = k
    fieldN (s.x xs) 6 26 = 0 → row0 < fieldN s.task.mshape 0 6 + 1 → s.task.vl ≤ (fieldN s.task.mshape 0 6 + 1 - row0) * n →
    ∀ i, reads i → (∀ j, reads j → i ≤ j) →
      exec (.mdrain vd md xs 1) s = .next (s.takeFault { cause := 0x0E, elem := some i, reg := some (96 + md.toNat, 8 * k) }))

/-- R95: the where column of the table, and lane mode's exclusions. -/
def Obligations.WordsOutOfPlace : Prop :=
  (∀ (s : State) (rd r1 r2 : BitVec 5) (imm : BitVec 12) (sc : BitVec 3), s.cur ≠ .control →
    let bad (i : Instr) : Prop := exec i s = .next (s.takeFault { cause := 0x01 })
    bad (.add rd r1 r2) ∧ bad (.addi rd r1 imm) ∧ bad (.ld rd r1 imm) ∧ bad (.sd r1 r2 imm) ∧ bad (.jalr rd r1 imm) ∧
    bad (.amoaddD rd r1 r2 0 0) ∧ bad (.csrrs rd r1 imm) ∧ bad .ecall ∧ bad (.vblk r1) ∧ bad (.vreply rd) ∧ bad .vdrainq ∧
    bad (.vdecl r1) ∧ bad (.tspawn r1) ∧ bad .tyield ∧ bad .tdone ∧ bad (.l2unpin sc)) ∧
  (∀ (s : State) (rd r1 r2 : BitVec 5) (vm c : BitVec 1) (lc fl pol : BitVec 2) (m eew : BitVec 3) (pair : BitVec 4), s.cur = .control →
    let bad (i : Instr) : Prop := exec i s = .next (s.takeFault { cause := 0x01 })
    bad (.vaddVV rd r1 r2 c c vm) ∧ bad (.vfaddFVX rd r1 r2 c vm) ∧ bad (.vle rd r1 pol eew vm) ∧ bad (.vsxe rd r1 r2 pol eew c vm) ∧
    bad (.vpmul rd fl r1 r2 c c vm) ∧ bad (.mopa m r1 r2 c c vm) ∧ bad (.vstrip lc) ∧ bad (.vsplit 1 vm) ∧ bad (.ljmp 1) ∧
    bad (.cpy rd pair r1 r2) ∧ bad (.sbind rd r1) ∧ bad (.vfxadd r1 r2)) ∧
  (∀ (s : State) (e : Nat) (rd r1 r2 : BitVec 5) (vm c : BitVec 1) (rsz pol : BitVec 2) (eew : BitVec 3), s.cur = .lane e →
    let bad (i : Instr) : Prop := exec i s = .next (s.takeFault { cause := 0x01 })
    bad (.vaddVR rd r1 r2 rsz vm) ∧ bad (.vgatherVV rd r1 r2 c c vm) ∧ bad (.vredsum rd r1 c vm) ∧ bad (.vle rd r1 pol eew vm) ∧
    bad (.vstrip rsz) ∧ bad (.acq rd 0) ∧ bad (.trapc rd)) ∧
  (∀ (s : State) (r1 r2 : BitVec 5) (off : BitVec 8) (j : BitVec 10), s.cur = .vector →
    let bad (i : Instr) : Prop := exec i s = .next (s.takeFault { cause := 0x01 })
    bad (.lbeq r1 r2 off) ∧ bad (.lbne r1 r2 off) ∧ bad (.lblt r1 r2 off) ∧ bad (.lbge r1 r2 off) ∧ bad (.ljmp j) ∧ bad .ljoin)

/-- Memory as R5, R226 and R230 describe it. The blank byte of memory that nothing has written is the model's choice (log 1) and no part of this. -/
def Obligations.MemoryReadAfterWrite : Prop :=
  (∀ (s : State) (km : Option (BitVec 512)) (k : Nat) (bs : List Byte),
    let t := s.writePlainMany km k bs
    (∀ j, t.readPlain km j = if k ≤ j ∧ j < k + bs.length then (bs[j - k]?).getD 0 else s.readPlain km j) ∧
    (∀ j, j / 16 < k / 16 ∨ (k + bs.length - 1) / 16 < j / 16 → Memory.get t.mem j = Memory.get s.mem j ∧ t.tagOf j = s.tagOf j) ∧
    (Memory.wf s.mem → Memory.wf t.mem) ∧ t = { s with mem := t.mem, tags := t.tags }) ∧
  Memory.wf State.reset.mem

/-- R224 to R231, R266, R297, R353, R371, R384. An access without a die that issues it is one of the firmware complex, on the west I/O die. Four
clauses are the model's choice or reading: a peer's bytes lie on device 4096 + the fabric address of its entry, so that two entries of one address
reach the same bytes, and the west I/O die reads that entry (log 33); a table on a die that cannot be reached ends the walk with the cause that an
access there has (`lost`), and an object that the firmware complex cannot read covers nothing (log 15). The views of deterministic regions are
DeterministicRegions; an entry at level 0 that is no leaf, which the model takes as malformed (log 15), is no part of this. -/
def Obligations.Translation : Prop :=
  (∀ (s : State) (ctx : Nat) (issuer : Option Nat) (va : Word) (n : Nat) (acc : Access),
    let wr : BitVec 32 := if acc = .write ∨ acc = .atomic ∨ acc = .update then 1 else 0
    let absent := if acc = .fetch then 0x04 else 0x05
    let bad (c : Nat) (info : BitVec 32) : Prop := s.translate ctx issuer va n acc = .error { cause := c, info := info, addr := some va }
    (2 ^ 48 ≤ va.toNat → bad (if acc = .fetch then 0x04 else 0x06) wr) ∧
    (∀ c, va.toNat < 2 ^ 48 → s.context ctx = some c →
      (s.pageOf issuer c va.toNat = .error .absent → bad absent wr) ∧
      (s.pageOf issuer c va.toNat = .error .malformed → bad absent (wr + 2)) ∧
      (∀ cause, s.pageOf issuer c va.toNat = .error (.lost cause) → bad cause wr) ∧
      (∀ p, s.pageOf issuer c va.toNat = .ok p →
        let right := match acc with
          | .read => p.rd = true
          | .write => p.wr = true
          | .atomic => p.rd = true ∧ p.wr = true ∧ p.home = 0
          | .fetch => p.ex = true
          | .update => p.rd = true ∧ p.wr = true
        (¬right ∨ p.owner ≠ c.part → bad 0x06 wr) ∧
        (right → p.owner = c.part → p.dbl = false →
          let fab := fieldN (s.peerEntry p.home) 0 16
          let device := if p.home = 0 ∨ p.home = 0xFFF then p.home else 4096 + fab
          let k := device * 2 ^ 52 + (p.base + va.toNat % p.size)
          (∀ cause, s.reachCause issuer p.home (k % 2 ^ 52) n (wr == 1) = some cause → bad cause wr) ∧
          (s.reachCause issuer p.home (k % 2 ^ 52) n (wr == 1) = none → s.translate ctx issuer va n acc =
            .ok { key := k, km := if p.home = 0 then s.keyMaterial p.keyid else none, va := va.toNat, page := p }))))) ∧
  (∀ (s : State) (ctx : Nat) (issuer : Option Nat) (va : Word) (n : Nat) (acc : Access) (hidden : Bool) (c : Context) (p : Page),
    va.toNat < 2 ^ 48 → s.context ctx = some c → s.pageOf issuer c va.toNat = .ok p → p.dbl = true → p.home = 0 → p.owner = c.part → p.grants acc = true →
    let plain := p.base + va.toNat % p.size
    let second := match s.selector c va.toNat with
      | none => false
      | some sel => sel != hidden
    let k := if second = true then plain + p.size else plain
    s.reachCause issuer 0 (k % 2 ^ 52) n acc.writes = none →
    s.translate ctx issuer va n acc hidden = .ok { key := k, km := s.keyMaterial p.keyid, va := va.toNat, page := p }) ∧
  (∀ (s : State) (c : Context) (va : Nat) (page : Nat → Page),
    (∀ b ∈ s.bounds, b.ctx = c.id → ∀ a, b.obj ≤ a → a < b.obj + 24 → s.pageOf none c a = .ok (page a) ∧ (page a).dbl = false ∧
      (page a).home = 0 ∧ s.homeCause none ((page a).base + a % (page a).size) = none) →
    let field (obj off : Nat) : Nat := leVal ((List.range 8).map (fun i =>
      let a := obj + off + i
      s.peekByte (s.keyMaterial (page a).keyid) ((page a).base + a % (page a).size)))
    let covers (b : Bound) : Prop := b ∈ s.bounds ∧ b.ctx = c.id ∧ field b.obj 0 ≤ va ∧ va < field b.obj 0 + field b.obj 0x10
    (∀ b, covers b → (∀ o, covers o → b.obj ≤ o.obj) → s.selector c va = some (field b.obj 8 % 2 == 1)) ∧
    ((∀ b, ¬covers b) → s.selector c va = none)) ∧
  (∀ (s : State) (issuer : Option Nat) (pa n : Nat) (wr : Bool), 0 < n →
    ((∀ d, s.homeDie pa = some d → s.homeDie (pa + n - 1) ≠ some d) → s.reachCause issuer 0 pa n wr = some 0x06) ∧
    (∀ d, s.homeDie pa = some d → s.homeDie (pa + n - 1) = some d →
      s.reachCause issuer 0 pa n wr = (match issuer with | none => s.exitCause d westExits | some i => s.pathCause i d))) ∧
  (∀ (s : State) (c : Context) (issuer : Option Nat) (va level table : Nat), level ≤ 3 →
    let entry (i : Nat) : BitVec 128 := BitVec.ofNat 128 (leVal (s.peekBytes none (table + 16 * i) 16))
    let i := va / 2 ^ (12 + 9 * level) % 512
    let e := entry i
    let ppn := fieldN e 12 40 * 4096
    let size := if level = 0 then (if e.getLsbD 5 = true then 2 ^ 16 else 2 ^ 12) else if level = 1 then 2 ^ 21 else 2 ^ 30
    let badLeaf := fieldN e 52 12 ≠ 0 ∨ fieldN e 92 36 ≠ 0 ∨ level = 3 ∨ (level ≠ 0 ∧ e.getLsbD 5 = true) ∨ 2 ≤ fieldN e 6 2 ∨
      4095 < fieldN e 64 16 ∨ ppn % size ≠ 0 ∨ (level = 0 ∧ e.getLsbD 5 = true ∧ ∃ j, j < 16 ∧ entry (i / 16 * 16 + j) ≠ e)
    let badNode := fieldN e 2 10 ≠ 0 ∨ fieldN e 52 12 ≠ 0 ∨ fieldN e 64 64 ≠ 0 ∨ ppn % 8192 ≠ 0 ∨ s.rangeDie ppn = none
    let way : Option Nat := match s.homeDie table with
      | none => some 0x06
      | some d => match issuer with
        | none => s.exitCause d westExits
        | some i => s.pathCause i d
    let walk := s.walk issuer va level table
    (∀ cause, way = some cause → walk = .error (.lost cause)) ∧
    (way = none → e.getLsbD 0 = false → walk = .error .absent) ∧
    (way = none → e.getLsbD 0 = true → e.getLsbD 1 = true →
      (badLeaf → walk = .error .malformed) ∧
      (¬badLeaf → walk = .ok
        { base := ppn, size := size, rd := e.getLsbD 2, wr := e.getLsbD 3, ex := e.getLsbD 4, uncached := fieldN e 6 2 == 1,
          dbl := e.getLsbD 8, owner := fieldN e 9 3, keyid := fieldN e 64 16, home := fieldN e 80 12 })) ∧
    (way = none → e.getLsbD 0 = true → e.getLsbD 1 = false → ∀ l, level = l + 1 →
      (badNode → walk = .error .malformed) ∧ (¬badNode → walk = s.walk issuer va l ppn)) ∧
    ((s.rangeDie c.ptroot).isSome = true → s.pageOf issuer c va = s.walk issuer va 3 c.ptroot)) ∧
  (∀ (s : State) (va : Word) (n : Nat) (acc : Access),
    (∀ t, s.locate va n acc = .error t → s.locateRead va n acc = .error t) ∧
    (∀ p, s.locate va n acc = .ok p → s.det = false →
      (s.poisoned p.key n = true → s.locateRead va n acc = .error { cause := 0x0E, addr := some va }) ∧
      (s.poisoned p.key n = false → s.locateRead va n acc = .ok p)))

/-- R96, R142 to R144, R146, R150: active elements, elements and mask bits, and the register groups that a word may name. That vl is read as at most vlmax (R61) in a state where it is larger is the model's own (log 13). -/
def Obligations.ActiveElements : Prop :=
  (∀ (s : State) (vm : BitVec 1) (i : Nat), s.cur = .vector →
    (i ∈ s.actives vm ↔ s.task.vstart ≤ i ∧ i < s.task.vl ∧ i < s.task.vlmax ∧ (vm = 1 ∨ s.task.maskBit 0 i = true))) ∧
  (∀ (s : State) (e : Nat) (vm : BitVec 1) (i : Nat), s.cur = .lane e →
    (i ∈ s.actives vm ↔ i = e ∧ e < s.task.vlmax ∧ (vm = 1 ∨ s.task.maskBit 0 i = true))) ∧
  (∀ (s : State) (vm : BitVec 1), (s.actives vm).Pairwise (· < ·)) ∧
  (∀ (t : Task) (bits n i : Nat) (r : Fin 32), r.val = n + i / t.perReg bits →
    t.elem bits n i = (t.v[r].toNat >>> (i % t.perReg bits * bits)) % 2 ^ bits) ∧
  (∀ t : Task, t.vlmax = (t.id.grant * 512 * t.fold * 8 / t.sew) * t.lmul ∧ ∀ bits, t.perReg bits = t.id.grant * 512 * t.fold * 8 / bits) ∧
  (∀ (t : Task) (r : Fin 32) (i : Nat), t.maskBit r.val i = t.v[r].getLsbD i) ∧
  (∀ t : Task, t.sew = 8 * 2 ^ (t.vcfg.toNat % 8) ∧ t.lmul = 2 ^ (t.vcfg.toNat / 8 % 4) ∧
    t.regCount = if t.fold = 1 then 32 else if t.fold = 2 then 12 else 6) ∧
  (∀ (t : Task) (g : Groups) (vm : BitVec 1), t.groupsOk g vm = true ↔
    (∀ p ∈ g.srcs ++ g.dsts, p.1 % p.2 = 0 ∧ p.1 + p.2 ≤ t.regCount) ∧ (∀ p ∈ g.loose, 0 < p.2 ∧ p.1 + p.2 ≤ t.regCount) ∧
      (vm = 1 ∨ ∀ p ∈ g.dsts, p.1 ≠ 0))

/-- R157. `wrapN` narrows to w bits, `sextN` reads a pattern of w bits as a signed number; ActiveElements asserts what the active elements are. -/
def Obligations.IntegerVectors : Prop :=
  ∀ (s : State) (b : Block) (vd vs2 vs1 xs imm : BitVec 5) (rsz : BitVec 2) (c2 c1 vm : BitVec 1),
    let w := s.task.sew
    let m := s.task.lmul
    let vv (i : Nat) : Nat := s.task.elem w vs1.toNat i
    let vx (_ : Nat) : Nat := (s.x xs).toNat % 2 ^ w
    let vi (_ : Nat) : Nat := wrapN imm.toInt w
    let vr (i : Nat) : Nat := s.task.elem w vs1.toNat (i % 4 ^ rsz.toNat)
    let exact (y : Int) : Nat := wrapN (if s.task.sat then min (max y (-(2 : Int) ^ (w - 1))) ((2 : Int) ^ (w - 1) - 1) else y) w
    let asserts (i : Instr) (srcs : List (Nat × Nat)) (second : Nat → Nat) (op : Nat → Nat → Nat) : Prop :=
      let g : Groups := { srcs := (vs2.toNat, m) :: srcs, dsts := [(vd.toNat, m)] }
      (s.task.groupsOk g vm = true →
        s.Writes i w vd.toNat m (forElems (s.actives vm) (fun i => op (s.task.elem w vs2.toNat i) (second i)))) ∧
      (s.task.groupsOk g vm = false → exec i s = .next (s.takeFault { cause := 0x01 }))
    (s.AtWord b →
      asserts (.vaddVV vd vs2 vs1 c2 c1 vm) [(vs1.toNat, m)] vv (fun x y => exact (sextN x w + sextN y w)) ∧
      asserts (.vaddVX vd vs2 xs c2 vm) [] vx (fun x y => exact (sextN x w + sextN y w)) ∧
      asserts (.vaddVI vd vs2 imm c2 vm) [] vi (fun x y => exact (sextN x w + sextN y w)) ∧
      asserts (.vsubVV vd vs2 vs1 c2 c1 vm) [(vs1.toNat, m)] vv (fun x y => exact (sextN x w - sextN y w)) ∧
      asserts (.vsubVX vd vs2 xs c2 vm) [] vx (fun x y => exact (sextN x w - sextN y w)) ∧
      asserts (.vsubVI vd vs2 imm c2 vm) [] vi (fun x y => exact (sextN x w - sextN y w)) ∧
      asserts (.vmulVV vd vs2 vs1 c2 c1 vm) [(vs1.toNat, m)] vv (fun x y => exact (sextN x w * sextN y w)) ∧
      asserts (.vmulVX vd vs2 xs c2 vm) [] vx (fun x y => exact (sextN x w * sextN y w)) ∧
      asserts (.vmulVI vd vs2 imm c2 vm) [] vi (fun x y => exact (sextN x w * sextN y w)) ∧
      asserts (.vandVV vd vs2 vs1 c2 c1 vm) [(vs1.toNat, m)] vv (fun x y => x &&& y) ∧
      asserts (.vandVX vd vs2 xs c2 vm) [] vx (fun x y => x &&& y) ∧
      asserts (.vandVI vd vs2 imm c2 vm) [] vi (fun x y => x &&& y) ∧
      asserts (.vorVV vd vs2 vs1 c2 c1 vm) [(vs1.toNat, m)] vv (fun x y => x ||| y) ∧
      asserts (.vorVX vd vs2 xs c2 vm) [] vx (fun x y => x ||| y) ∧
      asserts (.vorVI vd vs2 imm c2 vm) [] vi (fun x y => x ||| y) ∧
      asserts (.vxorVV vd vs2 vs1 c2 c1 vm) [(vs1.toNat, m)] vv (fun x y => x ^^^ y) ∧
      asserts (.vxorVX vd vs2 xs c2 vm) [] vx (fun x y => x ^^^ y) ∧
      asserts (.vxorVI vd vs2 imm c2 vm) [] vi (fun x y => x ^^^ y) ∧
      asserts (.vsllVV vd vs2 vs1 c2 c1 vm) [(vs1.toNat, m)] vv (fun x y => x * 2 ^ (y % w) % 2 ^ w) ∧
      asserts (.vsllVX vd vs2 xs c2 vm) [] vx (fun x y => x * 2 ^ (y % w) % 2 ^ w) ∧
      asserts (.vsllVI vd vs2 imm c2 vm) [] vi (fun x y => x * 2 ^ (y % w) % 2 ^ w) ∧
      asserts (.vsrlVV vd vs2 vs1 c2 c1 vm) [(vs1.toNat, m)] vv (fun x y => x / 2 ^ (y % w)) ∧
      asserts (.vsrlVX vd vs2 xs c2 vm) [] vx (fun x y => x / 2 ^ (y % w)) ∧
      asserts (.vsrlVI vd vs2 imm c2 vm) [] vi (fun x y => x / 2 ^ (y % w)) ∧
      asserts (.vsraVV vd vs2 vs1 c2 c1 vm) [(vs1.toNat, m)] vv (fun x y => wrapN (sextN x w / (2 : Int) ^ (y % w)) w) ∧
      asserts (.vsraVX vd vs2 xs c2 vm) [] vx (fun x y => wrapN (sextN x w / (2 : Int) ^ (y % w)) w) ∧
      asserts (.vsraVI vd vs2 imm c2 vm) [] vi (fun x y => wrapN (sextN x w / (2 : Int) ^ (y % w)) w) ∧
      asserts (.vminVV vd vs2 vs1 c2 c1 vm) [(vs1.toNat, m)] vv (fun x y => wrapN (min (sextN x w) (sextN y w)) w) ∧
      asserts (.vminVX vd vs2 xs c2 vm) [] vx (fun x y => wrapN (min (sextN x w) (sextN y w)) w) ∧
      asserts (.vminVI vd vs2 imm c2 vm) [] vi (fun x y => wrapN (min (sextN x w) (sextN y w)) w) ∧
      asserts (.vmaxVV vd vs2 vs1 c2 c1 vm) [(vs1.toNat, m)] vv (fun x y => wrapN (max (sextN x w) (sextN y w)) w) ∧
      asserts (.vmaxVX vd vs2 xs c2 vm) [] vx (fun x y => wrapN (max (sextN x w) (sextN y w)) w) ∧
      asserts (.vmaxVI vd vs2 imm c2 vm) [] vi (fun x y => wrapN (max (sextN x w) (sextN y w)) w)) ∧
    (s.AtBlock b →
      asserts (.vaddVR vd vs2 vs1 rsz vm) [(vs1.toNat, 1)] vr (fun x y => exact (sextN x w + sextN y w)) ∧
      asserts (.vsubVR vd vs2 vs1 rsz vm) [(vs1.toNat, 1)] vr (fun x y => exact (sextN x w - sextN y w)) ∧
      asserts (.vmulVR vd vs2 vs1 rsz vm) [(vs1.toNat, 1)] vr (fun x y => exact (sextN x w * sextN y w)) ∧
      asserts (.vandVR vd vs2 vs1 rsz vm) [(vs1.toNat, 1)] vr (fun x y => x &&& y) ∧
      asserts (.vorVR vd vs2 vs1 rsz vm) [(vs1.toNat, 1)] vr (fun x y => x ||| y) ∧
      asserts (.vxorVR vd vs2 vs1 rsz vm) [(vs1.toNat, 1)] vr (fun x y => x ^^^ y) ∧
      asserts (.vsllVR vd vs2 vs1 rsz vm) [(vs1.toNat, 1)] vr (fun x y => x * 2 ^ (y % w) % 2 ^ w) ∧
      asserts (.vsrlVR vd vs2 vs1 rsz vm) [(vs1.toNat, 1)] vr (fun x y => x / 2 ^ (y % w)) ∧
      asserts (.vsraVR vd vs2 vs1 rsz vm) [(vs1.toNat, 1)] vr (fun x y => wrapN (sextN x w / (2 : Int) ^ (y % w)) w) ∧
      asserts (.vminVR vd vs2 vs1 rsz vm) [(vs1.toNat, 1)] vr (fun x y => wrapN (min (sextN x w) (sextN y w)) w) ∧
      asserts (.vmaxVR vd vs2 vs1 rsz vm) [(vs1.toNat, 1)] vr (fun x y => wrapN (max (sextN x w) (sextN y w)) w))

/-- R158. -/
def Obligations.IntegerCompares : Prop :=
  ∀ (s : State) (b : Block) (vd vs2 vs1 xs imm : BitVec 5) (rsz : BitVec 2) (c2 c1 vm : BitVec 1),
    let w := s.task.sew
    let m := s.task.lmul
    let vv (i : Nat) : Nat := s.task.elem w vs1.toNat i
    let vx (_ : Nat) : Nat := (s.x xs).toNat % 2 ^ w
    let vi (_ : Nat) : Nat := wrapN imm.toInt w
    let vr (i : Nat) : Nat := s.task.elem w vs1.toNat (i % 4 ^ rsz.toNat)
    let apart (src : Option (BitVec 5)) : Prop :=
      m = 1 ∨ (overlap vd.toNat 1 vs2.toNat m = false ∧ ∀ v, src = some v → overlap vd.toNat 1 v.toNat m = false)
    let asserts (i : Instr) (src : Option (BitVec 5)) (srcs : List (Nat × Nat)) (second : Nat → Nat) (op : Nat → Nat → Bool) : Prop :=
      (apart src → s.task.groupsOk { srcs := (vs2.toNat, m) :: srcs, dsts := [(vd.toNat, 1)] } vm = true →
        s.WritesBits i vd.toNat (forBits (s.actives vm) (fun i => op (s.task.elem w vs2.toNat i) (second i)))) ∧
      (¬apart src → exec i s = .next (s.takeFault { cause := 0x01 }))
    (s.AtWord b →
      asserts (.vmseqVV vd vs2 vs1 c2 c1 vm) (some vs1) [(vs1.toNat, m)] vv (fun x y => x == y) ∧
      asserts (.vmseqVX vd vs2 xs c2 vm) none [] vx (fun x y => x == y) ∧
      asserts (.vmseqVI vd vs2 imm c2 vm) none [] vi (fun x y => x == y) ∧
      asserts (.vmsltVV vd vs2 vs1 c2 c1 vm) (some vs1) [(vs1.toNat, m)] vv (fun x y => decide (sextN x w < sextN y w)) ∧
      asserts (.vmsltVX vd vs2 xs c2 vm) none [] vx (fun x y => decide (sextN x w < sextN y w)) ∧
      asserts (.vmsltVI vd vs2 imm c2 vm) none [] vi (fun x y => decide (sextN x w < sextN y w)) ∧
      asserts (.vmsltuVV vd vs2 vs1 c2 c1 vm) (some vs1) [(vs1.toNat, m)] vv (fun x y => decide (x < y)) ∧
      asserts (.vmsltuVX vd vs2 xs c2 vm) none [] vx (fun x y => decide (x < y)) ∧
      asserts (.vmsltuVI vd vs2 imm c2 vm) none [] vi (fun x y => decide (x < y))) ∧
    (s.AtBlock b →
      asserts (.vmseqVR vd vs2 vs1 rsz vm) none [(vs1.toNat, 1)] vr (fun x y => x == y) ∧
      asserts (.vmsltVR vd vs2 vs1 rsz vm) none [(vs1.toNat, 1)] vr (fun x y => decide (sextN x w < sextN y w)) ∧
      asserts (.vmsltuVR vd vs2 vs1 rsz vm) none [(vs1.toNat, 1)] vr (fun x y => decide (x < y)))

/-- R159 and R160 of gathers; R161 of moves; R165 of VRNG, whose generator (philox) is `draw`. -/
def Obligations.GathersAndMoves : Prop :=
  (∀ (s : State) (b : Block) (vd vs2 vs1 xs imm : BitVec 5) (rsz : BitVec 2) (c2 c1 vm : BitVec 1),
     let w := s.task.sew
     let m := s.task.lmul
     let vv (i : Nat) : Nat := s.task.elem w vs1.toNat i
     let vx (_ : Nat) : Nat := (s.x xs).toNat
     let vi (_ : Nat) : Nat := imm.toNat
     let vr (i : Nat) : Nat := s.task.elem w vs1.toNat (i % 4 ^ rsz.toNat)
     let c := min 8 (s.task.regCount - vs2.toNat)
     let apart (src : Option (BitVec 5)) (n : Nat) : Prop :=
       overlap vd.toNat m vs2.toNat n = false ∧ ∀ v, src = some v → overlap vd.toNat m v.toNat m = false
     let one (i : Instr) (src : Option (BitVec 5)) (srcs : List (Nat × Nat)) (index : Nat → Nat) : Prop :=
       (apart src m → s.task.groupsOk { srcs := (vs2.toNat, m) :: srcs, dsts := [(vd.toNat, m)] } vm = true →
         s.Writes i w vd.toNat m (forElems (s.actives vm) (fun i =>
           if index i < s.task.vlmax then s.task.elem w vs2.toNat (index i) else 0))) ∧
       (¬apart src m → exec i s = .next (s.takeFault { cause := 0x01 }))
     let long (i : Instr) (src : Option (BitVec 5)) (srcs : List (Nat × Nat)) (index : Nat → Nat) : Prop :=
       (apart src c → s.task.groupsOk { srcs := srcs, dsts := [(vd.toNat, m)], loose := [(vs2.toNat, c)] } vm = true →
         s.Writes i w vd.toNat m (forElems (s.actives vm) (fun i =>
           if index i < c * s.task.perReg w then s.task.elem w vs2.toNat (index i) else 0))) ∧
       (¬apart src c → exec i s = .next (s.takeFault { cause := 0x01 }))
     s.AtBlock b →
     one (.vgatherVV vd vs2 vs1 c2 c1 vm) (some vs1) [(vs1.toNat, m)] vv ∧
     one (.vgatherVX vd vs2 xs c2 vm) none [] vx ∧
     one (.vgatherVI vd vs2 imm c2 vm) none [] vi ∧
     one (.vgatherVR vd vs2 vs1 rsz vm) none [(vs1.toNat, 1)] vr ∧
     long (.vgathergVV vd vs2 vs1 c2 c1 vm) (some vs1) [(vs1.toNat, m)] vv ∧
     long (.vgathergVX vd vs2 xs c2 vm) none [] vx ∧
     long (.vgathergVI vd vs2 imm c2 vm) none [] vi ∧
     long (.vgathergVR vd vs2 vs1 rsz vm) none [(vs1.toNat, 1)] vr) ∧
  (∀ (s : State) (b : Block) (vd vs2 xd xs : BitVec 5) (c2 vm : BitVec 1),
     let w := s.task.sew
     let m := s.task.lmul
     let drawn := match s.curThread with
       | some th => th.draws
       | none => 0
     let counts (t : State) : State :=
       match s.cur with
       | .lane _ => t.onThread (fun th => { th with draws := th.draws + 1 })
       | _ => t.onTask (fun x => { x with rngpos := x.rngpos + BitVec.ofNat 64 x.vl })
     (s.AtWord b → s.task.groupsOk { srcs := [(vs2.toNat, m)], dsts := [(vd.toNat, m)] } vm = true →
       s.Writes (.vmv vd vs2 c2 vm) w vd.toNat m (forElems (s.actives vm) (fun i => s.task.elem w vs2.toNat i))) ∧
     (s.AtWord b → s.task.groupsOk { srcs := [], dsts := [(vd.toNat, m)] } vm = true →
       s.Writes (.vsplat vd xs vm) w vd.toNat m (forElems (s.actives vm) (fun _ => (s.x xs).toNat)) ∧
       s.Writes (.vid vd vm) w vd.toNat m (forElems (s.actives vm) (fun i => i)) ∧
       (s.task.rngpos.toNat + s.task.vl * (drawn + 1) ≤ s.drawRange.2 →
         s.Writes (.vrng vd vm) w vd.toNat m (forElems (s.actives vm) (fun i =>
           draw s.task.id.seed (s.drawRange.1 + s.task.rngpos + BitVec.ofNat 64 (i + s.task.vl * drawn)) w)) counts) ∧
       (s.drawRange.2 < s.task.rngpos.toNat + s.task.vl * (drawn + 1) →
         exec (.vrng vd vm) s = .next (s.takeFault { cause := 0x0B }))) ∧
     (s.AtBlock b → s.task.groupsOk { srcs := [], dsts := [(vd.toNat, m)] } 1 = true →
       s.Writes (.vmvsx vd xs) w vd.toNat m (forElems (if s.task.vstart = 0 ∧ 1 ≤ s.task.vl then [0] else []) (fun _ => (s.x xs).toNat))) ∧
     (s.AtBlock b → s.task.groupsOk { srcs := [(vs2.toNat, 1)], dsts := [] } 1 = true → s.task.replies.length < 16 →
       let v : Word := BitVec.ofInt 64 (sextN (s.task.elem w vs2.toNat 0) w)
       exec (.vmvxs xd vs2 c2) s =
         .next ((s.setX xd v).onTask (fun t => { t with replies := t.replies ++ [v] })).advance))

/-- R162 to R164. -/
def Obligations.IntegerReductions : Prop :=
  ∀ (s : State) (b : Block) (vd vs2 : BitVec 5) (c2 vm : BitVec 1), s.AtBlock b →
    let w := s.task.sew
    let m := s.task.lmul
    let zero (v : Nat) : Nat → Option Nat := forElems (if s.task.vl = 0 then [] else [0]) (fun _ => v)
    let red (i : Instr) (op : Nat → Nat → Nat) : Prop :=
      s.task.groupsOk { srcs := [(vs2.toNat, m)], dsts := [(vd.toNat, 1)] } vm = true →
        s.Writes i w vd.toNat 1
          (zero ((s.actives vm).foldl (fun a i => op a (s.task.elem w vs2.toNat i)) (s.task.elem w vd.toNat 0)))
    let count (i : Instr) : Prop :=
      s.task.groupsOk { srcs := [(vs2.toNat, 1)], dsts := [(vd.toNat, m)] } vm = false → exec i s = .next (s.takeFault { cause := 0x01 })
    let picked := (List.range (min s.task.vl s.task.vlmax)).filter (fun i => s.task.maskBit 0 i)
    red (.vredsum vd vs2 c2 vm) (fun a x => (a + x) % 2 ^ w) ∧
    red (.vredmin vd vs2 c2 vm) (fun a x => if sextN x w < sextN a w then x else a) ∧
    red (.vredmax vd vs2 c2 vm) (fun a x => if sextN a w < sextN x w then x else a) ∧
    red (.vredand vd vs2 c2 vm) (fun a x => a &&& x) ∧
    red (.vredor vd vs2 c2 vm) (fun a x => a ||| x) ∧
    red (.vredxor vd vs2 c2 vm) (fun a x => a ^^^ x) ∧
    count (.vmpopc vd vs2 c2 vm) ∧ count (.vmfirst vd vs2 c2 vm) ∧
    (overlap vd.toNat m vs2.toNat m = false → s.task.groupsOk { srcs := [(vs2.toNat, m)], dsts := [(vd.toNat, m)] } 0 = true →
      s.Writes (.vcompress vd vs2 c2) w vd.toNat m (fun k => (picked[k]?).map (fun i => s.task.elem w vs2.toNat i))) ∧
    (overlap vd.toNat m vs2.toNat m = true → exec (.vcompress vd vs2 c2) s = .next (s.takeFault { cause := 0x01 }))

/-- R190. `decode` is R180, `round` R186, `add`, `mul`, `div`, `scale` the exact operations of R184. -/
def Obligations.FloatArithmetic : Prop :=
  (∀ (s : State) (b : Block) (f : Fmt) (vd vs2 vs1 xs : BitVec 5) (rsz : BitVec 2) (c2 c1 vm : BitVec 1),
    fmtOf s.task.sew s.task.fk = some f →
    let w := s.task.sew
    let m := s.task.lmul
    let vv (i : Nat) : Nat := s.task.elem w vs1.toNat i
    let vx (_ : Nat) : Nat := (s.x xs).toNat % 2 ^ w
    let vr (i : Nat) : Nat := s.task.elem w vs1.toNat (i % 4 ^ rsz.toNat)
    let asserts (i : Instr) (srcs : List (Nat × Nat)) (second : Nat → Nat) (op : Nat → Nat → Nat → Machine.Num) : Prop :=
      s.task.groupsOk { srcs := (vs2.toNat, m) :: srcs, dsts := [(vd.toNat, m)] } vm = true →
        (s.MayRound → s.Writes i w vd.toNat m (forElems (s.actives vm) (fun i =>
          f.round s.task.rm (s.roundDraw i) (op (s.task.elem w vs2.toNat i) (second i) (s.task.elem w vd.toNat i)))) State.countRounding) ∧
        (¬s.MayRound → exec i s = .next (s.takeFault { cause := 0x0B }))
    (s.AtWord b →
      asserts (.vfaddFVV vd vs2 vs1 c2 c1 vm) [(vs1.toNat, m)] vv (fun x y _ => (f.decode x).add s.task.rm (f.decode y)) ∧
      asserts (.vfaddFVX vd vs2 xs c2 vm) [] vx (fun x y _ => (f.decode x).add s.task.rm (f.decode y)) ∧
      asserts (.vfsubFVV vd vs2 vs1 c2 c1 vm) [(vs1.toNat, m)] vv (fun x y _ => (f.decode x).add s.task.rm (f.decode y).neg) ∧
      asserts (.vfsubFVX vd vs2 xs c2 vm) [] vx (fun x y _ => (f.decode x).add s.task.rm (f.decode y).neg) ∧
      asserts (.vfmulFVV vd vs2 vs1 c2 c1 vm) [(vs1.toNat, m)] vv (fun x y _ => (f.decode x).mul (f.decode y)) ∧
      asserts (.vfmulFVX vd vs2 xs c2 vm) [] vx (fun x y _ => (f.decode x).mul (f.decode y)) ∧
      asserts (.vfdivFVV vd vs2 vs1 c2 c1 vm) [(vs1.toNat, m)] vv (fun x y _ => (f.decode x).div (f.decode y)) ∧
      asserts (.vfdivFVX vd vs2 xs c2 vm) [] vx (fun x y _ => (f.decode x).div (f.decode y)) ∧
      asserts (.vfmaccFVV vd vs2 vs1 c2 c1 vm) [(vs1.toNat, m)] vv (fun x y z => (f.decode z).add s.task.rm ((f.decode x).mul (f.decode y))) ∧
      asserts (.vfmaccFVX vd vs2 xs c2 vm) [] vx (fun x y z => (f.decode z).add s.task.rm ((f.decode x).mul (f.decode y))) ∧
      asserts (.vfnmsacFVV vd vs2 vs1 c2 c1 vm) [(vs1.toNat, m)] vv (fun x y z => (f.decode z).add s.task.rm ((f.decode x).mul (f.decode y)).neg) ∧
      asserts (.vfnmsacFVX vd vs2 xs c2 vm) [] vx (fun x y z => (f.decode z).add s.task.rm ((f.decode x).mul (f.decode y)).neg) ∧
      asserts (.vfscaleFVV vd vs2 vs1 c2 c1 vm) [(vs1.toNat, m)] vv (fun x y _ => (f.decode x).scale (sextN y w)) ∧
      asserts (.vfscaleFVX vd vs2 xs c2 vm) [] vx (fun x y _ => (f.decode x).scale (sextN y w))) ∧
    (s.AtBlock b →
      asserts (.vfaddFVR vd vs2 vs1 rsz vm) [(vs1.toNat, 1)] vr (fun x y _ => (f.decode x).add s.task.rm (f.decode y)) ∧
      asserts (.vfsubFVR vd vs2 vs1 rsz vm) [(vs1.toNat, 1)] vr (fun x y _ => (f.decode x).add s.task.rm (f.decode y).neg) ∧
      asserts (.vfmulFVR vd vs2 vs1 rsz vm) [(vs1.toNat, 1)] vr (fun x y _ => (f.decode x).mul (f.decode y)) ∧
      asserts (.vfdivFVR vd vs2 vs1 rsz vm) [(vs1.toNat, 1)] vr (fun x y _ => (f.decode x).div (f.decode y)) ∧
      asserts (.vfmaccFVR vd vs2 vs1 rsz vm) [(vs1.toNat, 1)] vr (fun x y z => (f.decode z).add s.task.rm ((f.decode x).mul (f.decode y))) ∧
      asserts (.vfnmsacFVR vd vs2 vs1 rsz vm) [(vs1.toNat, 1)] vr (fun x y z => (f.decode z).add s.task.rm ((f.decode x).mul (f.decode y)).neg) ∧
      asserts (.vfscaleFVR vd vs2 vs1 rsz vm) [(vs1.toNat, 1)] vr (fun x y _ => (f.decode x).scale (sextN y w)))) ∧
  (∀ (s : State) (b : Block) (vd vs2 vs1 xs : BitVec 5) (rsz : BitVec 2) (c2 c1 vm : BitVec 1), fmtOf s.task.sew s.task.fk = none →
    let bad (i : Instr) : Prop := exec i s = .next (s.takeFault { cause := 0x01 })
    (s.AtWord b →
      bad (.vfaddFVV vd vs2 vs1 c2 c1 vm) ∧ bad (.vfaddFVX vd vs2 xs c2 vm) ∧
      bad (.vfsubFVV vd vs2 vs1 c2 c1 vm) ∧ bad (.vfsubFVX vd vs2 xs c2 vm) ∧
      bad (.vfmulFVV vd vs2 vs1 c2 c1 vm) ∧ bad (.vfmulFVX vd vs2 xs c2 vm) ∧
      bad (.vfdivFVV vd vs2 vs1 c2 c1 vm) ∧ bad (.vfdivFVX vd vs2 xs c2 vm) ∧
      bad (.vfmaccFVV vd vs2 vs1 c2 c1 vm) ∧ bad (.vfmaccFVX vd vs2 xs c2 vm) ∧
      bad (.vfnmsacFVV vd vs2 vs1 c2 c1 vm) ∧ bad (.vfnmsacFVX vd vs2 xs c2 vm) ∧
      bad (.vfscaleFVV vd vs2 vs1 c2 c1 vm) ∧ bad (.vfscaleFVX vd vs2 xs c2 vm)) ∧
    (s.AtBlock b → bad (.vfaddFVR vd vs2 vs1 rsz vm) ∧ bad (.vfsubFVR vd vs2 vs1 rsz vm) ∧ bad (.vfmulFVR vd vs2 vs1 rsz vm) ∧
      bad (.vfdivFVR vd vs2 vs1 rsz vm) ∧ bad (.vfmaccFVR vd vs2 vs1 rsz vm) ∧ bad (.vfnmsacFVR vd vs2 vs1 rsz vm) ∧ bad (.vfscaleFVR vd vs2 vs1 rsz vm)))

/-- R191, R192, R194. -/
def Obligations.FloatPicksAndCompares : Prop :=
  ∀ (s : State) (b : Block) (f : Fmt) (vd vs2 vs1 xs : BitVec 5) (rsz : BitVec 2) (c2 c1 vm : BitVec 1),
    fmtOf s.task.sew s.task.fk = some f →
    let w := s.task.sew
    let m := s.task.lmul
    let vv (i : Nat) : Nat := s.task.elem w vs1.toNat i
    let vx (_ : Nat) : Nat := (s.x xs).toNat % 2 ^ w
    let vr (i : Nat) : Nat := s.task.elem w vs1.toNat (i % 4 ^ rsz.toNat)
    let pick (i : Instr) (srcs : List (Nat × Nat)) (second : Nat → Nat) (op : Nat → Nat → Nat) : Prop :=
      s.task.groupsOk { srcs := (vs2.toNat, m) :: srcs, dsts := [(vd.toNat, m)] } vm = true →
        s.Writes i w vd.toNat m (forElems (s.actives vm) (fun i => op (s.task.elem w vs2.toNat i) (second i)))
    let apart (src : Option (BitVec 5)) : Prop :=
      m = 1 ∨ (overlap vd.toNat 1 vs2.toNat m = false ∧ ∀ v, src = some v → overlap vd.toNat 1 v.toNat m = false)
    let cmp (i : Instr) (src : Option (BitVec 5)) (srcs : List (Nat × Nat)) (second : Nat → Nat) (op : Nat → Nat → Bool) : Prop :=
      (apart src → s.task.groupsOk { srcs := (vs2.toNat, m) :: srcs, dsts := [(vd.toNat, 1)] } vm = true →
        s.WritesBits i vd.toNat (forBits (s.actives vm) (fun i => op (s.task.elem w vs2.toNat i) (second i)))) ∧
      (¬apart src → exec i s = .next (s.takeFault { cause := 0x01 }))
    (s.AtWord b →
      pick (.vfminFVV vd vs2 vs1 c2 c1 vm) [(vs1.toNat, m)] vv (fun x y => f.minNum x y) ∧
      pick (.vfminFVX vd vs2 xs c2 vm) [] vx (fun x y => f.minNum x y) ∧
      pick (.vfmaxFVV vd vs2 vs1 c2 c1 vm) [(vs1.toNat, m)] vv (fun x y => f.maxNum x y) ∧
      pick (.vfmaxFVX vd vs2 xs c2 vm) [] vx (fun x y => f.maxNum x y) ∧
      pick (.vfsgnjFVV vd vs2 vs1 c2 c1 vm) [(vs1.toNat, m)] vv (fun x y => f.withSign x (f.signBit y)) ∧
      pick (.vfsgnjFVX vd vs2 xs c2 vm) [] vx (fun x y => f.withSign x (f.signBit y)) ∧
      pick (.vfsgnjnFVV vd vs2 vs1 c2 c1 vm) [(vs1.toNat, m)] vv (fun x y => f.withSign x (!f.signBit y)) ∧
      pick (.vfsgnjnFVX vd vs2 xs c2 vm) [] vx (fun x y => f.withSign x (!f.signBit y)) ∧
      pick (.vfsgnjxFVV vd vs2 vs1 c2 c1 vm) [(vs1.toNat, m)] vv (fun x y => f.withSign x (f.signBit x != f.signBit y)) ∧
      pick (.vfsgnjxFVX vd vs2 xs c2 vm) [] vx (fun x y => f.withSign x (f.signBit x != f.signBit y)) ∧
      cmp (.vfmfeqFVV vd vs2 vs1 c2 c1 vm) (some vs1) [(vs1.toNat, m)] vv (fun x y => f.eq x y) ∧
      cmp (.vfmfeqFVX vd vs2 xs c2 vm) none [] vx (fun x y => f.eq x y) ∧
      cmp (.vfmfltFVV vd vs2 vs1 c2 c1 vm) (some vs1) [(vs1.toNat, m)] vv (fun x y => f.lt x y) ∧
      cmp (.vfmfltFVX vd vs2 xs c2 vm) none [] vx (fun x y => f.lt x y) ∧
      cmp (.vfmfleFVV vd vs2 vs1 c2 c1 vm) (some vs1) [(vs1.toNat, m)] vv (fun x y => f.le x y) ∧
      cmp (.vfmfleFVX vd vs2 xs c2 vm) none [] vx (fun x y => f.le x y)) ∧
    (s.AtBlock b →
      pick (.vfminFVR vd vs2 vs1 rsz vm) [(vs1.toNat, 1)] vr (fun x y => f.minNum x y) ∧
      pick (.vfmaxFVR vd vs2 vs1 rsz vm) [(vs1.toNat, 1)] vr (fun x y => f.maxNum x y) ∧
      pick (.vfsgnjFVR vd vs2 vs1 rsz vm) [(vs1.toNat, 1)] vr (fun x y => f.withSign x (f.signBit y)) ∧
      pick (.vfsgnjnFVR vd vs2 vs1 rsz vm) [(vs1.toNat, 1)] vr (fun x y => f.withSign x (!f.signBit y)) ∧
      pick (.vfsgnjxFVR vd vs2 vs1 rsz vm) [(vs1.toNat, 1)] vr (fun x y => f.withSign x (f.signBit x != f.signBit y)) ∧
      cmp (.vfmfeqFVR vd vs2 vs1 rsz vm) none [(vs1.toNat, 1)] vr (fun x y => f.eq x y) ∧
      cmp (.vfmfltFVR vd vs2 vs1 rsz vm) none [(vs1.toNat, 1)] vr (fun x y => f.lt x y) ∧
      cmp (.vfmfleFVR vd vs2 vs1 rsz vm) none [(vs1.toNat, 1)] vr (fun x y => f.le x y))

/-- R196 to R201 and R207. -/
def Obligations.FloatMaps : Prop :=
  ∀ (s : State) (b : Block) (f : Fmt) (vd vs2 : BitVec 5) (c2 vm : BitVec 1),
    s.AtWord b → fmtOf s.task.sew s.task.fk = some f →
    s.task.groupsOk { srcs := [(vs2.toNat, s.task.lmul)], dsts := [(vd.toNat, s.task.lmul)] } vm = true →
    let w := s.task.sew
    let map (i : Instr) (op : Nat → Nat) : Prop :=
      s.Writes i w vd.toNat s.task.lmul (forElems (s.actives vm) (fun i => op (s.task.elem w vs2.toNat i)))
    let rounds (i : Instr) (op : Nat → Nat → Nat) : Prop :=
      (s.MayRound → s.Writes i w vd.toNat s.task.lmul (forElems (s.actives vm) (fun i => op i (s.task.elem w vs2.toNat i)))
        State.countRounding) ∧
      (¬s.MayRound → exec i s = .next (s.takeFault { cause := 0x0B }))
    map (.vfrecip vd vs2 c2 vm) (fun x => f.round 0 0 (f.decode x).recip) ∧
    map (.vfrsqrt vd vs2 c2 vm) (fun x => f.round 0 0 (f.decode x).rsqrt) ∧
    map (.vfexp2 vd vs2 c2 vm) (fun x => f.round 0 0 (f.decode x).exp2) ∧
    map (.vflog2 vd vs2 c2 vm) (fun x => f.round 0 0 (f.decode x).log2) ∧
    map (.vfclass vd vs2 c2 vm) f.classify ∧
    rounds (.vfsqrt vd vs2 c2 vm) (fun i x => f.round s.task.rm (s.roundDraw i) (f.decode x).sqrt) ∧
    rounds (.vcvtif vd vs2 c2 vm) (fun i x => f.round s.task.rm (s.roundDraw i) (.ofInt (sextN x w))) ∧
    rounds (.vcvtfi vd vs2 c2 vm) (fun i x => s.toInteger f i x)

/-- R202 to R206. The tree and ordered sums are the functions that the meaning uses, with their roundings counted in order. -/
def Obligations.FloatReductionsAndResizes : Prop :=
  ∀ (s : State) (b : Block) (vd vs2 : BitVec 5) (c2 vm : BitVec 1), s.AtBlock b →
    let w := s.task.sew
    let m := s.task.lmul
    let zero (v : Nat) : Nat → Option Nat := forElems (if s.task.vl = 0 then [] else [0]) (fun _ => v)
    let narrow (i : Instr) (op : Nat → Nat → Nat) (g : State → State) : Prop :=
      overlap vd.toNat m vs2.toNat (2 * m) = false → m ≠ 8 → w ≠ 64 →
      s.task.groupsOk { srcs := [(vs2.toNat, 2 * m)], dsts := [(vd.toNat, m)] } vm = true →
        s.Writes i w vd.toNat m (forElems (s.actives vm) (fun i => op i (s.task.elem (2 * w) vs2.toNat i))) g
    let widen (i : Instr) (op : Nat → Nat) : Prop :=
      overlap vd.toNat (2 * m) vs2.toNat m = false → m ≠ 8 → w ≠ 64 →
      s.task.groupsOk { srcs := [(vs2.toNat, m)], dsts := [(vd.toNat, 2 * m)] } vm = true →
        s.Writes i (2 * w) vd.toNat (2 * m) (forElems (s.actives vm) (fun i => op (s.task.elem w vs2.toNat i)))
    (∀ f : Fmt, fmtOf w s.task.fk = some f → s.task.groupsOk { srcs := [(vs2.toNat, m)], dsts := [(vd.toNat, 1)] } vm = true →
      let fold (op : Nat → Nat → Nat) : Nat := (s.actives vm).foldl (fun a i => op a (s.task.elem w vs2.toNat i)) (s.task.elem w vd.toNat 0)
      s.Writes (.vfredmin vd vs2 c2 vm) w vd.toNat 1 (zero (fold f.minNum)) ∧
      s.Writes (.vfredmax vd vs2 c2 vm) w vd.toNat 1 (zero (fold f.maxNum)) ∧
      (s.MayRound →
        s.Writes (.vfredsum vd vs2 c2 vm) w vd.toNat 1 (zero (s.treeResult f vd vs2 vm)) State.countRounding ∧
        s.Writes (.vfredosum vd vs2 c2 vm) w vd.toNat 1 (zero (s.orderedResult f vd vs2 vm)) State.countRounding)) ∧
    (∀ n x : Fmt, fmtOf w s.task.fk = some n → widePartner w s.task.fk = some x →
      (s.MayRound → narrow (.vncvt vd vs2 c2 vm) (fun i a => n.round s.task.rm (s.roundDraw i) (x.decode a)) State.countRounding) ∧
      widen (.vwcvt vd vs2 c2 vm) (fun a => x.round 0 0 (n.decode a))) ∧
    narrow (.vncvti vd vs2 c2 vm)
      (fun _ a => wrapN (min (max (sextN a (2 * w)) (-(2 : Int) ^ (w - 1))) ((2 : Int) ^ (w - 1) - 1)) w) id ∧
    widen (.vwcvti vd vs2 c2 vm) (fun a => wrapN (sextN a w) (2 * w)) ∧
    widen (.vwcvtn vd vs2 c2 vm) (fun a => a) ∧
    (let bad (i : Instr) (c : Nat) : Prop := exec i s = .next (s.takeFault { cause := c })
     (overlap vd.toNat m vs2.toNat (2 * m) = true ∨ m = 8 ∨ w = 64 → bad (.vncvti vd vs2 c2 vm) 0x01 ∧ bad (.vncvt vd vs2 c2 vm) 0x01) ∧
     (overlap vd.toNat (2 * m) vs2.toNat m = true ∨ m = 8 ∨ w = 64 →
      bad (.vwcvti vd vs2 c2 vm) 0x01 ∧ bad (.vwcvtn vd vs2 c2 vm) 0x01 ∧ bad (.vwcvt vd vs2 c2 vm) 0x01) ∧
     (fmtOf w s.task.fk = none ∨ widePartner w s.task.fk = none → bad (.vncvt vd vs2 c2 vm) 0x01 ∧ bad (.vwcvt vd vs2 c2 vm) 0x01) ∧
     (fmtOf w s.task.fk = none → bad (.vfredsum vd vs2 c2 vm) 0x01 ∧ bad (.vfredosum vd vs2 c2 vm) 0x01 ∧
      bad (.vfredmin vd vs2 c2 vm) 0x01 ∧ bad (.vfredmax vd vs2 c2 vm) 0x01) ∧
     (¬s.MayRound → ∀ f, fmtOf w s.task.fk = some f →
      (s.task.groupsOk { srcs := [(vs2.toNat, m)], dsts := [(vd.toNat, 1)] } vm = true →
        bad (.vfredsum vd vs2 c2 vm) 0x0B ∧ bad (.vfredosum vd vs2 c2 vm) 0x0B) ∧
      ((widePartner w s.task.fk).isSome = true → overlap vd.toNat m vs2.toNat (2 * m) = false → m ≠ 8 → w ≠ 64 →
        s.task.groupsOk { srcs := [(vs2.toNat, 2 * m)], dsts := [(vd.toNat, m)] } vm = true → bad (.vncvt vd vs2 c2 vm) 0x0B)))

/-- R208. That a vl which is no multiple of 32 raises 0x08 whatever the groups, their overlap and a masked v0, each of which would raise 0x01, is
the model's reading of the order of checks (log 17). -/
def Obligations.BlockScaledFour : Prop :=
  ∀ (s : State) (b : Block) (vd vs2 vs1 : BitVec 5) (c2 c1 vm : BitVec 1), s.AtBlock b →
    let m := s.task.lmul
    let block (k : Nat) : List Machine.Num := ((List.range 32).map (fun j => 32 * k + j)).filterMap (fun i =>
      if s.task.vstart ≤ i ∧ (vm = 1 ∨ s.task.maskBit 0 i = true) then some (binary32.decode (s.task.elem 32 vs2.toNat i)) else none)
    (s.task.sew = 32 → s.task.fk = 0 → s.task.vl % 32 = 0 →
      (s.task.groupsOk { srcs := [(vs2.toNat, m)], dsts := [(vd.toNat, 1)] } vm = true →
        s.Writes (.vbscale vd vs2 c2 vm) 8 vd.toNat 1
          (forElems (List.range (min s.task.vl s.task.vlmax / 32)) (fun k => blockScale (block k)))) ∧
      (s.task.groupsOk { srcs := [(vs2.toNat, m), (vs1.toNat, 1)], dsts := [(vd.toNat, 1)] } vm = true →
        overlap vd.toNat 1 vs2.toNat m = false → vd ≠ vs1 → s.MayRound →
        s.Writes (.vcvtq4 vd vs2 vs1 c2 c1 vm) 4 vd.toNat 1
          (forElems (s.actives vm) (fun i => s.toQ4 i (s.task.elem 8 vs1.toNat (i / 32)) (s.task.elem 32 vs2.toNat i)))
          State.countRounding)) ∧
    (s.task.sew ≠ 32 ∨ s.task.fk ≠ 0 → exec (.vbscale vd vs2 c2 vm) s = .next (s.takeFault { cause := 0x01 }) ∧
      exec (.vcvtq4 vd vs2 vs1 c2 c1 vm) s = .next (s.takeFault { cause := 0x01 })) ∧
    (s.task.sew = 32 → s.task.fk = 0 → s.task.vl % 32 ≠ 0 → exec (.vbscale vd vs2 c2 vm) s = .next (s.takeFault { cause := 0x08 }) ∧
      exec (.vcvtq4 vd vs2 vs1 c2 c1 vm) s = .next (s.takeFault { cause := 0x08 }))

/-- R242 and R243. -/
def Obligations.VectorLoads : Prop :=
  ∀ (s : State) (b : Block) (vd vs2 rs1 rs2 : BitVec 5) (pol : BitVec 2) (eew : BitVec 3) (c vm : BitVec 1), s.Plain →
    let n := s.task.sew / 8
    let m := s.task.lmul
    let unit (i : Nat) : Word := s.x rs1 + BitVec.ofNat 64 (i * n)
    let strided (i : Nat) : Word := s.x rs1 + BitVec.ofNat 64 i * s.x rs2
    let indexed (i : Nat) : Word := s.x rs1 + BitVec.ofNat 64 (s.task.elem s.task.sew vs2.toNat i)
    let value (p : Place) : Nat := leVal ((List.range n).map (fun j => s.readPlain p.km (p.key + j)))
    let found (a : Word) (p : Place) : Prop := a.toNat % n = 0 ∧ s.locateRead a n = .ok p
    let fails (a : Word) (e : Nat) (t : Trap) : Prop :=
      (a.toNat % n ≠ 0 ∧ t = { cause := 0x03, addr := some a, elem := some e }) ∨
      (a.toNat % n = 0 ∧ ∃ r, s.locateRead a n = .error r ∧ t = { r with elem := some e })
    let asserts (i : Instr) (addr : Nat → Word) : Prop :=
      (∀ pl : Nat → Place, (∀ e ∈ s.actives vm, found (addr e) (pl e)) →
        s.Writes i s.task.sew vd.toNat m (forElems (s.actives vm) (fun e => value (pl e)))) ∧
      (∀ (pl : Nat → Place) (f : Nat) (t : Trap), s.cur = .vector → f ∈ s.actives vm →
        (∀ e ∈ s.actives vm, e < f → found (addr e) (pl e)) → fails (addr f) f t →
        ∃ u, WroteElems s.task u s.task.sew vd.toNat m (forElems ((s.actives vm).filter (fun e => e < f)) (fun e => value (pl e))) ∧
          exec i s = .next (({ s with task := { u with vstart := f } } : State).takeFault t))
    (s.AtBlock b → eew.toNat = s.task.sewCode → eew.toNat < 4 → s.task.groupsOk { srcs := [], dsts := [(vd.toNat, m)] } vm = true →
      asserts (.vle vd rs1 pol eew vm) unit ∧ asserts (.vlse vd rs1 rs2 pol eew vm) strided) ∧
    (s.AtWord b → eew.toNat = s.task.sewCode → eew.toNat < 4 → overlap vd.toNat m vs2.toNat m = false →
      s.task.groupsOk { srcs := [(vs2.toNat, m)], dsts := [(vd.toNat, m)] } vm = true →
      asserts (.vlxe vd vs2 rs1 pol eew c vm) indexed) ∧
    (s.AtBlock b → eew.toNat ≠ s.task.sewCode →
      exec (.vle vd rs1 pol eew vm) s = .next (s.takeFault { cause := 0x01 }) ∧
      exec (.vlse vd rs1 rs2 pol eew vm) s = .next (s.takeFault { cause := 0x01 }) ∧
      exec (.vlxe vd vs2 rs1 pol eew c vm) s = .next (s.takeFault { cause := 0x01 }))

/-- R242 to R244. -/
def Obligations.VectorStores : Prop :=
  ∀ (s : State) (b : Block) (vs3 vs2 rs1 rs2 : BitVec 5) (pol : BitVec 2) (eew : BitVec 3) (c vm : BitVec 1), s.Plain →
    let n := s.task.sew / 8
    let m := s.task.lmul
    let unit (i : Nat) : Word := s.x rs1 + BitVec.ofNat 64 (i * n)
    let strided (i : Nat) : Word := s.x rs1 + BitVec.ofNat 64 i * s.x rs2
    let indexed (i : Nat) : Word := s.x rs1 + BitVec.ofNat 64 (s.task.elem s.task.sew vs2.toNat i)
    let found (a : Word) (p : Place) : Prop := a.toNat % n = 0 ∧ s.locate a n .write = .ok p
    let fails (a : Word) (e : Nat) (t : Trap) : Prop :=
      (a.toNat % n ≠ 0 ∧ t = { cause := 0x03, addr := some a, elem := some e }) ∨
      (a.toNat % n = 0 ∧ ∃ r, s.locate a n .write = .error r ∧ t = { r with elem := some e })
    let stores (pl : Nat → Place) (es : List Nat) : List (Place × List Byte) :=
      es.map (fun e => (pl e, bytesOf (s.task.elem s.task.sew vs3.toNat e) n))
    let asserts (i : Instr) (addr : Nat → Word) : Prop :=
      (∀ pl : Nat → Place, (∀ e ∈ s.actives vm, found (addr e) (pl e)) →
        ∃ t, exec i s = .next t.advance ∧ s.StoredAll t (stores pl (s.actives vm))) ∧
      (∀ (pl : Nat → Place) (f : Nat) (r : Trap), s.cur = .vector → f ∈ s.actives vm →
        (∀ e ∈ s.actives vm, e < f → found (addr e) (pl e)) → fails (addr f) f r →
        ∃ t, exec i s = .next ((t.onTask (fun x => { x with vstart := f })).takeFault r) ∧
          s.StoredAll t (stores pl ((s.actives vm).filter (fun e => e < f))))
    (s.AtBlock b → eew.toNat = s.task.sewCode → eew.toNat < 4 → s.task.groupsOk { srcs := [(vs3.toNat, m)], dsts := [] } vm = true →
      asserts (.vse vs3 rs1 pol eew c vm) unit ∧ asserts (.vsse vs3 rs1 rs2 pol eew c vm) strided) ∧
    (s.AtWord b → eew.toNat = s.task.sewCode → eew.toNat < 4 →
      s.task.groupsOk { srcs := [(vs3.toNat, m), (vs2.toNat, m)], dsts := [] } vm = true →
      asserts (.vsxe vs3 vs2 rs1 pol eew c vm) indexed)

/-- R305. -/
def Obligations.VectorAtomics : Prop :=
  ∀ (s : State) (b : Block) (vd vs2 rs1 : BitVec 5) (eew : BitVec 3) (vm : BitVec 1), s.Plain → s.AtWord b →
    let w := s.task.sew
    let n := w / 8
    let m := s.task.lmul
    let addr (i : Nat) : Word := s.x rs1 + BitVec.ofNat 64 (s.task.elem w vs2.toNat i)
    let asserts (i : Instr) (op : Nat → Nat → Nat) : Prop :=
      (32 ≤ w → overlap vd.toNat m vs2.toNat m = false → eew.toNat = s.task.sewCode → eew.toNat < 4 →
        s.task.groupsOk { srcs := [(vs2.toNat, m)], dsts := [(vd.toNat, m)] } vm = true →
        ∀ pl : Nat → Place, (∀ e ∈ s.actives vm, (addr e).toNat % n = 0 ∧ s.locateRead (addr e) n .atomic = .ok (pl e)) →
        ∃ t, exec i s = .next t.advance ∧ s.AmoAll t vd.toNat n op ((s.actives vm).map (fun e => (e, pl e)))) ∧
      (w < 32 ∨ overlap vd.toNat m vs2.toNat m = true → exec i s = .next (s.takeFault { cause := 0x01 }))
    asserts (.vamoadd vd vs2 rs1 eew vm) (fun a x => (a + x) % 2 ^ w) ∧
    asserts (.vamomin vd vs2 rs1 eew vm) (fun a x => if sextN a w ≤ sextN x w then a else x) ∧
    asserts (.vamomax vd vs2 rs1 eew vm) (fun a x => if sextN a w ≤ sextN x w then x else a) ∧
    asserts (.vamoswap vd vs2 rs1 eew vm) (fun _ x => x) ∧
    asserts (.vamoxor vd vs2 rs1 eew vm) (fun a x => a ^^^ x)

/-- R175 to R177. The payload is written by the function that the meaning uses, from the state after the tail's advance. -/
def Obligations.AppendToQueue : Prop :=
  ∀ (s : State) (b : Block) (vs3 rs1 : BitVec 5) (pol : BitVec 2) (eew : BitVec 3) (c vm : BitVec 1) (p : Place), s.Plain → s.AtBlock b →
    eew.toNat = s.task.sewCode → eew.toNat < 4 → s.task.groupsOk { srcs := [(vs3.toNat, s.task.lmul)], dsts := [] } vm = true →
    let i : Instr := .vappend vs3 rs1 pol eew c vm
    let w := s.task.sew
    let field (off n : Nat) : Nat := leVal ((List.range n).map (fun j => s.readPlain p.km (p.key + off + j)))
    let at_ (off : Nat) : Place := { p with key := p.key + off, va := p.va + off }
    let k := (s.actives vm).length
    let tail := field 0x10 8
    let reply (t : State) (v : Word) : State := t.onTask (fun x => { x with replies := x.replies ++ [v], heldAppend := none })
    ((s.x rs1).toNat % 32 ≠ 0 → exec i s = .next (s.takeFault { cause := 0x03, addr := some (s.x rs1) })) ∧
    ((s.x rs1).toNat % 32 = 0 → s.locateRead (s.x rs1) 32 .atomic = .ok p → s.task.heldAppend = none → s.task.replies.length < 16 →
      (k = 0 → exec i s = .next (reply s (BitVec.ofNat 64 tail)).advance) ∧
      (k ≠ 0 → field 0x08 8 < tail + k →
        ∃ t, s.Stored t (at_ 0x18) (bytesOf (field 0x18 4 ||| 1) 4) ∧ exec i s = .next (reply t (BitVec.allOnes 64)).advance) ∧
      (k ≠ 0 → tail + k ≤ field 0x08 8 → field 0 8 % (w / 8) = 0 →
        ∃ t, s.Stored t (at_ 0x10) (bytesOf (tail + k) 8) ∧
          let held : HeldAppend := { desc := s.x rs1, base := BitVec.ofNat 64 (field 0 8), t := BitVec.ofNat 64 tail, elem := 0 }
          ∀ u keys, (t.onTask (fun x => { x with heldAppend := some held })).appendPayload
                vs3 (field 0 8) tail pol.toNat w ((s.actives vm).mapIdx (fun j i => (i, j))) = (u, keys, none) →
            exec i s = .next (reply (u.cleanStored keys) (BitVec.ofNat 64 tail)).advance))

/-- R211 to R219. `laneOk` is the list of checks of R211, `valA` and `valB` the packed values of R213. -/
def Obligations.PackedProducts : Prop :=
  ∀ (s : State) (b : Block) (vd vs2 vs1 : BitVec 5) (fl : BitVec 2) (c2 c1 vm : BitVec 1), s.AtBlock b → s.task.sew = 64 →
    let lm := s.task.lmul
    let p := s.task.plan fl
    let x (i : Nat) : Nat := s.task.elem 64 vs2.toNat i
    let bound (i y : Nat) : Nat := p.k * p.maxField (x i) p.sa * p.maxField y p.sb * (p.d + 1)
    let ternl (ys : List Nat) (t : State) : State :=
      if (s.actives vm).any (fun i => p.ternary (x i) p.sa) || ys.any (fun y => p.ternary y p.sb) then
        t.onTask (fun u => { u with astat := u.astat ||| 2 })
      else t
    let asserts (i : Instr) (len : Nat) (kindOk : Prop) (y : Nat → Nat) (adds : Bool) : Prop :=
      lm ≠ 8 → overlap vd.toNat (2 * lm) vs2.toNat lm = false → overlap vd.toNat (2 * lm) vs1.toNat len = false →
      s.task.groupsOk { srcs := (vs2.toNat, lm) :: (vs1.toNat, len) :: (if adds then [(vd.toNat, 2 * lm)] else []), dsts := [(vd.toNat, 2 * lm)] } vm = true →
      (p.laneOk = true → kindOk → (∀ e ∈ s.actives vm, bound e (y e) < 2 ^ (p.s - 1)) →
        s.Writes i 128 vd.toNat (2 * lm) (forElems (s.actives vm) (fun e =>
          wrapN ((if adds then sextN (s.task.elem 128 vd.toNat e) 128 else 0) + p.valA (x e) * p.valB (y e)) 128))
          (ternl ((s.actives vm).map y))) ∧
      (p.laneOk = true → kindOk → ∀ e ∈ s.actives vm, 2 ^ (p.s - 1) ≤ bound e (y e) →
        (∀ f ∈ s.actives vm, f < e → bound f (y f) < 2 ^ (p.s - 1)) →
        exec i s = .next (s.takeFault { cause := 0x07, elem := some e, info := BitVec.ofNat 32 (min (bound e (y e)) 0xFFFFFFFF) })) ∧
      (p.laneOk = false ∨ ¬kindOk → exec i s = .next (s.takeFault { cause := 0x08 }))
    let pair (e : Nat) : Nat := s.task.elem 64 vs1.toNat e
    asserts (.vpmul vd fl vs2 vs1 c2 c1 vm) lm True pair false ∧
    asserts (.vpmacc vd fl vs2 vs1 c2 c1 vm) lm True pair true ∧
    asserts (.vpconv vd fl vs2 vs1 c2 c1 vm) 1 (p.kind = 2) (fun e => s.task.elem 64 vs1.toNat (e % (if c2 = 1 then 32 else 16))) true ∧
    (lm = 1 ∨ (overlap vd.toNat 1 vs2.toNat lm = false ∧ overlap vd.toNat 1 vs1.toNat lm = false) →
      s.task.groupsOk { srcs := [(vs2.toNat, lm), (vs1.toNat, lm)], dsts := [(vd.toNat, 1)] } vm = true → p.laneOk = true →
      ∃ u, exec (.vpguard vd fl vs2 vs1 c2 c1 vm) s = .next (ternl ((s.actives vm).map pair) { s with task := u }).advance ∧
        WroteBits s.task u vd.toNat (forBits (s.actives vm) (fun e => decide (2 ^ (p.s - 1) ≤ bound e (pair e)))))

/-- R220 to R223. `results`, `slot` and `extract` are the field count, the slots and the extraction of R213 and R215. -/
def Obligations.PackingAndExtraction : Prop :=
  ∀ (s : State) (b : Block) (vd vs2 : BitVec 5) (fl : BitVec 2) (j : BitVec 3) (c2 vm : BitVec 1), s.AtBlock b → s.task.sew = 64 →
    let lm := s.task.lmul
    let p := s.task.plan fl
    let cw := if p.w ≤ 8 then 8 else 16
    let columns (n : BitVec 5) : List (Nat × Nat) := (List.range p.k).map (fun q => (n.toNat + q * lm, lm))
    let apart (first words : BitVec 5) : Prop :=
      overlap first.toNat lm words.toNat lm = false ∧ s.task.groupOk first.toNat lm = true ∧ s.task.groupOk words.toNat lm = true
    let fits (first words : BitVec 5) : Prop :=
      p.laneOk = true ∧ first.toNat + p.k * lm ≤ s.task.regCount ∧
      ∀ q, q < p.k → q ≠ 0 → overlap words.toNat lm (first.toNat + q * lm) lm = false
    let ternl (hit : Bool) (t : Task) : Task := if hit then { t with astat := t.astat ||| 2 } else t
    (apart vs2 vd → (vm = 1 ∨ vd ≠ 0) →
      (fits vs2 vd → s.task.groupsOk { srcs := columns vs2, dsts := [(vd.toNat, lm)] } vm = true →
        s.Writes (.vpack vd fl vs2 c2 vm) 64 vd.toNat lm (forElems (s.actives vm) (fun i =>
          (List.range p.k).foldl (fun a q =>
            a ||| (s.task.elem cw (vs2.toNat + q * lm) i % 2 ^ p.w * 2 ^ (p.s * p.pos q))) 0))) ∧
      (¬fits vs2 vd → exec (.vpack vd fl vs2 c2 vm) s = .next (s.takeFault { cause := 0x08 }))) ∧
    (apart vd vs2 → (vm = 1 ∨ vd ≠ 0) →
      (fits vd vs2 → s.task.groupsOk { srcs := [(vs2.toNat, lm)], dsts := columns vd } vm = true →
        ∃ u, u = { s.task with v := u.v } ∧
          exec (.vunpack vd fl vs2 c2 vm) s =
            .next (s.onTask (fun _ => ternl ((s.actives vm).any (fun i => p.ternary (s.task.elem 64 vs2.toNat i) p.sa)) u)).advance ∧
          (∀ r : Fin 32, ¬(vd.toNat ≤ r.val ∧ r.val < vd.toNat + p.k * lm) → u.v[r] = s.task.v[r]) ∧
          (∀ q i, q < p.k → i < lm * s.task.perReg cw → (i % s.task.perReg cw + 1) * cw ≤ 262144 →
            u.elem cw (vd.toNat + q * lm) i =
              ((forElems (s.actives vm) (fun i => wrapN (p.fv (s.task.elem 64 vs2.toNat i) q p.sa) cw) i).map (· % 2 ^ cw)).getD
                (s.task.elem cw (vd.toNat + q * lm) i))) ∧
      (¬fits vd vs2 → exec (.vunpack vd fl vs2 c2 vm) s = .next (s.takeFault { cause := 0x08 }))) ∧
    (j.toNat < 7 → lm ≠ 8 → overlap vd.toNat lm vs2.toNat (2 * lm) = false →
      s.task.groupsOk { srcs := [(vs2.toNat, 2 * lm)], dsts := [(vd.toNat, lm)] } vm = true →
      (p.laneOk = true → j.toNat < p.results →
        s.Writes (.vpext vd fl vs2 j c2 vm) 64 vd.toNat lm (forElems (s.actives vm) (fun i =>
          wrapN (p.extract (s.task.elem 128 vs2.toNat i) (p.slot j.toNat)) 64))) ∧
      (p.laneOk = false ∨ p.results ≤ j.toNat → exec (.vpext vd fl vs2 j c2 vm) s = .next (s.takeFault { cause := 0x08 })))

/-- R210, R269 to R273, R282; R290 and R347 for the words that a saved array word's turn runs: what they write stays, what the turn had put aside
comes back. -/
def Obligations.ConfigurationWords : Prop :=
  ∀ (s : State) (b : Block) (xs xd r2 : BitVec 5) (fl : BitVec 2) (md : BitVec 3) (c2 c1 vm : BitVec 1),
    let bad (i : Instr) (c : Nat) : Prop := exec i s = .next (s.takeFault { cause := c })
    (s.AtBlock b →
      (fieldN (s.x xs) 47 17 = 0 →
        exec (.flset fl xs) s = .next (s.onTask (fun t => { t with fl := t.fl.setIfInBounds fl.toNat (s.x xs) })).advance) ∧
      (fieldN (s.x xs) 47 17 ≠ 0 → bad (.flset fl xs) 0x01) ∧
      exec (.flget xd fl) s = .next (s.setX xd ((s.task.fl[fl.toNat]?).getD 0)).advance ∧
      (s.task.entrySave = none → exec (.mgetstat xd) s = .next (s.setX xd s.task.astat).advance) ∧
      exec .mclrstat s = .next (s.onTask (fun t => { t with astat := 0 })).advance) ∧
    (s.AtArray b →
      (fieldN (s.x xs) 12 52 = 0 → s.task.entrySave = none →
        exec (.msetshape xs) s = .next (s.onTask (fun t => { t with mshape := s.x xs })).advance) ∧
      (fieldN (s.x xs) 12 52 ≠ 0 → bad (.msetshape xs) 0x01) ∧
      (fieldN (s.x xs) 23 41 = 0 → fieldN (s.x xs) 0 2 ≠ 3 → fieldN (s.x xs) 3 2 ≠ 3 → fieldN (s.x xs) 6 3 ≤ 4 → fieldN (s.x xs) 20 3 ≠ 7 →
        s.task.entrySave = none → exec (.msetcfg xs) s = .next (s.onTask (fun t => { t with mcfg := s.x xs })).advance) ∧
      (fieldN (s.x xs) 23 41 ≠ 0 ∨ fieldN (s.x xs) 0 2 = 3 ∨ fieldN (s.x xs) 3 2 = 3 ∨ 4 < fieldN (s.x xs) 6 3 ∨ fieldN (s.x xs) 20 3 = 7 →
        bad (.msetcfg xs) 0x01) ∧
      exec (.mzero md) s = .next (s.onTask (fun t => { t with m := t.m.setIfInBounds md.toNat 0 })).advance ∧
      (∀ a, s.task.entrySave = some a →
        let leaves (i : Instr) (f : Task → Task) : Prop := exec i s = .next { s with task := f { s.task with
          block := a.block, vl := a.vl, vcfg := a.vcfg, mshape := a.mshape, mcfg := a.mcfg, fl := a.fl, entrySave := none,
          aqueue := s.task.aqueue.drop 1, progressAt := s.micros } }
        (fieldN (s.x xs) 12 52 = 0 → leaves (.msetshape xs) (fun t => { t with mshape := s.x xs })) ∧
        (mcfgOk (s.x xs) = true → leaves (.msetcfg xs) (fun t => { t with mcfg := s.x xs })) ∧
        (∀ o, a.block = some o → xd ≠ 0 → ∃ p, leaves (.mgetstat xd) (fun t =>
          { t with block := some { o with xs := o.xs.setIfInBounds xd.toNat s.task.astat, poison := p } })))) ∧
    (s.AtBlock b → s.task.id.kind ≠ 2 →
      bad (.msetshape xs) 0x08 ∧ bad (.msetcfg xs) 0x08 ∧ bad (.mzero md) 0x08 ∧ bad (.mopa md xs r2 c2 c1 vm) 0x08 ∧
      bad (.mopd md xs r2 c2 c1 vm) 0x08 ∧ bad (.mfetch md xs r2) 0x08 ∧ bad (.mdrain xs md r2 vm) 0x08 ∧ bad (.mdrainq xs md r2 vm) 0x08 ∧
      bad (.mbest xs md vm) 0x08 ∧ bad (.mld md xs r2) 0x08 ∧ bad (.mst md xs r2) 0x08 ∧ bad (.mcupd xd xs r2 c2 c1 vm) 0x08)

/-- R274 to R283. `Compute.cell` is the running sum of R281, `guardFailure` the first pair that fails the test of R276. -/
def Obligations.ArrayCompute : Prop :=
  ∀ (s : State) (b : Block) (md : BitVec 3) (vs2 vs1 xa xb : BitVec 5) (c2 c1 vm : BitVec 1) (v : Values), s.AtArray b →
    let t := s.task
    let m := fieldN t.mshape 0 6 + 1
    let n := fieldN t.mshape 6 6 + 1
    let k := t.vl / m
    let n32 := ceilDiv (k * v.k) 32
    let scaled := t.bs = false ∨ (t.num = true ∧ n32 * max m n ≤ t.vlenb ∧ ∀ p, v.plan = some p → p.kind = 1 → 32 % v.k = 0)
    let shaped (metric : Nat) : Prop := t.vl ≠ 0 ∧ t.vl % m = 0 ∧ t.values = some v ∧ v.planOk metric = true
    let distance (metric : Nat) : Prop := metric ≠ 0 ∧ t.bs = false
    let scales := if t.bs then
      some (fun q i => t.elem 8 t.sra (q * m + i), fun q j => t.elem 8 t.srb (q * n + j)) else none
    let scaleRegs := if t.bs then [(t.sra, 1), (t.srb, 1)] else []
    let word (i : Instr) (c : Compute) : Prop :=
      (c.guardFailure = none →
        ∃ u f, exec i s = .next ({ s with task := { u with astat := f } } : State).advance ∧
          WroteAccs t u md.toNat (fun x => if x / 64 < m ∧ x % 64 < n then
            some (c.cell (t.acc md.toNat x) (x / 64) (x % 64)).acc else none) ∧
          ∀ q, q < 64 → (f.getLsbD q = true ↔ t.astat.getLsbD q = true ∨ (q = 2 ∧ c.ternary = true) ∨
            ∃ i j, i < m ∧ j < n ∧ (c.cell (t.acc md.toNat (64 * i + j)) i j).flags.getLsbD q = true)) ∧
      (∀ e y, c.guardFailure = some (e, y) →
        exec i s = .next (s.takeFault { cause := 0x07, elem := some e, info := BitVec.ofNat 32 (min y 0xFFFFFFFF) }))
    let registers (metric : Nat) : Compute :=
      { m := m, n := n, k := k, metric := metric, vals := v, num := t.num, scales := scales,
        a := fun q i => t.elem t.sew vs1.toNat (q * m + i), b := fun q j => t.elem t.sew vs2.toNat (q * n + j),
        act := fun q i => vm == 1 || t.maskBit 0 (q * m + i) }
    let value (p : Place) : Nat := leVal ((List.range (t.sew / 8)).map (fun j => s.readPlain p.km (p.key + j)))
    let located (x : BitVec 5) (count : Nat) (pl : Nat → Place) : Prop :=
      ∀ e, e < count → s.locateRead (s.x x + BitVec.ofNat 64 (e * (t.sew / 8))) (t.sew / 8) .read = .ok (pl e)
    (t.groupsOk { srcs := (vs1.toNat, t.lmul) :: (vs2.toNat, t.lmul) :: scaleRegs, dsts := [] } vm = true → k * n ≤ t.vlmax → scaled →
      (shaped 0 → word (.mopa md vs2 vs1 c2 c1 vm) (registers 0)) ∧
      (shaped t.metric → distance t.metric → word (.mopd md vs2 vs1 c2 c1 vm) (registers t.metric))) ∧
    (s.Plain → t.groupsOk { srcs := scaleRegs, dsts := [] } 1 = true → scaled → shaped t.metric → (t.metric ≠ 0 → distance t.metric) →
      (s.x xa).toNat % (t.sew / 8) = 0 → (s.x xb).toNat % (t.sew / 8) = 0 →
      ∀ pa pb : Nat → Place, located xa (k * m) pa → located xb (k * n) pb →
        word (.mfetch md xb xa)
          { m := m, n := n, k := k, metric := t.metric, vals := v, num := t.num, scales := scales,
            a := fun q i => value (pa (q * m + i)), b := fun q j => value (pb (q * n + j)), act := fun _ _ => true })

/-- R284 to R287. `trumpBetter` and `trumpSame` are the order of R287. -/
def Obligations.ArrayDrains : Prop :=
  ∀ (s : State) (b : Block) (md : BitVec 3) (vd xs : BitVec 5) (vm : BitVec 1), s.AtArray b →
    let t := s.task
    let w := t.sew
    let m := fieldN t.mshape 0 6 + 1
    let n := fieldN t.mshape 6 6 + 1
    let c := s.x xs
    let row0 := fieldN c 0 6
    let raw (i : Nat) : Nat := t.acc md.toNat (64 * (row0 + i / n) + i % n)
    let scaled (i : Nat) : Machine.Num :=
      (if t.num then binary32.decode (raw i) else .ofInt (sextN (raw i) 32)).mul (binary32.decode (fieldN c 32 32))
    let fits := fieldN c 6 26 = 0 ∧ row0 < m ∧ t.vl ≤ (m - row0) * n
    let admitted := (List.range (min t.vl t.vlmax)).filter (fun i => vm == 1 || t.maskBit 0 i)
    let integer (i : Nat) : Nat :=
      match scaled i with
      | .nan => 0
      | .inf neg => if neg then 2 ^ (w - 1) else 2 ^ (w - 1) - 1
      | .fin neg sig e _ => wrapN (clampS (roundInt t.rm (s.roundDraw i) neg sig e) w) w
    let drains (i : Instr) (leaves : State → State → Prop) : Prop :=
      let writes (f : Nat → Nat) (g : State → State) : Prop :=
        ∃ u r, WroteElems t u w vd.toNat t.lmul (forElems admitted f) ∧ leaves { s with task := u } r ∧ exec i s = .next (g r).advance
      (t.dsc = 0 → w = 32 → writes raw id) ∧
      (t.dsc = 1 → s.MayRound → ∀ f, fmtOf w t.fk = some f →
        writes (fun i => f.round t.rm (s.roundDraw i) (scaled i)) State.countRounding) ∧
      (2 ≤ t.dsc → s.MayRound → writes integer State.countRounding)
    (t.groupsOk { srcs := [], dsts := [(vd.toNat, t.lmul)] } vm = true → fits →
      drains (.mdrain vd md xs vm) (fun a r => r = a) ∧
      (s.Plain → xs ≠ 0 → xs ≠ 31 → (s.x (xs + 1)).toNat % 4 = 0 → ∀ p, s.locateRead (s.x (xs + 1)) 4 .atomic = .ok p →
        let old := leVal ((List.range 4).map (fun j => s.readPlain p.km (p.key + j)))
        drains (.mdrainq vd md xs vm) (fun a r =>
          match s.absmax md c vm with
          | none => r = a
          | some x => a.Stored r p (bytesOf (binary32.maxNum old x) 4)))) ∧
    (w = 32 → t.lmul = 1 → vd.toNat % 2 = 0 → t.groupsOk { srcs := [], dsts := [(vd.toNat, 1), (vd.toNat + 1, 1)] } vm = true → t.vl ≤ m →
      let cols := (List.range n).filter (fun j => vm == 1 || t.maskBit 0 j)
      let at_ (i j : Nat) : Nat := t.acc md.toNat (64 * i + j)
      ∃ (best : Nat → Option Nat) (u1 u2 : Task), exec (.mbest vd md vm) s = .next ({ s with task := u2 } : State).advance ∧
        WroteElems t u1 32 vd.toNat 1 (fun i => if i < t.vl then some ((best i).getD 0xFFFFFFFF) else none) ∧
        WroteElems u1 u2 32 (vd.toNat + 1) 1 (fun i => if i < t.vl then some (((best i).map (at_ i)).getD t.trumpEmpty) else none) ∧
        ∀ i, (best i = none ↔ cols = []) ∧ ∀ j, best i = some j → j ∈ cols ∧
          ∀ j' ∈ cols, trumpBetter t.num t.metric (at_ i j') (at_ i j) = false ∧
            (trumpSame t.num (at_ i j') (at_ i j) = true → if t.tieHigh then j' ≤ j else j ≤ j'))

/-- R288, R289, R324 to R329. `fxAdd`, `fxTerm` and `fxValue` are the exact add, the grid and the values of R324 to R327. That the checks of the
format and of the groups come before that of the base is the model's reading of the order of checks (log 17). -/
def Obligations.TilesAndAccumulators : Prop :=
  ∀ (s : State) (b : Block) (md : BitVec 3) (vd vs2 vs1 xa xs : BitVec 5) (fmt : BitVec 2) (c2 c1 vm : BitVec 1) (pl : Nat → Place), s.Plain →
    let t := s.task
    let w := t.sew
    let m := fieldN t.mshape 0 6 + 1
    let n := fieldN t.mshape 6 6 + 1
    let base := s.x xa
    let inside (x : Nat) : Prop := x / 64 < m ∧ x % 64 < n
    let row (x : Nat) : Word := base + BitVec.ofNat 64 (x / 64) * s.x xs + BitVec.ofNat 64 (4 * (x % 64))
    let window := (List.range m).flatMap (fun i => (List.range n).map (fun j => 64 * i + j))
    let value (p : Place) (k : Nat) : Nat := leVal ((List.range k).map (fun j => s.readPlain p.km (p.key + j)))
    let home (i : Nat) : Prop := s.locateRead (base + BitVec.ofNat 64 (64 * i)) 64 .atomic = .ok (pl i) ∧ (pl i).atHome = true
    let elems := rangeFrom t.vstart (min t.vl t.vlmax)
    let misaligned (i : Instr) : Prop := exec i s = .next (s.takeFault { cause := 0x03, addr := some base })
    (s.AtArray b →
      (base.toNat % 4 = 0 → (s.x xs).toNat % 4 = 0 →
        ((∀ x, inside x → s.locateRead (row x) 4 .read = .ok (pl x)) →
          ∃ u, exec (.mld md xa xs) s = .next ({ s with task := u } : State).advance ∧
            WroteAccs t u md.toNat (fun x => if x / 64 < m ∧ x % 64 < n then some (value (pl x) 4) else none)) ∧
        ((∀ x, inside x → s.locate (row x) 4 .write = .ok (pl x)) →
          ∃ r, exec (.mst md xa xs) s = .next r.advance ∧
            s.StoredAll r (window.map (fun x => (pl x, bytesOf (t.acc md.toNat x) 4))))) ∧
      (base.toNat % 4 ≠ 0 ∨ (s.x xs).toNat % 4 ≠ 0 → misaligned (.mld md xa xs) ∧ misaligned (.mst md xa xs)) ∧
      (t.groupsOk { srcs := [(vs2.toNat, t.lmul), (vs1.toNat, 1)], dsts := [] } 1 = true → (t.num = true → (fmtOf w t.fk).isSome = true) →
        base.toNat % 64 ≠ 0 → misaligned (.mcupd xa vs2 vs1 c2 c1 vm)) ∧
      (t.groupsOk { srcs := [(vs2.toNat, t.lmul), (vs1.toNat, 1)], dsts := [] } vm = true → (t.num = true → (fmtOf w t.fk).isSome = true) →
        base.toNat % 64 = 0 → t.vl ≠ 0 → t.vl % m = 0 →
        let centroid (q : Nat) : Int := sextN (t.elem 32 vs1.toNat q) 32
        let active := (List.range m).filter (fun q => vm == 1 || t.maskBit 0 q)
        let dim := t.vl / m
        let term (q d : Nat) : Machine.Num :=
          let x := t.elem w vs2.toNat (d * m + q)
          if d < dim then
            (if t.num then ((fmtOf w t.fk).map (fun f => fxTerm (f.decode x))).getD .nan else .ofInt (sextN x w))
          else .ofInt 1
        let places := (active.filter (fun q => 0 ≤ centroid q)).flatMap (fun q =>
          (List.range (dim + 1)).map (fun d => (pl ((centroid q).toNat * (dim + 1) + d), term q d)))
        (∀ q ∈ active, centroid q ≤ 63) →
        (∀ q ∈ active, 0 ≤ centroid q → ∀ d, d ≤ dim → home ((centroid q).toNat * (dim + 1) + d)) →
        ∃ r, exec (.mcupd xa vs2 vs1 c2 c1 vm) s = .next r.advance ∧ s.FxAll r places)) ∧
    (s.AtBlock b →
      (base.toNat % 64 = 0 →
        (∀ f, fmtOf w t.fk = some f → t.groupsOk { srcs := [(vs2.toNat, t.lmul)], dsts := [] } 1 = true → (∀ i ∈ elems, home i) →
          ∃ r, exec (.vfxadd vs2 xa) s = .next r.advance ∧
            s.FxAll r (elems.map (fun i => (pl i, fxTerm (f.decode (t.elem w vs2.toNat i)))))) ∧
        (∀ f, (fmt = 0 ∧ w = 32 ∧ t.fk = 0 ∧ f = binary32) ∨ (fmt = 1 ∧ w = 16 ∧ t.fk = 1 ∧ f = bfloat16) ∨ (fmt = 2 ∧ w = 64 ∧ t.fk = 0 ∧ f = binary64) →
          t.groupsOk { srcs := [], dsts := [(vd.toNat, t.lmul)] } 1 = true → s.MayRound → (∀ i ∈ elems, home i) →
          s.Writes (.fxrd vd xa fmt) w vd.toNat t.lmul (forElems elems (fun i =>
            f.round t.rm (s.roundDraw i) (fxValue (value (pl i) 64)))) State.countRounding) ∧
        ((s.x xs).toNat ≤ 65536 → (∀ i, i < (s.x xs).toNat → home i) →
          ∃ r, exec (.fxclr xa xs) s = .next r.advance ∧
            s.StoredAll r ((List.range (s.x xs).toNat).map (fun i => (pl i, bytesOf 0 64)))) ∧
        (65536 < (s.x xs).toNat → exec (.fxclr xa xs) s = .next (s.takeFault { cause := 0x08 }))) ∧
      (base.toNat % 64 ≠ 0 → misaligned (.fxclr xa xs) ∧
        ((fmtOf w t.fk).isSome = true → t.groupsOk { srcs := [(vs2.toNat, t.lmul)], dsts := [] } 1 = true → misaligned (.vfxadd vs2 xa)) ∧
        ((fmt = 0 ∧ w = 32 ∧ t.fk = 0) ∨ (fmt = 1 ∧ w = 16 ∧ t.fk = 1) ∨ (fmt = 2 ∧ w = 64 ∧ t.fk = 0) →
          t.groupsOk { srcs := [], dsts := [(vd.toNat, t.lmul)] } 1 = true → misaligned (.fxrd vd xa fmt))))

/-- R155, R119, R122. -/
def Obligations.BlockControl : Prop :=
  ∀ (s : State) (b : Block) (lc : BitVec 2) (dist simm : BitVec 10) (sh : BitVec 3) (xd vs2 : BitVec 5) (c2 vm : BitVec 1), s.AtBlock b →
    let counter := (b.lc[lc.toNat]?).getD 0
    let declared := lc.toNat < fieldN b.h0 8 3 ∧ ∀ k, s.kernelRec = some k → k.hasRegs = true → k.lcmask.getLsbD lc.toNat = true
    let bad (i : Instr) (c : Nat) : Prop := exec i s = .next (s.takeFault { cause := c })
    let counts (v : Word) : Block := { b with lc := b.lc.setIfInBounds lc.toNat v }
    let left : Word := if s.task.vl ≤ counter.toNat then counter - BitVec.ofNat 64 s.task.vl else 0
    let pushed (v : Word) : State := s.onTask (fun t => { t with replies := t.replies ++ [v] })
    (declared →
      exec (.vstrip lc) s = .next (s.onTask (fun t => { t with vl := min counter.toNat t.vlmax, vstart := 0 })).advance ∧
      exec (.vloop lc xd) s = .next (s.onTask (fun t => { t with block := some (counts (s.x xd)) })).advance ∧
      (1 ≤ dist.toNat → dist.toNat ≤ 253 →
        (dist.toNat ≤ b.off → b.off - dist.toNat < b.len →
          (left = 0 → exec (.vlbnz lc dist) s = .next (s.onTask (fun t => { t with block := some (counts 0) })).advance) ∧
          (left ≠ 0 → exec (.vlbnz lc dist) s = .next (s.onTask (fun t =>
            { t with block := some { counts left with off := b.off - dist.toNat }, vstart := 0, progressAt := s.micros })))) ∧
        (b.off < dist.toNat → bad (.vlbnz lc dist) 0x08))) ∧
    (¬declared → bad (.vstrip lc) 0x08 ∧ bad (.vloop lc xd) 0x08 ∧ (1 ≤ dist.toNat → dist.toNat ≤ 253 → bad (.vlbnz lc dist) 0x08)) ∧
    (dist.toNat = 0 ∨ 253 < dist.toNat → bad (.vlbnz lc dist) 0x01) ∧
    exec (.baddi xd simm) s = .next (s.setX xd (s.x xd + simm.signExtend 64)).advance ∧
    exec (.baddvl xd sh) s = .next (s.setX xd (s.x xd + BitVec.ofNat 64 (s.task.vl * 2 ^ sh.toNat))).advance ∧
    (s.task.replies.length < 16 →
      (s.task.groupsOk { srcs := [(vs2.toNat, 1)], dsts := [] } vm = true →
        exec (.vcond vs2 c2 vm) s = .next (pushed (if ∃ i ∈ s.actives vm, s.task.maskBit vs2.toNat i = true then 1 else 0)).advance) ∧
      exec (.vpost xd) s = .next (pushed (s.x xd)).advance) ∧
    (16 ≤ s.task.replies.length →
      (s.task.groupsOk { srcs := [(vs2.toNat, 1)], dsts := [] } vm = true → exec (.vcond vs2 c2 vm) s = .next s) ∧
      exec (.vpost xd) s = .next s)

/-- R116 to R120, R146 to R148. -/
def Obligations.BlockDispatch : Prop :=
  ∀ (s : State) (b : Block) (xs rd code : BitVec 5) (imm : BitVec 14) (h0 h1 : BitVec 32),
    let a := s.x xs
    let fetched := (s.afterFetch a).afterFetch (a + 4)
    let legal := fieldN h0 24 8 = 0xB1 ∧ 1 ≤ fieldN h0 0 8 ∧ fieldN h0 0 8 ≤ 253 ∧ fieldN h0 8 3 ≤ 4 ∧ fieldN h0 14 10 = 0 ∧ h1.getLsbD 0 = false
    let busy := s.task.block.isSome = true ∨ s.task.vq ≠ [] ∨ s.task.aqueue ≠ []
    let may (v : Word) : Prop := fieldN v 14 50 = 0 ∧ fieldN v 0 3 ≤ 3 ∧ fieldN v 5 2 ≠ 3 ∧ ¬(fieldN v 5 2 = 1 ∧ 1 < fieldN v 0 3) ∧
      ¬(fieldN v 5 2 = 2 ∧ fieldN v 0 3 ≠ 0) ∧ fieldN v 7 3 ≤ 5 ∧ fieldN v 10 3 ≤ 5
    let folded (t : Task) (fold : Nat) : Task := if fold = t.fold then t else { t with fold := fold, v := Vector.replicate 32 0, vPoison := [] }
    let set (i : Instr) (v : Word) (fold : Nat) : Prop :=
      (may v →
        let t := { folded s.task fold with vcfg := v }
        exec i s = .next (({ s with task := { t with vl := t.vlmax, vstart := 0 } } : State).setX rd (BitVec.ofNat 64 t.vlmax)).advance) ∧
      (¬may v → exec i s = .next (s.takeFault { cause := 0x01 }))
    (s.AtControl →
      (a.toNat % 4 = 0 → s.codeWord a = .ok h0 → s.codeWord (a + 4) = .ok h1 →
        (legal → s.task.vq.length < 32 →
          exec (.vblk xs) s = .next (fetched.onTask (fun t => { t with
            vq := t.vq ++ [{ addr := a, h0 := h0, h1 := h1,
                             xs := Vector.ofFn (fun (i : Fin 32) => if i.val ≠ 0 ∧ h1.getLsbD i.val = true then t.x[i] else 0),
                             foldPending := t.foldPending, serial := t.nextSerial, poison := 0 }],
            nextSerial := t.nextSerial + 1 })).advance) ∧
        (legal → 32 ≤ s.task.vq.length → exec (.vblk xs) s = .next fetched) ∧
        (¬legal → exec (.vblk xs) s = .next (fetched.takeFault { cause := 0x08 }))) ∧
      (a.toNat % 4 ≠ 0 → exec (.vblk xs) s = .next (s.takeFault { cause := 0x03, addr := some a })) ∧
      (∀ v rest, s.task.replies = v :: rest →
        exec (.vreply rd) s = .next ((s.onTask (fun t => { t with replies := rest })).setX rd v).advance) ∧
      (s.task.replies = [] → (busy → exec (.vreply rd) s = .next s) ∧ (¬busy → exec (.vreply rd) s = .next (s.takeFault { cause := 0x08 }))) ∧
      (busy → exec .vdrainq s = .next s) ∧ (¬busy → exec .vdrainq s = .next s.advance) ∧
      (code.toNat < 3 → (∀ k, s.kernelRec = some k → k.hasRegs = false) →
        exec (.vdecl code) s = .next (s.onTask (fun t => { t with foldPending := 2 ^ code.toNat })).advance) ∧
      (3 ≤ code.toNat → exec (.vdecl code) s = .next (s.takeFault { cause := 0x01 })) ∧
      (¬busy → set (.vsetcfg rd xs) a s.task.foldPending ∧ set (.vsetcfgi rd imm) (imm.setWidth 64) s.task.foldPending) ∧
      (busy → may a → exec (.vsetcfg rd xs) s = .next s)) ∧
    (s.AtBlock b → set (.vsetcfg rd xs) a b.foldPending ∧ set (.vsetcfgi rd imm) (imm.setWidth 64) b.foldPending)

/-- R166 to R170, R165 and R188 for the counts. That LJOIN moves rngpos by vl times the most VRNG words of one thread is the model's reading of
R165's `vl × (1 + the largest m reached)` (log 23). With write sets, which only deterministic regions keep, LJOIN merges them as R320 says; that is no part of this. -/
def Obligations.LaneThreads : Prop :=
  ∀ (s : State) (b : Block) (e : Nat) (vs2 vs1 : BitVec 5) (off10 : BitVec 10) (off : BitVec 8) (vm : BitVec 1),
    let w := s.task.sew
    let lm := s.task.lmul
    let bad (i : Instr) (c : Nat) : Prop := exec i s = .next (s.takeFault { cause := c })
    let inside (x : Int) : Prop := 0 ≤ x ∧ x < b.len
    (s.AtBlock b → b.h0.getLsbD 13 = true → s.regsAllow 2 = true → off10 ≠ 0 →
      let target : Int := b.off + off10.toInt
      (inside target → ∀ j : Nat, target ≤ j → j < b.len → s.codeWord (b.wordAddr j) = .ok 0x6000605B →
        (∀ i : Nat, target ≤ i → i < j → ∃ x, s.codeWord (b.wordAddr i) = .ok x ∧ x ≠ 0x6000605B) →
        let scanned := s.afterScan b target.toNat (b.len - target.toNat)
        (s.stash = [] → scanned = s) ∧
        (s.actives vm ≠ [] → exec (.vsplit off10 vm) s = .next (scanned.onTask (fun t =>
          { t with split := some { at_ := b.off, join := j, since := s.micros, view := t.wset ++ s.earlierWrites t, seen := s.orderedSegments,
                                   threads := (s.actives vm).map (fun e =>
                                     { elem := e, off := target.toNat, draws := 0, rounds := 0, joined := false, wset := [] }) },
                   vstart := 0, progressAt := s.micros }))) ∧
        (s.actives vm = [] → exec (.vsplit off10 vm) s = .next (scanned.onTask (fun t =>
          { t.moveVector (j + 1) with progressAt := s.micros })))) ∧
      (inside target → (∀ i : Nat, target ≤ i → i < b.len → ∃ x, s.codeWord (b.wordAddr i) = .ok x ∧ x ≠ 0x6000605B) →
        exec (.vsplit off10 vm) s = .next ((s.afterScan b target.toNat (b.len - target.toNat)).takeFault { cause := 0x08 })) ∧
      (¬inside target → bad (.vsplit off10 vm) 0x08)) ∧
    (s.AtLane b e → ∀ sp, s.task.split = some sp →
      (s.task.groupsOk { srcs := [(vs2.toNat, lm), (vs1.toNat, lm)], dsts := [] } 1 = true → off ≠ 0 →
        let target : Int := s.offset + off.toInt
        let x := s.task.elem w vs2.toNat e
        let y := s.task.elem w vs1.toNat e
        let branch (i : Instr) (taken : Prop) : Prop :=
          (inside target → taken → exec i s = .next (s.onTask (fun t => { t.moveLane e target.toNat with progressAt := s.micros }))) ∧
          (inside target → ¬taken → exec i s = .next s.advance) ∧ (¬inside target → bad i 0x08)
        branch (.lbeq vs2 vs1 off) (x = y) ∧ branch (.lbne vs2 vs1 off) (x ≠ y) ∧
        branch (.lblt vs2 vs1 off) (sextN x w < sextN y w) ∧ branch (.lbge vs2 vs1 off) (sextN y w ≤ sextN x w)) ∧
      (off10 ≠ 0 →
        let target : Int := s.offset + off10.toInt
        (inside target → exec (.ljmp off10) s = .next (s.onTask (fun t => { t.moveLane e target.toNat with progressAt := s.micros }))) ∧
        (¬inside target → bad (.ljmp off10) 0x08)) ∧
      (s.offset ≠ sp.join → bad .ljoin 0x08) ∧
      (s.offset = sp.join →
        let threads := mapIf (fun (th : LaneThread) => th.elem == e) (fun th => { th with joined := true }) sp.threads
        ((∃ th ∈ threads, th.joined = false) →
          exec .ljoin s = .next (s.onTask (fun t => { t with split := some { sp with threads := threads }, progressAt := s.micros }))) ∧
        ((∀ th ∈ threads, th.joined = true ∧ th.wset = []) →
          exec .ljoin s = .next (s.onTask (fun t =>
            { { t with split := none
                       rngpos := t.rngpos + BitVec.ofNat 64 (t.vl * (threads.map LaneThread.draws).foldl max 0)
                       srcount := t.srcount + BitVec.ofNat 32 ((threads.map LaneThread.rounds).foldl max 0) }.moveVector (sp.join + 1)
              with progressAt := s.micros })))))

/-- R298 to R304, R266, R267. That FENCEV and ACQ move on at once, and that REL waits for nothing but its own store, is the model's, which performs
accesses in program order (log 4). Waits for copies and the merge of segments that deterministic regions have left at a phase are no part of this. -/
def Obligations.SyncWords : Prop :=
  (∀ (s : State) (r1 r2 r3 : BitVec 5) (scope : BitVec 3) (q : Place), s.AtEither → scope.toNat < 6 → (s.x r1).toNat % 64 = 0 →
    s.locate (s.x r1) 64 .atomic = .ok q → q.atHome = true →
    ((s.x r2).toNat % 128 ≠ 0 ∨ (s.x r3).toNat % 128 ≠ 0 ∨ 2 ^ 48 < (s.x r2).toNat + (s.x r3).toNat →
      exec (.sybind r1 r2 r3) s = .next (s.takeFault { cause := 0x03 })) ∧
    (s.task.slots.find? (fun a => a.obj == (s.x r1).toNat) = none →
      exec (.barw r1 scope) s = .next (s.takeFault { cause := 0x08 }))) ∧
  ∀ (s : State) (r1 r2 r3 : BitVec 5) (scope : BitVec 3) (p : Place), s.Plain → s.AtEither → scope.toNat < 6 →
    let o := s.x r1
    let bad (i : Instr) (c : Nat) : Prop := exec i s = .next (s.takeFault { cause := c })
    let field (off n : Nat) : Nat := leVal ((List.range n).map (fun j => s.readPlain p.km (p.key + off + j)))
    let store (off n v : Nat) : Place × List Byte := ({ p with key := p.key + off, va := p.va + off }, bytesOf v n)
    let leaves (i : Instr) (ps : List (Place × List Byte)) (g : State → State) : Prop :=
      ∃ t, s.StoredAll t ps ∧ exec i s = .next (g t).advance
    exec (.fencev scope) s = .next s.advance ∧
    (o.toNat % 64 ≠ 0 →
      let misaligned (i : Instr) : Prop := exec i s = .next (s.takeFault { cause := 0x03, addr := some o })
      misaligned (.acq r1 scope) ∧ misaligned (.rel r1 scope) ∧ misaligned (.bara r1 scope) ∧ misaligned (.barw r1 scope) ∧
      misaligned (.publish r1) ∧ misaligned (.sybind r1 r2 r3)) ∧
    (o.toNat % 64 = 0 → s.locateRead o 64 .atomic = .ok p → p.atHome = true →
      exec (.acq r1 scope) s = .next s.advance ∧
      leaves (.rel r1 scope) [store 0x18 8 (field 0x18 8 + 1)] id ∧
      (let base := (s.x r2).toNat
       let size := (s.x r3).toNat
       let here : Bound := { ctx := s.task.id.ctx, obj := o.toNat }
       (base % 128 = 0 → size % 128 = 0 → base + size ≤ 2 ^ 48 →
        leaves (.sybind r1 r2 r3)
          ((if field 0x10 8 = 0 then [] else [store 0x18 8 (field 0x18 8 + 1)]) ++ [store 0x00 8 base, store 0x10 8 size])
          (fun t => { t with bounds := s.bounds.filter (fun x => x != here) ++ (if size = 0 then [] else [here]) })) ∧
       (base % 128 ≠ 0 ∨ size % 128 ≠ 0 ∨ 2 ^ 48 < base + size → bad (.sybind r1 r2 r3) 0x03)) ∧
      (let slot := s.task.slots.find? (fun a => a.obj == o.toNat)
       let taken : Arrival := { obj := o.toNat, phase := BitVec.ofNat 64 (field 0x28 8) }
       let arrive (ps : List (Place × List Byte)) : Prop :=
         leaves (.bara r1 scope) ps (fun t => t.onTask (fun x => { x with slots := s.task.slots ++ [taken] }))
       (field 0x20 4 ≠ 0 → slot = none → s.task.slots.length < 4 →
        (field 0x24 4 + 1 < field 0x20 4 → arrive [store 0x24 4 (field 0x24 4 + 1)]) ∧
        (field 0x20 4 ≤ field 0x24 4 + 1 → (∀ g ∈ s.segments, g.bara = some (p.key, taken.phase) → g.merged = true) → arrive [store 0x24 4 0, store 0x28 8 (field 0x28 8 + 1)])) ∧
       (field 0x20 4 = 0 ∨ slot ≠ none ∨ 4 ≤ s.task.slots.length → bad (.bara r1 scope) 0x08) ∧
       (slot = none → bad (.barw r1 scope) 0x08) ∧
       (∀ a, slot = some a →
        (field 0x28 8 = a.phase.toNat → exec (.barw r1 scope) s = .next s) ∧
        (field 0x28 8 ≠ a.phase.toNat → exec (.barw r1 scope) s =
          .next (s.onTask (fun t => { t with slots := t.slots.filter (fun x => x.obj != o.toNat) })).advance))) ∧
      (s.copiesLeft (fun _ => true) = false → field 0x10 8 ≠ 0 →
        leaves (.publish r1) [store 0x08 8 (field 0x08 8 ^^^ 1), store 0x18 8 (field 0x18 8 + 1)] id) ∧
      (field 0x10 8 = 0 → bad (.publish r1) 0x08))

/-- R27, R248 to R252, R255, R262, R357, R389. That a step of the engine carries a command as far as it goes is the model's own (log 4), and
so is what an image of the context's own makes of a command (log 10); that a held copy asks for its page with a record of its copy word,
`copyMiss`, is the model's choice (log 36), and that in a deterministic region the engine takes a command up at its word (log 19). Commands on a
token that is pending or holds a status are those of PendingTokens. -/
def Obligations.CopyWords : Prop :=
  (∀ (s : State) (b : Block) (rd r1 r2 : BitVec 5) (pair : BitVec 4) (trap : BitVec 1), s.AtBlock b → rd ≠ 0 →
    let a := 2 * pair.toNat
    let n := s.task.vl
    let lay (v : Nat) : List (BitVec 64) := (List.range n).map (fun i => BitVec.ofNat 64 (s.task.elem 64 v i))
    let total (ls : List (BitVec 64)) : Nat := ls.foldl (fun m l => m * fieldN l 0 24) 1
    let ctl : Word := BitVec.ofNat 64 (s.task.elem 64 a 16)
    let legal := 1 ≤ n ∧ n ≤ 16 ∧ (∀ l ∈ lay a ++ lay (a + 1), fieldN l 0 24 ≠ 0) ∧ total (lay a) = total (lay (a + 1)) ∧ total (lay a) < 2 ^ 40
    let taken (u : State) : State := if s.det = true then (u.takeUp 0).getD u else u
    let queues (i : Instr) (op : Nat) (ctl : Word) (trap : Bool) : Prop :=
      (legal → fieldN ctl 34 30 = 0 → s.copySlots s.task.id.section_ ≠ 0 →
        ∃ c : Copy, exec i s = .next (taken (s.onTask (fun t => { t with copies := [c] }))).advance ∧ c.op = op ∧ c.trap = trap ∧ c.tok = rd.toNat ∧
          c.src = s.x r1 ∧ c.dst = s.x r2 ∧ c.srcLay = lay a ∧ c.dstLay = lay (a + 1) ∧ c.ctl = ctl ∧ c.tokIn = s.x rd ∧ c.after = none ∧
          c.done = 0 ∧ c.running = 1 ∧ c.started = false ∧ c.home = none ∧ c.status = none) ∧
      (legal → fieldN ctl 34 30 = 0 → s.copySlots s.task.id.section_ = 0 → exec i s = .next s) ∧
      (¬legal ∨ fieldN ctl 34 30 ≠ 0 → exec i s = .next (s.takeFault { cause := 0x08 }))
    s.task.groupsOk { srcs := [(a, 1), (a + 1, 1)], dsts := [] } 1 = true →
    queues (.cpy rd pair r1 r2) 0 0 false ∧ queues (.cpyc rd pair r1 r2 trap) 1 ctl (trap == 1) ∧
    queues (.cpyx rd pair r1 r2 trap) 2 ctl (trap == 1)) ∧
  (∀ (s : State) (k : Nat) (c : Copy), s.task.status = .running → s.task.copies[k]? = some c →
    let i : Instr := .copyComplete s.task.id.tid k
    let u : State := { s with cur := .vector }
    let who : Nat × Nat × Nat := (s.task.id.tid, k, 0)
    let from_ : Progress := { done := c.done, running := c.running, flip := c.flip, home := c.home }
    let stands (v : State) (g : Progress) : State := v.onTask (fun t => { t with copies := t.copies.mapIdx (fun j (o : Copy) =>
      if j = k then { o with started := true, done := g.done, running := g.running, flip := g.flip, home := g.home } else o) })
    let ends (v : State) (st : Word) (at_ : Option (Word × Bool)) : State :=
      v.onTask (fun t => { t.endCopy k st at_ with progressAt := v.micros })
    (c.status ≠ none → exec i s = .next s) ∧ (s.pageAsked who = true → exec i s = .next s) ∧
    (∀ j p, c.after = some j → s.task.copies[j]? = some p → p.status = none → exec i s = .next s) ∧
    (c.status = none → c.after = none → s.pageAsked who = false → c.started = false → c.op ≠ 0 → c.ctl.getLsbD 32 = false → fieldN c.tokIn 0 8 ≠ 0 →
      exec i s = .next (ends u c.tokIn none).settle) ∧
    (c.status = none → c.after = none → s.pageAsked who = false → c.started = true ∨ c.op = 0 ∨ c.ctl.getLsbD 32 = true →
      ∀ (v : State) (g : Progress),
      (u.carryOn (u.jobOf k c) from_ = (v, g, .complete) →
        exec i s = .next ((ends (stands v g)
          (if c.op = 0 then BitVec.ofNat 64 (g.done * 2 ^ 24)
           else BitVec.ofNat 64 (g.running * 2 ^ 32 + 0x100 + (if c.ctl.getLsbD 33 = true ∧ g.running ≠ fieldN c.ctl 0 32 then 0x09 else 0)))
          none).endWait who).settle) ∧
      (∀ code a d, u.carryOn (u.jobOf k c) from_ = (v, g, .fail code a d) →
        exec i s = .next ((ends (stands v g) (failStatus code g.done) (some (a, d))).endWait who).settle) ∧
      (∀ va info, u.carryOn (u.jobOf k c) from_ = (v, g, .hold va info) →
        exec i s = .next ((((stands v g).onTask (fun t => { t with progressAt := if c.done < g.done then v.micros else t.progressAt })).askPage
          who s.task.id.ctx (u.dieOf u.task) s.task.id.gid va ((stands v g).copyMiss c va info)).settle)))) ∧
  (∀ (s : State) (gid i : Nat) (g : Graph) (n : Node) (parts : List (List (BitVec 8))) (zero : BitVec 512),
    s.graph gid = some g → s.node gid i = some n →
    (n.kind = 3 → n.status = .running →
      (n.image = none → exec (.copyNodeComplete gid i) s = .next (s.runCommand g n 256 (fun c s => s.copyCommand (CopyCommand.of c))
        (fun c => (CopyCommand.of c).trap)).settle) ∧
      (∀ im, n.image = some im → exec (.copyNodeComplete gid i) s = .next (s.runImage g n im).settle)) ∧
    (n.kind = 4 → n.status = .running →
      (n.image = none → exec (.collNodeComplete gid i parts zero) s = .next (s.runCommand g n 320
        (fun c s => s.collCommand (CollCommand.of c) (CollCommand.of zero) parts) (fun _ => false)).settle) ∧
      (∀ im, n.image = some im → exec (.collNodeComplete gid i parts zero) s = .next (s.runImage g n im).settle)) ∧
    (n.kind ≠ 3 ∨ n.status ≠ .running → exec (.copyNodeComplete gid i) s = .next s) ∧
    (n.kind ≠ 4 ∨ n.status ≠ .running → exec (.collNodeComplete gid i parts zero) s = .next s))

/-- R237 to R241, R263 to R265. `streamOk` is the list of restrictions of R263. STUNMAP writes the task's lines of the window back and invalidates
them, STWB writes those of its range back and keeps them clean: `WroteBack` asserts what stands in memory then. That the words act on the lines
whose owners name the task with an address in the range is the model's reading (log 35). -/
def Obligations.StashAndStreams : Prop :=
  (∀ (s : State) (r1 r2 r3 : BitVec 5), s.AtEither →
    let n := (s.x r1).toNat
    let base := (s.x r2).toNat
    let size := (s.x r3).toNat
    let inRange := base % 256 = 0 ∧ size % 256 = 0 ∧ size ≠ 0 ∧ size ≤ 2 ^ 30 ∧ base + size ≤ 2 ^ 48
    let used := ((s.task.windows[n]?).getD none).isSome = true ∨ s.task.overlapsWindow base size = true
    let bad (i : Instr) (c : Nat) : Prop := exec i s = .next (s.takeFault { cause := c })
    let mine (a z : Nat) (l : StashLine) : Bool :=
      l.section_ == s.task.id.section_ && l.owners.any (fun o => o.1 == s.task.id.tid && (a ≤ o.2 && o.2 < a + z))
    (n ≤ 7 → inRange → ¬used → s.stashRoom s.task.id.ctx s.task.id.region size = true →
      exec (.stmap r1 r2 r3) s = .next (s.onTask (fun t =>
        { t with windows := t.windows.setIfInBounds n (some { base := base, size := size, since := s.windowSince }) })).advance) ∧
    (7 < n → bad (.stmap r1 r2 r3) 0x08 ∧ bad (.stunmap r1) 0x08) ∧
    (n ≤ 7 → ¬inRange → bad (.stmap r1 r2 r3) 0x03) ∧ (n ≤ 7 → inRange → used → bad (.stmap r1 r2 r3) 0x08) ∧
    (n ≤ 7 → inRange → ¬used → s.stashRoom s.task.id.ctx s.task.id.region size = false → bad (.stmap r1 r2 r3) 0x0C) ∧
    (n ≤ 7 → s.cur = .control → (s.task.block.isSome = true ∨ s.task.vq ≠ [] ∨ s.task.aqueue ≠ []) → exec (.stunmap r1) s = .next s) ∧
    (n ≤ 7 → (s.cur = .control → s.task.block = none ∧ s.task.vq = [] ∧ s.task.aqueue = []) →
      ((s.task.windows[n]?).getD none = none → exec (.stunmap r1) s = .next s.advance) ∧
      (∀ w, (s.task.windows[n]?).getD none = some w → s.stash = [] →
        exec (.stunmap r1) s = .next (s.onTask (fun t => { t with windows := t.windows.setIfInBounds n none })).advance) ∧
      (∀ w, (s.task.windows[n]?).getD none = some w →
        ∃ t : State, exec (.stunmap r1) s = .next t.advance ∧ s.WroteBack t (mine w.base w.size) ∧
          t = { s with mem := t.mem, tags := t.tags, stash := s.stash.filter (fun l => !mine w.base w.size l), poison := t.poison,
                       task := { s.task with windows := s.task.windows.setIfInBounds n none } })) ∧
    (n % 256 = 0 → base % 256 = 0 →
      (∃ t : State, exec (.stwb r1 r2) s = .next t.advance ∧ s.WroteBack t (mine n base) ∧
        t = { s with mem := t.mem, tags := t.tags, poison := t.poison,
                     stash := mapIf (mine n base) (fun l => { l with dirty := [], writers := [], cleared := [] }) s.stash }) ∧
      (s.det = false → exec (.stdrop r1 r2) s =
        .next ({ s with stash := s.stash.filter (fun l => !mine n base l) } : State).advance) ∧
      (s.det = true → bad (.stdrop r1 r2) 0x08)) ∧
    (n % 256 ≠ 0 ∨ base % 256 ≠ 0 → bad (.stwb r1 r2) 0x03 ∧ bad (.stdrop r1 r2) 0x03)) ∧
  (∀ (s : State) (k : BitVec 3) (r1 r2 ways : BitVec 5), s.AtControl →
    let base := (s.x r1).toNat
    let size := (s.x r2).toNat
    let p := s.dieOf s.task
    let inRange := base % 128 = 0 ∧ size % 128 = 0 ∧ size ≠ 0 ∧ base + size ≤ 2 ^ 48
    let bad (i : Instr) (c : Nat) : Prop := exec i s = .next (s.takeFault { cause := c })
    let set (v : Option Retention) : State := s.modDie p (fun d => { d with retention := d.retention.setIfInBounds k.toNat v })
    let free := ∀ r, ((s.die p).retention[k.toNat]?).getD none = some r → r.ctx = s.task.id.ctx
    (1 ≤ ways.toNat → ways.toNat ≤ 8 → inRange → free →
      ((s.die p).otherWays k.toNat + ways.toNat ≤ 8 → exec (.l2pin k r1 r2 ways) s =
        .next (set (some { base := base, size := size, ways := ways.toNat, ctx := s.task.id.ctx })).advance) ∧
      (8 < (s.die p).otherWays k.toNat + ways.toNat → bad (.l2pin k r1 r2 ways) 0x08)) ∧
    (1 ≤ ways.toNat → ways.toNat ≤ 8 → ¬inRange → bad (.l2pin k r1 r2 ways) 0x03) ∧
    (1 ≤ ways.toNat → ways.toNat ≤ 8 → inRange → ¬free → bad (.l2pin k r1 r2 ways) 0x06) ∧
    (ways.toNat = 0 ∨ 8 < ways.toNat → bad (.l2pin k r1 r2 ways) 0x01) ∧
    (free → exec (.l2unpin k) s = .next (set none).advance) ∧ (¬free → bad (.l2unpin k) 0x06)) ∧
  (∀ (s : State) (b : Block) (vd r1 : BitVec 5) (p : Place), s.AtBlock b → b.h0.getLsbD 12 = true → s.regsAllow 1 = true →
    24 ≤ vd.toNat → s.task.fold = 1 → s.Plain →
    let a := s.x r1
    let d : BitVec 512 := BitVec.ofNat 512 (leVal ((List.range 64).map (fun j => s.readPlain p.km (p.key + j))))
    (a.toNat % 64 = 0 → s.locateRead a 64 = .ok p →
      (streamOk d = true → exec (.sbind vd r1) s = .next (s.onTask (fun t =>
        { t with streams := t.streams.setIfInBounds (vd.toNat - 24) (some { desc := d, cursor := 0 }) })).advance) ∧
      (streamOk d = false → exec (.sbind vd r1) s = .next (s.takeFault { cause := 0x08 }))) ∧
    (a.toNat % 64 ≠ 0 → exec (.sbind vd r1) s = .next (s.takeFault { cause := 0x03, addr := some a })) ∧
    exec (.sunbind vd) s = .next s.advance) ∧
  (∀ (s : State) (b : Block) (vd : BitVec 5) (st : Stream), s.cur = .vector → s.task.block = some b → b.h0.getLsbD 12 = true →
    s.regsAllow 1 = true → 24 ≤ vd.toNat → s.task.fold = 1 → s.task.binding vd.toNat = some st → s.task.vPoison = [] →
    exec (.sunbind vd) s = .next (s.onTask (fun t =>
      { t with streams := t.streams.setIfInBounds (vd.toNat - 24) none, v := t.v.setIfInBounds vd.toNat 0 })).advance) ∧
  (∀ (s : State) (tid : Nat) (vd : BitVec 5), exec (.streamRefill tid vd) s = .next s)

/-- R39, R40, R361 to R364. That TYIELD does nothing when the save pool cannot hold the image is the model's reading (log 16). `finishTask` retires the node and frees the section (R361); `info` is the table of R364. What TDONE does with the statuses
of copies that have ended is PendingTokens, and its merge in a deterministic region DeterministicRegions. -/
def Obligations.TasksAndQueues : Prop :=
  (∀ (s : State) (r1 : BitVec 5), s.AtControl →
    let busy := s.task.block ≠ none ∨ s.task.vq ≠ [] ∨ s.task.aqueue ≠ []
    (busy ∨ (∃ c ∈ s.task.copies, c.status = none) → exec .tdone s = .next s) ∧
    (¬busy → s.task.copies = [] → s.det = false → exec .tdone s = .next s.finishTask.settle) ∧
    (s.yieldsTo = true → s.poolHolds s.task = true →
      exec .tyield s = .next ((s.advance.stopTask s.task.id.tid (.stopped 5)).poolTask s.advance.task).settle) ∧
    (s.yieldsTo = false ∨ s.poolHolds s.task = false → exec .tyield s = .next s.advance) ∧
    (let a := s.x r1
     let bad (c : Nat) : Prop := exec (.tspawn r1) s = .next (s.takeFault { cause := c })
     (a.toNat % 128 ≠ 0 → exec (.tspawn r1) s = .next (s.takeFault { cause := 0x03, addr := some a })) ∧
     (a.toNat % 128 = 0 → s.task.spawned = true ∨ 4096 ≤ s.task.spawnCount → bad 0x08) ∧
     (a.toNat % 128 = 0 → s.task.spawned = false → s.task.spawnCount < 4096 → ∀ t, s.locateRead a 128 = .error t →
      exec (.tspawn r1) s = .next (s.takeFault t)) ∧
     (a.toNat % 128 = 0 → s.task.spawned = false → s.task.spawnCount < 4096 → s.Plain → ∀ p, s.locateRead a 128 = .ok p →
      let d : BitVec 1024 := BitVec.ofNat 1024 (leVal ((List.range 128).map (fun j => s.readPlain p.km (p.key + j))))
      (∀ t, s.readRecords (d.extractLsb' 128 64) (fieldN d 8 8) = .error t → exec (.tspawn r1) s = .next (s.takeFault t)) ∧
      (∀ ops, s.readRecords (d.extractLsb' 128 64) (fieldN d 8 8) = .ok ops →
        (descOk d = false ∨ 5 ≤ fieldN d 0 8 ∨ fieldN d 16 8 ≠ 0 ∨ (∃ r ∈ ops, recordOk r = false) → bad 0x08) ∧
        (descOk d = true → fieldN d 0 8 ≤ 4 → fieldN d 16 8 = 0 → (∀ r ∈ ops, recordOk r = true) →
          (s.effStrips s.task.id.ctx s.task.id.region < fieldN d 32 8 → bad 0x0C) ∧
          (fieldN d 32 8 ≤ s.effStrips s.task.id.ctx s.task.id.region →
            let child : Node := { newNode (0x80000000 + s.task.id.node * 4096 + s.task.spawnCount) d ops [] with
                                  it := s.task.id.it, spawner := some s.task.id.node }
            exec (.tspawn r1) s = .next ({ s with
              graphs := mapIf (fun (g : Graph) => g.gid == s.task.id.gid) (fun g => { g with nodes := g.nodes ++ [child] }) s.graphs
              task := { s.task with spawnCount := s.task.spawnCount + 1 } } : State).advance)))))) ∧
  (∀ (s : State) (r1 rd : BitVec 5), s.AtEither →
    let v := s.x r1
    (fieldN v 16 48 ≠ 0 → exec (.tinfo rd r1) s = .next (s.takeFault { cause := 0x08 })) ∧
    (fieldN v 16 48 = 0 → fieldN v 0 12 % 8 ≠ 0 → exec (.tinfo rd r1) s = .next (s.takeFault { cause := 0x03 })) ∧
    (fieldN v 16 48 = 0 → fieldN v 0 12 % 8 = 0 →
      (∀ d, s.info (fieldN v 12 4) (fieldN v 0 12) = some d → exec (.tinfo rd r1) s = .next (s.setX rd (BitVec.ofNat 64 d)).advance) ∧
      (s.info (fieldN v 12 4) (fieldN v 0 12) = none → exec (.tinfo rd r1) s = .next (s.takeFault { cause := 0x08 })))) ∧
  (∀ (s : State) (q : Nat) (v : BitVec 64) (x : Queue), s.queue q = some x →
    let does (i : Instr) (status : Nat) (f : Queue → Queue) : Prop :=
      (x.enabled = true → x.status = status → exec i s = .next ((s.modQueue q f).settleQueue q).settle) ∧
      (x.enabled = false ∨ x.status ≠ status → exec i s = .next s)
    (x.enabled = false → exec (.wridx q v) s = .next s) ∧
    (x.enabled = true → x.wrsnap ≤ v.toNat → v.toNat ≤ x.rdidx + 2 ^ x.lsize →
      exec (.wridx q v) s = .next ((s.modQueue q (fun x => { x with wrsnap := v.toNat })).syncQueue q)) ∧
    (x.enabled = true → v.toNat < x.wrsnap ∨ x.rdidx + 2 ^ x.lsize < v.toNat → exec (.wridx q v) s = .next (s.queueError q 0x08 v.toNat 0 false)) ∧
    does (.qctlSkip q) 2 (fun x => { (if x.errUnstarted then x.passed else x) with status := 1, errUnstarted := false }) ∧
    does (.qctlDiscard q) 2 (fun x => { x with rdidx := x.wrsnap, inBuffer := none, status := 1, errUnstarted := false, waiting := none }) ∧
    does (.qctlStop q) 1 (fun x => { x with status := 0 }) ∧ does (.qctlResume q) 0 (fun x => { x with status := 1 }))

/-- R41 to R57, R66, R418: every check of every kind in its order, each with its code; that a root which can no longer be read stops the queue is
R36. `startPacket` puts the packet in flight and moves its queue past it; `launch` makes the graph (R56, R62); after an effect the queue settles
its completions and the dealers run. That no alignment is asked beside a size that is neither 4 nor 8 is the model's choice (log 34). -/
def Obligations.Packets : Prop :=
  (∀ (s : State) (q : Nat) (p : BitVec 512) (x : Queue), s.queue q = some x →
    let u := s.startPacket q x p
    let a : Word := p.extractLsb' 64 64
    let a2 : Word := p.extractLsb' 128 64
    let ends (i : Instr) (t : State) : Prop := exec i s = .next (t.settleQueue q).settle
    let fails (i : Instr) (code : Nat) : Prop := exec i s = .next (s.packetError q p code)
    let ok (b : Word) (align n : Nat) (acc : Access) : Prop := s.addressOk x b align n acc = true
    let root (r : Word) : Option Nat := if r = x.root then none else some 0x03
    let inTree (r : Word) : Prop := s.inQueueTree x r = true
    let opened (r : Word) : Prop := s.closing x.ctx r = false
    let sized (n : Nat) : Prop := n = 4 ∨ n = 8
    let size (n : Nat) : Nat := if n = 4 ∨ n = 8 then n else 1
    let clean (used : List (Nat × Nat)) : Prop × Option Nat := (packetClean p used = true, some 0x02)
    let checks (i : Instr) (cs : List (Prop × Option Nat)) (rest : Prop) : Prop := s.Decides (exec i s) q p cs rest
    let launches (i : Instr) (single : Bool) (count : Nat) (used : List (Nat × Nat)) : Prop :=
      checks i [clean used, (ok a 256 128 .read, root a), (ok a2 128 128 .read, some 0x03), (1 ≤ count ∧ count ≤ 65535, some 0x04),
          (p.extractLsb' 256 64 = 0 ∨ ok (p.extractLsb' 256 64) 16 16 .write, some 0x03), (inTree a, some 0x05), (opened a, some 0x09)]
        (let r := s.recallLaunch x.ctx a2 count single
         let bad (code : Nat) : Prop := exec i s = .next (r.packetError q p code)
         (∀ code, r.readGraph x.ctx a2 count single = .error code → bad code) ∧
         (∀ ns, r.readGraph x.ctx a2 count single = .ok ns →
          ((∃ n ∈ ns, n.kind ≤ 2 ∧ r.effStrips x.ctx a < n.smin) → bad 0x0A) ∧
          ((∀ n ∈ ns, n.kind ≤ 2 → n.smin ≤ r.effStrips x.ctx a) →
            let ds := r.candidates x.ctx a
            (ds = [] → bad 0x0C) ∧
            (ds ≠ [] → r.port0.duty.getLsbD 1 = false →
              ends i ((r.startPacket q x p).launch x r.nextPid a single ns (r.chooseDie ds))) ∧
            (ds ≠ [] → r.port0.duty.getLsbD 1 = true → exec i s =
              .next ((r.modQueue q (fun x => { x with waiting := some r.port0.nextTag })).postRequest 2 0xFF x.ctx (.place q (r.packetIndex x) p)
                (BitVec.ofNat 896 (leVal (layBytes [(q, 2), (0, 6), (r.packetIndex x, 8), (a.toNat, 8), (sumBy (fun l => 2 ^ l) ds, 1)]))))))))
    launches (.launchGraph q p) false (fieldN p 192 32) [(0x08, 20), (0x20, 16)] ∧
    launches (.launchNode q p) true 1 [(0x08, 16), (0x20, 16)] ∧
    checks (.waitValue q p) [clean [(0x08, 26), (0x24, 4)], (ok a (size (fieldN p 264 8)) (size (fieldN p 264 8)) .read, some 0x03),
      (fieldN p 256 8 < 4, some 0x04), (sized (fieldN p 264 8), some 0x04)] (ends (.waitValue q p) u) ∧
    checks (.writeValue q p) [clean [(0x08, 17)], (ok a (size (fieldN p 192 8)) (size (fieldN p 192 8)) .write, some 0x03),
        (sized (fieldN p 192 8), some 0x04)]
      (∀ pl, u.translate x.ctx none a (fieldN p 192 8) .write = .ok pl →
        ends (.writeValue q p) ((u.agentWrite pl.km pl.key (bytesOf (fieldN p 128 64) (fieldN p 192 8))).completePacket s.nextPid)) ∧
    checks (.fencePacket q p) [clean [(0x08, 1), (0x10, 8)], (3 ≤ fieldN p 64 8 ∧ fieldN p 64 8 ≤ 5, some 0x04)] (ends (.fencePacket q p) u) ∧
    (∀ buf, x.inBuffer = some buf → fails (.indirect q p) 0x07) ∧
    (x.inBuffer = none →
      checks (.indirect q p) [clean [(0x08, 12)], (ok a 64 64 .read, some 0x03), (1 ≤ fieldN p 128 32 ∧ fieldN p 128 32 ≤ 16384, some 0x04)]
        (ends (.indirect q p) (u.modQueue q (fun x => { x with inBuffer := some (s.nextPid, a, 0, fieldN p 128 32) })))) ∧
    fails (.unknownKindPacket q p) 0x01 ∧
    checks (.setSeed q p) [clean [(0x08, 16)], (ok a 256 128 .read, root a), (inTree a, some 0x05), (opened a, some 0x09)]
      (let rs := mapIf (fun (r : Region) => r.ctx == x.ctx && r.addr == a) (fun r => { r with rcb := setField (setField r.rcb 256 a2) 70 (1#1) }) u.regions
       let seeded : State := { u with regions := rs }
       ends (.setSeed q p) (((seeded.writeRcb x.ctx (a + 8) (bytesOf (((seeded.region x.ctx a).map (fun r => fieldN r.rcb 64 16)).getD 0) 2)).writeRcb
         x.ctx (a + 0x20) (bytesOf a2.toNat 8)).completePacket s.nextPid)) ∧
    checks (.regionDestroy q p) [clean [(0x08, 8)], (ok a 256 128 .read, root a), (inTree a, some 0x05),
        (∃ r, s.region x.ctx a = some r ∧ r.root = false, some 0x05), (opened a, some 0x09)]
      (let rs := u.regions.map (fun r => if r.ctx == x.ctx && u.inSubtree x.ctx a r.addr then { r with closed := true } else r)
       ends (.regionDestroy q p) { u with regions := rs }) ∧
    (let up := if a = 0 then x.root else a
     checks (.regionCreate q p) [clean [(0x08, 16)], (ok up 256 128 .read, root up), (ok a2 256 128 .read, root a2), (inTree up, some 0x05),
         (s.region x.ctx a2 = none, some 0x05)]
       (let c := s.recallAt x.ctx a2 128
        c.Decides (exec (.regionCreate q p) s) q p
          [(∃ r b, c.region x.ctx up = some r ∧ c.readRcb x.ctx a2 = some b ∧ c.regionOk r a2 b = true, some 0x05),
           (c.closing x.ctx up = false, some 0x09)]
          (let v := c.startPacket q x p
           ∀ r b, v.region x.ctx up = some r → v.readRcb x.ctx a2 = some b →
             ends (.regionCreate q p) ((({ v with regions := v.regions ++ [newRegion x.ctx a2 r.addr (r.depth + 1) false b] } : State).writeRcb
               x.ctx a2 (bytesOf r.addr.toNat 8)).completePacket c.nextPid))))) ∧
  (∀ (s : State) (k : Nat) (p : Packet), s.packets.find? (fun p => p.pid == k) = some p →
    (p.kind = 3 → s.waitHolds p = true → exec (.waitValueMet k) s = .next ((s.waitRead p).completePacket k).settle ∧
      exec (.waitValueTimeout k) s = .next (s.waitRead p)) ∧
    (p.kind = 3 → s.waitHolds p = false → exec (.waitValueMet k) s = .next (s.waitRead p) ∧
      (s.waitExpired p = false → exec (.waitValueTimeout k) s = .next (s.waitRead p)) ∧
      (s.waitExpired p = true → exec (.waitValueTimeout k) s =
        .next (((s.waitRead p).completePacket k).queueError p.q 0x0B p.index p.tag false).settle)) ∧
    (∀ x, p.kind = 8 → s.queue p.q = some x →
      let a : Word := p.bytes.extractLsb' 64 64
      let kept := s.regions.filter (fun r => !(r.ctx == x.ctx && s.inSubtree x.ctx a r.addr))
      (s.subtreeBusy x.ctx a = false → exec (.regionDestroyComplete k) s = .next (({ s with regions := kept } : State).completePacket k).settle) ∧
      (s.subtreeBusy x.ctx a = true → exec (.regionDestroyComplete k) s = .next s)))

/-- R58, R59, R89, R245, R335, R357, R417; R66 for the answer that a wait stands still for, R358 for the record that the host is asked with. That a halted domain keeps COND and unbegun LOOP nodes
from evaluation, and that a begun LOOP goes on, is the model's reading of R336, which speaks of dispatch (log 25). -/
def Obligations.NodeAndPageEvents : Prop :=
  (∀ (s : State) (gid i : Nat) (g : Graph) (n : Node), s.graph gid = some g → s.node gid i = some n →
    (s.mayPreempt g n = true → exec (.preempt gid i) s = .next (s.preemptFor (s.wantOf g n))) ∧
    (s.mayPreempt g n = false → exec (.preempt gid i) s = .next s) ∧
    (n.kind ≠ 5 ∨ n.status ≠ .ready ∨ s.halted g.ctx g.region = true → exec (.condEval gid i) s = .next s) ∧
    (n.kind ≠ 6 ∨ n.status ≠ .ready ∨ (n.loops = 0 ∧ s.halted g.ctx g.region = true) → exec (.loopEval gid i) s = .next s) ∧
    let who : Nat × Nat × Nat := (0, g.gid, n.index)
    let go := n.status = .ready ∧ ((n.kind = 6 ∧ n.loops ≠ 0) ∨ s.halted g.ctx g.region = false)
    let u := s.endWait who
    let both (t : State) : Prop := (n.kind = 5 → exec (.condEval gid i) s = .next t) ∧ (n.kind = 6 → exec (.loopEval gid i) s = .next t)
    (go → s.pageAsked who = true → both s) ∧
    (go → s.pageAsked who = false → ∀ tr, s.translate g.ctx (s.physDie g.die) n.code 8 .read = .error tr →
      (s.pageComes who g.ctx tr = true → both (s.askPage who g.ctx ((s.physDie g.die).getD 0) g.gid n.code
        (nodeRecord 0x10 (s.effFdom g.ctx g.region) n.index g.region 0 0x05 n.code tr.info.toNat))) ∧
      (s.pageComes who g.ctx tr = false → both ((u.faultNode g.gid n.index 0x10 0 tr.cause n.code tr.info.toNat).settle))) ∧
    (go → s.pageAsked who = false → ∀ p, s.translate g.ctx (s.physDie g.die) n.code 8 .read = .ok p →
      let v := leVal (s.peekBytes p.km p.key 8)
      let u1 := u.recallForRead p.key 8
      let holds := (n.cop = 0 ∧ v = n.cval) ∨ (n.cop = 1 ∧ v ≠ n.cval) ∨ (n.cop = 2 ∧ n.cval ≤ v) ∨ (3 ≤ n.cop ∧ v < n.cval)
      (s.poisoned p.key 8 = false →
        (n.kind = 5 → holds → exec (.condEval gid i) s = .next (u1.condBranch g n true).settle) ∧
        (n.kind = 5 → ¬holds → exec (.condEval gid i) s = .next (u1.condBranch g n false).settle) ∧
        (n.kind = 6 → v ≠ 0 → n.loops < n.maxit → exec (.loopEval gid i) s = .next (u1.rearm g n).settle) ∧
        (n.kind = 6 → v = 0 ∨ n.maxit ≤ n.loops → exec (.loopEval gid i) s = .next (u1.retire gid i .retired).settle)) ∧
      (s.poisoned p.key 8 = true →
        both ((u.logMemory 3 p.key g.region n.index).faultNode g.gid n.index 0x10 0 0x0E n.code 0).settle))) ∧
  (∀ (s : State) (who : Nat × Nat × Nat) (ctx die gid : Nat) (va : Word) (r : BitVec 512),
    let w : PageWait := { who := who, ctx := ctx, page := va.toNat / 4096, refused := false }
    let u := ({ s with pageWaits := s.pageWaits.filter (fun o => o.who != who || o.refused) } : State).countMeld gid r
    (s.pageAsked who = true ∨ w ∈ s.pageWaits → s.askPage who ctx die gid va r = s) ∧
    (s.pageAsked who = false → w ∉ s.pageWaits →
      (s.port0.duty.getLsbD 2 = true →
        s.askPage who ctx die gid va r = u.postRequest 3 die ctx (.page who ctx (4096 * w.page)) (r.setWidth 896)) ∧
      (s.port0.duty.getLsbD 2 = false → s.askPage who ctx die gid va r = { u with pageWaits := w :: u.pageWaits }))) ∧
  (∀ (s : State) (ctx : BitVec 32) (va dw0 dw1 : BitVec 64) (c : Context), s.context ctx.toNat = some c →
    (dw0.getLsbD 0 = false → exec (.pageArrived ctx va dw0 dw1) s = .next (s.refusePage ctx.toNat (va.toNat / 4096))) ∧
    (dw0.getLsbD 0 = true → ∀ a, s.absentEntry va.toNat 3 c.ptroot = some a →
      let t := s.agentWrite none (memKey 0 a) (bytesOf (dw0.toNat + 2 ^ 64 * dw1.toNat) 16)
      exec (.pageArrived ctx va dw0 dw1) s = .next (t.wake ctx.toNat (t.mapped ctx.toNat)).settle) ∧
    (dw0.getLsbD 0 = true → s.absentEntry va.toNat 3 c.ptroot = none →
      exec (.pageArrived ctx va dw0 dw1) s = .next (s.wake ctx.toNat (s.mapped ctx.toNat)).settle)) ∧
  (∀ (s : State) (tid : Nat) (t : Task), s.findTask tid = some t →
    let u := (s.onStage tid).enterBlock
    (s.waitDue t = true → exec (.waitWatchdog tid) s =
      .next (({ u with cur := u.task.standing } : State).takeFault { cause := 0x0D, info := 1 })) ∧
    (s.waitDue t = false → exec (.waitWatchdog tid) s = .next s) ∧
    (s.runDue t = true → exec (.runWatchdog tid) s = .next (({ u with cur := .control } : State).takeFault { cause := 0x0D, info := 2 })) ∧
    (s.runDue t = false → exec (.runWatchdog tid) s = .next s) ∧
    (s.splitDue t = true → ∀ b sp, u.task.block = some b → u.task.split = some sp → exec (.splitWatchdog tid) s =
      .next (({ u with cur := .vector } : State).takeFault { cause := 0x0D, info := 3, inBlock := some (b.addr, sp.at_) })) ∧
    (s.splitDue t = false → exec (.splitWatchdog tid) s = .next s)) ∧
  (∀ (s : State) (t : Task),
    (∀ a b, t.heldSince a b = b - a - ((t.away.filter (fun p => decide (a ≤ p.1))).map (fun p => p.2 - p.1)).sum) ∧
    (s.waitDue t = true ↔ t.status = .running ∧ (s.limitsOf t t.progressAt).wait ≤ t.heldSince t.progressAt s.micros * 1000) ∧
    (s.splitDue t = true ↔ t.status = .running ∧ ∃ sp, t.split = some sp ∧
      (s.limitsOf t sp.since).split ≤ t.heldSince sp.since s.micros * 1000) ∧
    (s.runDue t = true ↔ t.status = .running ∧ (s.limitsOf t t.startAt).run ≠ 0 ∧ (s.limitsOf t t.startAt).run ≤ (t.runTime + (s.micros - t.runSince)) * 1000))

/-- R351 to R355, R380, R384, R386, R387. A granule struck is poisoned, also where a stash line holds a store that had covered it: that the line's
record of what its stores have cleared loses the granule is the model's choice, and so are the loc values that R355 leaves open, a pool entry's
node index, a meld slot's number, a port's number, and 0 for the dealer's other state (log 22). -/
def Obligations.PartEvents : Prop :=
  let struck (a : Nat) (s : State) : State :=
    { s.addPoison [memKey 0 a / 64] with stash := s.stash.map (fun l => { l with cleared := l.cleared.filter (· != memKey 0 a / 64) }) }
  (∀ (s : State) (a d : Nat), a < 8 * 0x40000000 → s.homeDie a = some d →
    exec (.patrolScrub a .clean) s = .next s ∧ exec (.patrolScrub a .corrected) s = .next (s.logError 1 5 d 0xFF a) ∧
    exec (.patrolScrub a .uncorrectable) s = .next ((struck a s).logError 2 5 d 0xFF a) ∧
    s.storageError (.cached a) true = s.logError 1 3 d 0xFF (a / 64 * 64) ∧ s.storageError (.cached a) false = struck a s) ∧
  (∀ (s : State) (a : Nat) (f : ScrubResult), 8 * 0x40000000 ≤ a → exec (.patrolScrub a f) s = .next s) ∧
  (∀ (s : State) (line g n d k : Nat) (path : FlitPath),
    exec (.uncontainedError (.directoryLine line)) s =
      .next ((struck (128 * line + 64) (struck (128 * line) s)).logError 4 4 ((s.homeDie (128 * line)).getD 0xFF) 0xFF (128 * line)) ∧
    exec (.uncontainedError (.poolEntry g n)) s = .next ((s.modNode g n (fun x => { x with poisoned := true })).logError 4 8
      (s.graphDie g) 0xFF n (((s.graph g).map (·.region)).getD 0) n) ∧
    exec (.uncontainedError (.meldSlot d k)) s = .next ((s.modDie d (fun x =>
      { x with melds := mapIf (fun (m : Meld) => m.slot == k) (fun m => { m with poisoned := true }) x.melds })).logError 4 8 d 0xFF k) ∧
    exec (.uncontainedError (.path path)) s = .next (s.failPath path) ∧
    (∀ site, exec (.uncontainedError site) s = .next (s.storageError (.entry site) false)) ∧
    s.storageError (.entry (.directoryLine line)) true = s.logError 1 4 ((s.homeDie (128 * line)).getD 0xFF) 0xFF (128 * line) ∧
    s.storageError (.entry (.poolEntry g n)) true = s.logError 1 8 (s.graphDie g) 0xFF n (((s.graph g).map (·.region)).getD 0) n ∧
    s.storageError (.entry (.meldSlot d k)) true = s.logError 1 8 d 0xFF k ∧
    s.storageError (.dealer d) true = s.logError 1 8 d 0xFF 0 ∧ s.storageError (.dealer d) false = s.logError 4 8 d 0xFF 0) ∧
  (∀ (s : State) (path : FlitPath) (quality : FlitQuality),
    (s.carries path = false → exec (.flitReceive path quality) s = .next s ∧ exec (.linkFailed path) s = .next s) ∧
    (s.carries path = true → exec (.linkFailed path) s = .next (s.failPath path) ∧
      ∀ (u : State) (q : FlitQuality), s.injectFlit path quality = (u, q) →
      (q = .good → exec (.flitReceive path quality) s = .next (u.setReplays path 0)) ∧
      (q = .corrected → exec (.flitReceive path quality) s = .next ((u.setReplays path 0).logPath 1 path)) ∧
      (q = .crcFailed → u.replays path < 7 → exec (.flitReceive path quality) s = .next (u.setReplays path (u.replays path + 1))) ∧
      (q = .crcFailed → 7 ≤ u.replays path → exec (.flitReceive path quality) s = .next (u.failPath path)))) ∧
  (∀ (s : State) (n : Nat) (a : BitVec 16),
    let port (f : Port → Port) : State := { s with ports := s.ports.mapIdx (fun i p => if i = n then f p else p) }
    exec (.portTrainingLost n) s = .next (port (fun p => { p with trained := false, replays := 0 })) ∧
    exec (.portTrained n) s = .next (port (fun p => { p with trained := true })) ∧
    exec (.fabricAddressAssigned a) s = .next { s with fabric := a }) ∧
  (∀ (s : State) (kind : Nat) (i : Item), s.port0.items.find? (fun i => !i.posted && i.kind == kind) = some i →
    (s.port0.srq.hasRoom = true → exec (.serviceRequest kind) s = .next (s.postItem i)) ∧
    (s.port0.srq.hasRoom = false → exec (.serviceRequest kind) s = .next s)) ∧
  (∀ (s : State) (kind : Nat), s.port0.items.find? (fun i => !i.posted && i.kind == kind) = none → exec (.serviceRequest kind) s = .next s) ∧
  (∀ (s : State) (n : Nat),
    s.failPath (.port n) = ({ s with ports := s.ports.mapIdx (fun i p => if i = n then { p with failed := true, replays := 0 } else p) } : State).logError
      4 7 0xFF 0xFF n)

/-- R335, R339, R343, R381. What an export or import does at its edges is the model's own (log 30). -/
def Obligations.TrapAnswers : Prop :=
  (∀ (s : State) (e : BitVec 1024),
    (s.heldTask e = none → exec (.resume e) s = .next s ∧ exec (.endTask e) s = .next s ∧ exec (.exportImage e) s = .next s) ∧
    (∀ t c, s.heldTask e = some (t, c) →
      t ∈ s.tasks ∧ t.status = .held c ∧ t.id.ctx = fieldN e 32 32 ∧ s.effFdom t.id.ctx t.id.region = fieldN e 64 16 ∧
        t.fseq = fieldN e 128 64 + 1 ∧
      exec (.resume e) s = .next (s.resumeHeld t) ∧ exec (.endTask e) s = .next (s.endTask t).settle ∧
      let v := s.recallImage t
      (∀ img, v.savedImage t = some img → (∀ w ∈ v.hostRejects, ¬(w.1 < fieldN e 192 64 + img.length ∧ fieldN e 192 64 < w.1 + w.2)) →
        fieldN e 192 64 + img.length ≤ 2 ^ 52 →
        exec (.exportImage e) s = .next ((v.writeHost (fieldN e 192 64) img).endTask t).settle) ∧
      (v.savedImage t = none → exec (.exportImage e) s = .next (v.reject 1 (v.port0.cmd.rd - 1)))) ∧
    (s.haltedEntry e = none → exec (.releaseDomain e) s = .next s ∧ exec (.abortDomain e) s = .next s) ∧
    (∀ c k, s.haltedEntry e = some (c, k) →
      exec (.releaseDomain e) s = .next (s.liftHalt c.id k).settle ∧
      exec (.abortDomain e) s = .next (((s.graphs.filter (fun g => g.live && g.ctx == c.id && c.entry (s.effFdom c.id g.region) == k)).foldl
        (fun s g => s.abortGraph g.gid) s).liftHalt c.id k).settle)) ∧
  (∀ (s : State) (e : BitVec 1024),
    let tag := fieldN e 32 32
    let val := fieldN e 64 64
    (s.port0.items.find? (fun i => i.posted && i.tag == tag) = none → exec (.answer e) s = .next (s.reject 4 (s.port0.cmd.rd - 1))) ∧
    (∀ i, s.port0.items.find? (fun i => i.posted && i.tag == tag) = some i →
      let u : State := { s with port0 := { s.port0 with items := s.port0.items.filter (fun o => o.tag != i.tag) } }
      (∀ r, i.req = .triage r → exec (.answer e) s = .next (u.fileError r)) ∧
      (∀ tid r, i.req = .fltsvc tid r → exec (.answer e) s = .next (u.answerFault tid r (val == 1))) ∧
      (∀ tid r t, i.req = .fltsvc tid r → u.findTask tid = some t →
        (t.status = .waitPage r ∨ t.servicing = some r →
          (val = 1 → exec (.answer e) s = .next (u.wakeTask t).settle) ∧
          (val ≠ 1 → exec (.answer e) s = .next (u.deliverFault t (fieldN r 0 8) (r ||| 4#512 <<< 448)))) ∧
        (t.status ≠ .waitPage r → t.servicing ≠ some r → exec (.answer e) s = .next u)) ∧
      (∀ who ctx va, i.req = .page who ctx va → (val = 1 → exec (.answer e) s = .next u) ∧
        (val ≠ 1 → exec (.answer e) s =
          .next { u with pageWaits := { who := who, ctx := ctx, page := va / 4096, refused := true } :: u.pageWaits })) ∧
      (∀ w gid p c, i.req = .splice w gid p c → exec (.answer e) s = .next (u.answerPair gid p c (val == 1))) ∧
      (∀ gid n w, i.req = .ctrovl gid n w → exec (.answer e) s = .next (u.answerOverlap gid n (val == 1))))) ∧
  (∀ (s : State) (e : BitVec 1024) (c : Context) (r : Region) (img : List Byte),
    s.context (fieldN e 32 32) = some c → s.region (fieldN e 32 32) (e.extractLsb' 64 64) = some r → s.readImage (fieldN e 128 64) = some img →
    let v := s.recallRaw (fieldN e 128 64) img.length
    (imageShapeOk img = true → v.candidates c.id (e.extractLsb' 64 64) ≠ [] →
      ∀ o, poolOffset c.psize img.length (s.poolTaken c.id s.nextTid) = some o → v.poolPages c (c.pool.toNat + o) img.length = true →
      let g := v.importGraph c (e.extractLsb' 64 64) img
      let t := { v.imageTask c g.gid (e.extractLsb' 64 64) img with image := some (o, img.length) }
      let u := v.writePool c (img.length / 4096 + 2) (c.pool.toNat + o) img
      exec (.importImage e) s = .next { u with graphs := u.graphs ++ [g], nextGid := u.nextGid + 1, parked := u.parked ++ [t],
                                               nextTid := u.nextTid + 1, nextSegment := u.nextSegment + 1 }) ∧
    (poolOffset c.psize img.length (s.poolTaken c.id s.nextTid) = none → exec (.importImage e) s = .next (s.reject 1 (s.port0.cmd.rd - 1))) ∧
    (imageShapeOk img = false → ∀ o, poolOffset c.psize img.length (s.poolTaken c.id s.nextTid) = some o →
      exec (.importImage e) s = .next (v.reject 1 (v.port0.cmd.rd - 1))))

/-- R368 to R372. The steps of an action are those that R369 and R370 list; `continueActions` takes them until the action waits or ends. That it
waits for engine commands as for tasks, and that LINK_UP clears the mark of a failed link, are the model's readings (log 32). -/
def Obligations.ServiceActions : Prop :=
  (∀ (s : State) (e : BitVec 1024),
    let a : Action := { cmd := e, step := 1, deadline := 0, asked := false, approved := false }
    let queued (i : Instr) : Prop := exec i s = .next ({ s with actionQueue := s.actionQueue ++ [a] } : State).continueActions
    queued (.removeSection e) ∧ queued (.moveSections e) ∧ queued (.linkDown e) ∧ queued (.linkUp e) ∧ queued (.firmwareUpdate e)) ∧
  (∀ (s : State) (a : Action) (l : Link), s.logicalLink (fieldN a.cmd 64 16) = some l →
    let link (f : Link → Link) : State :=
      { s with links := s.links.mapIdx (fun i k => if i = l.phys then f k else k), epoch := s.epoch + 2 }
    (a.code = 3 → s.actionStep a 1 = .done (link (fun k => { k with state := 1, replays := 0 }))) ∧
    (a.code = 4 → s.actionStep a 1 = .done (link (fun k => { k with state := 0, failed := false, replays := 0 })))) ∧
  (∀ (s : State) (a : Action) (x : Sect), s.sect (fieldN a.cmd 64 16) = some x → a.code = 1 →
    s.actionStep a 1 = .more (s.closeSections a) ∧ (s.actionTasks a = [] → s.actionEngines a = false → s.actionStep a 2 = .more s) ∧
    s.actionStep a 3 = .more (s.flushLines (fun l => l.section_ == fieldN a.cmd 64 16)) ∧
    ∃ t, s.actionStep a 4 = .done t ∧ t.epoch = s.epoch + 2 ∧ (t.sect (fieldN a.cmd 64 16)).map (·.offline) = some true) ∧
  (∀ (s : State) (a : Action), a.code = 2 →
    s.actionStep a 1 = .more (s.closeSections a) ∧ (s.actionTasks a = [] → s.actionEngines a = false → s.actionStep a 2 = .more s) ∧
    ∃ t, s.actionStep a 3 = .done t ∧ t.epoch = s.epoch + 2 ∧
      ∀ n, n < 128 → (fieldN a.cmd (192 + n) 1 = 1) → ∀ x, t.sect n = some x → x.part = some (fieldN a.cmd 88 8)) ∧
  (∀ (s : State),
    let late := ∃ a, s.action = some a ∧ a.code ≤ 2 ∧ a.step = 2 ∧ a.approved = true ∧ a.deadline ≤ s.micros ∧
      (s.actionEngines a = true ∨ ∃ t ∈ s.actionTasks a, s.movable t = false)
    let status := if (s.action.map (fun a => fieldN a.cmd 96 32)).getD 0 = 0 then 1 else 2
    (late → exec .serviceActionTimeout s = .next (s.endAction status).continueActions) ∧ (¬late → exec .serviceActionTimeout s = .next s)) ∧
  (∀ (s : State) (a : Action), a.code = 1 ∨ a.code = 2 → fieldN a.cmd 96 32 = 0 →
    (s.actionEngines a = true ∨ ∃ t ∈ s.actionTasks a, s.movable t = false) → s.actionStep a 2 = .refused) ∧
  (∀ (s : State) (t : Task), s.movable t = true ↔
    t.status = .running ∧ s.isMigratable t.id.ctx t.id.region = true ∧ s.poolHolds t = true) ∧
  (∀ (s : State) (k : Nat), (s.switching k = true ↔
    ∃ a, s.action = some a ∧ a.code = 5 ∧ a.target = k ∧ a.step = 2 ∧ a.approved = true) ∧
    (s.switching k = false ∨ s.boot.updates.find? (fun u => u.1 == k) = none → exec (.firmwareSwitchComplete k) s = .next s)) ∧
  (∀ (s : State) (k j : Nat) (i : Image), s.switching k = true → s.boot.updates.find? (fun u => u.1 == k) = some (j, i) →
    ∃ b : Boot, exec (.firmwareSwitchComplete k) s = .next ({ s with boot := b } : State).continueActions ∧
      b.measured = (s.boot.measure i).measured ∧ b.updates = s.boot.updates.filter (fun u => u.1 != k) ∧
      (i.kind < 4 → b.fused[i.kind]? = some (max i.svn ((s.boot.fused[i.kind]?).getD 0))) ∧
      b.flash = mapIf (fun (o : Image) => o.kind == i.kind) (fun _ => i) s.boot.flash)

/-- R36, R381 to R383. `contextOk` and `enableOk` are the checks of R383 and R36; a translation is walked at every access (log 12). That a change
of limits completes as a new µs begins is the model's own (log 6): counts that began before it keep the old ones. -/
def Obligations.HostCommands : Prop :=
  (∀ (s : State) (e : BitVec 1024),
    let k := fieldN e 32 32
    let code := fieldN e 8 8
    let status (t : State) (v : Nat) : State := t.actionStatus (0x80 + fieldN e 0 8) v (fieldN e 448 32)
    let command (i : Instr) (ok : Prop) (t : State) : Prop :=
      (ok → exec i s = .next (status t 0)) ∧ (¬ok → exec i s = .next (status s 1))
    let bound := s.recallBind (fieldN e 64 64)
    let told := s.recallEnable k
    let limits : Limits := { preempt := fieldN e 512 64, wait := fieldN e 576 64, run := fieldN e 640 64, split := fieldN e 704 64 }
    command (.setKey e) (cmdClean e [(0x04, 4), (0x40, 64)] = true ∧ 1 ≤ k ∧ k ≤ 4095)
      { s with keys := (k, e.extractLsb' 512 512) :: s.keys.filter (fun o => o.1 != k) } ∧
    command (.unbindContext e) (cmdClean e [(0x04, 4)] = true ∧ (s.context k).isSome = true ∧ s.contextIdle k = true) (s.dropContext k) ∧
    command (.invalidateTranslations e) (cmdClean e [(0x01, 1), (0x04, 4), (0x08, 8), (0x10, 8)] = true ∧ (s.context k).isSome = true ∧
      (code = 0 ∨ (code = 1 ∧ fieldN e 64 64 % 4096 = 0 ∧ e.extractLsb' 128 64 ≠ 0 ∧ fieldN e 128 64 % 4096 = 0))) s ∧
    command (.partitionLimits e) (cmdClean e [(0x04, 4), (0x40, 32)] = true ∧ k < 8 ∧ limits.inRange = true)
      { s with ticks := (s.micros + 1) * 100, limits := s.limits.mapIdx (fun i l => if i = k then (s.micros + 1, limits) :: l else l) } ∧
    command (.setEngineImage e) (cmdClean e [(0x01, 1), (0x04, 4), (0x08, 8), (0x10, 8)] = true ∧ (code = 1 ∨ code = 2) ∧
        (s.context k).isSome = true ∧ 1 ≤ fieldN e 128 64 ∧ fieldN e 128 64 ≤ 65536)
      { s with
        contexts := mapIf (fun (c : Context) => c.id == k) (fun c =>
          if code = 1 then { c with copyImage := some (e.extractLsb' 64 64, fieldN e 128 64) }
          else { c with collImage := some (e.extractLsb' 64 64, fieldN e 128 64) }) s.contexts
        engines := s.engines.filter (fun x => !(x.ctx == k && x.kind == code)) } ∧
    exec (.unlistedCommand e) s = .next (s.reject 1 (s.port0.cmd.rd - 1)) ∧
    (∀ v, fieldN e 64 64 % 128 = 0 → bound.rawRead (fieldN e 64 64) 128 = some v →
      let r : BitVec 1024 := BitVec.ofNat 1024 v
      let ok := cmdClean e [(0x04, 4), (0x08, 8)] = true ∧ k ≠ 0 ∧ bound.context k = none ∧ fieldN r 0 32 = k ∧ bound.contextOk r = true
      let c : Context := { contextOf r with halts := bound.haltingEntries (contextOf r) }
      (ok → exec (.bindContext e) s = .next (status { bound with contexts := bound.contexts ++ [c] } 0)) ∧
      (¬ok → exec (.bindContext e) s = .next (status bound 1))) ∧
    (fieldN e 64 64 % 128 ≠ 0 → exec (.bindContext e) s = .next (status s 1)) ∧
    (let enabled := ∃ x, s.queue k = some x ∧ x.enabled = true
     (cmdClean e [(0x01, 1), (0x04, 4)] = true → enabled → exec (.queueDisable e) s = .next ((s.modQueue k (fun x =>
        { x with enabled := false, draining := true, drainSeq := fieldN e 448 32, status := 0 })).syncQueue k)) ∧
     (cmdClean e [(0x01, 1), (0x04, 4)] = false ∨ ¬enabled → exec (.queueDisable e) s = .next (status s 1))) ∧
    ((cmdClean e [(0x01, 1), (0x04, 4)] = true → code = 1 → k ≤ 4095 → s.queue k = none →
      ∀ v, told.rawRead (told.port0.qtbase + 128 * k) 128 = some v →
      let r : BitVec 1024 := BitVec.ofNat 1024 v
      let x := queueOf k r
      told.enableOk x r = true →
      let linked := ({ told with queues := told.queues ++ [x] } : State).linkRoot x
      ∀ p, linked.translate x.ctx none x.mutAddr 128 .write = .ok p →
        exec (.queueEnable e) s = .next (status ((linked.agentWrite p.km p.key (List.replicate 128 0)).syncQueue k) 0)) ∧
     (cmdClean e [(0x01, 1), (0x04, 4)] = false ∨ code ≠ 1 ∨ 4095 < k ∨ s.queue k ≠ none → exec (.queueEnable e) s = .next (status s 1)))) ∧
  (∀ (q : Nat) (r : BitVec 1024), (queueOf q r).enabled = true ∧ (queueOf q r).status = 1 ∧ (queueOf q r).rdidx = 0 ∧ (queueOf q r).wrsnap = 0 ∧
    (queueOf q r).doneidx = 0 ∧ (queueOf q r).ring = r.extractLsb' 0 64 ∧ (queueOf q r).root = r.extractLsb' 128 64) ∧
  (∀ (s : State) (q : Nat) (x : Queue), s.queue q = some x →
    (x.draining = true → (∀ p ∈ s.packets, p.q ≠ x.q) → exec (.queueDisableComplete q) s =
      .next (({ s with queues := s.queues.filter (fun o => o.q != q) } : State).releaseRoots.actionStatus 0x8A 0 x.drainSeq)) ∧
    (x.draining = false ∨ (∃ p ∈ s.packets, p.q = x.q) → exec (.queueDisableComplete q) s = .next s))

/-- R65, R371, R375 to R378, R385, R394. Which I/O die brings a peer's request is free (log 5). That an access of the host whose home die cannot be
reached is served like one in no range, that peers and CXL.mem are refused before stage 4, and that a CXL.mem access is made under key ID 0, are the
model's readings (log 33); so is that a write over CXL.mem to bytes of a mutable half, which only the device writes (R37), is logged like one through
BAR2 (log 34). -/
def Obligations.OutsideAccesses : Prop :=
  (∀ (s : State) (v : BitVec 64) (ring : RingName) (off n : Nat) (bs : List Byte),
    (s.boot.stage ≠ 4 →
      exec (.dutyWrite v) s = .next s ∧ exec (.ringControlWrite ring v) s = .next s ∧ exec (.qtbaseWrite v) s = .next s ∧
      exec (.portcfgWrite v) s = .next s ∧ exec (.registerWrite .bar0 off n v) s = .next s ∧ exec (.bar2Write off bs) s = .next s ∧
      exec (.bar2Read off n) s = .next { s with port0 := { s.port0 with lastRead := List.replicate n 0xFF, lastRefused := none } }) ∧
    (s.boot.stage = 4 →
      exec (.dutyWrite v) s = .next { s with port0 := { s.port0 with duty := v.setWidth 7 } } ∧
      exec (.registerWrite .bar0 0 8 v) s = exec (.dutyWrite v) s ∧
      exec (.registerWrite .bar0 0xE0 8 v) s = exec (.qtbaseWrite v) s ∧ exec (.registerWrite .bar0 0x200 8 v) s = exec (.portcfgWrite v) s ∧
      exec (.registerWrite .bar0 0x48 8 v) s = exec (.ringControlWrite .event v) s ∧
      exec (.registerWrite .bar0 0x88 8 v) s = exec (.ringControlWrite .request v) s ∧
      exec (.registerWrite .bar0 0xC8 8 v) s = exec (.ringControlWrite .command v) s ∧
      exec (.ringControlWrite ring v) s = .next { s with port0 := s.port0.onRing ring (fun r =>
        if r.en then { r with en := v.getLsbD 0 }
        else { r with en := v.getLsbD 0 && decide (4 ≤ fieldN v 1 5 ∧ fieldN v 1 5 ≤ 16), lsize := fieldN v 1 5, msix := fieldN v 16 11 }) } ∧
      (s.queues = [] → exec (.qtbaseWrite v) s = .next { s with port0 := { s.port0 with qtbase := v.toNat } }) ∧
      (s.queues ≠ [] → exec (.qtbaseWrite v) s = .next s) ∧
      (s.port0.cxl = true → s.contexts = [] → exec (.portcfgWrite v) s = .next { s with port0 := { s.port0 with coh := v.getLsbD 1 } }) ∧
      (s.port0.cxl = false ∨ s.contexts ≠ [] → exec (.portcfgWrite v) s = .next s) ∧
      (∀ (w : BarWindow), s.port0.bar2[off / 2 ^ 32]? = some w → w.en = true →
        let pa := w.pbase * 2 ^ 32 + off % 2 ^ 32
        let km := s.keyMaterial w.keyid
        (s.serves westExits pa n = true → exec (.bar2Read off n) s = .next { s with port0 := { s.port0 with
          lastRead := (List.range n).map (fun i => s.readPlain km (memKey 0 (pa + i))), lastRefused := none } }) ∧
        (s.serves westExits pa bs.length = true → (∀ i, i < bs.length → s.inMutable (memKey 0 (pa + i)) = false) →
          exec (.bar2Write off bs) s = .next ((s.agentWrite km (memKey 0 pa) bs).answer [] none)) ∧
        (s.serves westExits pa n = false → exec (.bar2Read off n) s = .next ((s.reject 2 off).answer (List.replicate n 0xFF) none))) ∧
      ((∀ w, s.port0.bar2[off / 2 ^ 32]? = some w → w.en = false) →
        exec (.bar2Read off n) s = .next ((s.reject 2 off).answer (List.replicate n 0xFF) none) ∧
        exec (.bar2Write off bs) s = .next ((s.reject 2 off).answer [] none))) ∧
    (let vectors := 0x20000 ≤ off ∧ off + n ≤ 0x28000
     (n ≠ 8 ∨ off % 8 ≠ 0) ∨ ¬(off < 0x1000 ∨ (0x12000 ≤ off ∧ off < 0x13000) ∨ (0x100000 ≤ off ∧ off < 0x1100000)) →
      ¬vectors → exec (.registerWrite .bar0 off n v) s = .next s) ∧
    (n ≠ 8 ∨ off % 8 ≠ 0 ∨ off < 0x08 ∨ 0x40 ≤ off → exec (.registerWrite .bar4 off n v) s = .next s)) ∧
  (∀ (s : State) (off k : Nat),
    let returns (bar off n v : Nat) : Prop := s.hostRead bar off n = { s with port0 := { s.port0 with lastRead := bytesOf v n, lastRefused := none } }
    (s.boot.stage ≠ 4 → returns 0 off 8 0) ∧
    (s.boot.stage = 4 → returns 0 0 8 s.port0.duty.toNat ∧ returns 0 0x50 8 s.port0.ev.wr ∧ returns 0 0x90 8 s.port0.srq.wr ∧
      returns 0 0x60 8 s.port0.evlost ∧ returns 0 0xD8 8 s.port0.cmd.rd ∧
      (k < 512 → returns 0 (0x10000 + 8 * k) 8 (leVal ((s.enumTable.drop (8 * k)).take 8))) ∧
      (k < 8 → returns 0 (0x11000 + 0x100 * k) 8 (s.die k).formed.toNat ∧ returns 0 (0x11800 + 16 * k) 8 (s.die k).overlaps.toNat ∧
        returns 0 (0x11808 + 16 * k) 8 (s.die k).strictFaults.toNat) ∧
      returns 0 0x12008 8 s.port0.injOff) ∧
    returns 4 0 8 (s.boot.stage + 2 ^ 4 * s.boot.err + 2 ^ 12 * (if s.boot.busy then 1 else 0)) ∧
    returns 4 0x40 8 (s.boot.junction + 2 ^ 16 * (if s.boot.throttled then 1 else 0) + 2 ^ 17 * (if s.boot.tripped then 1 else 0)) ∧
    (k < 512 → returns 4 (0x1000 + 8 * k) 8 (leVal ((s.boot.mbreport.drop (8 * k)).take 8)))) ∧
  (∀ (s : State) (src : BitVec 16) (a n : Nat) (bs : List Byte),
    let refused (i : Instr) : Prop := exec i s = .next { s with port0 := { s.port0 with lastRead := [], lastRefused := some 0x06 } }
    (s.boot.stage ≠ 4 ∨ (∀ w ∈ s.port0.inbound.toList, w.admits src a (.read n) = false) → refused (.peerInboundRequest src a (.read n))) ∧
    (s.boot.stage ≠ 4 ∨ (∀ w ∈ s.port0.inbound.toList, w.admits src a (.write bs) = false) → refused (.peerInboundRequest src a (.write bs))) ∧
    (s.boot.stage = 4 →
      let from_ := if Config.inboundEast s.freeCtr = true then eastExits else westExits
      let lost (i : Instr) : Prop := ∀ d cause, s.homeDie a = some d → s.exitCause d from_ = some cause →
        exec i s = .next { s with port0 := { s.port0 with lastRead := [], lastRefused := some cause } }
      let whole := ∀ d, s.homeDie a = some d → s.exitCause d from_ = none
      (∀ w, s.port0.inbound.toList.find? (fun w => w.admits src a (.read n)) = some w →
        lost (.peerInboundRequest src a (.read n)) ∧
        (whole → exec (.peerInboundRequest src a (.read n)) s = .next (s.sliceRead from_ w.keyid a n a))) ∧
      (∀ w, s.port0.inbound.toList.find? (fun w => w.admits src a (.write bs)) = some w →
        lost (.peerInboundRequest src a (.write bs)) ∧
        (whole → exec (.peerInboundRequest src a (.write bs)) s = .next (s.sliceWrite from_ w.keyid a bs a)))) ∧
    (s.boot.stage ≠ 4 ∨ s.port0.cxl = false → refused (.cxlMemRequest a (.read n)) ∧ refused (.cxlMemRequest a (.write bs))) ∧
    (s.boot.stage = 4 → s.port0.cxl = true → s.port0.coh = false →
      exec (.cxlMemRequest a (.read n)) s = .next (s.sliceRead westExits 0 a n a) ∧
      exec (.cxlMemRequest a (.write bs)) s = .next (s.sliceWrite westExits 0 a bs a)) ∧
    (s.boot.stage = 4 → s.port0.cxl = true → s.port0.coh = true →
      (s.serves westExits a n = true → exec (.cxlMemRequest a (.read n)) s =
        .next ((s.recallForRead (memKey 0 a) n).answer ((s.recallForRead (memKey 0 a) n).peekBytes none (memKey 0 a) n) none)) ∧
      (s.serves westExits a bs.length = true → (∀ i, i < bs.length → s.inMutable (memKey 0 (a + i)) = false) →
        exec (.cxlMemRequest a (.write bs)) s = .next ((s.agentWrite none (memKey 0 a) bs).answer [] none)) ∧
      exec (.cxlMemRequest a (.write bs)) s = .next (s.sliceWrite westExits 0 a bs a))) ∧
  (∀ (s : State) (exits : List Nat) (keyid pa index : Nat) (bs : List Byte), s.serves exits pa bs.length = true →
    (∃ i, i < bs.length ∧ s.inMutable (memKey 0 (pa + i)) = true) →
    let cells := bs.mapIdx (fun i b => (memKey 0 (pa + i), b))
    let others := (cells.filter (fun c => !s.inMutable c.1)).foldl (fun u c => u.agentWrite (s.keyMaterial keyid) c.1 [c.2]) s
    s.sliceWrite exits keyid pa bs index = (others.logAttempts (cells.filterMap (fun c => s.mutableAt c.1))).answer [] none) ∧
  (∀ (s : State) (exits : List Nat) (pa n : Nat), s.serves exits pa n = true ↔
    ∃ d, s.homeDie pa = some d ∧ (n = 0 ∨ s.homeDie (pa + n - 1) = some d) ∧ s.exitCause d exits = none)

/-- R393 to R401, R403. That memory of this part lists nothing after a reset and memory of the host and of peers stays is the model's own (log 1;
R393 leaves the contents open), and so are the layout of an image, that of the map in a grade record, and that the ROM measures its code first (log 8), the byte order of hashes and the
free random bytes of a signature (log 9), that the host's stores and the junction's temperature come as turns of the schedule (log 31), that a pushed image of another kind replaces nothing (log 29), and that the clock returns to 2400 MHz once
the junction is below 93 (log 31). -/
def Obligations.BootAndThermal : Prop :=
  (∀ s : State, (s.boot.tripped = true → exec .moduleReset s = .next s) ∧
    (s.boot.tripped = false → ∃ t, exec .moduleReset s = .next t ∧ s.powerCycle = t ∧ t.tasks = [] ∧ t.graphs = [] ∧ t.queues = [] ∧
      t.contexts = [] ∧ t.keys = [] ∧ t.stash = [] ∧ t.regions = [] ∧ t.mem = s.mem.filter (fun c => decide (2 ^ 52 ≤ c.1)) ∧
      t.sched = s.sched ∧ t.hostRejects = s.hostRejects ∧ t.boot.stage = 0 ∧ t.boot.busy = false ∧ (∀ r : Fin 4, t.boot.measured[r] = 0) ∧
      t.boot.flash = s.boot.flash ∧ t.boot.fused = s.boot.fused ∧ t.boot.identity = none ∧ t.boot.junction = s.boot.junction ∧
      t.boot.step = s.boot.step ∧ t.boot.romKey = s.boot.romKey ∧ t.boot.keyFuse = s.boot.keyFuse ∧ t.boot.certificate = s.boot.certificate) ∧
    s.powerCycle.boot.tripped = false) ∧
  (∀ (s : State) (i : Image),
    s.boot.check i = (if i.readable = false then some 5 else if sha3 s.boot.romKey ≠ s.boot.keyFuse then some 2
      else if i.signature.length ≠ 2420 ∨ mldsaVerify s.boot.romKey (bytesOf i.digest.toNat 32) i.signature = false then some 1
      else if i.svn < (s.boot.fused[i.kind]?).getD 0 then some 3 else none) ∧
    i.digest = sha3 (bytesOf i.magic 4 ++ bytesOf i.kind 4 ++ bytesOf i.version 4 ++ bytesOf i.svn 4 ++ bytesOf i.length 8 ++ i.payload) ∧
    (let r := if i.kind = 1 then 1 else if i.kind = 2 then 2 else 3
     let v := sha3 (bytesOf ((s.boot.measured[r]?).getD 0).toNat 32 ++ bytesOf i.digest.toNat 32)
     s.boot.measure i = { s.boot with measured := s.boot.measured.setIfInBounds r v })) ∧
  (∀ (b : Boot) (i : Image) (is : List Image) (k : Nat),
    b.checkFrom [] k = { b with stage := 3, failedAt := k } ∧
    b.checkFrom (i :: is) k = (match b.check i with
      | none => (b.measure i).checkFrom is (k + 1)
      | some e => { b with stage := if i.kind = 0 then 5 else 1, err := e, busy := false, failedAt := k })) ∧
  (∀ s : State,
    (s.boot.stage = 0 →
      let ownCode := sha3 (bytesOf s.boot.measured[0].toNat 32 ++ bytesOf (sha3 Config.romCode).toNat 32)
      let b : Boot := { s.boot with measured := s.boot.measured.setIfInBounds 0 ownCode }
      s.bootStep = { s with boot := b.checkFrom s.boot.flash 0 }) ∧
    (s.boot.stage = 2 →
      let fails (e : Nat) : Prop := s.bootStep = { s with boot := { s.boot with stage := 1, err := e, busy := false } }
      let range := 1 ≤ s.boot.mblen.toNat ∧ s.boot.mblen.toNat ≤ 16 * 2 ^ 20 ∧ s.boot.mbaddr.toNat % 4096 = 0
      let fetched := s.boot.mbaddr.toNat + s.boot.mblen.toNat ≤ 2 ^ 52 ∧
        ∀ w ∈ s.hostRejects, ¬(w.1 < s.boot.mbaddr.toNat + s.boot.mblen.toNat ∧ s.boot.mbaddr.toNat < w.1 + w.2)
      let pushed := Image.ofBytes (s.readHost s.boot.mbaddr.toNat s.boot.mblen.toNat)
      (¬range → fails 7) ∧ (range → ¬fetched → fails 6) ∧
      (range → fetched → match s.boot.check pushed with
        | some e => fails e
        | none =>
          if (s.boot.flash[s.boot.failedAt]?).map (·.kind) = some pushed.kind then
            s.bootStep = { s with boot := { s.boot.measure pushed with stage := 3, busy := false, pendingFlash := s.boot.pendingFlash ++ [pushed] } }
          else fails 1)) ∧
    (s.boot.stage = 3 →
      (s.boot.gradeRecord.valid = false → s.bootStep = { s with boot := { s.boot with stage := 5, err := 4, busy := false } }) ∧
      (s.boot.gradeRecord.valid = true → ∃ b : Boot, s.bootStep = { s.enumerate s.boot.gradeRecord with boot := b } ∧ b.stage = 4 ∧ b.busy = false ∧
        b.identity = some { seed := Config.pufSeed, publicKey := (mldsaKeys (bytesOf Config.pufSeed.toNat 32)).1,
                            privateKey := (mldsaKeys (bytesOf Config.pufSeed.toNat 32)).2 } ∧
        b.measured = s.boot.measured ∧ b.pendingFlash = [])) ∧
    (s.boot.stage = 4 → s.boot.busy = true →
      let signed := s.boot.mbreport.take 32 ++ s.boot.measured.toList.flatMap (fun m => bytesOf m.toNat 32) ++
        (s.boot.fused.toList.map (fun n => BitVec.ofNat 8 n) ++ List.replicate 4 0) ++
        [BitVec.ofNat 8 s.gen, BitVec.ofNat 8 s.boot.step, BitVec.ofNat 8 s.boot.gradeRecord.grade, if s.boot.gradeRecord.clamshell then 1 else 0]
      let signature := mldsaSign ((s.boot.identity.map (·.privateKey)).getD []) signed (bytesOf (Config.signRandom s.freeCtr).toNat 32)
      s.bootStep = { s with boot := { s.boot with busy := false, mbreport := signed ++ signature } }) ∧
    (s.boot.busy = true → exec .pushRecoveryImage s = .next s ∧ exec .attest s = .next s) ∧
    (s.boot.busy = false →
      (s.boot.stage ≠ 1 → exec .pushRecoveryImage s = .next { s with boot := { s.boot with err := 8 } }) ∧
      (s.boot.stage = 1 → exec .pushRecoveryImage s = .next { s with boot := { s.boot with stage := 2, err := 0, busy := true } }) ∧
      (s.boot.stage ≠ 4 → exec .attest s = .next { s with boot := { s.boot with err := 8 } }) ∧
      (s.boot.stage = 4 → exec .attest s = .next { s with boot := { s.boot with err := 0, busy := true, mbreport := bytesOf s.boot.mbnonce.toNat 32 } }))) ∧
  (∀ s : State,
    (95 < s.boot.junction ∨ (s.boot.throttled = true ∧ 93 ≤ s.boot.junction) →
      exec .throttleStep s = .next { s with clock := s.clock - 100, boot := { s.boot with throttled := true, throttleAt := s.micros } }) ∧
    (s.boot.junction < 93 → s.boot.throttled = true →
      exec .throttleStep s = .next { s with clock := 2400, boot := { s.boot with throttled := false } }) ∧
    (s.boot.junction ≤ 95 → s.boot.throttled = false → exec .throttleStep s = .next s) ∧
    (110 ≤ s.boot.junction → exec .thermalTrip s = .next { s with boot := { s.boot with tripped := true } }) ∧
    (s.boot.junction < 110 → exec .thermalTrip s = .next s) ∧
    (∀ c, runTurn (.temperature c) s = .next { s with boot := { s.boot with junction := c } }) ∧
    (∀ a bs, a + bs.length ≤ 2 ^ 52 → runTurn (.hostMemory a bs) s = .next (s.writeHost a bs)) ∧
    (s.sched = [] → s.boot.tripped = false → 110 ≤ s.boot.junction → step s = exec .thermalTrip s.tick) ∧
    (s.sched = [] → s.boot.tripped = false → s.boot.junction < 110 →
      95 < s.boot.junction ∨ (s.boot.throttled = true ∧ 93 ≤ s.boot.junction) →
      s.boot.throttled = false ∨ s.boot.throttleAt + 1000 ≤ s.micros → step s = exec .throttleStep s.tick) ∧
    (s.sched = [] → s.boot.tripped = false → s.boot.junction < 93 → s.boot.throttled = true → step s = exec .throttleStep s.tick)) ∧
  (∀ (b : Boot) (i : Image), b.flash.find? (fun i => i.kind == 0) = some i →
    let at_ (k : Nat) : Nat := ((i.payload[k]?).map (·.toNat)).getD 0
    b.gradeRecord.grade = at_ 0 ∧ (b.gradeRecord.clamshell = true ↔ at_ 1 % 2 = 1) ∧
    ∀ p, p ∈ b.gradeRecord.live ↔ p < 8 ∧ at_ 2 / 2 ^ p % 2 = 1)

/-- R114 and R340: the words that trap; what the delivery does is FaultDelivery. R123 and R134: the record of a fault, field by field; that of a page
which the fault service refuses carries info bit 2 as R335 and R380 are read (log 36). Traps raised from a copy's status, and those that name another
word than the one that issued, have their own rules (R253, R260, R319, R357). -/
def Obligations.TrapsAndRecords : Prop :=
  (∀ s : State, s.AtControl →
    exec .ecall s = .next (s.takeFault { cause := 0x10 }) ∧ exec .ebreak s = .next (s.takeFault { cause := 0x11 })) ∧
  (∀ (s : State) (rs1 : BitVec 5), s.AtControl →
    exec (.trapc rs1) s = .next (s.takeFault { cause := 0x12, info := (s.x rs1).setWidth 32 })) ∧
  (∀ (s : State) (b : Block) (rs1 : BitVec 5), s.AtBlock b →
    exec (.trapc rs1) s = .next (s.takeFault { cause := 0x12, info := (s.x rs1).setWidth 32 })) ∧
  (∀ (s : State) (t : Trap), t.cause ≠ 0x04 → t.cause ≠ 0x05 → t.cause ≠ 0x0E → t.whole = none → s.task.entrySave = none →
    s.takeFault t = s.deliverFault s.task t.cause (s.recordOf s.task s.cur t)) ∧
  (∀ (s : State) (t : Task) (p : Party) (tr : Trap), tr.inBlock = none → tr.ofControl = false → tr.pc = none → tr.fromCopy = false → tr.cause < 256 →
     let r := s.recordOf t p tr
     let at_ : Option (Word × Nat) := match p, t.block with
       | .control, _ => none
       | .vector, some b => some (b.addr, b.off)
       | .lane _, some b => some (b.addr, s.offset)
       | _, none => none
     let lane : Option Nat := match p with
       | .lane e => some e
       | _ => none
     let elem := tr.elem.orElse (fun _ => lane)
     let refused := (tr.cause = 0x04 ∨ tr.cause = 0x05) ∧ tr.info.getLsbD 1 = false ∧
       ∃ a, tr.addr = some a ∧ (2 ^ 48 ≤ a.toNat ∨ (t.id.ctx, a.toNat / 4096) ∈ s.unservable)
     let names : Nat × Word × Nat × Word := match s.meldOf t, at_ with
       | none, none => (t.id.node, t.id.kernel, 0, t.pc)
       | none, some (a, o) => (t.id.node, t.id.kernel, 0, a + 12 + BitVec.ofNat 64 (4 * o))
       | some m, none => m.originOf false ((t.pc - meldAddr m.slot).toNat / 4)
       | some m, some (_, o) => m.originOf true o
     fieldN r 0 8 = tr.cause ∧
     fieldN r 8 8 = (if at_.isSome then 1 else 0) + (if lane.isSome then 2 else 0) + (if (s.meldOf t).isSome then 4 else 0) +
       (if elem.isSome then 8 else 0) + (if tr.addr.isSome then 16 else 0) ∧
     fieldN r 16 16 = s.effFdom t.id.ctx t.id.region % 2 ^ 16 ∧ fieldN r 32 32 = names.1 % 2 ^ 32 ∧ r.extractLsb' 64 64 = t.id.region ∧
     r.extractLsb' 128 64 = names.2.1 ∧ r.extractLsb' 192 64 = names.2.2.2 ∧ r.extractLsb' 256 64 = (at_.map (·.1)).getD 0 ∧
     fieldN r 320 16 = ((at_.map (·.2)).getD 0) % 2 ^ 16 ∧ fieldN r 336 16 = names.2.2.1 ∧ fieldN r 352 32 = (elem.getD 0) % 2 ^ 32 ∧
     r.extractLsb' 384 64 = tr.addr.getD 0 ∧ (refused → r.extractLsb' 448 32 = tr.info ||| 4) ∧ (¬refused → r.extractLsb' 448 32 = tr.info) ∧
     fieldN r 480 32 = t.fseq % 2 ^ 32)

/-- R251 to R253, R260, R392: the token of a copy. A word that names a pending one waits; the newest status, if it is a failure under the trap bit and
has not been read or handed on, is raised by the first word that reads it; a status stands in its token only while the block runs and no later
command names it; a command on a token that is pending, or that holds the status of the newest command, stands in a chain; TDONE raises the
first failure that no word has read. That the record of a chain's failure names the byte at which the earlier command failed is the reading that log 20
names. -/
def Obligations.PendingTokens : Prop :=
  let raised (c : Copy) (st : Word) : Trap :=
    let low : BitVec 32 := st.setWidth 32
    { cause := fieldN st 0 8, info := if c.failAt.map (·.2) = some true then low ||| 0x200#32 else low &&& ~~~0x200#32,
      addr := c.failAt.map (·.1), fromCopy := true }
  (∀ (s : State) (b : Block) (r : BitVec 5) (simm : BitVec 10) (sh : BitVec 3), s.cur = .vector → s.task.block = some b → b.poison = 0 →
    let on (c : Copy) : Prop := c.serial = b.serial ∧ c.tok = r.toNat
    let ended (c : Copy) : Bool := c.serial == b.serial && c.tok == r.toNat && c.status.isSome
    ((∃ c ∈ s.task.copies, on c ∧ c.status = none) →
      exec (.vpost r) s = .next s ∧ exec (.baddi r simm) s = .next s ∧ exec (.baddvl r sh) s = .next s ∧ exec (.trapc r) s = .next s) ∧
    ((∀ c ∈ s.task.copies, on c → c.status ≠ none) → ∀ (i : Nat) (c : Copy) (st : Word), s.task.copies[i]? = some c → on c →
      (∀ (j : Nat) (o : Copy), i < j → s.task.copies[j]? = some o → ¬on o) → c.status = some st → c.overwritten = false →
      let due := c.read = false ∧ c.trap = true ∧ c.handedOn = false ∧ fieldN st 0 8 ≠ 0
      (due → ∀ w : Instr, w = .vpost r ∨ w = .baddi r simm ∨ w = .baddvl r sh ∨ w = .trapc r →
        exec w s = .next (s.takeFault (raised c st))) ∧
      (¬due →
        (s.task.replies.length < 16 → exec (.vpost r) s = .next (s.onTask (fun t => { t with
          replies := t.replies ++ [s.x r]
          copies := mapIf (fun o => ended o && !o.overwritten) (fun o => { o with read := true }) t.copies })).advance) ∧
        exec (.baddi r simm) s = .next ((s.onTask (fun t => { t with
          copies := mapIf ended (fun o => { o with read := o.read || !o.overwritten, overwritten := true }) t.copies })).setX r
            (s.x r + simm.signExtend 64)).advance))) ∧
  (∀ (t : Task) (k : Nat) (c : Copy) (st : Word) (f : Option (Word × Bool)), t.copies[k]? = some c → c.tok < 32 →
    let u : Task := { t with copies := t.copies.mapIdx (fun i o => if i = k then { o with status := some st, failAt := f } else o) }
    let newest (b : Block) : Prop :=
      c.serial = b.serial ∧ ∀ (j : Nat) (o : Copy), k < j → t.copies[j]? = some o → ¬(o.serial = b.serial ∧ o.tok = c.tok)
    (t.block = none → t.endCopy k st f = u) ∧
    (∀ b, t.block = some b → ¬newest b → t.endCopy k st f = u) ∧
    (∀ b, t.block = some b → newest b → t.endCopy k st f =
      { u with block := some { b with xs := b.xs.setIfInBounds c.tok st, poison := b.poison &&& ~~~(1#32 <<< c.tok) } })) ∧
  (∀ (s : State) (b : Block) (rd r1 r2 : BitVec 5) (pair : BitVec 4) (trap : BitVec 1), s.cur = .vector → s.task.block = some b → b.poison = 0 →
    s.task.vPoison = [] → (∀ n, s.task.binding n = none) → s.det = false → rd ≠ 0 →
    (∀ c ∈ s.task.copies, c.tok ≠ r1.toNat ∧ c.tok ≠ r2.toNat) →
    let a := 2 * pair.toNat
    let n := s.task.vl
    s.task.groupsOk { srcs := [(a, 1), (a + 1, 1)], dsts := [] } 1 = true → n ≤ 16 →
    layoutsOk (s.task.layout a n) (s.task.layout (a + 1) n) = true → fieldN (BitVec.ofNat 64 (s.task.elem 64 a 16)) 34 30 = 0 →
    s.copySlots s.task.id.section_ ≠ 0 →
    let on (c : Copy) : Prop := c.serial = b.serial ∧ c.tok = rd.toNat
    ∃ c : Copy, exec (.cpyc rd pair r1 r2 trap) s = .next (s.onTask (fun t => { t with copies := t.copies ++ [c] })).advance ∧
      c.status = none ∧ c.serial = b.serial ∧ c.tok = rd.toNat ∧ c.tokIn = s.x rd ∧
      ((∀ o ∈ s.task.copies, ¬on o) → c.after = none) ∧
      ∀ (i : Nat) (p : Copy), s.task.copies[i]? = some p → on p → (∀ (j : Nat) (o : Copy), i < j → s.task.copies[j]? = some o → ¬on o) →
        (p.status = none ∨ (p.overwritten = false ∧ p.status = some (s.x rd)) → c.after = some i) ∧
        (p.status ≠ none → p.overwritten = true ∨ p.status ≠ some (s.x rd) → c.after = none)) ∧
  (∀ (s : State) (k j : Nat) (c p : Copy) (st : Word), s.task.status = .running → s.task.copies[k]? = some c → c.status = none →
    c.after = some j → s.task.copies[j]? = some p → p.status = some st → s.pageAsked (s.task.id.tid, k, 0) = false → c.started = false →
    c.op ≠ 0 → c.ctl.getLsbD 32 = false →
    let i : Instr := .copyComplete s.task.id.tid k
    let u : State := ({ s with cur := .vector } : State).onTask (fun t =>
      { t with copies := t.copies.mapIdx (fun n o => if n = j then { o with handedOn := true } else o) })
    let ends (v : State) (st : Word) (at_ : Option (Word × Bool)) : State :=
      v.onTask (fun t => { t.endCopy k st at_ with progressAt := v.micros })
    (fieldN st 0 8 ≠ 0 → exec i s = .next (ends u st p.failAt).settle) ∧
    (fieldN st 0 8 = 0 → st.getLsbD 8 = false → exec i s = .next (ends u (BitVec.ofNat 64 0x08) none).settle) ∧
    (fieldN st 0 8 = 0 → st.getLsbD 8 = true → ∀ v g,
      u.carryOn (u.jobOf k c) { done := c.done, running := fieldN st 32 32, flip := c.flip, home := c.home } = (v, g, .complete) →
      let stands : State := v.onTask (fun t => { t with copies := t.copies.mapIdx (fun n (o : Copy) =>
        if n = k then { o with started := true, done := g.done, running := g.running, flip := g.flip, home := g.home } else o) })
      exec i s = .next ((ends stands
        (BitVec.ofNat 64 (g.running * 2 ^ 32 + 0x100 + (if c.ctl.getLsbD 33 = true ∧ g.running ≠ fieldN c.ctl 0 32 then 0x09 else 0)))
        none).endWait (s.task.id.tid, k, 0)).settle)) ∧
  (∀ s : State, s.AtControl → s.task.block = none → s.task.vq = [] → s.task.aqueue = [] → (∀ c ∈ s.task.copies, c.status ≠ none) →
    let due (i : Nat) (c : Copy) : Prop := s.task.copies[i]? = some c ∧ c.read = false ∧ c.trap = true ∧ c.handedOn = false ∧
      (∃ st, c.status = some st ∧ fieldN st 0 8 ≠ 0) ∧
      ∀ (j : Nat) (o : Copy), i < j → s.task.copies[j]? = some o → ¬(o.serial = c.serial ∧ o.tok = c.tok)
    (∀ i c st, due i c → c.status = some st → (∀ j o, j < i → ¬due j o) →
      exec .tdone s = .next (s.takeFault { raised c st with inBlock := some (c.block, c.off) })) ∧
    ((∀ i c, ¬due i c) → s.det = false → exec .tdone s = .next s.finishTask.settle))

/-- R116, R150, R263 to R265: a word that reads a bound register, by VMV. Its strip has the values that loads at the pop read; elements at or beyond
the stream's length read 0; the cursor advances by vl whatever the mask holds; the first element that fails is named, and the cursor stays. What the bound register
itself holds afterwards is not stated: no word can read it. -/
def Obligations.StreamRegisters : Prop :=
  (∀ (s : State) (b : Block) (vd vs2 : BitVec 5) (c2 vm : BitVec 1) (st : Stream), s.cur = .vector → s.task.block = some b →
    s.task.copies = [] → b.poison = 0 → s.task.vPoison = [] → s.task.fold = 1 → s.task.binding vs2.toNat = some st →
    let lm := s.task.lmul
    s.task.groupsOk { srcs := [(vs2.toNat, lm)], dsts := [(vd.toNat, lm)] } vm = true →
    let d := st.desc
    let w := 2 ^ streamEew d
    let declared := b.h0.getLsbD 12 = true ∧ s.regsAllow 1 = true
    let fits := s.task.sew = 8 * w ∧ lm = 1
    let at_ (i : Nat) : Word := streamAddr d (st.cursor + i)
    let inside (i : Nat) : Prop := st.cursor + i < streamLength d
    let fails (i : Nat) (t : Trap) : Prop := inside i ∧
      (((at_ i).toNat % w ≠ 0 ∧ t = { cause := 0x03, addr := some (at_ i), elem := some i }) ∨
       ((at_ i).toNat % w = 0 ∧ ∃ t0, s.locateRead (at_ i) w = .error t0 ∧ t = { t0 with elem := some i }))
    let i : Instr := .vmv vd vs2 c2 vm
    let bad (c : Nat) : Prop := exec i s = .next (s.takeFault { cause := c })
    (¬declared → bad 0x08) ∧
    (declared → ¬fits ∨ (∃ o, s.task.binding vd.toNat = some o) → bad 0x01) ∧
    (declared → fits → s.task.binding vd.toNat = none →
      (∀ k t, k < s.task.vl → fails k t → (∀ j u, j < k → ¬fails j u) → exec i s = .next (s.takeFault t)) ∧
      (∀ place : Nat → Place, s.Plain → s.task.vl ≤ s.task.vlmax →
        (∀ k, k < s.task.vl → inside k → (at_ k).toNat % w = 0 ∧ s.locateRead (at_ k) w = .ok (place k)) →
        ∃ u : Task, exec i s = .next ({ s with task := u } : State).advance ∧
          u = { s.task with v := u.v, streams := s.task.streams.setIfInBounds (vs2.toNat - 24) (some { st with cursor := st.cursor + s.task.vl }) } ∧
          (∀ r : Fin 32, r.val ≠ vd.toNat → r.val ≠ vs2.toNat → u.v[r] = s.task.v[r]) ∧
          ∀ e, e < s.task.perReg s.task.sew → (e + 1) * s.task.sew ≤ 262144 →
            (e ∈ s.actives vm → inside e → u.elem s.task.sew vd.toNat e =
              leVal ((List.range w).map (fun j => s.readPlain (place e).km ((place e).key + j)))) ∧
            (e ∈ s.actives vm → ¬inside e → u.elem s.task.sew vd.toNat e = 0) ∧
            (e ∉ s.actives vm → u.elem s.task.sew vd.toNat e = s.task.elem s.task.sew vd.toNat e)))) ∧
  (∀ (s : State) (e : Nat) (b : Block) (vd vs2 : BitVec 5) (c2 vm : BitVec 1) (st : Stream), s.cur = .lane e → s.task.block = some b →
    b.h0.getLsbD 12 = true → s.regsAllow 1 = true → s.task.binding vs2.toNat = some st →
    s.task.groupsOk { srcs := [(vs2.toNat, s.task.lmul)], dsts := [(vd.toNat, s.task.lmul)] } vm = true →
    exec (.vmv vd vs2 c2 vm) s = .next (s.takeFault { cause := 0x01 })) ∧
  (∀ (d : BitVec 512) (i0 i1 i2 i3 : Nat),
    let ext (j : Nat) : Nat := fieldN d (64 + 32 * j) 32
    let st (j : Nat) : Int := sextN (fieldN d (192 + 64 * j) 64) 64
    streamLength d = ext 0 * ext 1 * ext 2 * ext 3 ∧ streamEew d = fieldN d 448 8 ∧
    (i0 < ext 0 → i1 < ext 1 → i2 < ext 2 → streamAddr d (i0 + ext 0 * (i1 + ext 1 * (i2 + ext 2 * i3))) =
      BitVec.ofInt 64 (fieldN d 0 64 + i0 * st 0 + i1 * st 1 + i2 * st 2 + i3 * st 3)))

/-- R239, R240, R293, R353: which accesses the stash serves, what a fill, an eviction and a hit do, the loads and stores with pol = st, and what a
read or a write by another party recalls; a coherent reader finds the byte of a dirty line. That a store into a line of its own task is a hit whichever
element stores is the model's choice (log 35); a stash that serves no other key than the line's is R230. -/
def Obligations.StashAccesses : Prop :=
  (∀ (s : State) (p : Place) (pol va : Nat),
    (s.stashServed p pol = true ↔ pol = 3 ∧ s.cached p.page = true ∧ s.det = false ∧ s.inWindow p.va = true) ∧
    (s.inWindow va = true ↔ ∃ w, some w ∈ s.task.windows.toList ∧ w.base ≤ va ∧ va < w.base + w.size ∧
      w.since ≤ (s.task.block.map (·.serial)).getD 0) ∧
    (p.page.home = 0 → (s.cached p.page = true ↔ p.page.uncached = false))) ∧
  (∀ (s : State) (sec : Nat) (owner : Nat × Nat) (km : Option (BitVec 512)) (k : Nat), (∀ l ∈ s.stash, l.holds (k / 256 * 256) 256 = false) →
    let new : StashLine := { section_ := sec, owners := [owner], line := k / 256 * 256, km := km, dirty := [], writers := [], cleared := [] }
    let mine := s.stash.filter (fun l => l.section_ == sec)
    (mine.length < 7936 → s.fillLine sec owner km k = { s with stash := new :: s.stash }) ∧
    (∀ v, 7936 ≤ mine.length → mine.getLast? = some v →
      let gone (l : StashLine) : Bool := l.section_ == sec && l.line == v.line
      ∃ t : State, s.fillLine sec owner km k = t ∧ s.WroteBack t gone ∧
        t = { s with mem := t.mem, tags := t.tags, poison := t.poison, stash := new :: s.stash.filter (fun l => !gone l) })) ∧
  (∀ (s : State) (sec tid va k e : Nat) (km : Option (BitVec 512)) (wr : Bool),
    let here (l : StashLine) : Bool := l.section_ == sec && l.line == k / 256 * 256
    let rest := s.stash.filter (fun l => !here l)
    let owner := (tid, va / 256 * 256)
    (s.stash.filter here = [] → s.touchLine sec tid va km k wr e = s.fillLine sec owner km k) ∧
    (∀ l, s.stash.filter here = [l] →
      let again : StashLine := { l with owners := owner :: l.owners.filter (· != owner) }
      let alone := ∀ o ∈ l.owners, o.1 = tid
      (l.km = km → alone → wr = true ∨ (∀ w ∈ l.writers, w = e) → s.touchLine sec tid va km k wr e = { s with stash := again :: rest }) ∧
      (l.km = km → wr = false → ¬alone ∨ (∃ w ∈ l.writers, w ≠ e) → ∃ t : State, s.touchLine sec tid va km k wr e = t ∧ s.WroteBack t here ∧
        t = { s with mem := t.mem, tags := t.tags, poison := t.poison,
                     stash := { again with dirty := [], writers := [], cleared := [] } :: rest }) ∧
      (l.km ≠ km ∨ (wr = true ∧ ¬alone) → ∃ t : State, s.WroteBack t here ∧ t = { s with mem := t.mem, tags := t.tags, poison := t.poison, stash := rest } ∧
        s.touchLine sec tid va km k wr e = t.fillLine sec owner km k))) ∧
  (∀ (s : State) (b : Block) (vd rs1 : BitVec 5) (c vm : BitVec 1) (i : Nat) (p : Place), s.AtBlock b → s.det = false → s.poison = [] →
    s.actives vm = [i] →
    let w := s.task.sew
    let n := w / 8
    let a := s.x rs1 + BitVec.ofNat 64 (i * n)
    let here (l : StashLine) : Bool := l.section_ == s.task.id.section_ && l.line == p.key / 256 * 256
    ∀ eew : BitVec 3, eew.toNat < 4 → w = 8 * 2 ^ eew.toNat → a.toNat % n = 0 → s.stashServed p 3 = true →
    (s.task.groupsOk { srcs := [], dsts := [(vd.toNat, s.task.lmul)] } vm = true → s.locateRead a n = .ok p →
      let u := s.touchLine s.task.id.section_ s.task.id.tid p.va p.km p.key false i
      ∃ t, exec (.vle vd rs1 3 eew vm) s = .next ({ u with task := t } : State).advance ∧
        WroteElems s.task t w vd.toNat s.task.lmul (fun k => if k = i then some (leVal (s.peekBytes p.km p.key n)) else none)) ∧
    (s.task.groupsOk { srcs := [(vd.toNat, s.task.lmul)], dsts := [] } vm = true → s.locate a n .write = .ok p → p.key % 256 + n ≤ 256 →
      (s.stash.filter here).length ≤ 1 →
      let u := ((s.breakReservations p.key n).flushLines (fun l => l.section_ != s.task.id.section_ && l.line == p.key / 256 * 256)).touchLine
        s.task.id.section_ s.task.id.tid p.va p.km p.key true i
      ∃ (t : State) (l0 l : StashLine) (rest : List StashLine), exec (.vse vd rs1 3 eew c vm) s = .next t.advance ∧
        t = { u with stash := l :: rest } ∧ u.stash = l0 :: rest ∧
        l = { l0 with dirty := l.dirty, writers := if l0.writers.contains i then l0.writers else i :: l0.writers } ∧
        ∀ k, overlayGet l.dirty k = if p.key ≤ k ∧ k < p.key + n then (bytesOf (s.task.elem w vd.toNat i) n)[k - p.key]? else overlayGet l0.dirty k)) ∧
  (∀ (s : State) (rd rs1 rs2 : BitVec 5) (imm : BitVec 12) (p : Place), s.AtControl → s.det = false →
    let a := s.x rs1 + imm.signExtend 64
    a.toNat % 8 = 0 →
    (s.locateRead a 8 = .ok p →
      exec (.ld rd rs1 imm) s = .next ((s.recallForRead p.key 8).setX rd (BitVec.ofNat 64 (leVal (s.peekBytes p.km p.key 8)))).advance) ∧
    (s.locate a 8 .write = .ok p → s.poison = [] →
      let u := (s.breakReservations p.key 8).recallForWrite p.key 8
      ∃ t : State, exec (.sd rs1 rs2 imm) s = .next t.advance ∧ t = { u with mem := t.mem, tags := t.tags } ∧
        ∀ k, t.readPlain p.km k = if p.key ≤ k ∧ k < p.key + 8 then ((bytesOf (s.x rs2).toNat 8)[k - p.key]?).getD 0 else u.readPlain p.km k)) ∧
  (∀ (s : State) (k n : Nat),
    ((∀ l ∈ s.stash, l.holds k n = true → l.dirty = []) → s.recallForRead k n = s) ∧
    ((∃ l ∈ s.stash, l.holds k n = true ∧ l.dirty ≠ []) → ∃ t : State, s.recallForRead k n = t ∧ s.WroteBack t (StashLine.holds k n) ∧
      t = { s with mem := t.mem, tags := t.tags, poison := t.poison,
                   stash := mapIf (StashLine.holds k n) (fun l => { l with dirty := [], writers := [], cleared := [] }) s.stash }) ∧
    ((∀ l ∈ s.stash, l.holds k n = false) → s.recallForWrite k n = s) ∧
    ((∃ l ∈ s.stash, l.holds k n = true) → ∃ t : State, s.recallForWrite k n = t ∧ s.WroteBack t (StashLine.holds k n) ∧
      t = { s with mem := t.mem, tags := t.tags, poison := t.poison, stash := s.stash.filter (fun l => !l.holds k n) })) ∧
  (∀ (s : State) (km : Option (BitVec 512)) (k : Nat),
    ((∀ l ∈ s.stash, overlayGet l.dirty k = none) → s.peekByte km k = s.readPlain km k) ∧
    ∀ l x, s.stash.find? (fun l => (overlayGet l.dirty k).isSome) = some l → overlayGet l.dirty k = some x → l.km = km → s.peekByte km k = x)

/-- R315 to R321, of words of the control core and of the join of lane threads. Stores go to the write set, memory as it was, and one that the
budget does not admit writes nothing; a read is answered by the task's own last write, else by the merged segment ordered before it, else by memory
as no unordered segment has changed it; task IDs, unordered segments, what a merge leaves and the conflict that it meets, with its record; a TDONE
merges, and so do the threads of a split at its join. `newSetLines` counts the 128-byte lines that a store would add. That of two ordered writers
which are unordered between themselves the one with the higher task ID gives the byte is R319's rule for the merge; that a direct update sends a later
read to memory is the reading of R321 that log 19 names. -/
def Obligations.DeterministicRegions : Prop :=
  (∀ (s : State) (rd rs1 rs2 : BitVec 5) (imm : BitVec 12) (p : Place), s.AtControl → s.det = true →
    let a := s.x rs1 + imm.signExtend 64
    a.toNat % 8 = 0 →
    (s.locate a 8 .write = .ok p →
      let room := s.stashRoom s.task.id.ctx s.task.id.region (128 * s.newSetLines p.key 8)
      (room = false → exec (.sd rs1 rs2 imm) s = .next (s.takeFault { cause := 0x0C })) ∧
      (room = true → ∃ w : List SetByte, exec (.sd rs1 rs2 imm) s = .next (s.onTask (fun t => { t with wset := w })).advance ∧
        ∀ k, setFind w k = if p.key ≤ k ∧ k < p.key + 8 then
            some { ofC := false, key := k, km := p.km, va := p.va + (k - p.key), byte := ((bytesOf (s.x rs2).toNat 8)[k - p.key]?).getD 0 }
          else setFind s.task.wset k)) ∧
    (s.locateRead a 8 = .ok p → s.stash = [] → exec (.ld rd rs1 imm) s =
      .next (s.setX rd (BitVec.ofNat 64 (leVal ((List.range 8).map (fun j => s.viewByte p.km (p.key + j)))))).advance)) ∧
  (∀ (s : State) (km : Option (BitVec 512)) (k : Nat), s.cur = .control →
    let mine := setFind ((s.task.wset ++ s.earlierWrites s.task).filter (fun c => !c.ofC)) k
    let writers := s.mergedWriters k
    let ordered := writers.filter (fun g => s.task.before.contains g.sid)
    let view := s.viewByte km k
    (∀ g, g ∈ writers ↔ g ∈ s.segments ∧ g.merged = true ∧ g.ctx = s.task.id.ctx ∧ g.region = s.task.id.region ∧ (setFind g.writes k).isSome = true) ∧
    (∀ c, mine = some c → c.direct = false → view = c.byte) ∧
    (∀ c, mine = some c → c.direct = true → (∀ g ∈ writers, g.sid ∈ s.task.before) → view = s.peekByte km k) ∧
    (mine = none →
      (∀ g c, ordered = [g] → setFind g.writes k = some c → c.direct = false → view = c.byte) ∧
      (∀ g h c, ordered = [g, h] → setFind g.writes k = some c → c.direct = false →
        h.sid ∈ g.before ∨ (g.sid ∉ h.before ∧ g.above h = true) → view = c.byte) ∧
      (∀ g h c, ordered = [g, h] → setFind h.writes k = some c → c.direct = false →
        h.sid ∉ g.before → g.sid ∈ h.before ∨ g.above h = false → view = c.byte) ∧
      (writers = [] → view = s.peekByte km k) ∧
      (∀ g x, writers = [g] → ordered = [] → overlayGet g.replaced k = some x → view = x))) ∧
  (∀ (s : State) (g o : Segment),
    (o ∈ s.unordered g ↔ o ∈ s.segments ∧ o.merged = true ∧ o.ctx = g.ctx ∧ o.region = g.region ∧ o.sid ≠ g.sid ∧ o.sid ∉ g.before ∧
      g.sid ∉ o.before) ∧
    (g.above o = true ↔ o.gid < g.gid ∨ (o.gid = g.gid ∧ (o.it < g.it ∨ (o.it = g.it ∧ o.node < g.node))))) ∧
  (∀ (g : Segment) (others : List Segment),
    let both (c : SetByte) (o : Segment) : Prop := c ∈ g.writes ∧ c.direct = false ∧ o ∈ others ∧ (setGet o.writes c.key).isSome = true
    ((∀ c o, ¬both c o) → g.conflict others = none) ∧
    ((∃ c o, both c o) → ∃ x c o, g.conflict others = some x ∧ both c o ∧ x.addr = c.va ∧ (∀ c' o', both c' o' → x.addr ≤ c'.va) ∧
      (o.above g = true → x.hi = o ∧ x.lo = g) ∧ (o.above g = false → x.hi = g ∧ x.lo = o))) ∧
  (∀ (x : Conflict) (fdom seq : Nat),
    let r := x.record fdom seq
    fieldN r 0 8 = 0x0A ∧ r.getLsbD 12 = true ∧ fieldN r 16 16 = fdom % 2 ^ 16 ∧ fieldN r 32 32 = x.hi.node % 2 ^ 32 ∧
    r.extractLsb' 64 64 = x.hi.region ∧ r.extractLsb' 128 64 = x.hi.kernel ∧ r.extractLsb' 192 64 = x.hi.endPc ∧
    fieldN r 384 64 = x.addr % 2 ^ 64 ∧ fieldN r 448 32 = x.lo.node % 2 ^ 32 ∧ fieldN r 480 32 = seq % 2 ^ 32) ∧
  (∀ (s : State) (g : Segment) (km : Option (BitVec 512)), s.stash = [] → s.poison = [] → (∀ c ∈ g.writes, c.km = km) →
    g.writes.Pairwise (fun c d => c.key ≠ d.key) →
    let t := s.mergeSegment g
    let lost (c : SetByte) : Prop := ∃ o ∈ s.unordered g, o.above g = true ∧ (setGet o.writes c.key).isSome = true
    (∀ c ∈ g.writes, c.direct = false → ¬lost c → t.readPlain km c.key = c.byte) ∧
    (∀ c ∈ g.writes, c.direct = false → lost c → t.readPlain km c.key = s.readPlain km c.key) ∧
    (∀ k, (∀ c ∈ g.writes, c.direct = false → c.key ≠ k) → t.readPlain km k = s.readPlain km k) ∧
    (Memory.wf s.mem → Memory.wf t.mem) ∧
    ∃ old rest, t.segments = { g with merged := true, replaced := old } :: rest ∧ (∀ o ∈ rest, o.sid ≠ g.sid) ∧
      ∀ c ∈ g.writes, c.direct = false → overlayGet old c.key = some (s.readPlain km c.key)) ∧
  (∀ s : State, s.AtControl → s.det = true → s.task.block = none → s.task.vq = [] → s.task.aqueue = [] → s.task.copies = [] →
    s.task.second = none →
    let g := s.endedSegment false none
    let t := s.mergeSegment g
    (g.sid = s.task.segment ∧ g.before = s.task.before ∧ g.writes = s.task.wset.filter (fun c => c.ofC == false) ∧ g.gid = s.task.id.gid ∧
      g.it = s.task.id.it ∧ (s.meldOf s.task = none → g.node = s.task.id.node ∧ g.kernel = s.task.id.kernel ∧ g.endPc = s.task.pc)) ∧
    (g.conflict (s.unordered g) = none → exec .tdone s = .next (t.nextSegmentOf [g]).finishTask.settle) ∧
    (∀ x, g.conflict (s.unordered g) = some x →
      exec .tdone s = .next (t.takeFault { cause := 0x0A, whole := some (x.record (t.effFdom s.task.id.ctx s.task.id.region) s.task.fseq) }))) ∧
  (∀ (s : State) (b : Block) (e : Nat) (sp : Split), s.AtLane b e → s.task.split = some sp → s.offset = sp.join →
    let threads := mapIf (fun (th : LaneThread) => th.elem == e) (fun th => { th with joined := true }) sp.threads
    let clash (i j : Nat) (a z : LaneThread) (c : SetByte) : Prop := i < j ∧ threads[i]? = some a ∧ threads[j]? = some z ∧ c ∈ z.wset ∧
      c.direct = false ∧ (setGet a.wset c.key).isSome = true
    (∀ th ∈ threads, th.joined = true) →
    ((∀ i j a z c, ¬clash i j a z c) → exec .ljoin s = .next (s.onTask (fun t =>
      { { t with split := none
                 wset := threads.foldl (fun w (th : LaneThread) => setOver th.wset w) t.wset
                 rngpos := t.rngpos + BitVec.ofNat 64 (t.vl * (threads.map LaneThread.draws).foldl max 0)
                 srcount := t.srcount + BitVec.ofNat 32 ((threads.map LaneThread.rounds).foldl max 0) }.moveVector (sp.join + 1)
        with progressAt := s.micros }))) ∧
    ((∃ i j a z c, clash i j a z c) → ∃ i j a z c, clash i j a z c ∧ exec .ljoin s = .next (s.takeFault
      { cause := 0x0A, addr := some (BitVec.ofNat 64 c.va), elem := some z.elem, info := BitVec.ofNat 32 a.elem }))) ∧
  (∀ (w base : List SetByte) (k : Nat), setFind (setOver w base) k = (setFind w k).orElse (fun _ => setFind base k))

/-- R126 to R136, R139: the checks of a pair in their order with their codes, what a kernel in the single-block shape holds, the
renumbering, the words of the meld with their origins and headers, the registers it starts with, its dispatch, its retirement, and a refused pair.
The words are recognised by the fixed bits of their encodings (`isVse` and the like), `writesX`, `writesV` and `namesOf` say which registers a
word writes or names; `bump` is the row Bases. Where a shape is that of another block than the one dispatched, where both kernels fail, and where
groups are wider than R131 speaks of, the model chooses (log 34). -/
def Obligations.Melds : Prop :=
  (∀ (s : State) (g : Graph) (die : Nat) (n : Node) (k : Kernel) (m : SpliceMark) (x : Shape), s.shapeOf g die n k m = .ok x →
    let vloop := x.body.filter isVloop
    let vstrip := x.body.filter isVstrip
    let vlbnz := x.body.filter isVlbnz
    x.node = n ∧ x.mark = m ∧ x.kernel = k ∧ vloop.length = 1 ∧ vstrip.length = 1 ∧ vlbnz.length = 1 ∧ x.strip = m.inner ∧
    x.loop < x.strip ∧ x.strip < x.back ∧ x.back = x.strip + fieldN ((x.body[x.back]?).getD 0) 15 10 ∧
    (∀ w ∈ x.body, barred w = false) ∧ k.hasRegs = true ∧ k.uses = 0 ∧ 10 ≤ x.vblk ∧ x.vblk ≤ 15 ∧ x.h1.getLsbD x.vblk = false ∧
    n.slotReg x.vblk = m.block ∧ 1 ≤ x.body.length ∧ x.body.length ≤ 253) ∧
  (∀ (p c : Shape) (po co : BitVec 256),
    let e := fieldN po 88 8
    let eew (k : Shape) : Nat := fieldN k.matched 12 3
    let inLoop (k : Shape) : Prop := k.strip < k.mark.word ∧ k.mark.word < k.back
    FirstFailure
      [(fieldN po 0 64 = fieldN co 0 64 ∧ fieldN po 80 8 = fieldN co 80 8 ∧ e = fieldN co 88 8 ∧ fieldN po 96 48 = fieldN co 96 48 ∧
          fieldN po 160 96 = fieldN co 160 96, 0x03),
       (fieldN po 64 8 = 2 ∧ fieldN co 64 8 = 1, 0x03), (fieldN po 80 8 = 1 ∧ fieldN po 160 32 = 2 ^ e, 0x03),
       (isVse p.matched = true ∧ isVle c.matched = true ∧ eew p = e ∧ eew c = e, 0x03),
       (p.matched.getLsbD 25 = true ∧ c.matched.getLsbD 25 = true, 0x03), (inLoop p ∧ inLoop c, 0x03),
       (p.bump (fieldN po 0 64) e ≠ none ∧ c.bump (fieldN co 0 64) e ≠ none, 0x03),
       (∃ v, p.trips = some v ∧ c.trips = some v ∧ v.toNat = fieldN po 96 16, 0x04),
       ((∀ j w, p.mark.word < j → j < p.back → p.body[j]? = some w → writesV p.lmul p.plans (fieldN p.matched 7 5) p.lmul w = false) ∧
          (∀ j w, j ≠ c.mark.word → c.body[j]? = some w → writesV c.lmul c.plans (fieldN c.matched 7 5) c.lmul w = false), 0x03),
       (∀ i r o, p.node.ops[i]? = some r → i ≠ p.mark.operand → fieldN r 64 8 = 2 ∨ fieldN r 64 8 = 3 → o ∈ c.node.ops →
          fieldN o 0 64 ≠ fieldN r 0 64, 0x0A),
       (p.cfg = c.cfg ∧ p.decl = c.decl ∧ p.kernel.vdecl = c.kernel.vdecl, 0x05),
       (max p.node.smin c.node.smin ≤ min p.node.smax c.node.smax, 0x09)]
      (matchFailure p c po co)) ∧
  (∀ (k : Shape) (buf e j : Nat),
    let r := fieldN k.matched 15 5
    let at_ (i : Nat) : BitVec 32 := (k.body[i]?).getD 0
    (k.bump buf e = some j ↔ 10 ≤ r ∧ r ≤ 15 ∧ k.h1.getLsbD r = true ∧ (k.node.slotReg r).toNat = buf ∧ k.strip < j ∧ j < k.back ∧
      j < k.body.length ∧ writesX r (at_ j) = true ∧ (∀ i, i < k.body.length → i ≠ j → writesX r (at_ i) = false) ∧
      isBaddvl (at_ j) = true ∧ fieldN (at_ j) 15 3 = e) ∧
    ∀ v, k.trips = some v ↔
      let q := fieldN (at_ k.loop) 15 5
      10 ≤ q ∧ q ≤ 15 ∧ k.h1.getLsbD q = true ∧ v = k.node.slotReg q ∧ ∀ w ∈ k.body.take k.loop, writesX q w = false) ∧
  (∀ (p c : Shape) (rest : List (BitVec 32)) (m : Renumbering), renumbering p c rest = .ok m →
    let l := p.lmul
    let top := match p.decl with
      | none => 32
      | some d => if fieldN d 20 5 = 1 then 12 else if fieldN d 20 5 = 2 then 6 else 32
    let mine := p.body.flatMap (groupsOf l top p.plans)
    let vle := fieldN c.matched 7 5
    let vse := fieldN p.matched 7 5
    let numbers (k : RegKind) (ms : List (Nat × Nat)) (lo hi : Nat) : Prop :=
      ms.map (·.1) = regsNamed k rest ∧ ms.Pairwise (fun a b => a.2 < b.2) ∧
      ∀ q ∈ ms, lo ≤ q.2 ∧ q.2 < hi ∧ ∀ w ∈ p.body, q.2 ∉ namesOf k w
    (∀ i, i < l → m.v (vle + i) = some (vse + i)) ∧
    (∀ (g : Nat × Nat × Nat), g ∈ m.vs → g.1 = 0 → vle ≠ 0 → g.2.2 = 0 ∧ ∀ q ∈ mine, q.1 ≠ 0) ∧
    (∀ (i : Nat) (g : Nat × Nat × Nat), m.vs[i]? = some g → g.1 ≠ vle → g.1 ≠ 0 → 1 ≤ g.2.2 ∧ g.2.2 + g.2.1 ≤ top ∧
      (∀ q ∈ mine, g.2.2 + g.2.1 ≤ q.1 ∨ q.1 + q.2 ≤ g.2.2) ∧
      ∀ (j : Nat) (o : Nat × Nat × Nat), j < i → m.vs[j]? = some o → g.2.2 + g.2.1 ≤ o.2.2 ∨ o.2.2 + o.2.1 ≤ g.2.2) ∧
    numbers .x m.xs 1 32 ∧ (∀ q ∈ m.xs, q.2 ≠ p.vblk) ∧ numbers .fl m.fls 0 4) ∧
  (∀ (g : Graph) (det : Bool) (p c : Shape) (po co : BitVec 256),
    let bump := (c.bump (fieldN co 0 64) (fieldN po 88 8)).getD 0
    let cHead := (List.range c.strip).filter (fun j => j != c.loop)
    let cLoop := (rangeFrom (c.strip + 1) c.back).filter (fun j => j != c.mark.word && j != bump)
    let cTail := rangeFrom (c.back + 1) c.body.length
    let word (k : Shape) (j : Nat) : BitVec 32 := (k.body[j]?).getD 0
    let rest := (cHead ++ cLoop ++ cTail).map (word c)
    let elided := co.getLsbD 72 && !det
    let pLoop := (rangeFrom (p.strip + 1) p.back).filter (fun j => !(elided && j == p.mark.word))
    (∀ code, renumbering p c rest = .error code → buildMeld g det p c po co = .error (code, 0)) ∧
    (∀ m, renumbering p c rest = .ok m →
      let mine (js : List Nat) : List (BitVec 32) := js.map (word p)
      let theirs (js : List Nat) : List (BitVec 32) := js.map (fun j => m.word p.lmul (word c j))
      let from_ (k : Shape) (who : Nat) (js : List Nat) : List Origin :=
        js.map (fun j => { who := who, pc := k.mark.block + 12 + BitVec.ofNat 64 (4 * j) })
      let body := mine (List.range p.strip) ++ theirs cHead ++ mine [p.strip] ++ mine pLoop ++ theirs cLoop ++
        [setFieldN (word p p.back) 15 10 (1 + pLoop.length + cLoop.length)] ++ mine (rangeFrom (p.back + 1) p.body.length) ++ theirs cTail
      let newX (r : Nat) : Option Nat := (m.xs.find? (fun q => q.1 == r)).map (·.2)
      (253 < body.length → buildMeld g det p c po co = .error (0x08, body.length)) ∧
      (body.length ≤ 253 → ∃ d, buildMeld g det p c po co = .ok d ∧ d.elided = elided ∧ d.meld.body = body ∧
        d.meld.bodyOrigin = from_ p 1 (List.range p.strip) ++ from_ c 2 cHead ++ from_ p 1 [p.strip] ++ from_ p 1 pLoop ++ from_ c 2 cLoop ++
          from_ p 1 [p.back] ++ from_ p 1 (rangeFrom (p.back + 1) p.body.length) ++ from_ c 2 cTail ∧
        d.meld.control = p.control ∧ d.meld.h0 = BitVec.ofNat 32 (0xB1000100 + body.length) ∧ d.meld.h1 = p.h1 ||| maskOf newX c.h1 ∧
        d.meld.h2 = p.h2 ||| maskOf m.v c.h2 ∧ d.meld.p = p.node.index ∧ d.meld.c = c.node.index ∧ d.meld.pKernel = p.node.code ∧
        d.meld.cKernel = c.node.code ∧ d.meld.vblk = p.vblk ∧
        (∀ q ∈ m.xs, d.meld.starts[q.2]? = some (if 10 ≤ q.1 ∧ q.1 ≤ 15 then c.node.slotReg q.1 else 0)) ∧
        ∀ r, r < 32 → (∀ q ∈ m.xs, q.2 ≠ r) → d.meld.starts[r]? = some (if 10 ≤ r ∧ r ≤ 15 then p.node.slotReg r else 0)))) ∧
  (∀ (s : State) (g : Graph) (die : Nat) (p c : Node) (cs : List Node) (rs : List Refused),
    s.tryPartners g die p [] rs = .none rs ∧
    (∀ d, s.evaluate g die p c = .ok d → s.tryPartners g die p (c :: cs) rs = .pair rs c.index d) ∧
    (∀ code words, s.evaluate g die p c = .error (code, words) →
      s.tryPartners g die p (c :: cs) rs = s.tryPartners g die p cs (rs ++ [{ c := c.index, code := code, words := words }])) ∧
    ((∀ k, s.kernelOf g.ctx p = some k → ∀ m ∈ k.marks, m.role = 1 → m.eligible = false) →
      s.evaluate g die p c = .error (0x01, 0))) ∧
  (∀ (s : State) (w : Want) (m : Meld) (elided : Bool) (sec : Nat) (g : Graph) (p c : Node) (d : Die), s.graph w.gid = some g →
    s.node w.gid m.p = some p → s.node w.gid m.c = some c → s.lapsOf w.die g p = [] → s.lapsOf w.die g c = [] →
    s.dies[(s.physDie w.die).getD 0]? = some d →
    let t := s.dispatchMeld w m elided sec
    (∃ u ∈ t.parked, u.status = .running ∧ u.id.node = p.index ∧ u.id.meld = some m.slot ∧ u.pc = meldAddr m.slot ∧ u.x = meldRegs m ∧
      u.second.isSome = true) ∧
    ∃ d', t.dies[(s.physDie w.die).getD 0]? = some d' ∧ d'.formed = d.formed + 1 ∧ m ∈ d'.melds ∧
      d'.elided = d.elided + (if elided then 1 else 0) ∧ d'.kept = d.kept + (if elided then 0 else 1)) ∧
  (∀ (m : Meld), m.vblk < 32 → (meldRegs m)[m.vblk]? = some (meldAddr m.slot + 0x40) ∧
    ∀ r, r ≠ m.vblk → (meldRegs m)[r]? = m.starts[r]?) ∧
  (∀ (s : State) (t : Task) (st : NodeStatus),
    (s.meldOf t = none → s.retireNodes t st = s.retire t.id.gid t.id.node st) ∧
    (∀ m, s.meldOf t = some m → s.retireNodes t st = ((s.modDie (s.graphDie t.id.gid) (fun d =>
      { d with melds := d.melds.filter (fun x => x.slot != m.slot) })).retire m.gid m.p st).retire m.gid m.c st)) ∧
  (∀ (s : State) (g : Graph) (n : Node) (r : Refused), 1 ≤ r.code → r.code ≤ 15 →
    let d := (s.physDie g.die).getD 0
    let t := s.modDie d (fun x => { x with refused := x.refused.setIfInBounds (r.code - 1) ((x.refused[r.code - 1]?).getD 0 + 1) })
    (s.effPrio g.ctx g.region = 0 → s.refusePair g n r = t) ∧
    (1 ≤ s.effPrio g.ctx g.region → s.refusePair g n r = t.postEvent 1 d (layBytes [(r.code, 1), (if r.host then 1 else 0, 1), (0, 2),
      (n.index, 4), (r.c, 4), (r.words, 4), (g.region.toNat, 8), (0, 8)])))

/-- R341, R343 to R346, R348 to R350: what a stop keeps, where an image lies, its header, directory and digest, and what a restore loads, refuses
and leaves. Which of several free places of the pool an image takes (log 11), and the widths of segments that the manual leaves open (log 30), are no
part of this; that an image which can no longer be read ends its task with 0x08 is log 30's. -/
def Obligations.Images : Prop :=
  (∀ (s : State) (tid : Nat) (t : Task) (st : TaskStatus), s.findTask tid = some t → st ≠ .vacant →
    ∃ u, (s.stopTask tid st).findTask tid = some u ∧ u.status = st ∧ u.resv = none ∧ u.x = t.x ∧ u.pc = t.pc ∧ u.v = t.v ∧ u.m = t.m ∧
      u.block = t.block ∧ u.vq = t.vq ∧ u.split = t.split ∧ u.replies = t.replies ∧ u.fl = t.fl ∧ u.vcfg = t.vcfg ∧ u.vl = t.vl ∧
      u.vstart = t.vstart ∧ u.astat = t.astat ∧ u.mcfg = t.mcfg ∧ u.mshape = t.mshape ∧ u.copies = t.copies ∧ u.slots = t.slots ∧
      u.streams = t.streams ∧ u.windows = t.windows ∧ u.wset = t.wset ∧ u.rngpos = t.rngpos ∧ u.srcount = t.srcount ∧ u.fold = t.fold ∧
      u.foldPending = t.foldPending ∧ u.id.grant = t.id.grant ∧ u.id.seed = t.id.seed ∧ u.id.ctrbase = t.id.ctrbase ∧
      u.id.ctrlen = t.id.ctrlen ∧ u.id.meld = t.id.meld ∧ u.id.gen = s.gen ∧ u.id.feat = t.feature (s.isDet t.id.ctx t.id.region)) ∧
  (∀ (t : Task) (det : Bool) (k : Nat), k < 64 → ((t.feature det).getLsbD k = true ↔
    (k = 0 ∧ t.id.kind = 2) ∨ (k = 1 ∧ ∃ b, some b ∈ t.streams.toList) ∨ (k = 2 ∧ t.split.isSome = true) ∨ (k = 3 ∧ det = true) ∨
    (k = 4 ∧ t.mcfg.getLsbD 9 = true) ∨ (k = 5 ∧ t.id.feat.getLsbD 5 = true) ∨ (k = 6 ∧ t.id.meld.isSome = true))) ∧
  (∀ (psize n o : Nat) (taken : List (Nat × Nat)), poolOffset psize n taken = some o →
    o % 64 = 0 ∧ o + n ≤ psize ∧ ∀ r ∈ taken, o + n ≤ r.1 ∨ r.1 + r.2 ≤ o) ∧
  (∀ (s : State) (t : Task) (nseg size : Nat) (digest : BitVec 256),
    let h := s.imageHeader t nseg size digest
    let f (off n : Nat) : Nat := leVal ((h.drop off).take n)
    h.length = 256 ∧ f 0 4 = 0x49584341 ∧ f 4 2 = 1 ∧ f 6 2 = nseg % 2 ^ 16 ∧ f 8 8 = size % 2 ^ 64 ∧ f 0x10 8 = t.id.feat.toNat ∧
    f 0x18 1 = t.id.gen % 256 ∧ f 0x19 1 = s.boot.step % 256 ∧ f 0x1A 1 = t.id.grant % 256 ∧ f 0x1B 1 = (t.fold + 16 * t.foldPending) % 256 ∧
    f 0x1C 1 = (match t.status with
      | .held _ => 2
      | .waitPage _ => 3
      | .stopped r => r
      | _ => 0) % 256 ∧
    f 0x1D 1 = t.id.kind % 256 ∧ f 0x20 8 = t.id.region.toNat ∧ f 0x28 4 = t.id.node % 2 ^ 32 ∧
    f 0x2C 4 = t.id.meld.getD 0xFFFFFFFF % 2 ^ 32 ∧ f 0x30 8 = t.id.ctrbase.toNat ∧ f 0x38 4 = t.id.ctrlen % 2 ^ 32 ∧
    f 0x3C 4 = t.id.it % 2 ^ 32 ∧ f 0x40 8 = t.id.seed.toNat ∧ f 0x48 8 = t.rngpos.toNat ∧ f 0x50 4 = t.srcount.toNat ∧
    f 0x54 4 = t.fseq % 2 ^ 32 ∧ f 0x58 8 = 0 ∧ f 0x60 64 = t.frec.toNat ∧ f 0xA0 32 = digest.toNat ∧ f 0xC0 64 = 0) ∧
  (∀ (s : State) (t : Task),
    let segs := s.imageSegments t
    let img := s.imageBytes t
    let digest := sha3 (s.imageHeader t segs.length img.length 0 ++
      (segs.filter (fun g => !([1, 3, 4, 6, 7].contains g.1))).flatMap (fun (g : Nat × List Byte) => g.2))
    img.take 256 = s.imageHeader t segs.length img.length digest ∧ img.length = s.imageSize t ∧
    (img.length < 2 ^ 32 → ∀ i k bs, segs[i]? = some (k, bs) →
      let f (off n : Nat) : Nat := leVal ((img.drop (256 + 16 * i + off)).take n)
      f 0 2 = k % 2 ^ 16 ∧ f 2 2 = 0 ∧ f 4 4 = bs.length ∧ f 8 8 % 64 = 0 ∧ (img.drop (f 8 8)).take bs.length = bs)) ∧
  (∀ (s : State) (t : Task) (k : Nat), k < 64 → ((s.missingFeatures t).getLsbD k = true ↔ t.id.feat.getLsbD k = true ∧
    (7 ≤ k ∨ (k = 5 ∧ s.boot.step = 1) ∨ (k = 6 ∧ ∀ m, s.meldOf t = some m → m.gid ≠ t.id.gid)))) ∧
  (∀ (s : State) (t : Task) (miss : BitVec 64),
    (s.gen < t.id.gen ∨ miss ≠ 0 → s.restored t miss = .error (0x0F, miss.setWidth 32)) ∧
    (t.id.gen ≤ s.gen → miss = 0 → ∀ c o n, s.context t.id.ctx = some c → t.image = some (o, n) →
      (s.readPool c (c.pool.toNat + o) n = none → s.restored t miss = .error (0x08, 0)) ∧
      (∀ img, s.readPool c (c.pool.toNat + o) n = some img →
        let u := s.loadEdits c t img
        let same := leVal ((img.drop 0xA0).take 32) = (imageDigest (img.take 256) (getSegments img)).toNat
        let rules := u.rulesHold t.block = true ∧ laneFlagOk (leVal (((getSegment img 3).drop 328).take 8)) (t.split.isSome && u.block.isSome) = true
        (¬same ∨ ¬rules → s.restored t miss = .error (0x08, 0)) ∧
        (same → rules → s.poison = [] →
          (trapRecord img = none → s.restored t miss = .ok { u.cleanAll with image := none }) ∧
          (∀ r, trapRecord img = some r → r.getLsbD 8 = false →
            s.restored t miss = .ok { u.cleanAll with pc := u.pc + 4, image := none }))))) ∧
  (∀ (s : State) (c : Context) (t : Task) (img : List Byte),
    let u := s.loadEdits c t img
    let field (k off n : Nat) : Nat := leVal (((getSegment img k).drop off).take n)
    (∀ r : Fin 32, u.x[r] = if r.val = 0 then 0 else BitVec.ofNat 64 (field 1 (8 * (r.val - 1)) 8)) ∧ u.pc = BitVec.ofNat 64 (field 1 248 8) ∧
    u.vstart = field 3 16 8 ∧ u.vl = field 3 304 8 ∧ u.vcfg = BitVec.ofNat 64 (field 3 312 8) ∧ u.astat = BitVec.ofNat 64 (field 3 320 8) ∧
    (∀ i : Fin 4, u.fl[i] = BitVec.ofNat 64 (field 7 (8 * i.val) 8)) ∧
    u.replies = (List.range (field 6 0 8)).map (fun i => BitVec.ofNat 64 (field 6 (8 + 8 * i) 8)) ∧
    (field 3 0 8 % 2 ^ 64 = 0 → u.block = none) ∧
    (∀ b, t.block = some b → b.addr.toNat ≠ 0 → field 3 0 8 = b.addr.toNat → ∃ b', u.block = some b' ∧ b'.addr = b.addr ∧ b'.off = field 3 8 8 ∧
      b'.h0 = b.h0 ∧ b'.h1 = b.h1 ∧ b'.h2 = b.h2) ∧
    u.id = t.id ∧ u.m = t.m ∧ u.mcfg = t.mcfg ∧ u.mshape = t.mshape ∧ u.vq = t.vq ∧ u.aqueue = t.aqueue ∧ u.windows = t.windows ∧
    u.streams = t.streams ∧ u.slots = t.slots ∧ u.rngpos = t.rngpos ∧ u.srcount = t.srcount ∧ u.fseq = t.fseq)

end
end

