-- ==== Sys2Proof/Laws/Dispatch.lean ====
section
/-! SUPPORT. What `exec` runs for each constructor: one equation for each, true by rfl, so that no proof unfolds the match. -/

namespace Sys2Proof.Machine

@[simp] theorem exec_lui (rd : BitVec 5) (imm : BitVec 20) (s : State) :
    exec (.lui rd imm) s = execLui rd imm s := rfl
@[simp] theorem exec_auipc (rd : BitVec 5) (imm : BitVec 20) (s : State) :
    exec (.auipc rd imm) s = execAuipc rd imm s := rfl
@[simp] theorem exec_jal (rd : BitVec 5) (imm : BitVec 20) (s : State) :
    exec (.jal rd imm) s = execJal rd imm s := rfl
@[simp] theorem exec_jalr (rd : BitVec 5) (rs1 : BitVec 5) (imm : BitVec 12) (s : State) :
    exec (.jalr rd rs1 imm) s = execJalr rd rs1 imm s := rfl
@[simp] theorem exec_beq (rs1 : BitVec 5) (rs2 : BitVec 5) (imm : BitVec 12) (s : State) :
    exec (.beq rs1 rs2 imm) s = execBeq rs1 rs2 imm s := rfl
@[simp] theorem exec_bne (rs1 : BitVec 5) (rs2 : BitVec 5) (imm : BitVec 12) (s : State) :
    exec (.bne rs1 rs2 imm) s = execBne rs1 rs2 imm s := rfl
@[simp] theorem exec_blt (rs1 : BitVec 5) (rs2 : BitVec 5) (imm : BitVec 12) (s : State) :
    exec (.blt rs1 rs2 imm) s = execBlt rs1 rs2 imm s := rfl
@[simp] theorem exec_bge (rs1 : BitVec 5) (rs2 : BitVec 5) (imm : BitVec 12) (s : State) :
    exec (.bge rs1 rs2 imm) s = execBge rs1 rs2 imm s := rfl
@[simp] theorem exec_bltu (rs1 : BitVec 5) (rs2 : BitVec 5) (imm : BitVec 12) (s : State) :
    exec (.bltu rs1 rs2 imm) s = execBltu rs1 rs2 imm s := rfl
@[simp] theorem exec_bgeu (rs1 : BitVec 5) (rs2 : BitVec 5) (imm : BitVec 12) (s : State) :
    exec (.bgeu rs1 rs2 imm) s = execBgeu rs1 rs2 imm s := rfl
@[simp] theorem exec_lb (rd : BitVec 5) (rs1 : BitVec 5) (imm : BitVec 12) (s : State) :
    exec (.lb rd rs1 imm) s = execLb rd rs1 imm s := rfl
@[simp] theorem exec_lh (rd : BitVec 5) (rs1 : BitVec 5) (imm : BitVec 12) (s : State) :
    exec (.lh rd rs1 imm) s = execLh rd rs1 imm s := rfl
@[simp] theorem exec_lw (rd : BitVec 5) (rs1 : BitVec 5) (imm : BitVec 12) (s : State) :
    exec (.lw rd rs1 imm) s = execLw rd rs1 imm s := rfl
@[simp] theorem exec_ld (rd : BitVec 5) (rs1 : BitVec 5) (imm : BitVec 12) (s : State) :
    exec (.ld rd rs1 imm) s = execLd rd rs1 imm s := rfl
@[simp] theorem exec_lbu (rd : BitVec 5) (rs1 : BitVec 5) (imm : BitVec 12) (s : State) :
    exec (.lbu rd rs1 imm) s = execLbu rd rs1 imm s := rfl
@[simp] theorem exec_lhu (rd : BitVec 5) (rs1 : BitVec 5) (imm : BitVec 12) (s : State) :
    exec (.lhu rd rs1 imm) s = execLhu rd rs1 imm s := rfl
@[simp] theorem exec_lwu (rd : BitVec 5) (rs1 : BitVec 5) (imm : BitVec 12) (s : State) :
    exec (.lwu rd rs1 imm) s = execLwu rd rs1 imm s := rfl
@[simp] theorem exec_sb (rs1 : BitVec 5) (rs2 : BitVec 5) (imm : BitVec 12) (s : State) :
    exec (.sb rs1 rs2 imm) s = execSb rs1 rs2 imm s := rfl
@[simp] theorem exec_sh (rs1 : BitVec 5) (rs2 : BitVec 5) (imm : BitVec 12) (s : State) :
    exec (.sh rs1 rs2 imm) s = execSh rs1 rs2 imm s := rfl
@[simp] theorem exec_sw (rs1 : BitVec 5) (rs2 : BitVec 5) (imm : BitVec 12) (s : State) :
    exec (.sw rs1 rs2 imm) s = execSw rs1 rs2 imm s := rfl
@[simp] theorem exec_sd (rs1 : BitVec 5) (rs2 : BitVec 5) (imm : BitVec 12) (s : State) :
    exec (.sd rs1 rs2 imm) s = execSd rs1 rs2 imm s := rfl
@[simp] theorem exec_addi (rd : BitVec 5) (rs1 : BitVec 5) (imm : BitVec 12) (s : State) :
    exec (.addi rd rs1 imm) s = execAddi rd rs1 imm s := rfl
@[simp] theorem exec_slti (rd : BitVec 5) (rs1 : BitVec 5) (imm : BitVec 12) (s : State) :
    exec (.slti rd rs1 imm) s = execSlti rd rs1 imm s := rfl
@[simp] theorem exec_sltiu (rd : BitVec 5) (rs1 : BitVec 5) (imm : BitVec 12) (s : State) :
    exec (.sltiu rd rs1 imm) s = execSltiu rd rs1 imm s := rfl
@[simp] theorem exec_xori (rd : BitVec 5) (rs1 : BitVec 5) (imm : BitVec 12) (s : State) :
    exec (.xori rd rs1 imm) s = execXori rd rs1 imm s := rfl
@[simp] theorem exec_ori (rd : BitVec 5) (rs1 : BitVec 5) (imm : BitVec 12) (s : State) :
    exec (.ori rd rs1 imm) s = execOri rd rs1 imm s := rfl
@[simp] theorem exec_andi (rd : BitVec 5) (rs1 : BitVec 5) (imm : BitVec 12) (s : State) :
    exec (.andi rd rs1 imm) s = execAndi rd rs1 imm s := rfl
@[simp] theorem exec_slli (rd : BitVec 5) (rs1 : BitVec 5) (shamt : BitVec 6) (s : State) :
    exec (.slli rd rs1 shamt) s = execSlli rd rs1 shamt s := rfl
@[simp] theorem exec_srli (rd : BitVec 5) (rs1 : BitVec 5) (shamt : BitVec 6) (s : State) :
    exec (.srli rd rs1 shamt) s = execSrli rd rs1 shamt s := rfl
@[simp] theorem exec_srai (rd : BitVec 5) (rs1 : BitVec 5) (shamt : BitVec 6) (s : State) :
    exec (.srai rd rs1 shamt) s = execSrai rd rs1 shamt s := rfl
@[simp] theorem exec_add (rd : BitVec 5) (rs1 : BitVec 5) (rs2 : BitVec 5) (s : State) :
    exec (.add rd rs1 rs2) s = execAdd rd rs1 rs2 s := rfl
@[simp] theorem exec_sub (rd : BitVec 5) (rs1 : BitVec 5) (rs2 : BitVec 5) (s : State) :
    exec (.sub rd rs1 rs2) s = execSub rd rs1 rs2 s := rfl
@[simp] theorem exec_sll (rd : BitVec 5) (rs1 : BitVec 5) (rs2 : BitVec 5) (s : State) :
    exec (.sll rd rs1 rs2) s = execSll rd rs1 rs2 s := rfl
@[simp] theorem exec_slt (rd : BitVec 5) (rs1 : BitVec 5) (rs2 : BitVec 5) (s : State) :
    exec (.slt rd rs1 rs2) s = execSlt rd rs1 rs2 s := rfl
@[simp] theorem exec_sltu (rd : BitVec 5) (rs1 : BitVec 5) (rs2 : BitVec 5) (s : State) :
    exec (.sltu rd rs1 rs2) s = execSltu rd rs1 rs2 s := rfl
@[simp] theorem exec_xor (rd : BitVec 5) (rs1 : BitVec 5) (rs2 : BitVec 5) (s : State) :
    exec (.xor rd rs1 rs2) s = execXor rd rs1 rs2 s := rfl
@[simp] theorem exec_srl (rd : BitVec 5) (rs1 : BitVec 5) (rs2 : BitVec 5) (s : State) :
    exec (.srl rd rs1 rs2) s = execSrl rd rs1 rs2 s := rfl
@[simp] theorem exec_sra (rd : BitVec 5) (rs1 : BitVec 5) (rs2 : BitVec 5) (s : State) :
    exec (.sra rd rs1 rs2) s = execSra rd rs1 rs2 s := rfl
@[simp] theorem exec_or (rd : BitVec 5) (rs1 : BitVec 5) (rs2 : BitVec 5) (s : State) :
    exec (.or rd rs1 rs2) s = execOr rd rs1 rs2 s := rfl
@[simp] theorem exec_and (rd : BitVec 5) (rs1 : BitVec 5) (rs2 : BitVec 5) (s : State) :
    exec (.and rd rs1 rs2) s = execAnd rd rs1 rs2 s := rfl
@[simp] theorem exec_addiw (rd : BitVec 5) (rs1 : BitVec 5) (imm : BitVec 12) (s : State) :
    exec (.addiw rd rs1 imm) s = execAddiw rd rs1 imm s := rfl
@[simp] theorem exec_slliw (rd : BitVec 5) (rs1 : BitVec 5) (shamt : BitVec 5) (s : State) :
    exec (.slliw rd rs1 shamt) s = execSlliw rd rs1 shamt s := rfl
@[simp] theorem exec_srliw (rd : BitVec 5) (rs1 : BitVec 5) (shamt : BitVec 5) (s : State) :
    exec (.srliw rd rs1 shamt) s = execSrliw rd rs1 shamt s := rfl
@[simp] theorem exec_sraiw (rd : BitVec 5) (rs1 : BitVec 5) (shamt : BitVec 5) (s : State) :
    exec (.sraiw rd rs1 shamt) s = execSraiw rd rs1 shamt s := rfl
@[simp] theorem exec_addw (rd : BitVec 5) (rs1 : BitVec 5) (rs2 : BitVec 5) (s : State) :
    exec (.addw rd rs1 rs2) s = execAddw rd rs1 rs2 s := rfl
@[simp] theorem exec_subw (rd : BitVec 5) (rs1 : BitVec 5) (rs2 : BitVec 5) (s : State) :
    exec (.subw rd rs1 rs2) s = execSubw rd rs1 rs2 s := rfl
@[simp] theorem exec_sllw (rd : BitVec 5) (rs1 : BitVec 5) (rs2 : BitVec 5) (s : State) :
    exec (.sllw rd rs1 rs2) s = execSllw rd rs1 rs2 s := rfl
@[simp] theorem exec_srlw (rd : BitVec 5) (rs1 : BitVec 5) (rs2 : BitVec 5) (s : State) :
    exec (.srlw rd rs1 rs2) s = execSrlw rd rs1 rs2 s := rfl
@[simp] theorem exec_sraw (rd : BitVec 5) (rs1 : BitVec 5) (rs2 : BitVec 5) (s : State) :
    exec (.sraw rd rs1 rs2) s = execSraw rd rs1 rs2 s := rfl
@[simp] theorem exec_fence (fm : BitVec 1) (pred : BitVec 4) (succ : BitVec 4) (s : State) :
    exec (.fence fm pred succ) s = execFence fm pred succ s := rfl
@[simp] theorem exec_ecall (s : State) :
    exec (.ecall) s = execEcall s := rfl
@[simp] theorem exec_ebreak (s : State) :
    exec (.ebreak) s = execEbreak s := rfl
@[simp] theorem exec_mul (rd : BitVec 5) (rs1 : BitVec 5) (rs2 : BitVec 5) (s : State) :
    exec (.mul rd rs1 rs2) s = execMul rd rs1 rs2 s := rfl
@[simp] theorem exec_mulh (rd : BitVec 5) (rs1 : BitVec 5) (rs2 : BitVec 5) (s : State) :
    exec (.mulh rd rs1 rs2) s = execMulh rd rs1 rs2 s := rfl
@[simp] theorem exec_mulhsu (rd : BitVec 5) (rs1 : BitVec 5) (rs2 : BitVec 5) (s : State) :
    exec (.mulhsu rd rs1 rs2) s = execMulhsu rd rs1 rs2 s := rfl
@[simp] theorem exec_mulhu (rd : BitVec 5) (rs1 : BitVec 5) (rs2 : BitVec 5) (s : State) :
    exec (.mulhu rd rs1 rs2) s = execMulhu rd rs1 rs2 s := rfl
@[simp] theorem exec_div (rd : BitVec 5) (rs1 : BitVec 5) (rs2 : BitVec 5) (s : State) :
    exec (.div rd rs1 rs2) s = execDiv rd rs1 rs2 s := rfl
@[simp] theorem exec_divu (rd : BitVec 5) (rs1 : BitVec 5) (rs2 : BitVec 5) (s : State) :
    exec (.divu rd rs1 rs2) s = execDivu rd rs1 rs2 s := rfl
@[simp] theorem exec_rem (rd : BitVec 5) (rs1 : BitVec 5) (rs2 : BitVec 5) (s : State) :
    exec (.rem rd rs1 rs2) s = execRem rd rs1 rs2 s := rfl
@[simp] theorem exec_remu (rd : BitVec 5) (rs1 : BitVec 5) (rs2 : BitVec 5) (s : State) :
    exec (.remu rd rs1 rs2) s = execRemu rd rs1 rs2 s := rfl
@[simp] theorem exec_mulw (rd : BitVec 5) (rs1 : BitVec 5) (rs2 : BitVec 5) (s : State) :
    exec (.mulw rd rs1 rs2) s = execMulw rd rs1 rs2 s := rfl
@[simp] theorem exec_divw (rd : BitVec 5) (rs1 : BitVec 5) (rs2 : BitVec 5) (s : State) :
    exec (.divw rd rs1 rs2) s = execDivw rd rs1 rs2 s := rfl
@[simp] theorem exec_divuw (rd : BitVec 5) (rs1 : BitVec 5) (rs2 : BitVec 5) (s : State) :
    exec (.divuw rd rs1 rs2) s = execDivuw rd rs1 rs2 s := rfl
@[simp] theorem exec_remw (rd : BitVec 5) (rs1 : BitVec 5) (rs2 : BitVec 5) (s : State) :
    exec (.remw rd rs1 rs2) s = execRemw rd rs1 rs2 s := rfl
@[simp] theorem exec_remuw (rd : BitVec 5) (rs1 : BitVec 5) (rs2 : BitVec 5) (s : State) :
    exec (.remuw rd rs1 rs2) s = execRemuw rd rs1 rs2 s := rfl
@[simp] theorem exec_lrW (rd : BitVec 5) (rs1 : BitVec 5) (aq : BitVec 1) (rl : BitVec 1) (s : State) :
    exec (.lrW rd rs1 aq rl) s = execLrW rd rs1 aq rl s := rfl
@[simp] theorem exec_lrD (rd : BitVec 5) (rs1 : BitVec 5) (aq : BitVec 1) (rl : BitVec 1) (s : State) :
    exec (.lrD rd rs1 aq rl) s = execLrD rd rs1 aq rl s := rfl
@[simp] theorem exec_scW (rd : BitVec 5) (rs1 : BitVec 5) (rs2 : BitVec 5) (aq : BitVec 1) (rl : BitVec 1) (s : State) :
    exec (.scW rd rs1 rs2 aq rl) s = execScW rd rs1 rs2 aq rl s := rfl
@[simp] theorem exec_scD (rd : BitVec 5) (rs1 : BitVec 5) (rs2 : BitVec 5) (aq : BitVec 1) (rl : BitVec 1) (s : State) :
    exec (.scD rd rs1 rs2 aq rl) s = execScD rd rs1 rs2 aq rl s := rfl
@[simp] theorem exec_amoswapW (rd : BitVec 5) (rs1 : BitVec 5) (rs2 : BitVec 5) (aq : BitVec 1) (rl : BitVec 1) (s : State) :
    exec (.amoswapW rd rs1 rs2 aq rl) s = execAmoswapW rd rs1 rs2 aq rl s := rfl
@[simp] theorem exec_amoswapD (rd : BitVec 5) (rs1 : BitVec 5) (rs2 : BitVec 5) (aq : BitVec 1) (rl : BitVec 1) (s : State) :
    exec (.amoswapD rd rs1 rs2 aq rl) s = execAmoswapD rd rs1 rs2 aq rl s := rfl
@[simp] theorem exec_amoaddW (rd : BitVec 5) (rs1 : BitVec 5) (rs2 : BitVec 5) (aq : BitVec 1) (rl : BitVec 1) (s : State) :
    exec (.amoaddW rd rs1 rs2 aq rl) s = execAmoaddW rd rs1 rs2 aq rl s := rfl
@[simp] theorem exec_amoaddD (rd : BitVec 5) (rs1 : BitVec 5) (rs2 : BitVec 5) (aq : BitVec 1) (rl : BitVec 1) (s : State) :
    exec (.amoaddD rd rs1 rs2 aq rl) s = execAmoaddD rd rs1 rs2 aq rl s := rfl
@[simp] theorem exec_amoxorW (rd : BitVec 5) (rs1 : BitVec 5) (rs2 : BitVec 5) (aq : BitVec 1) (rl : BitVec 1) (s : State) :
    exec (.amoxorW rd rs1 rs2 aq rl) s = execAmoxorW rd rs1 rs2 aq rl s := rfl
@[simp] theorem exec_amoxorD (rd : BitVec 5) (rs1 : BitVec 5) (rs2 : BitVec 5) (aq : BitVec 1) (rl : BitVec 1) (s : State) :
    exec (.amoxorD rd rs1 rs2 aq rl) s = execAmoxorD rd rs1 rs2 aq rl s := rfl
@[simp] theorem exec_amoandW (rd : BitVec 5) (rs1 : BitVec 5) (rs2 : BitVec 5) (aq : BitVec 1) (rl : BitVec 1) (s : State) :
    exec (.amoandW rd rs1 rs2 aq rl) s = execAmoandW rd rs1 rs2 aq rl s := rfl
@[simp] theorem exec_amoandD (rd : BitVec 5) (rs1 : BitVec 5) (rs2 : BitVec 5) (aq : BitVec 1) (rl : BitVec 1) (s : State) :
    exec (.amoandD rd rs1 rs2 aq rl) s = execAmoandD rd rs1 rs2 aq rl s := rfl
@[simp] theorem exec_amoorW (rd : BitVec 5) (rs1 : BitVec 5) (rs2 : BitVec 5) (aq : BitVec 1) (rl : BitVec 1) (s : State) :
    exec (.amoorW rd rs1 rs2 aq rl) s = execAmoorW rd rs1 rs2 aq rl s := rfl
@[simp] theorem exec_amoorD (rd : BitVec 5) (rs1 : BitVec 5) (rs2 : BitVec 5) (aq : BitVec 1) (rl : BitVec 1) (s : State) :
    exec (.amoorD rd rs1 rs2 aq rl) s = execAmoorD rd rs1 rs2 aq rl s := rfl
@[simp] theorem exec_amominW (rd : BitVec 5) (rs1 : BitVec 5) (rs2 : BitVec 5) (aq : BitVec 1) (rl : BitVec 1) (s : State) :
    exec (.amominW rd rs1 rs2 aq rl) s = execAmominW rd rs1 rs2 aq rl s := rfl
@[simp] theorem exec_amominD (rd : BitVec 5) (rs1 : BitVec 5) (rs2 : BitVec 5) (aq : BitVec 1) (rl : BitVec 1) (s : State) :
    exec (.amominD rd rs1 rs2 aq rl) s = execAmominD rd rs1 rs2 aq rl s := rfl
@[simp] theorem exec_amomaxW (rd : BitVec 5) (rs1 : BitVec 5) (rs2 : BitVec 5) (aq : BitVec 1) (rl : BitVec 1) (s : State) :
    exec (.amomaxW rd rs1 rs2 aq rl) s = execAmomaxW rd rs1 rs2 aq rl s := rfl
@[simp] theorem exec_amomaxD (rd : BitVec 5) (rs1 : BitVec 5) (rs2 : BitVec 5) (aq : BitVec 1) (rl : BitVec 1) (s : State) :
    exec (.amomaxD rd rs1 rs2 aq rl) s = execAmomaxD rd rs1 rs2 aq rl s := rfl
@[simp] theorem exec_amominuW (rd : BitVec 5) (rs1 : BitVec 5) (rs2 : BitVec 5) (aq : BitVec 1) (rl : BitVec 1) (s : State) :
    exec (.amominuW rd rs1 rs2 aq rl) s = execAmominuW rd rs1 rs2 aq rl s := rfl
@[simp] theorem exec_amominuD (rd : BitVec 5) (rs1 : BitVec 5) (rs2 : BitVec 5) (aq : BitVec 1) (rl : BitVec 1) (s : State) :
    exec (.amominuD rd rs1 rs2 aq rl) s = execAmominuD rd rs1 rs2 aq rl s := rfl
@[simp] theorem exec_amomaxuW (rd : BitVec 5) (rs1 : BitVec 5) (rs2 : BitVec 5) (aq : BitVec 1) (rl : BitVec 1) (s : State) :
    exec (.amomaxuW rd rs1 rs2 aq rl) s = execAmomaxuW rd rs1 rs2 aq rl s := rfl
@[simp] theorem exec_amomaxuD (rd : BitVec 5) (rs1 : BitVec 5) (rs2 : BitVec 5) (aq : BitVec 1) (rl : BitVec 1) (s : State) :
    exec (.amomaxuD rd rs1 rs2 aq rl) s = execAmomaxuD rd rs1 rs2 aq rl s := rfl
@[simp] theorem exec_csrrw (rd : BitVec 5) (rs1 : BitVec 5) (csr : BitVec 12) (s : State) :
    exec (.csrrw rd rs1 csr) s = execCsrrw rd rs1 csr s := rfl
@[simp] theorem exec_csrrs (rd : BitVec 5) (rs1 : BitVec 5) (csr : BitVec 12) (s : State) :
    exec (.csrrs rd rs1 csr) s = execCsrrs rd rs1 csr s := rfl
@[simp] theorem exec_csrrc (rd : BitVec 5) (rs1 : BitVec 5) (csr : BitVec 12) (s : State) :
    exec (.csrrc rd rs1 csr) s = execCsrrc rd rs1 csr s := rfl
@[simp] theorem exec_csrrwi (rd : BitVec 5) (uimm : BitVec 5) (csr : BitVec 12) (s : State) :
    exec (.csrrwi rd uimm csr) s = execCsrrwi rd uimm csr s := rfl
@[simp] theorem exec_csrrsi (rd : BitVec 5) (uimm : BitVec 5) (csr : BitVec 12) (s : State) :
    exec (.csrrsi rd uimm csr) s = execCsrrsi rd uimm csr s := rfl
@[simp] theorem exec_csrrci (rd : BitVec 5) (uimm : BitVec 5) (csr : BitVec 12) (s : State) :
    exec (.csrrci rd uimm csr) s = execCsrrci rd uimm csr s := rfl
@[simp] theorem exec_vaddVV (vd : BitVec 5) (vs2 : BitVec 5) (vs1 : BitVec 5) (c2 : BitVec 1) (c1 : BitVec 1) (vm : BitVec 1) (s : State) :
    exec (.vaddVV vd vs2 vs1 c2 c1 vm) s = execVaddVV vd vs2 vs1 c2 c1 vm s := rfl
@[simp] theorem exec_vaddVX (vd : BitVec 5) (vs2 : BitVec 5) (xs : BitVec 5) (c2 : BitVec 1) (vm : BitVec 1) (s : State) :
    exec (.vaddVX vd vs2 xs c2 vm) s = execVaddVX vd vs2 xs c2 vm s := rfl
@[simp] theorem exec_vaddVI (vd : BitVec 5) (vs2 : BitVec 5) (simm : BitVec 5) (c2 : BitVec 1) (vm : BitVec 1) (s : State) :
    exec (.vaddVI vd vs2 simm c2 vm) s = execVaddVI vd vs2 simm c2 vm s := rfl
@[simp] theorem exec_vaddVR (vd : BitVec 5) (vs2 : BitVec 5) (vs1 : BitVec 5) (rsz : BitVec 2) (vm : BitVec 1) (s : State) :
    exec (.vaddVR vd vs2 vs1 rsz vm) s = execVaddVR vd vs2 vs1 rsz vm s := rfl
@[simp] theorem exec_vsubVV (vd : BitVec 5) (vs2 : BitVec 5) (vs1 : BitVec 5) (c2 : BitVec 1) (c1 : BitVec 1) (vm : BitVec 1) (s : State) :
    exec (.vsubVV vd vs2 vs1 c2 c1 vm) s = execVsubVV vd vs2 vs1 c2 c1 vm s := rfl
@[simp] theorem exec_vsubVX (vd : BitVec 5) (vs2 : BitVec 5) (xs : BitVec 5) (c2 : BitVec 1) (vm : BitVec 1) (s : State) :
    exec (.vsubVX vd vs2 xs c2 vm) s = execVsubVX vd vs2 xs c2 vm s := rfl
@[simp] theorem exec_vsubVI (vd : BitVec 5) (vs2 : BitVec 5) (simm : BitVec 5) (c2 : BitVec 1) (vm : BitVec 1) (s : State) :
    exec (.vsubVI vd vs2 simm c2 vm) s = execVsubVI vd vs2 simm c2 vm s := rfl
@[simp] theorem exec_vsubVR (vd : BitVec 5) (vs2 : BitVec 5) (vs1 : BitVec 5) (rsz : BitVec 2) (vm : BitVec 1) (s : State) :
    exec (.vsubVR vd vs2 vs1 rsz vm) s = execVsubVR vd vs2 vs1 rsz vm s := rfl
@[simp] theorem exec_vmulVV (vd : BitVec 5) (vs2 : BitVec 5) (vs1 : BitVec 5) (c2 : BitVec 1) (c1 : BitVec 1) (vm : BitVec 1) (s : State) :
    exec (.vmulVV vd vs2 vs1 c2 c1 vm) s = execVmulVV vd vs2 vs1 c2 c1 vm s := rfl
@[simp] theorem exec_vmulVX (vd : BitVec 5) (vs2 : BitVec 5) (xs : BitVec 5) (c2 : BitVec 1) (vm : BitVec 1) (s : State) :
    exec (.vmulVX vd vs2 xs c2 vm) s = execVmulVX vd vs2 xs c2 vm s := rfl
@[simp] theorem exec_vmulVI (vd : BitVec 5) (vs2 : BitVec 5) (simm : BitVec 5) (c2 : BitVec 1) (vm : BitVec 1) (s : State) :
    exec (.vmulVI vd vs2 simm c2 vm) s = execVmulVI vd vs2 simm c2 vm s := rfl
@[simp] theorem exec_vmulVR (vd : BitVec 5) (vs2 : BitVec 5) (vs1 : BitVec 5) (rsz : BitVec 2) (vm : BitVec 1) (s : State) :
    exec (.vmulVR vd vs2 vs1 rsz vm) s = execVmulVR vd vs2 vs1 rsz vm s := rfl
@[simp] theorem exec_vgathergVV (vd : BitVec 5) (vs2 : BitVec 5) (vs1 : BitVec 5) (c2 : BitVec 1) (c1 : BitVec 1) (vm : BitVec 1) (s : State) :
    exec (.vgathergVV vd vs2 vs1 c2 c1 vm) s = execVgathergVV vd vs2 vs1 c2 c1 vm s := rfl
@[simp] theorem exec_vgathergVX (vd : BitVec 5) (vs2 : BitVec 5) (xs : BitVec 5) (c2 : BitVec 1) (vm : BitVec 1) (s : State) :
    exec (.vgathergVX vd vs2 xs c2 vm) s = execVgathergVX vd vs2 xs c2 vm s := rfl
@[simp] theorem exec_vgathergVI (vd : BitVec 5) (vs2 : BitVec 5) (simm : BitVec 5) (c2 : BitVec 1) (vm : BitVec 1) (s : State) :
    exec (.vgathergVI vd vs2 simm c2 vm) s = execVgathergVI vd vs2 simm c2 vm s := rfl
@[simp] theorem exec_vgathergVR (vd : BitVec 5) (vs2 : BitVec 5) (vs1 : BitVec 5) (rsz : BitVec 2) (vm : BitVec 1) (s : State) :
    exec (.vgathergVR vd vs2 vs1 rsz vm) s = execVgathergVR vd vs2 vs1 rsz vm s := rfl
@[simp] theorem exec_vandVV (vd : BitVec 5) (vs2 : BitVec 5) (vs1 : BitVec 5) (c2 : BitVec 1) (c1 : BitVec 1) (vm : BitVec 1) (s : State) :
    exec (.vandVV vd vs2 vs1 c2 c1 vm) s = execVandVV vd vs2 vs1 c2 c1 vm s := rfl
@[simp] theorem exec_vandVX (vd : BitVec 5) (vs2 : BitVec 5) (xs : BitVec 5) (c2 : BitVec 1) (vm : BitVec 1) (s : State) :
    exec (.vandVX vd vs2 xs c2 vm) s = execVandVX vd vs2 xs c2 vm s := rfl
@[simp] theorem exec_vandVI (vd : BitVec 5) (vs2 : BitVec 5) (simm : BitVec 5) (c2 : BitVec 1) (vm : BitVec 1) (s : State) :
    exec (.vandVI vd vs2 simm c2 vm) s = execVandVI vd vs2 simm c2 vm s := rfl
@[simp] theorem exec_vandVR (vd : BitVec 5) (vs2 : BitVec 5) (vs1 : BitVec 5) (rsz : BitVec 2) (vm : BitVec 1) (s : State) :
    exec (.vandVR vd vs2 vs1 rsz vm) s = execVandVR vd vs2 vs1 rsz vm s := rfl
@[simp] theorem exec_vorVV (vd : BitVec 5) (vs2 : BitVec 5) (vs1 : BitVec 5) (c2 : BitVec 1) (c1 : BitVec 1) (vm : BitVec 1) (s : State) :
    exec (.vorVV vd vs2 vs1 c2 c1 vm) s = execVorVV vd vs2 vs1 c2 c1 vm s := rfl
@[simp] theorem exec_vorVX (vd : BitVec 5) (vs2 : BitVec 5) (xs : BitVec 5) (c2 : BitVec 1) (vm : BitVec 1) (s : State) :
    exec (.vorVX vd vs2 xs c2 vm) s = execVorVX vd vs2 xs c2 vm s := rfl
@[simp] theorem exec_vorVI (vd : BitVec 5) (vs2 : BitVec 5) (simm : BitVec 5) (c2 : BitVec 1) (vm : BitVec 1) (s : State) :
    exec (.vorVI vd vs2 simm c2 vm) s = execVorVI vd vs2 simm c2 vm s := rfl
@[simp] theorem exec_vorVR (vd : BitVec 5) (vs2 : BitVec 5) (vs1 : BitVec 5) (rsz : BitVec 2) (vm : BitVec 1) (s : State) :
    exec (.vorVR vd vs2 vs1 rsz vm) s = execVorVR vd vs2 vs1 rsz vm s := rfl
@[simp] theorem exec_vxorVV (vd : BitVec 5) (vs2 : BitVec 5) (vs1 : BitVec 5) (c2 : BitVec 1) (c1 : BitVec 1) (vm : BitVec 1) (s : State) :
    exec (.vxorVV vd vs2 vs1 c2 c1 vm) s = execVxorVV vd vs2 vs1 c2 c1 vm s := rfl
@[simp] theorem exec_vxorVX (vd : BitVec 5) (vs2 : BitVec 5) (xs : BitVec 5) (c2 : BitVec 1) (vm : BitVec 1) (s : State) :
    exec (.vxorVX vd vs2 xs c2 vm) s = execVxorVX vd vs2 xs c2 vm s := rfl
@[simp] theorem exec_vxorVI (vd : BitVec 5) (vs2 : BitVec 5) (simm : BitVec 5) (c2 : BitVec 1) (vm : BitVec 1) (s : State) :
    exec (.vxorVI vd vs2 simm c2 vm) s = execVxorVI vd vs2 simm c2 vm s := rfl
@[simp] theorem exec_vxorVR (vd : BitVec 5) (vs2 : BitVec 5) (vs1 : BitVec 5) (rsz : BitVec 2) (vm : BitVec 1) (s : State) :
    exec (.vxorVR vd vs2 vs1 rsz vm) s = execVxorVR vd vs2 vs1 rsz vm s := rfl
@[simp] theorem exec_vsllVV (vd : BitVec 5) (vs2 : BitVec 5) (vs1 : BitVec 5) (c2 : BitVec 1) (c1 : BitVec 1) (vm : BitVec 1) (s : State) :
    exec (.vsllVV vd vs2 vs1 c2 c1 vm) s = execVsllVV vd vs2 vs1 c2 c1 vm s := rfl
@[simp] theorem exec_vsllVX (vd : BitVec 5) (vs2 : BitVec 5) (xs : BitVec 5) (c2 : BitVec 1) (vm : BitVec 1) (s : State) :
    exec (.vsllVX vd vs2 xs c2 vm) s = execVsllVX vd vs2 xs c2 vm s := rfl
@[simp] theorem exec_vsllVI (vd : BitVec 5) (vs2 : BitVec 5) (simm : BitVec 5) (c2 : BitVec 1) (vm : BitVec 1) (s : State) :
    exec (.vsllVI vd vs2 simm c2 vm) s = execVsllVI vd vs2 simm c2 vm s := rfl
@[simp] theorem exec_vsllVR (vd : BitVec 5) (vs2 : BitVec 5) (vs1 : BitVec 5) (rsz : BitVec 2) (vm : BitVec 1) (s : State) :
    exec (.vsllVR vd vs2 vs1 rsz vm) s = execVsllVR vd vs2 vs1 rsz vm s := rfl
@[simp] theorem exec_vsrlVV (vd : BitVec 5) (vs2 : BitVec 5) (vs1 : BitVec 5) (c2 : BitVec 1) (c1 : BitVec 1) (vm : BitVec 1) (s : State) :
    exec (.vsrlVV vd vs2 vs1 c2 c1 vm) s = execVsrlVV vd vs2 vs1 c2 c1 vm s := rfl
@[simp] theorem exec_vsrlVX (vd : BitVec 5) (vs2 : BitVec 5) (xs : BitVec 5) (c2 : BitVec 1) (vm : BitVec 1) (s : State) :
    exec (.vsrlVX vd vs2 xs c2 vm) s = execVsrlVX vd vs2 xs c2 vm s := rfl
@[simp] theorem exec_vsrlVI (vd : BitVec 5) (vs2 : BitVec 5) (simm : BitVec 5) (c2 : BitVec 1) (vm : BitVec 1) (s : State) :
    exec (.vsrlVI vd vs2 simm c2 vm) s = execVsrlVI vd vs2 simm c2 vm s := rfl
@[simp] theorem exec_vsrlVR (vd : BitVec 5) (vs2 : BitVec 5) (vs1 : BitVec 5) (rsz : BitVec 2) (vm : BitVec 1) (s : State) :
    exec (.vsrlVR vd vs2 vs1 rsz vm) s = execVsrlVR vd vs2 vs1 rsz vm s := rfl
@[simp] theorem exec_vsraVV (vd : BitVec 5) (vs2 : BitVec 5) (vs1 : BitVec 5) (c2 : BitVec 1) (c1 : BitVec 1) (vm : BitVec 1) (s : State) :
    exec (.vsraVV vd vs2 vs1 c2 c1 vm) s = execVsraVV vd vs2 vs1 c2 c1 vm s := rfl
@[simp] theorem exec_vsraVX (vd : BitVec 5) (vs2 : BitVec 5) (xs : BitVec 5) (c2 : BitVec 1) (vm : BitVec 1) (s : State) :
    exec (.vsraVX vd vs2 xs c2 vm) s = execVsraVX vd vs2 xs c2 vm s := rfl
@[simp] theorem exec_vsraVI (vd : BitVec 5) (vs2 : BitVec 5) (simm : BitVec 5) (c2 : BitVec 1) (vm : BitVec 1) (s : State) :
    exec (.vsraVI vd vs2 simm c2 vm) s = execVsraVI vd vs2 simm c2 vm s := rfl
@[simp] theorem exec_vsraVR (vd : BitVec 5) (vs2 : BitVec 5) (vs1 : BitVec 5) (rsz : BitVec 2) (vm : BitVec 1) (s : State) :
    exec (.vsraVR vd vs2 vs1 rsz vm) s = execVsraVR vd vs2 vs1 rsz vm s := rfl
@[simp] theorem exec_vminVV (vd : BitVec 5) (vs2 : BitVec 5) (vs1 : BitVec 5) (c2 : BitVec 1) (c1 : BitVec 1) (vm : BitVec 1) (s : State) :
    exec (.vminVV vd vs2 vs1 c2 c1 vm) s = execVminVV vd vs2 vs1 c2 c1 vm s := rfl
@[simp] theorem exec_vminVX (vd : BitVec 5) (vs2 : BitVec 5) (xs : BitVec 5) (c2 : BitVec 1) (vm : BitVec 1) (s : State) :
    exec (.vminVX vd vs2 xs c2 vm) s = execVminVX vd vs2 xs c2 vm s := rfl
@[simp] theorem exec_vminVI (vd : BitVec 5) (vs2 : BitVec 5) (simm : BitVec 5) (c2 : BitVec 1) (vm : BitVec 1) (s : State) :
    exec (.vminVI vd vs2 simm c2 vm) s = execVminVI vd vs2 simm c2 vm s := rfl
@[simp] theorem exec_vminVR (vd : BitVec 5) (vs2 : BitVec 5) (vs1 : BitVec 5) (rsz : BitVec 2) (vm : BitVec 1) (s : State) :
    exec (.vminVR vd vs2 vs1 rsz vm) s = execVminVR vd vs2 vs1 rsz vm s := rfl
@[simp] theorem exec_vmaxVV (vd : BitVec 5) (vs2 : BitVec 5) (vs1 : BitVec 5) (c2 : BitVec 1) (c1 : BitVec 1) (vm : BitVec 1) (s : State) :
    exec (.vmaxVV vd vs2 vs1 c2 c1 vm) s = execVmaxVV vd vs2 vs1 c2 c1 vm s := rfl
@[simp] theorem exec_vmaxVX (vd : BitVec 5) (vs2 : BitVec 5) (xs : BitVec 5) (c2 : BitVec 1) (vm : BitVec 1) (s : State) :
    exec (.vmaxVX vd vs2 xs c2 vm) s = execVmaxVX vd vs2 xs c2 vm s := rfl
@[simp] theorem exec_vmaxVI (vd : BitVec 5) (vs2 : BitVec 5) (simm : BitVec 5) (c2 : BitVec 1) (vm : BitVec 1) (s : State) :
    exec (.vmaxVI vd vs2 simm c2 vm) s = execVmaxVI vd vs2 simm c2 vm s := rfl
@[simp] theorem exec_vmaxVR (vd : BitVec 5) (vs2 : BitVec 5) (vs1 : BitVec 5) (rsz : BitVec 2) (vm : BitVec 1) (s : State) :
    exec (.vmaxVR vd vs2 vs1 rsz vm) s = execVmaxVR vd vs2 vs1 rsz vm s := rfl
@[simp] theorem exec_vmseqVV (vd : BitVec 5) (vs2 : BitVec 5) (vs1 : BitVec 5) (c2 : BitVec 1) (c1 : BitVec 1) (vm : BitVec 1) (s : State) :
    exec (.vmseqVV vd vs2 vs1 c2 c1 vm) s = execVmseqVV vd vs2 vs1 c2 c1 vm s := rfl
@[simp] theorem exec_vmseqVX (vd : BitVec 5) (vs2 : BitVec 5) (xs : BitVec 5) (c2 : BitVec 1) (vm : BitVec 1) (s : State) :
    exec (.vmseqVX vd vs2 xs c2 vm) s = execVmseqVX vd vs2 xs c2 vm s := rfl
@[simp] theorem exec_vmseqVI (vd : BitVec 5) (vs2 : BitVec 5) (simm : BitVec 5) (c2 : BitVec 1) (vm : BitVec 1) (s : State) :
    exec (.vmseqVI vd vs2 simm c2 vm) s = execVmseqVI vd vs2 simm c2 vm s := rfl
@[simp] theorem exec_vmseqVR (vd : BitVec 5) (vs2 : BitVec 5) (vs1 : BitVec 5) (rsz : BitVec 2) (vm : BitVec 1) (s : State) :
    exec (.vmseqVR vd vs2 vs1 rsz vm) s = execVmseqVR vd vs2 vs1 rsz vm s := rfl
@[simp] theorem exec_vmsltVV (vd : BitVec 5) (vs2 : BitVec 5) (vs1 : BitVec 5) (c2 : BitVec 1) (c1 : BitVec 1) (vm : BitVec 1) (s : State) :
    exec (.vmsltVV vd vs2 vs1 c2 c1 vm) s = execVmsltVV vd vs2 vs1 c2 c1 vm s := rfl
@[simp] theorem exec_vmsltVX (vd : BitVec 5) (vs2 : BitVec 5) (xs : BitVec 5) (c2 : BitVec 1) (vm : BitVec 1) (s : State) :
    exec (.vmsltVX vd vs2 xs c2 vm) s = execVmsltVX vd vs2 xs c2 vm s := rfl
@[simp] theorem exec_vmsltVI (vd : BitVec 5) (vs2 : BitVec 5) (simm : BitVec 5) (c2 : BitVec 1) (vm : BitVec 1) (s : State) :
    exec (.vmsltVI vd vs2 simm c2 vm) s = execVmsltVI vd vs2 simm c2 vm s := rfl
@[simp] theorem exec_vmsltVR (vd : BitVec 5) (vs2 : BitVec 5) (vs1 : BitVec 5) (rsz : BitVec 2) (vm : BitVec 1) (s : State) :
    exec (.vmsltVR vd vs2 vs1 rsz vm) s = execVmsltVR vd vs2 vs1 rsz vm s := rfl
@[simp] theorem exec_vmsltuVV (vd : BitVec 5) (vs2 : BitVec 5) (vs1 : BitVec 5) (c2 : BitVec 1) (c1 : BitVec 1) (vm : BitVec 1) (s : State) :
    exec (.vmsltuVV vd vs2 vs1 c2 c1 vm) s = execVmsltuVV vd vs2 vs1 c2 c1 vm s := rfl
@[simp] theorem exec_vmsltuVX (vd : BitVec 5) (vs2 : BitVec 5) (xs : BitVec 5) (c2 : BitVec 1) (vm : BitVec 1) (s : State) :
    exec (.vmsltuVX vd vs2 xs c2 vm) s = execVmsltuVX vd vs2 xs c2 vm s := rfl
@[simp] theorem exec_vmsltuVI (vd : BitVec 5) (vs2 : BitVec 5) (simm : BitVec 5) (c2 : BitVec 1) (vm : BitVec 1) (s : State) :
    exec (.vmsltuVI vd vs2 simm c2 vm) s = execVmsltuVI vd vs2 simm c2 vm s := rfl
@[simp] theorem exec_vmsltuVR (vd : BitVec 5) (vs2 : BitVec 5) (vs1 : BitVec 5) (rsz : BitVec 2) (vm : BitVec 1) (s : State) :
    exec (.vmsltuVR vd vs2 vs1 rsz vm) s = execVmsltuVR vd vs2 vs1 rsz vm s := rfl
@[simp] theorem exec_vgatherVV (vd : BitVec 5) (vs2 : BitVec 5) (vs1 : BitVec 5) (c2 : BitVec 1) (c1 : BitVec 1) (vm : BitVec 1) (s : State) :
    exec (.vgatherVV vd vs2 vs1 c2 c1 vm) s = execVgatherVV vd vs2 vs1 c2 c1 vm s := rfl
@[simp] theorem exec_vgatherVX (vd : BitVec 5) (vs2 : BitVec 5) (xs : BitVec 5) (c2 : BitVec 1) (vm : BitVec 1) (s : State) :
    exec (.vgatherVX vd vs2 xs c2 vm) s = execVgatherVX vd vs2 xs c2 vm s := rfl
@[simp] theorem exec_vgatherVI (vd : BitVec 5) (vs2 : BitVec 5) (simm : BitVec 5) (c2 : BitVec 1) (vm : BitVec 1) (s : State) :
    exec (.vgatherVI vd vs2 simm c2 vm) s = execVgatherVI vd vs2 simm c2 vm s := rfl
@[simp] theorem exec_vgatherVR (vd : BitVec 5) (vs2 : BitVec 5) (vs1 : BitVec 5) (rsz : BitVec 2) (vm : BitVec 1) (s : State) :
    exec (.vgatherVR vd vs2 vs1 rsz vm) s = execVgatherVR vd vs2 vs1 rsz vm s := rfl
@[simp] theorem exec_vfaddFVV (vd : BitVec 5) (vs2 : BitVec 5) (vs1 : BitVec 5) (c2 : BitVec 1) (c1 : BitVec 1) (vm : BitVec 1) (s : State) :
    exec (.vfaddFVV vd vs2 vs1 c2 c1 vm) s = execVfaddFVV vd vs2 vs1 c2 c1 vm s := rfl
@[simp] theorem exec_vfaddFVX (vd : BitVec 5) (vs2 : BitVec 5) (xs : BitVec 5) (c2 : BitVec 1) (vm : BitVec 1) (s : State) :
    exec (.vfaddFVX vd vs2 xs c2 vm) s = execVfaddFVX vd vs2 xs c2 vm s := rfl
@[simp] theorem exec_vfaddFVR (vd : BitVec 5) (vs2 : BitVec 5) (vs1 : BitVec 5) (rsz : BitVec 2) (vm : BitVec 1) (s : State) :
    exec (.vfaddFVR vd vs2 vs1 rsz vm) s = execVfaddFVR vd vs2 vs1 rsz vm s := rfl
@[simp] theorem exec_vfsubFVV (vd : BitVec 5) (vs2 : BitVec 5) (vs1 : BitVec 5) (c2 : BitVec 1) (c1 : BitVec 1) (vm : BitVec 1) (s : State) :
    exec (.vfsubFVV vd vs2 vs1 c2 c1 vm) s = execVfsubFVV vd vs2 vs1 c2 c1 vm s := rfl
@[simp] theorem exec_vfsubFVX (vd : BitVec 5) (vs2 : BitVec 5) (xs : BitVec 5) (c2 : BitVec 1) (vm : BitVec 1) (s : State) :
    exec (.vfsubFVX vd vs2 xs c2 vm) s = execVfsubFVX vd vs2 xs c2 vm s := rfl
@[simp] theorem exec_vfsubFVR (vd : BitVec 5) (vs2 : BitVec 5) (vs1 : BitVec 5) (rsz : BitVec 2) (vm : BitVec 1) (s : State) :
    exec (.vfsubFVR vd vs2 vs1 rsz vm) s = execVfsubFVR vd vs2 vs1 rsz vm s := rfl
@[simp] theorem exec_vfmulFVV (vd : BitVec 5) (vs2 : BitVec 5) (vs1 : BitVec 5) (c2 : BitVec 1) (c1 : BitVec 1) (vm : BitVec 1) (s : State) :
    exec (.vfmulFVV vd vs2 vs1 c2 c1 vm) s = execVfmulFVV vd vs2 vs1 c2 c1 vm s := rfl
@[simp] theorem exec_vfmulFVX (vd : BitVec 5) (vs2 : BitVec 5) (xs : BitVec 5) (c2 : BitVec 1) (vm : BitVec 1) (s : State) :
    exec (.vfmulFVX vd vs2 xs c2 vm) s = execVfmulFVX vd vs2 xs c2 vm s := rfl
@[simp] theorem exec_vfmulFVR (vd : BitVec 5) (vs2 : BitVec 5) (vs1 : BitVec 5) (rsz : BitVec 2) (vm : BitVec 1) (s : State) :
    exec (.vfmulFVR vd vs2 vs1 rsz vm) s = execVfmulFVR vd vs2 vs1 rsz vm s := rfl
@[simp] theorem exec_vfdivFVV (vd : BitVec 5) (vs2 : BitVec 5) (vs1 : BitVec 5) (c2 : BitVec 1) (c1 : BitVec 1) (vm : BitVec 1) (s : State) :
    exec (.vfdivFVV vd vs2 vs1 c2 c1 vm) s = execVfdivFVV vd vs2 vs1 c2 c1 vm s := rfl
@[simp] theorem exec_vfdivFVX (vd : BitVec 5) (vs2 : BitVec 5) (xs : BitVec 5) (c2 : BitVec 1) (vm : BitVec 1) (s : State) :
    exec (.vfdivFVX vd vs2 xs c2 vm) s = execVfdivFVX vd vs2 xs c2 vm s := rfl
@[simp] theorem exec_vfdivFVR (vd : BitVec 5) (vs2 : BitVec 5) (vs1 : BitVec 5) (rsz : BitVec 2) (vm : BitVec 1) (s : State) :
    exec (.vfdivFVR vd vs2 vs1 rsz vm) s = execVfdivFVR vd vs2 vs1 rsz vm s := rfl
@[simp] theorem exec_vfmaccFVV (vd : BitVec 5) (vs2 : BitVec 5) (vs1 : BitVec 5) (c2 : BitVec 1) (c1 : BitVec 1) (vm : BitVec 1) (s : State) :
    exec (.vfmaccFVV vd vs2 vs1 c2 c1 vm) s = execVfmaccFVV vd vs2 vs1 c2 c1 vm s := rfl
@[simp] theorem exec_vfmaccFVX (vd : BitVec 5) (vs2 : BitVec 5) (xs : BitVec 5) (c2 : BitVec 1) (vm : BitVec 1) (s : State) :
    exec (.vfmaccFVX vd vs2 xs c2 vm) s = execVfmaccFVX vd vs2 xs c2 vm s := rfl
@[simp] theorem exec_vfmaccFVR (vd : BitVec 5) (vs2 : BitVec 5) (vs1 : BitVec 5) (rsz : BitVec 2) (vm : BitVec 1) (s : State) :
    exec (.vfmaccFVR vd vs2 vs1 rsz vm) s = execVfmaccFVR vd vs2 vs1 rsz vm s := rfl
@[simp] theorem exec_vfnmsacFVV (vd : BitVec 5) (vs2 : BitVec 5) (vs1 : BitVec 5) (c2 : BitVec 1) (c1 : BitVec 1) (vm : BitVec 1) (s : State) :
    exec (.vfnmsacFVV vd vs2 vs1 c2 c1 vm) s = execVfnmsacFVV vd vs2 vs1 c2 c1 vm s := rfl
@[simp] theorem exec_vfnmsacFVX (vd : BitVec 5) (vs2 : BitVec 5) (xs : BitVec 5) (c2 : BitVec 1) (vm : BitVec 1) (s : State) :
    exec (.vfnmsacFVX vd vs2 xs c2 vm) s = execVfnmsacFVX vd vs2 xs c2 vm s := rfl
@[simp] theorem exec_vfnmsacFVR (vd : BitVec 5) (vs2 : BitVec 5) (vs1 : BitVec 5) (rsz : BitVec 2) (vm : BitVec 1) (s : State) :
    exec (.vfnmsacFVR vd vs2 vs1 rsz vm) s = execVfnmsacFVR vd vs2 vs1 rsz vm s := rfl
@[simp] theorem exec_vfminFVV (vd : BitVec 5) (vs2 : BitVec 5) (vs1 : BitVec 5) (c2 : BitVec 1) (c1 : BitVec 1) (vm : BitVec 1) (s : State) :
    exec (.vfminFVV vd vs2 vs1 c2 c1 vm) s = execVfminFVV vd vs2 vs1 c2 c1 vm s := rfl
@[simp] theorem exec_vfminFVX (vd : BitVec 5) (vs2 : BitVec 5) (xs : BitVec 5) (c2 : BitVec 1) (vm : BitVec 1) (s : State) :
    exec (.vfminFVX vd vs2 xs c2 vm) s = execVfminFVX vd vs2 xs c2 vm s := rfl
@[simp] theorem exec_vfminFVR (vd : BitVec 5) (vs2 : BitVec 5) (vs1 : BitVec 5) (rsz : BitVec 2) (vm : BitVec 1) (s : State) :
    exec (.vfminFVR vd vs2 vs1 rsz vm) s = execVfminFVR vd vs2 vs1 rsz vm s := rfl
@[simp] theorem exec_vfmaxFVV (vd : BitVec 5) (vs2 : BitVec 5) (vs1 : BitVec 5) (c2 : BitVec 1) (c1 : BitVec 1) (vm : BitVec 1) (s : State) :
    exec (.vfmaxFVV vd vs2 vs1 c2 c1 vm) s = execVfmaxFVV vd vs2 vs1 c2 c1 vm s := rfl
@[simp] theorem exec_vfmaxFVX (vd : BitVec 5) (vs2 : BitVec 5) (xs : BitVec 5) (c2 : BitVec 1) (vm : BitVec 1) (s : State) :
    exec (.vfmaxFVX vd vs2 xs c2 vm) s = execVfmaxFVX vd vs2 xs c2 vm s := rfl
@[simp] theorem exec_vfmaxFVR (vd : BitVec 5) (vs2 : BitVec 5) (vs1 : BitVec 5) (rsz : BitVec 2) (vm : BitVec 1) (s : State) :
    exec (.vfmaxFVR vd vs2 vs1 rsz vm) s = execVfmaxFVR vd vs2 vs1 rsz vm s := rfl
@[simp] theorem exec_vfmfeqFVV (vd : BitVec 5) (vs2 : BitVec 5) (vs1 : BitVec 5) (c2 : BitVec 1) (c1 : BitVec 1) (vm : BitVec 1) (s : State) :
    exec (.vfmfeqFVV vd vs2 vs1 c2 c1 vm) s = execVfmfeqFVV vd vs2 vs1 c2 c1 vm s := rfl
@[simp] theorem exec_vfmfeqFVX (vd : BitVec 5) (vs2 : BitVec 5) (xs : BitVec 5) (c2 : BitVec 1) (vm : BitVec 1) (s : State) :
    exec (.vfmfeqFVX vd vs2 xs c2 vm) s = execVfmfeqFVX vd vs2 xs c2 vm s := rfl
@[simp] theorem exec_vfmfeqFVR (vd : BitVec 5) (vs2 : BitVec 5) (vs1 : BitVec 5) (rsz : BitVec 2) (vm : BitVec 1) (s : State) :
    exec (.vfmfeqFVR vd vs2 vs1 rsz vm) s = execVfmfeqFVR vd vs2 vs1 rsz vm s := rfl
@[simp] theorem exec_vfmfltFVV (vd : BitVec 5) (vs2 : BitVec 5) (vs1 : BitVec 5) (c2 : BitVec 1) (c1 : BitVec 1) (vm : BitVec 1) (s : State) :
    exec (.vfmfltFVV vd vs2 vs1 c2 c1 vm) s = execVfmfltFVV vd vs2 vs1 c2 c1 vm s := rfl
@[simp] theorem exec_vfmfltFVX (vd : BitVec 5) (vs2 : BitVec 5) (xs : BitVec 5) (c2 : BitVec 1) (vm : BitVec 1) (s : State) :
    exec (.vfmfltFVX vd vs2 xs c2 vm) s = execVfmfltFVX vd vs2 xs c2 vm s := rfl
@[simp] theorem exec_vfmfltFVR (vd : BitVec 5) (vs2 : BitVec 5) (vs1 : BitVec 5) (rsz : BitVec 2) (vm : BitVec 1) (s : State) :
    exec (.vfmfltFVR vd vs2 vs1 rsz vm) s = execVfmfltFVR vd vs2 vs1 rsz vm s := rfl
@[simp] theorem exec_vfmfleFVV (vd : BitVec 5) (vs2 : BitVec 5) (vs1 : BitVec 5) (c2 : BitVec 1) (c1 : BitVec 1) (vm : BitVec 1) (s : State) :
    exec (.vfmfleFVV vd vs2 vs1 c2 c1 vm) s = execVfmfleFVV vd vs2 vs1 c2 c1 vm s := rfl
@[simp] theorem exec_vfmfleFVX (vd : BitVec 5) (vs2 : BitVec 5) (xs : BitVec 5) (c2 : BitVec 1) (vm : BitVec 1) (s : State) :
    exec (.vfmfleFVX vd vs2 xs c2 vm) s = execVfmfleFVX vd vs2 xs c2 vm s := rfl
@[simp] theorem exec_vfmfleFVR (vd : BitVec 5) (vs2 : BitVec 5) (vs1 : BitVec 5) (rsz : BitVec 2) (vm : BitVec 1) (s : State) :
    exec (.vfmfleFVR vd vs2 vs1 rsz vm) s = execVfmfleFVR vd vs2 vs1 rsz vm s := rfl
@[simp] theorem exec_vcvtq4 (vd : BitVec 5) (vs2 : BitVec 5) (vs1 : BitVec 5) (c2 : BitVec 1) (c1 : BitVec 1) (vm : BitVec 1) (s : State) :
    exec (.vcvtq4 vd vs2 vs1 c2 c1 vm) s = execVcvtq4 vd vs2 vs1 c2 c1 vm s := rfl
@[simp] theorem exec_vfsgnjFVV (vd : BitVec 5) (vs2 : BitVec 5) (vs1 : BitVec 5) (c2 : BitVec 1) (c1 : BitVec 1) (vm : BitVec 1) (s : State) :
    exec (.vfsgnjFVV vd vs2 vs1 c2 c1 vm) s = execVfsgnjFVV vd vs2 vs1 c2 c1 vm s := rfl
@[simp] theorem exec_vfsgnjFVX (vd : BitVec 5) (vs2 : BitVec 5) (xs : BitVec 5) (c2 : BitVec 1) (vm : BitVec 1) (s : State) :
    exec (.vfsgnjFVX vd vs2 xs c2 vm) s = execVfsgnjFVX vd vs2 xs c2 vm s := rfl
@[simp] theorem exec_vfsgnjFVR (vd : BitVec 5) (vs2 : BitVec 5) (vs1 : BitVec 5) (rsz : BitVec 2) (vm : BitVec 1) (s : State) :
    exec (.vfsgnjFVR vd vs2 vs1 rsz vm) s = execVfsgnjFVR vd vs2 vs1 rsz vm s := rfl
@[simp] theorem exec_vfsgnjnFVV (vd : BitVec 5) (vs2 : BitVec 5) (vs1 : BitVec 5) (c2 : BitVec 1) (c1 : BitVec 1) (vm : BitVec 1) (s : State) :
    exec (.vfsgnjnFVV vd vs2 vs1 c2 c1 vm) s = execVfsgnjnFVV vd vs2 vs1 c2 c1 vm s := rfl
@[simp] theorem exec_vfsgnjnFVX (vd : BitVec 5) (vs2 : BitVec 5) (xs : BitVec 5) (c2 : BitVec 1) (vm : BitVec 1) (s : State) :
    exec (.vfsgnjnFVX vd vs2 xs c2 vm) s = execVfsgnjnFVX vd vs2 xs c2 vm s := rfl
@[simp] theorem exec_vfsgnjnFVR (vd : BitVec 5) (vs2 : BitVec 5) (vs1 : BitVec 5) (rsz : BitVec 2) (vm : BitVec 1) (s : State) :
    exec (.vfsgnjnFVR vd vs2 vs1 rsz vm) s = execVfsgnjnFVR vd vs2 vs1 rsz vm s := rfl
@[simp] theorem exec_vfsgnjxFVV (vd : BitVec 5) (vs2 : BitVec 5) (vs1 : BitVec 5) (c2 : BitVec 1) (c1 : BitVec 1) (vm : BitVec 1) (s : State) :
    exec (.vfsgnjxFVV vd vs2 vs1 c2 c1 vm) s = execVfsgnjxFVV vd vs2 vs1 c2 c1 vm s := rfl
@[simp] theorem exec_vfsgnjxFVX (vd : BitVec 5) (vs2 : BitVec 5) (xs : BitVec 5) (c2 : BitVec 1) (vm : BitVec 1) (s : State) :
    exec (.vfsgnjxFVX vd vs2 xs c2 vm) s = execVfsgnjxFVX vd vs2 xs c2 vm s := rfl
@[simp] theorem exec_vfsgnjxFVR (vd : BitVec 5) (vs2 : BitVec 5) (vs1 : BitVec 5) (rsz : BitVec 2) (vm : BitVec 1) (s : State) :
    exec (.vfsgnjxFVR vd vs2 vs1 rsz vm) s = execVfsgnjxFVR vd vs2 vs1 rsz vm s := rfl
@[simp] theorem exec_vfscaleFVV (vd : BitVec 5) (vs2 : BitVec 5) (vs1 : BitVec 5) (c2 : BitVec 1) (c1 : BitVec 1) (vm : BitVec 1) (s : State) :
    exec (.vfscaleFVV vd vs2 vs1 c2 c1 vm) s = execVfscaleFVV vd vs2 vs1 c2 c1 vm s := rfl
@[simp] theorem exec_vfscaleFVX (vd : BitVec 5) (vs2 : BitVec 5) (xs : BitVec 5) (c2 : BitVec 1) (vm : BitVec 1) (s : State) :
    exec (.vfscaleFVX vd vs2 xs c2 vm) s = execVfscaleFVX vd vs2 xs c2 vm s := rfl
@[simp] theorem exec_vfscaleFVR (vd : BitVec 5) (vs2 : BitVec 5) (vs1 : BitVec 5) (rsz : BitVec 2) (vm : BitVec 1) (s : State) :
    exec (.vfscaleFVR vd vs2 vs1 rsz vm) s = execVfscaleFVR vd vs2 vs1 rsz vm s := rfl
@[simp] theorem exec_vmv (vd : BitVec 5) (vs2 : BitVec 5) (c2 : BitVec 1) (vm : BitVec 1) (s : State) :
    exec (.vmv vd vs2 c2 vm) s = execVmv vd vs2 c2 vm s := rfl
@[simp] theorem exec_vsplat (vd : BitVec 5) (xs : BitVec 5) (vm : BitVec 1) (s : State) :
    exec (.vsplat vd xs vm) s = execVsplat vd xs vm s := rfl
@[simp] theorem exec_vmvsx (vd : BitVec 5) (xs : BitVec 5) (s : State) :
    exec (.vmvsx vd xs) s = execVmvsx vd xs s := rfl
@[simp] theorem exec_vmvxs (xd : BitVec 5) (vs2 : BitVec 5) (c2 : BitVec 1) (s : State) :
    exec (.vmvxs xd vs2 c2) s = execVmvxs xd vs2 c2 s := rfl
@[simp] theorem exec_vid (vd : BitVec 5) (vm : BitVec 1) (s : State) :
    exec (.vid vd vm) s = execVid vd vm s := rfl
@[simp] theorem exec_vredsum (vd : BitVec 5) (vs2 : BitVec 5) (c2 : BitVec 1) (vm : BitVec 1) (s : State) :
    exec (.vredsum vd vs2 c2 vm) s = execVredsum vd vs2 c2 vm s := rfl
@[simp] theorem exec_vredmin (vd : BitVec 5) (vs2 : BitVec 5) (c2 : BitVec 1) (vm : BitVec 1) (s : State) :
    exec (.vredmin vd vs2 c2 vm) s = execVredmin vd vs2 c2 vm s := rfl
@[simp] theorem exec_vredmax (vd : BitVec 5) (vs2 : BitVec 5) (c2 : BitVec 1) (vm : BitVec 1) (s : State) :
    exec (.vredmax vd vs2 c2 vm) s = execVredmax vd vs2 c2 vm s := rfl
@[simp] theorem exec_vredand (vd : BitVec 5) (vs2 : BitVec 5) (c2 : BitVec 1) (vm : BitVec 1) (s : State) :
    exec (.vredand vd vs2 c2 vm) s = execVredand vd vs2 c2 vm s := rfl
@[simp] theorem exec_vredor (vd : BitVec 5) (vs2 : BitVec 5) (c2 : BitVec 1) (vm : BitVec 1) (s : State) :
    exec (.vredor vd vs2 c2 vm) s = execVredor vd vs2 c2 vm s := rfl
@[simp] theorem exec_vredxor (vd : BitVec 5) (vs2 : BitVec 5) (c2 : BitVec 1) (vm : BitVec 1) (s : State) :
    exec (.vredxor vd vs2 c2 vm) s = execVredxor vd vs2 c2 vm s := rfl
@[simp] theorem exec_vmpopc (vd : BitVec 5) (vs2 : BitVec 5) (c2 : BitVec 1) (vm : BitVec 1) (s : State) :
    exec (.vmpopc vd vs2 c2 vm) s = execVmpopc vd vs2 c2 vm s := rfl
@[simp] theorem exec_vmfirst (vd : BitVec 5) (vs2 : BitVec 5) (c2 : BitVec 1) (vm : BitVec 1) (s : State) :
    exec (.vmfirst vd vs2 c2 vm) s = execVmfirst vd vs2 c2 vm s := rfl
@[simp] theorem exec_vcompress (vd : BitVec 5) (vs2 : BitVec 5) (c2 : BitVec 1) (s : State) :
    exec (.vcompress vd vs2 c2) s = execVcompress vd vs2 c2 s := rfl
@[simp] theorem exec_vrng (vd : BitVec 5) (vm : BitVec 1) (s : State) :
    exec (.vrng vd vm) s = execVrng vd vm s := rfl
@[simp] theorem exec_vfrecip (vd : BitVec 5) (vs2 : BitVec 5) (c2 : BitVec 1) (vm : BitVec 1) (s : State) :
    exec (.vfrecip vd vs2 c2 vm) s = execVfrecip vd vs2 c2 vm s := rfl
@[simp] theorem exec_vfrsqrt (vd : BitVec 5) (vs2 : BitVec 5) (c2 : BitVec 1) (vm : BitVec 1) (s : State) :
    exec (.vfrsqrt vd vs2 c2 vm) s = execVfrsqrt vd vs2 c2 vm s := rfl
@[simp] theorem exec_vfexp2 (vd : BitVec 5) (vs2 : BitVec 5) (c2 : BitVec 1) (vm : BitVec 1) (s : State) :
    exec (.vfexp2 vd vs2 c2 vm) s = execVfexp2 vd vs2 c2 vm s := rfl
@[simp] theorem exec_vflog2 (vd : BitVec 5) (vs2 : BitVec 5) (c2 : BitVec 1) (vm : BitVec 1) (s : State) :
    exec (.vflog2 vd vs2 c2 vm) s = execVflog2 vd vs2 c2 vm s := rfl
@[simp] theorem exec_vfsqrt (vd : BitVec 5) (vs2 : BitVec 5) (c2 : BitVec 1) (vm : BitVec 1) (s : State) :
    exec (.vfsqrt vd vs2 c2 vm) s = execVfsqrt vd vs2 c2 vm s := rfl
@[simp] theorem exec_vfclass (vd : BitVec 5) (vs2 : BitVec 5) (c2 : BitVec 1) (vm : BitVec 1) (s : State) :
    exec (.vfclass vd vs2 c2 vm) s = execVfclass vd vs2 c2 vm s := rfl
@[simp] theorem exec_vfredsum (vd : BitVec 5) (vs2 : BitVec 5) (c2 : BitVec 1) (vm : BitVec 1) (s : State) :
    exec (.vfredsum vd vs2 c2 vm) s = execVfredsum vd vs2 c2 vm s := rfl
@[simp] theorem exec_vfredosum (vd : BitVec 5) (vs2 : BitVec 5) (c2 : BitVec 1) (vm : BitVec 1) (s : State) :
    exec (.vfredosum vd vs2 c2 vm) s = execVfredosum vd vs2 c2 vm s := rfl
@[simp] theorem exec_vfredmin (vd : BitVec 5) (vs2 : BitVec 5) (c2 : BitVec 1) (vm : BitVec 1) (s : State) :
    exec (.vfredmin vd vs2 c2 vm) s = execVfredmin vd vs2 c2 vm s := rfl
@[simp] theorem exec_vfredmax (vd : BitVec 5) (vs2 : BitVec 5) (c2 : BitVec 1) (vm : BitVec 1) (s : State) :
    exec (.vfredmax vd vs2 c2 vm) s = execVfredmax vd vs2 c2 vm s := rfl
@[simp] theorem exec_vncvt (vd : BitVec 5) (vs2 : BitVec 5) (c2 : BitVec 1) (vm : BitVec 1) (s : State) :
    exec (.vncvt vd vs2 c2 vm) s = execVncvt vd vs2 c2 vm s := rfl
@[simp] theorem exec_vwcvt (vd : BitVec 5) (vs2 : BitVec 5) (c2 : BitVec 1) (vm : BitVec 1) (s : State) :
    exec (.vwcvt vd vs2 c2 vm) s = execVwcvt vd vs2 c2 vm s := rfl
@[simp] theorem exec_vncvti (vd : BitVec 5) (vs2 : BitVec 5) (c2 : BitVec 1) (vm : BitVec 1) (s : State) :
    exec (.vncvti vd vs2 c2 vm) s = execVncvti vd vs2 c2 vm s := rfl
@[simp] theorem exec_vwcvti (vd : BitVec 5) (vs2 : BitVec 5) (c2 : BitVec 1) (vm : BitVec 1) (s : State) :
    exec (.vwcvti vd vs2 c2 vm) s = execVwcvti vd vs2 c2 vm s := rfl
@[simp] theorem exec_vwcvtn (vd : BitVec 5) (vs2 : BitVec 5) (c2 : BitVec 1) (vm : BitVec 1) (s : State) :
    exec (.vwcvtn vd vs2 c2 vm) s = execVwcvtn vd vs2 c2 vm s := rfl
@[simp] theorem exec_vcvtif (vd : BitVec 5) (vs2 : BitVec 5) (c2 : BitVec 1) (vm : BitVec 1) (s : State) :
    exec (.vcvtif vd vs2 c2 vm) s = execVcvtif vd vs2 c2 vm s := rfl
@[simp] theorem exec_vcvtfi (vd : BitVec 5) (vs2 : BitVec 5) (c2 : BitVec 1) (vm : BitVec 1) (s : State) :
    exec (.vcvtfi vd vs2 c2 vm) s = execVcvtfi vd vs2 c2 vm s := rfl
@[simp] theorem exec_vbscale (vd : BitVec 5) (vs2 : BitVec 5) (c2 : BitVec 1) (vm : BitVec 1) (s : State) :
    exec (.vbscale vd vs2 c2 vm) s = execVbscale vd vs2 c2 vm s := rfl
@[simp] theorem exec_vle (vd : BitVec 5) (rs1 : BitVec 5) (pol : BitVec 2) (eew : BitVec 3) (vm : BitVec 1) (s : State) :
    exec (.vle vd rs1 pol eew vm) s = execVle vd rs1 pol eew vm s := rfl
@[simp] theorem exec_vlse (vd : BitVec 5) (rs1 : BitVec 5) (rs2 : BitVec 5) (pol : BitVec 2) (eew : BitVec 3) (vm : BitVec 1) (s : State) :
    exec (.vlse vd rs1 rs2 pol eew vm) s = execVlse vd rs1 rs2 pol eew vm s := rfl
@[simp] theorem exec_vlxe (vd : BitVec 5) (vs2 : BitVec 5) (rs1 : BitVec 5) (pol : BitVec 2) (eew : BitVec 3) (c : BitVec 1) (vm : BitVec 1) (s : State) :
    exec (.vlxe vd vs2 rs1 pol eew c vm) s = execVlxe vd vs2 rs1 pol eew c vm s := rfl
@[simp] theorem exec_vse (vs3 : BitVec 5) (rs1 : BitVec 5) (pol : BitVec 2) (eew : BitVec 3) (c : BitVec 1) (vm : BitVec 1) (s : State) :
    exec (.vse vs3 rs1 pol eew c vm) s = execVse vs3 rs1 pol eew c vm s := rfl
@[simp] theorem exec_vsse (vs3 : BitVec 5) (rs1 : BitVec 5) (rs2 : BitVec 5) (pol : BitVec 2) (eew : BitVec 3) (c : BitVec 1) (vm : BitVec 1) (s : State) :
    exec (.vsse vs3 rs1 rs2 pol eew c vm) s = execVsse vs3 rs1 rs2 pol eew c vm s := rfl
@[simp] theorem exec_vsxe (vs3 : BitVec 5) (vs2 : BitVec 5) (rs1 : BitVec 5) (pol : BitVec 2) (eew : BitVec 3) (c : BitVec 1) (vm : BitVec 1) (s : State) :
    exec (.vsxe vs3 vs2 rs1 pol eew c vm) s = execVsxe vs3 vs2 rs1 pol eew c vm s := rfl
@[simp] theorem exec_vappend (vs3 : BitVec 5) (rs1 : BitVec 5) (pol : BitVec 2) (eew : BitVec 3) (c : BitVec 1) (vm : BitVec 1) (s : State) :
    exec (.vappend vs3 rs1 pol eew c vm) s = execVappend vs3 rs1 pol eew c vm s := rfl
@[simp] theorem exec_vamoadd (vd : BitVec 5) (vs2 : BitVec 5) (rs1 : BitVec 5) (eew : BitVec 3) (vm : BitVec 1) (s : State) :
    exec (.vamoadd vd vs2 rs1 eew vm) s = execVamoadd vd vs2 rs1 eew vm s := rfl
@[simp] theorem exec_vamomin (vd : BitVec 5) (vs2 : BitVec 5) (rs1 : BitVec 5) (eew : BitVec 3) (vm : BitVec 1) (s : State) :
    exec (.vamomin vd vs2 rs1 eew vm) s = execVamomin vd vs2 rs1 eew vm s := rfl
@[simp] theorem exec_vamomax (vd : BitVec 5) (vs2 : BitVec 5) (rs1 : BitVec 5) (eew : BitVec 3) (vm : BitVec 1) (s : State) :
    exec (.vamomax vd vs2 rs1 eew vm) s = execVamomax vd vs2 rs1 eew vm s := rfl
@[simp] theorem exec_vamoswap (vd : BitVec 5) (vs2 : BitVec 5) (rs1 : BitVec 5) (eew : BitVec 3) (vm : BitVec 1) (s : State) :
    exec (.vamoswap vd vs2 rs1 eew vm) s = execVamoswap vd vs2 rs1 eew vm s := rfl
@[simp] theorem exec_vamoxor (vd : BitVec 5) (vs2 : BitVec 5) (rs1 : BitVec 5) (eew : BitVec 3) (vm : BitVec 1) (s : State) :
    exec (.vamoxor vd vs2 rs1 eew vm) s = execVamoxor vd vs2 rs1 eew vm s := rfl
@[simp] theorem exec_mopa (md : BitVec 3) (vs2 : BitVec 5) (vs1 : BitVec 5) (c2 : BitVec 1) (c1 : BitVec 1) (vm : BitVec 1) (s : State) :
    exec (.mopa md vs2 vs1 c2 c1 vm) s = execMopa md vs2 vs1 c2 c1 vm s := rfl
@[simp] theorem exec_mopd (md : BitVec 3) (vs2 : BitVec 5) (vs1 : BitVec 5) (c2 : BitVec 1) (c1 : BitVec 1) (vm : BitVec 1) (s : State) :
    exec (.mopd md vs2 vs1 c2 c1 vm) s = execMopd md vs2 vs1 c2 c1 vm s := rfl
@[simp] theorem exec_mzero (md : BitVec 3) (s : State) :
    exec (.mzero md) s = execMzero md s := rfl
@[simp] theorem exec_mcupd (xb : BitVec 5) (vs2 : BitVec 5) (vs1 : BitVec 5) (c2 : BitVec 1) (c1 : BitVec 1) (vm : BitVec 1) (s : State) :
    exec (.mcupd xb vs2 vs1 c2 c1 vm) s = execMcupd xb vs2 vs1 c2 c1 vm s := rfl
@[simp] theorem exec_mdrain (vd : BitVec 5) (md : BitVec 3) (xs : BitVec 5) (vm : BitVec 1) (s : State) :
    exec (.mdrain vd md xs vm) s = execMdrain vd md xs vm s := rfl
@[simp] theorem exec_mdrainq (vd : BitVec 5) (md : BitVec 3) (xs : BitVec 5) (vm : BitVec 1) (s : State) :
    exec (.mdrainq vd md xs vm) s = execMdrainq vd md xs vm s := rfl
@[simp] theorem exec_mbest (vd : BitVec 5) (md : BitVec 3) (vm : BitVec 1) (s : State) :
    exec (.mbest vd md vm) s = execMbest vd md vm s := rfl
@[simp] theorem exec_mld (md : BitVec 3) (xa : BitVec 5) (xs : BitVec 5) (s : State) :
    exec (.mld md xa xs) s = execMld md xa xs s := rfl
@[simp] theorem exec_mst (md : BitVec 3) (xa : BitVec 5) (xs : BitVec 5) (s : State) :
    exec (.mst md xa xs) s = execMst md xa xs s := rfl
@[simp] theorem exec_mfetch (md : BitVec 3) (xb : BitVec 5) (xa : BitVec 5) (s : State) :
    exec (.mfetch md xb xa) s = execMfetch md xb xa s := rfl
@[simp] theorem exec_vpmul (vd : BitVec 5) (fl : BitVec 2) (vs2 : BitVec 5) (vs1 : BitVec 5) (c2 : BitVec 1) (c1 : BitVec 1) (vm : BitVec 1) (s : State) :
    exec (.vpmul vd fl vs2 vs1 c2 c1 vm) s = execVpmul vd fl vs2 vs1 c2 c1 vm s := rfl
@[simp] theorem exec_vpmacc (vd : BitVec 5) (fl : BitVec 2) (vs2 : BitVec 5) (vs1 : BitVec 5) (c2 : BitVec 1) (c1 : BitVec 1) (vm : BitVec 1) (s : State) :
    exec (.vpmacc vd fl vs2 vs1 c2 c1 vm) s = execVpmacc vd fl vs2 vs1 c2 c1 vm s := rfl
@[simp] theorem exec_vpconv (vd : BitVec 5) (fl : BitVec 2) (vs2 : BitVec 5) (vs1 : BitVec 5) (cb : BitVec 1) (c2 : BitVec 1) (vm : BitVec 1) (s : State) :
    exec (.vpconv vd fl vs2 vs1 cb c2 vm) s = execVpconv vd fl vs2 vs1 cb c2 vm s := rfl
@[simp] theorem exec_vpguard (vd : BitVec 5) (fl : BitVec 2) (vs2 : BitVec 5) (vs1 : BitVec 5) (c2 : BitVec 1) (c1 : BitVec 1) (vm : BitVec 1) (s : State) :
    exec (.vpguard vd fl vs2 vs1 c2 c1 vm) s = execVpguard vd fl vs2 vs1 c2 c1 vm s := rfl
@[simp] theorem exec_vpack (vd : BitVec 5) (fl : BitVec 2) (vs2 : BitVec 5) (c2 : BitVec 1) (vm : BitVec 1) (s : State) :
    exec (.vpack vd fl vs2 c2 vm) s = execVpack vd fl vs2 c2 vm s := rfl
@[simp] theorem exec_vunpack (vd : BitVec 5) (fl : BitVec 2) (vs2 : BitVec 5) (c2 : BitVec 1) (vm : BitVec 1) (s : State) :
    exec (.vunpack vd fl vs2 c2 vm) s = execVunpack vd fl vs2 c2 vm s := rfl
@[simp] theorem exec_vpext (vd : BitVec 5) (fl : BitVec 2) (vs2 : BitVec 5) (j : BitVec 3) (c2 : BitVec 1) (vm : BitVec 1) (s : State) :
    exec (.vpext vd fl vs2 j c2 vm) s = execVpext vd fl vs2 j c2 vm s := rfl
@[simp] theorem exec_flset (fl : BitVec 2) (xs : BitVec 5) (s : State) :
    exec (.flset fl xs) s = execFlset fl xs s := rfl
@[simp] theorem exec_flget (xd : BitVec 5) (fl : BitVec 2) (s : State) :
    exec (.flget xd fl) s = execFlget xd fl s := rfl
@[simp] theorem exec_msetshape (xs : BitVec 5) (s : State) :
    exec (.msetshape xs) s = execMsetshape xs s := rfl
@[simp] theorem exec_msetcfg (xs : BitVec 5) (s : State) :
    exec (.msetcfg xs) s = execMsetcfg xs s := rfl
@[simp] theorem exec_mgetstat (xd : BitVec 5) (s : State) :
    exec (.mgetstat xd) s = execMgetstat xd s := rfl
@[simp] theorem exec_mclrstat (s : State) :
    exec (.mclrstat) s = execMclrstat s := rfl
@[simp] theorem exec_vblk (xs : BitVec 5) (s : State) :
    exec (.vblk xs) s = execVblk xs s := rfl
@[simp] theorem exec_vreply (xd : BitVec 5) (s : State) :
    exec (.vreply xd) s = execVreply xd s := rfl
@[simp] theorem exec_vdrainq (s : State) :
    exec (.vdrainq) s = execVdrainq s := rfl
@[simp] theorem exec_vstrip (lc : BitVec 2) (s : State) :
    exec (.vstrip lc) s = execVstrip lc s := rfl
@[simp] theorem exec_vloop (lc : BitVec 2) (xs : BitVec 5) (s : State) :
    exec (.vloop lc xs) s = execVloop lc xs s := rfl
@[simp] theorem exec_vlbnz (lc : BitVec 2) (dist : BitVec 10) (s : State) :
    exec (.vlbnz lc dist) s = execVlbnz lc dist s := rfl
@[simp] theorem exec_baddi (xd : BitVec 5) (simm : BitVec 10) (s : State) :
    exec (.baddi xd simm) s = execBaddi xd simm s := rfl
@[simp] theorem exec_baddvl (xd : BitVec 5) (sh : BitVec 3) (s : State) :
    exec (.baddvl xd sh) s = execBaddvl xd sh s := rfl
@[simp] theorem exec_vcond (vs2 : BitVec 5) (c2 : BitVec 1) (vm : BitVec 1) (s : State) :
    exec (.vcond vs2 c2 vm) s = execVcond vs2 c2 vm s := rfl
@[simp] theorem exec_vpost (xs : BitVec 5) (s : State) :
    exec (.vpost xs) s = execVpost xs s := rfl
@[simp] theorem exec_vsplit (off : BitVec 10) (vm : BitVec 1) (s : State) :
    exec (.vsplit off vm) s = execVsplit off vm s := rfl
@[simp] theorem exec_lbeq (vs2 : BitVec 5) (vs1 : BitVec 5) (off : BitVec 8) (s : State) :
    exec (.lbeq vs2 vs1 off) s = execLbeq vs2 vs1 off s := rfl
@[simp] theorem exec_lbne (vs2 : BitVec 5) (vs1 : BitVec 5) (off : BitVec 8) (s : State) :
    exec (.lbne vs2 vs1 off) s = execLbne vs2 vs1 off s := rfl
@[simp] theorem exec_lblt (vs2 : BitVec 5) (vs1 : BitVec 5) (off : BitVec 8) (s : State) :
    exec (.lblt vs2 vs1 off) s = execLblt vs2 vs1 off s := rfl
@[simp] theorem exec_lbge (vs2 : BitVec 5) (vs1 : BitVec 5) (off : BitVec 8) (s : State) :
    exec (.lbge vs2 vs1 off) s = execLbge vs2 vs1 off s := rfl
@[simp] theorem exec_ljmp (off : BitVec 10) (s : State) :
    exec (.ljmp off) s = execLjmp off s := rfl
@[simp] theorem exec_ljoin (s : State) :
    exec (.ljoin) s = execLjoin s := rfl
@[simp] theorem exec_vsetcfgi (rd : BitVec 5) (imm : BitVec 14) (s : State) :
    exec (.vsetcfgi rd imm) s = execVsetcfgi rd imm s := rfl
@[simp] theorem exec_vsetcfg (rd : BitVec 5) (rs1 : BitVec 5) (s : State) :
    exec (.vsetcfg rd rs1) s = execVsetcfg rd rs1 s := rfl
@[simp] theorem exec_vdecl (code : BitVec 5) (s : State) :
    exec (.vdecl code) s = execVdecl code s := rfl
@[simp] theorem exec_sybind (rs1 : BitVec 5) (rs2 : BitVec 5) (rs3 : BitVec 5) (s : State) :
    exec (.sybind rs1 rs2 rs3) s = execSybind rs1 rs2 rs3 s := rfl
@[simp] theorem exec_acq (rs1 : BitVec 5) (scope : BitVec 3) (s : State) :
    exec (.acq rs1 scope) s = execAcq rs1 scope s := rfl
@[simp] theorem exec_rel (rs1 : BitVec 5) (scope : BitVec 3) (s : State) :
    exec (.rel rs1 scope) s = execRel rs1 scope s := rfl
@[simp] theorem exec_fencev (scope : BitVec 3) (s : State) :
    exec (.fencev scope) s = execFencev scope s := rfl
@[simp] theorem exec_bara (rs1 : BitVec 5) (scope : BitVec 3) (s : State) :
    exec (.bara rs1 scope) s = execBara rs1 scope s := rfl
@[simp] theorem exec_barw (rs1 : BitVec 5) (scope : BitVec 3) (s : State) :
    exec (.barw rs1 scope) s = execBarw rs1 scope s := rfl
@[simp] theorem exec_publish (rs1 : BitVec 5) (s : State) :
    exec (.publish rs1) s = execPublish rs1 s := rfl
@[simp] theorem exec_cpy (rd : BitVec 5) (pair : BitVec 4) (rs1 : BitVec 5) (rs2 : BitVec 5) (s : State) :
    exec (.cpy rd pair rs1 rs2) s = execCpy rd pair rs1 rs2 s := rfl
@[simp] theorem exec_cpyc (rd : BitVec 5) (pair : BitVec 4) (rs1 : BitVec 5) (rs2 : BitVec 5) (trap : BitVec 1) (s : State) :
    exec (.cpyc rd pair rs1 rs2 trap) s = execCpyc rd pair rs1 rs2 trap s := rfl
@[simp] theorem exec_cpyx (rd : BitVec 5) (pair : BitVec 4) (rs1 : BitVec 5) (rs2 : BitVec 5) (trap : BitVec 1) (s : State) :
    exec (.cpyx rd pair rs1 rs2 trap) s = execCpyx rd pair rs1 rs2 trap s := rfl
@[simp] theorem exec_stmap (rs1 : BitVec 5) (rs2 : BitVec 5) (rs3 : BitVec 5) (s : State) :
    exec (.stmap rs1 rs2 rs3) s = execStmap rs1 rs2 rs3 s := rfl
@[simp] theorem exec_stunmap (rs1 : BitVec 5) (s : State) :
    exec (.stunmap rs1) s = execStunmap rs1 s := rfl
@[simp] theorem exec_stwb (rs1 : BitVec 5) (rs2 : BitVec 5) (s : State) :
    exec (.stwb rs1 rs2) s = execStwb rs1 rs2 s := rfl
@[simp] theorem exec_stdrop (rs1 : BitVec 5) (rs2 : BitVec 5) (s : State) :
    exec (.stdrop rs1 rs2) s = execStdrop rs1 rs2 s := rfl
@[simp] theorem exec_l2pin (n : BitVec 3) (rs1 : BitVec 5) (rs2 : BitVec 5) (ways : BitVec 5) (s : State) :
    exec (.l2pin n rs1 rs2 ways) s = execL2pin n rs1 rs2 ways s := rfl
@[simp] theorem exec_l2unpin (n : BitVec 3) (s : State) :
    exec (.l2unpin n) s = execL2unpin n s := rfl
@[simp] theorem exec_sbind (vd : BitVec 5) (rs1 : BitVec 5) (s : State) :
    exec (.sbind vd rs1) s = execSbind vd rs1 s := rfl
@[simp] theorem exec_sunbind (vd : BitVec 5) (s : State) :
    exec (.sunbind vd) s = execSunbind vd s := rfl
@[simp] theorem exec_vfxadd (vs2 : BitVec 5) (rs1 : BitVec 5) (s : State) :
    exec (.vfxadd vs2 rs1) s = execVfxadd vs2 rs1 s := rfl
@[simp] theorem exec_fxrd (vd : BitVec 5) (rs1 : BitVec 5) (fmt : BitVec 2) (s : State) :
    exec (.fxrd vd rs1 fmt) s = execFxrd vd rs1 fmt s := rfl
@[simp] theorem exec_fxclr (rs1 : BitVec 5) (rs2 : BitVec 5) (s : State) :
    exec (.fxclr rs1 rs2) s = execFxclr rs1 rs2 s := rfl
@[simp] theorem exec_tdone (s : State) :
    exec (.tdone) s = execTdone s := rfl
@[simp] theorem exec_tspawn (rs1 : BitVec 5) (s : State) :
    exec (.tspawn rs1) s = execTspawn rs1 s := rfl
@[simp] theorem exec_tyield (s : State) :
    exec (.tyield) s = execTyield s := rfl
@[simp] theorem exec_tinfo (rd : BitVec 5) (rs1 : BitVec 5) (s : State) :
    exec (.tinfo rd rs1) s = execTinfo rd rs1 s := rfl
@[simp] theorem exec_trapc (rs1 : BitVec 5) (s : State) :
    exec (.trapc rs1) s = execTrapc rs1 s := rfl
@[simp] theorem exec_wridx (q : Nat) (v : BitVec 64) (s : State) :
    exec (.wridx q v) s = execWridx q v s := rfl
@[simp] theorem exec_qctlSkip (q : Nat) (s : State) :
    exec (.qctlSkip q) s = execQctlSkip q s := rfl
@[simp] theorem exec_qctlDiscard (q : Nat) (s : State) :
    exec (.qctlDiscard q) s = execQctlDiscard q s := rfl
@[simp] theorem exec_qctlStop (q : Nat) (s : State) :
    exec (.qctlStop q) s = execQctlStop q s := rfl
@[simp] theorem exec_qctlResume (q : Nat) (s : State) :
    exec (.qctlResume q) s = execQctlResume q s := rfl
@[simp] theorem exec_launchGraph (q : Nat) (p : BitVec 512) (s : State) :
    exec (.launchGraph q p) s = execLaunchGraph q p s := rfl
@[simp] theorem exec_launchNode (q : Nat) (p : BitVec 512) (s : State) :
    exec (.launchNode q p) s = execLaunchNode q p s := rfl
@[simp] theorem exec_waitValue (q : Nat) (p : BitVec 512) (s : State) :
    exec (.waitValue q p) s = execWaitValue q p s := rfl
@[simp] theorem exec_waitValueMet (pid : Nat) (s : State) :
    exec (.waitValueMet pid) s = execWaitValueMet pid s := rfl
@[simp] theorem exec_waitValueTimeout (pid : Nat) (s : State) :
    exec (.waitValueTimeout pid) s = execWaitValueTimeout pid s := rfl
@[simp] theorem exec_writeValue (q : Nat) (p : BitVec 512) (s : State) :
    exec (.writeValue q p) s = execWriteValue q p s := rfl
@[simp] theorem exec_indirect (q : Nat) (p : BitVec 512) (s : State) :
    exec (.indirect q p) s = execIndirect q p s := rfl
@[simp] theorem exec_setSeed (q : Nat) (p : BitVec 512) (s : State) :
    exec (.setSeed q p) s = execSetSeed q p s := rfl
@[simp] theorem exec_regionCreate (q : Nat) (p : BitVec 512) (s : State) :
    exec (.regionCreate q p) s = execRegionCreate q p s := rfl
@[simp] theorem exec_regionDestroy (q : Nat) (p : BitVec 512) (s : State) :
    exec (.regionDestroy q p) s = execRegionDestroy q p s := rfl
@[simp] theorem exec_regionDestroyComplete (pid : Nat) (s : State) :
    exec (.regionDestroyComplete pid) s = execRegionDestroyComplete pid s := rfl
@[simp] theorem exec_fencePacket (q : Nat) (p : BitVec 512) (s : State) :
    exec (.fencePacket q p) s = execFencePacket q p s := rfl
@[simp] theorem exec_unknownKindPacket (q : Nat) (p : BitVec 512) (s : State) :
    exec (.unknownKindPacket q p) s = execUnknownKindPacket q p s := rfl
@[simp] theorem exec_preempt (g : Nat) (n : Nat) (s : State) :
    exec (.preempt g n) s = execPreempt g n s := rfl
@[simp] theorem exec_condEval (g : Nat) (n : Nat) (s : State) :
    exec (.condEval g n) s = execCondEval g n s := rfl
@[simp] theorem exec_loopEval (g : Nat) (n : Nat) (s : State) :
    exec (.loopEval g n) s = execLoopEval g n s := rfl
@[simp] theorem exec_pageArrived (ctx : BitVec 32) (va : BitVec 64) (dw0 : BitVec 64) (dw1 : BitVec 64) (s : State) :
    exec (.pageArrived ctx va dw0 dw1) s = execPageArrived ctx va dw0 dw1 s := rfl
@[simp] theorem exec_copyComplete (tid : Nat) (k : Nat) (s : State) :
    exec (.copyComplete tid k) s = execCopyComplete tid k s := rfl
@[simp] theorem exec_copyNodeComplete (g : Nat) (n : Nat) (s : State) :
    exec (.copyNodeComplete g n) s = execCopyNodeComplete g n s := rfl
@[simp] theorem exec_collNodeComplete (g : Nat) (n : Nat) (parts : List (List (BitVec 8))) (rank0 : BitVec 512) (s : State) :
    exec (.collNodeComplete g n parts rank0) s = execCollNodeComplete g n parts rank0 s := rfl
@[simp] theorem exec_streamRefill (tid : Nat) (vd : BitVec 5) (s : State) :
    exec (.streamRefill tid vd) s = execStreamRefill tid vd s := rfl
@[simp] theorem exec_waitWatchdog (tid : Nat) (s : State) :
    exec (.waitWatchdog tid) s = execWaitWatchdog tid s := rfl
@[simp] theorem exec_runWatchdog (tid : Nat) (s : State) :
    exec (.runWatchdog tid) s = execRunWatchdog tid s := rfl
@[simp] theorem exec_splitWatchdog (tid : Nat) (s : State) :
    exec (.splitWatchdog tid) s = execSplitWatchdog tid s := rfl
@[simp] theorem exec_patrolScrub (a : Nat) (found : ScrubResult) (s : State) :
    exec (.patrolScrub a found) s = execPatrolScrub a found s := rfl
@[simp] theorem exec_uncontainedError (site : ErrorSite) (s : State) :
    exec (.uncontainedError site) s = execUncontainedError site s := rfl
@[simp] theorem exec_flitReceive (lane : FlitPath) (quality : FlitQuality) (s : State) :
    exec (.flitReceive lane quality) s = execFlitReceive lane quality s := rfl
@[simp] theorem exec_linkFailed (lane : FlitPath) (s : State) :
    exec (.linkFailed lane) s = execLinkFailed lane s := rfl
@[simp] theorem exec_portTrainingLost (port : Nat) (s : State) :
    exec (.portTrainingLost port) s = execPortTrainingLost port s := rfl
@[simp] theorem exec_serviceRequest (kind : Nat) (s : State) :
    exec (.serviceRequest kind) s = execServiceRequest kind s := rfl
@[simp] theorem exec_answer (e : BitVec 1024) (s : State) :
    exec (.answer e) s = execAnswer e s := rfl
@[simp] theorem exec_resume (e : BitVec 1024) (s : State) :
    exec (.resume e) s = execResume e s := rfl
@[simp] theorem exec_endTask (e : BitVec 1024) (s : State) :
    exec (.endTask e) s = execEndTask e s := rfl
@[simp] theorem exec_releaseDomain (e : BitVec 1024) (s : State) :
    exec (.releaseDomain e) s = execReleaseDomain e s := rfl
@[simp] theorem exec_abortDomain (e : BitVec 1024) (s : State) :
    exec (.abortDomain e) s = execAbortDomain e s := rfl
@[simp] theorem exec_removeSection (e : BitVec 1024) (s : State) :
    exec (.removeSection e) s = execRemoveSection e s := rfl
@[simp] theorem exec_moveSections (e : BitVec 1024) (s : State) :
    exec (.moveSections e) s = execMoveSections e s := rfl
@[simp] theorem exec_linkDown (e : BitVec 1024) (s : State) :
    exec (.linkDown e) s = execLinkDown e s := rfl
@[simp] theorem exec_linkUp (e : BitVec 1024) (s : State) :
    exec (.linkUp e) s = execLinkUp e s := rfl
@[simp] theorem exec_firmwareUpdate (e : BitVec 1024) (s : State) :
    exec (.firmwareUpdate e) s = execFirmwareUpdate e s := rfl
@[simp] theorem exec_firmwareSwitchComplete (target : Nat) (s : State) :
    exec (.firmwareSwitchComplete target) s = execFirmwareSwitchComplete target s := rfl
@[simp] theorem exec_serviceActionTimeout (s : State) :
    exec (.serviceActionTimeout) s = execServiceActionTimeout s := rfl
@[simp] theorem exec_exportImage (e : BitVec 1024) (s : State) :
    exec (.exportImage e) s = execExportImage e s := rfl
@[simp] theorem exec_importImage (e : BitVec 1024) (s : State) :
    exec (.importImage e) s = execImportImage e s := rfl
@[simp] theorem exec_bindContext (e : BitVec 1024) (s : State) :
    exec (.bindContext e) s = execBindContext e s := rfl
@[simp] theorem exec_unbindContext (e : BitVec 1024) (s : State) :
    exec (.unbindContext e) s = execUnbindContext e s := rfl
@[simp] theorem exec_setKey (e : BitVec 1024) (s : State) :
    exec (.setKey e) s = execSetKey e s := rfl
@[simp] theorem exec_invalidateTranslations (e : BitVec 1024) (s : State) :
    exec (.invalidateTranslations e) s = execInvalidateTranslations e s := rfl
@[simp] theorem exec_queueEnable (e : BitVec 1024) (s : State) :
    exec (.queueEnable e) s = execQueueEnable e s := rfl
@[simp] theorem exec_queueDisable (e : BitVec 1024) (s : State) :
    exec (.queueDisable e) s = execQueueDisable e s := rfl
@[simp] theorem exec_queueDisableComplete (q : Nat) (s : State) :
    exec (.queueDisableComplete q) s = execQueueDisableComplete q s := rfl
@[simp] theorem exec_partitionLimits (e : BitVec 1024) (s : State) :
    exec (.partitionLimits e) s = execPartitionLimits e s := rfl
@[simp] theorem exec_setEngineImage (e : BitVec 1024) (s : State) :
    exec (.setEngineImage e) s = execSetEngineImage e s := rfl
@[simp] theorem exec_unlistedCommand (e : BitVec 1024) (s : State) :
    exec (.unlistedCommand e) s = execUnlistedCommand e s := rfl
@[simp] theorem exec_dutyWrite (v : BitVec 64) (s : State) :
    exec (.dutyWrite v) s = execDutyWrite v s := rfl
@[simp] theorem exec_ringControlWrite (ring : RingName) (v : BitVec 64) (s : State) :
    exec (.ringControlWrite ring v) s = execRingControlWrite ring v s := rfl
@[simp] theorem exec_qtbaseWrite (v : BitVec 64) (s : State) :
    exec (.qtbaseWrite v) s = execQtbaseWrite v s := rfl
@[simp] theorem exec_portcfgWrite (v : BitVec 64) (s : State) :
    exec (.portcfgWrite v) s = execPortcfgWrite v s := rfl
@[simp] theorem exec_registerWrite (bar : BarName) (off : Nat) (size : Nat) (v : BitVec 64) (s : State) :
    exec (.registerWrite bar off size v) s = execRegisterWrite bar off size v s := rfl
@[simp] theorem exec_bar2Read (off : Nat) (n : Nat) (s : State) :
    exec (.bar2Read off n) s = execBar2Read off n s := rfl
@[simp] theorem exec_bar2Write (off : Nat) (bytes : List (BitVec 8)) (s : State) :
    exec (.bar2Write off bytes) s = execBar2Write off bytes s := rfl
@[simp] theorem exec_peerInboundRequest (src : BitVec 16) (a : Nat) (req : Transfer) (s : State) :
    exec (.peerInboundRequest src a req) s = execPeerInboundRequest src a req s := rfl
@[simp] theorem exec_pushRecoveryImage (s : State) :
    exec (.pushRecoveryImage) s = execPushRecoveryImage s := rfl
@[simp] theorem exec_attest (s : State) :
    exec (.attest) s = execAttest s := rfl
@[simp] theorem exec_moduleReset (s : State) :
    exec (.moduleReset) s = execModuleReset s := rfl
@[simp] theorem exec_throttleStep (s : State) :
    exec (.throttleStep) s = execThrottleStep s := rfl
@[simp] theorem exec_thermalTrip (s : State) :
    exec (.thermalTrip) s = execThermalTrip s := rfl
@[simp] theorem exec_wordNotAnInstruction (w : BitVec 32) (s : State) :
    exec (.wordNotAnInstruction w) s = execWordNotAnInstruction w s := rfl
@[simp] theorem exec_fetchFault (cause : BitVec 8) (info : BitVec 32) (a : BitVec 64) (s : State) :
    exec (.fetchFault cause info a) s = execFetchFault cause info a s := rfl
@[simp] theorem exec_portTrained (port : Nat) (s : State) :
    exec (.portTrained port) s = execPortTrained port s := rfl
@[simp] theorem exec_cxlMemRequest (a : Nat) (req : Transfer) (s : State) :
    exec (.cxlMemRequest a req) s = execCxlMemRequest a req s := rfl
@[simp] theorem exec_fabricAddressAssigned (a : BitVec 16) (s : State) :
    exec (.fabricAddressAssigned a) s = execFabricAddressAssigned a s := rfl

end Sys2Proof.Machine
end

