-- ==== Sys2Proof/Laws/Elements.lean ====
section
/-! SUPPORT. Elements and mask bits of registers read back after they have been written (R143, R158). -/

namespace Sys2Proof.Machine

/-! ## Fields -/

theorem getLsbD_setField {n k : Nat} (w : BitVec n) (lo : Nat) (v : BitVec k) (i : Nat) (h : lo + k ≤ n) :
    (setField w lo v).getLsbD i = if lo ≤ i ∧ i < lo + k then v.getLsbD (i - lo) else w.getLsbD i := by
  simp only [setField, BitVec.getLsbD_xor, BitVec.getLsbD_shiftLeft, BitVec.getLsbD_setWidth, BitVec.getLsbD_extractLsb']
  by_cases h1 : lo ≤ i
  · by_cases h2 : i < lo + k
    · have e : lo + (i - lo) = i := by omega
      have a : i < n := by omega
      have b : i - lo < k := by omega
      have c : ¬ i < lo := by omega
      have d : i - lo < n := by omega
      simp [e, a, b, c, d, h1, h2]
    · have b : ¬ i - lo < k := by omega
      simp [h2, b, BitVec.getLsbD_of_ge v (i - lo) (by omega)]
  · have c : i < lo := by omega
    simp [h1, c]

theorem fieldN_setFieldN_self {n : Nat} (w : BitVec n) (lo len v : Nat) (h : lo + len ≤ n) :
    fieldN (setFieldN w lo len v) lo len = v % 2 ^ len := by
  have e : (setFieldN w lo len v).extractLsb' lo len = BitVec.ofNat len v := by
    ext i hi
    rw [BitVec.getElem_extractLsb', setFieldN, getLsbD_setField w lo (BitVec.ofNat len v) (lo + i) h]
    have a : lo ≤ lo + i ∧ lo + i < lo + len := by omega
    rw [if_pos a, BitVec.getLsbD_eq_getElem (by omega)]
    congr 1
    omega
  rw [fieldN, e, BitVec.toNat_ofNat]

theorem fieldN_setFieldN_other {n : Nat} (w : BitVec n) (lo len v lo' len' : Nat) (h : lo + len ≤ n)
    (d : lo' + len' ≤ lo ∨ lo + len ≤ lo') : fieldN (setFieldN w lo len v) lo' len' = fieldN w lo' len' := by
  have e : (setFieldN w lo len v).extractLsb' lo' len' = w.extractLsb' lo' len' := by
    ext i hi
    rw [BitVec.getElem_extractLsb', BitVec.getElem_extractLsb', setFieldN,
      getLsbD_setField w lo (BitVec.ofNat len v) (lo' + i) h, if_neg (by omega)]
  rw [fieldN, fieldN, e]

/-- A field written past the end of a word leaves every field that ends before it. -/
theorem fieldN_setFieldN_below {n : Nat} (w : BitVec n) (lo len v lo' len' : Nat) (d : lo' + len' ≤ lo) :
    fieldN (setFieldN w lo len v) lo' len' = fieldN w lo' len' := by
  have e : (setFieldN w lo len v).extractLsb' lo' len' = w.extractLsb' lo' len' := by
    ext i hi
    have c : lo' + i < lo := by omega
    simp [setFieldN, setField, BitVec.getLsbD_shiftLeft, c]
  rw [fieldN, fieldN, e]

/-! ## One element -/

@[simp] theorem Task.setElem_perReg (t : Task) (bits n i v b : Nat) : (t.setElem bits n i v).perReg b = t.perReg b := rfl

theorem Task.setElem_rest (t : Task) (bits n i v : Nat) (h : t.vPoison = []) :
    t.setElem bits n i v = { t with v := (t.setElem bits n i v).v } := by
  simp [Task.setElem, h]

theorem Task.setElem_others (t : Task) (bits n i v : Nat) (r : Fin 32) (h : r.val ≠ n + i / t.perReg bits) :
    (t.setElem bits n i v).v[r] = t.v[r] := by
  show (t.v.setIfInBounds _ _)[r.val] = t.v[r.val]
  rw [Vector.getElem_setIfInBounds, if_neg (fun e => h e.symm)]

theorem Task.setElem_elem (t : Task) (bits n i v j : Nat) (hb : 0 < bits) (hr : n + i / t.perReg bits < 32)
    (hi : (i % t.perReg bits + 1) * bits ≤ 262144) (hj : (j % t.perReg bits + 1) * bits ≤ 262144) :
    (t.setElem bits n i v).elem bits n j = if j = i then v % 2 ^ bits else t.elem bits n j := by
  have pos (k : Nat) : (k % t.perReg bits + 1) * bits = k % t.perReg bits * bits + bits := by
    rw [Nat.add_mul, Nat.one_mul]
  rw [pos] at hi hj
  show fieldN (((t.v.setIfInBounds (n + i / t.perReg bits) _)[n + j / t.perReg bits]?).getD 0)
    (j % t.perReg bits * bits) bits = _
  rw [Vector.getElem?_setIfInBounds]
  by_cases hreg : n + i / t.perReg bits = n + j / t.perReg bits
  · rw [if_pos hreg, if_pos hr, Option.getD_some]
    by_cases hpos : i % t.perReg bits = j % t.perReg bits
    · have hij : j = i := by
        rw [← Nat.div_add_mod i (t.perReg bits), ← Nat.div_add_mod j (t.perReg bits), hpos,
          show i / t.perReg bits = j / t.perReg bits by omega]
      rw [if_pos hij, ← hpos, fieldN_setFieldN_self _ _ _ _ hi]
    · have hij : j ≠ i := fun h => hpos (by rw [h])
      rw [if_neg hij, fieldN_setFieldN_other _ _ _ _ _ _ hi, hreg]
      · rfl
      · rcases Nat.lt_or_gt_of_ne hpos with h | h
        · exact .inr (by rw [← pos]; exact Nat.mul_le_mul_right bits h)
        · exact .inl (by rw [← pos]; exact Nat.mul_le_mul_right bits h)
  · have hij : j ≠ i := fun h => hreg (by rw [h])
    rw [if_neg hreg, if_neg hij]
    rfl

/-! ## Several elements -/

@[simp] theorem Task.setElems_nil (t : Task) (bits n : Nat) : t.setElems bits n [] = t := rfl

@[simp] theorem Task.setElems_cons (t : Task) (bits n : Nat) (p : Nat × Nat) (ps : List (Nat × Nat)) :
    t.setElems bits n (p :: ps) = (t.setElem bits n p.1 p.2).setElems bits n ps := rfl

/-- An element past the end of a register leaves every element that exists. -/
theorem Task.setElem_beyond (t : Task) (bits n i v j : Nat) (hi : 262144 < (i % t.perReg bits + 1) * bits)
    (hj : (j % t.perReg bits + 1) * bits ≤ 262144) : (t.setElem bits n i v).elem bits n j = t.elem bits n j := by
  show fieldN (((t.v.setIfInBounds (n + i / t.perReg bits) _)[n + j / t.perReg bits]?).getD 0)
    (j % t.perReg bits * bits) bits = _
  rw [Vector.getElem?_setIfInBounds]
  by_cases hreg : n + i / t.perReg bits = n + j / t.perReg bits
  · by_cases hr : n + i / t.perReg bits < 32
    · rw [if_pos hreg, if_pos hr, Option.getD_some, fieldN_setFieldN_below, hreg]
      · rfl
      · have h : j % t.perReg bits < i % t.perReg bits := by
          have := Nat.lt_of_le_of_lt hj hi
          have := Nat.lt_of_mul_lt_mul_right this
          omega
        calc _ = (j % t.perReg bits + 1) * bits := by rw [Nat.add_mul, Nat.one_mul]
          _ ≤ _ := Nat.mul_le_mul_right bits h
    · rw [if_pos hreg, if_neg hr]
      simp [Task.elem, show (t.v[n + j / t.perReg bits]?) = none from Vector.getElem?_eq_none (by omega)]
  · rw [if_neg hreg]
    rfl

/-- What a list of elements, each written once, leaves. -/
theorem Task.setElems_wrote (t : Task) (bits n size : Nat) (is : List Nat) (f : Nat → Nat) (hp : t.vPoison = [])
    (hb : 0 < bits) (hn : n + size ≤ 32) (hs : ∀ i ∈ is, i < size * t.perReg bits) (nd : is.Nodup) :
    WroteElems t (t.setElems bits n (is.map (fun i => (i, f i)))) bits n size (forElems is f) := by
  induction is generalizing t with
  | nil => exact ⟨rfl, fun _ _ => rfl, fun _ _ _ => rfl⟩
  | cons a as ih =>
    have hreg : a / t.perReg bits < size :=
      Nat.div_lt_of_lt_mul (by rw [Nat.mul_comm]; exact hs a (List.mem_cons_self ..))
    have nd' := List.nodup_cons.mp nd
    obtain ⟨h1, h2, h3⟩ := ih (t.setElem bits n a (f a)) (by simp [Task.setElem, hp])
      (fun i hi => by simpa using hs i (List.mem_cons_of_mem _ hi)) nd'.2
    refine ⟨?_, ?_, ?_⟩
    · simp only [List.map_cons, Task.setElems_cons]
      rw [h1, Task.setElem_rest t bits n a (f a) hp]
    · intro r hr
      simp only [List.map_cons, Task.setElems_cons]
      rw [h2 r hr, Task.setElem_others]
      generalize a / t.perReg bits = q at hreg
      omega
    · intro i hi he
      simp only [List.map_cons, Task.setElems_cons]
      rw [h3 i hi he]
      by_cases hin : i ∈ as
      · simp [forElems, hin]
      · simp only [forElems, hin, if_false, Option.map_none, Option.getD_none, List.mem_cons, or_false]
        by_cases hw : (a % t.perReg bits + 1) * bits ≤ 262144
        · rw [Task.setElem_elem t bits n a (f a) i hb (by omega) hw he]
          by_cases hia : i = a <;> simp [hia]
        · have hia : i ≠ a := fun h => hw (h ▸ he)
          rw [Task.setElem_beyond t bits n a (f a) i (by omega) he]
          simp [hia]

/-- What one element, written by a word that touches it or does not, leaves. -/
theorem Task.setElem_wrote (t : Task) (bits n size i v : Nat) (hp : t.vPoison = []) (hb : 0 < bits) (hn : n + size ≤ 32)
    (hi : i < size * t.perReg bits) : WroteElems t (t.setElem bits n i v) bits n size (forElems [i] (fun _ => v)) :=
  Task.setElems_wrote t bits n size [i] (fun _ => v) hp hb hn (fun _ h => by rw [List.mem_singleton.mp h]; exact hi)
    (List.nodup_singleton i)

/-- Nothing written. -/
theorem WroteElems.none (t : Task) (bits n size : Nat) : WroteElems t t bits n size (fun _ => Option.none) :=
  ⟨rfl, fun _ _ => rfl, fun _ _ _ => rfl⟩

/-! ## Mask bits -/

theorem getLsbD_setBit {n : Nat} (w : BitVec n) (i : Nat) (b : Bool) (j : Nat) (hj : j < n) :
    (setField w i (BitVec.ofBool b)).getLsbD j = if j = i then b else w.getLsbD j := by
  by_cases hi : i + 1 ≤ n
  · rw [getLsbD_setField w i (BitVec.ofBool b) j hi]
    by_cases h : j = i
    · subst h; simp
    · rw [if_neg (by omega), if_neg h]
  · have h : j ≠ i := by omega
    have c : j < i := by omega
    simp [setField, BitVec.getLsbD_shiftLeft, c, h]

theorem setBits_getLsbD (w : VReg) (is : List Nat) (f : Nat → Bool) (j : Nat) (hj : j < 262144) :
    ((is.map (fun i => (i, f i))).foldl (fun (r : VReg) p => setField r p.1 (BitVec.ofBool p.2)) w).getLsbD j
      = (forBits is f j).getD (w.getLsbD j) := by
  induction is generalizing w with
  | nil => rfl
  | cons a as ih =>
    simp only [List.map_cons, List.foldl_cons, ih, getLsbD_setBit w a (f a) j hj]
    by_cases h1 : j ∈ as
    · simp [forBits, h1]
    · by_cases h2 : j = a
      · subst h2; simp [forBits, h1]
      · simp [forBits, h1, h2]

/-- What mask bits written leave. -/
theorem Task.setMaskBits_wrote (t : Task) (n : Nat) (is : List Nat) (f : Nat → Bool) (hp : t.vPoison = []) (hn : n < 32) :
    WroteBits t (t.setMaskBits n (is.map (fun i => (i, f i)))) n (forBits is f) := by
  refine ⟨by simp [Task.setMaskBits, hp], ?_, ?_⟩
  · intro r hr
    show (t.v.setIfInBounds _ _)[r.val] = t.v[r.val]
    rw [Vector.getElem_setIfInBounds, if_neg (fun e => hr e.symm)]
  · intro i hi
    show (((t.v.setIfInBounds n _)[n]?).getD 0).getLsbD i = _
    rw [Vector.getElem?_setIfInBounds, if_pos rfl, if_pos hn, Option.getD_some, setBits_getLsbD _ _ _ _ hi]
    rfl

/-! ## Elements of a word -/

theorem mem_rangeFrom (lo hi i : Nat) : i ∈ rangeFrom lo hi ↔ lo ≤ i ∧ i < hi := by
  simp only [rangeFrom, List.mem_map, List.mem_range]
  exact ⟨fun ⟨a, h, e⟩ => by omega, fun h => ⟨i - lo, by omega, by omega⟩⟩

theorem nodup_rangeFrom (lo hi : Nat) : (rangeFrom lo hi).Nodup :=
  List.nodup_range.map (fun a b h => by simpa using h)

theorem State.nodup_touched (s : State) : s.touched.Nodup := by
  unfold State.touched
  split
  · split
    · exact List.nodup_singleton _
    · exact List.nodup_nil
  · exact nodup_rangeFrom _ _

theorem State.nodup_actives (s : State) (vm : BitVec 1) : (s.actives vm).Nodup := s.nodup_touched.filter _

theorem State.touched_lt (s : State) (i : Nat) (h : i ∈ s.touched) : i < s.task.vlmax := by
  unfold State.touched at h
  split at h
  · split at h
    · rwa [List.mem_singleton.mp h]
    · exact absurd h (List.not_mem_nil)
  · have := ((mem_rangeFrom _ _ _).mp h).2
    omega

theorem State.actives_lt (s : State) (vm : BitVec 1) (i : Nat) (h : i ∈ s.actives vm) : i < s.task.vlmax :=
  s.touched_lt i (List.mem_filter.mp h).1

/-- The active elements of a word: R96's active(i) of the elements that R144 and R168 let it touch. -/
theorem State.mem_actives (s : State) (vm : BitVec 1) (i : Nat) :
    i ∈ s.actives vm ↔ i ∈ s.touched ∧ (vm = 1 ∨ s.task.maskBit 0 i = true) := by
  simp [State.actives, State.isActive, List.mem_filter]

end Sys2Proof.Machine
end

