-- ==== Sys2Proof/Laws/Encoding.lean ====
section
/-! SUPPORT. Fields of joined bit vectors, for the encoder and the decoder. -/

namespace Sys2Proof

/-- A field that lies in the lower of two joined vectors. -/
theorem extract_append_low {a b : Nat} (x : BitVec a) (y : BitVec b) (lo n : Nat) (h : lo + n ≤ b) :
    (x ++ y).extractLsb' lo n = y.extractLsb' lo n := by
  ext i hi
  simp [BitVec.getElem_extractLsb', BitVec.getLsbD_append]
  intro h2; omega

/-- A field that lies in the upper of two joined vectors. -/
theorem extract_append_high {a b : Nat} (x : BitVec a) (y : BitVec b) (lo n : Nat) (h : b ≤ lo) :
    (x ++ y).extractLsb' lo n = x.extractLsb' (lo - b) n := by
  ext i hi
  simp only [BitVec.getElem_extractLsb', BitVec.getLsbD_append]
  rw [if_neg (by omega)]; congr 1; omega

end Sys2Proof
end

