-- ==== Sys2Proof/Laws/Memory.lean ====
section
/-! SUPPORT. Memory read after a write, and the canonical form that every write keeps. -/

namespace Sys2Proof.Machine

/-! ## The list of cells -/

theorem Memory.get_put (m : List Host.Cell) (a : Nat) (b : Byte) (k : Nat) :
    Memory.get (Memory.put m a b) k = if k = a then b else Memory.get m k := by
  induction m with
  | nil =>
    by_cases h : k = a
    · simp [Memory.put, Memory.get, h]
    · simp [Memory.put, Memory.get, h, Ne.symm h]
  | cons c m ih =>
    unfold Memory.put
    split
    · by_cases h : k = a
      · simp [Memory.get, h]
      · simp [Memory.get, h, Ne.symm h]
    · split
      · rename_i e
        by_cases h : k = a
        · simp [Memory.get, h]
        · have : c.1 ≠ k := fun x => h (by rw [← x, e])
          simp [Memory.get, h, Ne.symm h, this]
      · rename_i e
        by_cases h : c.1 = k
        · have : k ≠ a := fun x => e (by rw [h, x])
          simp [Memory.get, h, this]
        · simp [Memory.get, h, ih]

theorem Memory.get_drop (m : List Host.Cell) (a k : Nat) :
    Memory.get (m.filter (fun c => c.1 != a)) k = if k = a then Memory.blank else Memory.get m k := by
  induction m with
  | nil => by_cases h : k = a <;> simp [Memory.get, h]
  | cons c m ih =>
    by_cases e : c.1 = a
    · simp only [List.filter_cons, e, bne_self_eq_false, Bool.false_eq_true, if_false, ih]
      by_cases h : k = a
      · simp [h]
      · simp [Memory.get, h, e, Ne.symm h]
    · have e' : (c.1 != a) = true := by simp [e]
      simp only [List.filter_cons, e', if_true, Memory.get, ih]
      by_cases h : c.1 = k
      · have : k ≠ a := fun x => e (by rw [h, x])
        simp [h, this]
      · simp [h]

/-- A read after a write: the byte written, and every other byte as before. -/
theorem Memory.get_set (m : List Host.Cell) (a : Nat) (b : Byte) (k : Nat) :
    Memory.get (Memory.set m a b) k = if k = a then b else Memory.get m k := by
  unfold Memory.set
  split
  · rename_i h
    rw [Memory.get_drop, h]
  · exact Memory.get_put m a b k

theorem Memory.mem_put (m : List Host.Cell) (a : Nat) (b : Byte) (c : Host.Cell) (h : c ∈ Memory.put m a b) :
    c = (a, b) ∨ c ∈ m := by
  induction m with
  | nil => exact .inl (by simpa [Memory.put] using h)
  | cons d m ih =>
    unfold Memory.put at h
    split at h
    · simpa using h
    · split at h
      · rcases List.mem_cons.mp h with h | h
        · exact .inl h
        · exact .inr (List.mem_cons_of_mem _ h)
      · rcases List.mem_cons.mp h with h | h
        · exact .inr (h ▸ List.mem_cons_self ..)
        · exact (ih h).imp_right (List.mem_cons_of_mem _)

/-- A write keeps the canonical form. -/
theorem Memory.wf_set (m : List Host.Cell) (a : Nat) (b : Byte) (h : Memory.wf m) : Memory.wf (Memory.set m a b) := by
  unfold Memory.set
  split
  · exact ⟨h.1.filter _, fun c hc => h.2 c (List.mem_filter.mp hc).1⟩
  · rename_i hb
    refine ⟨?_, fun c hc => ?_⟩
    · have h1 := h.1
      clear h
      induction m with
      | nil => simp [Memory.put]
      | cons d m ih =>
        have hd := List.pairwise_cons.mp h1
        unfold Memory.put
        split
        · rename_i lt
          refine List.pairwise_cons.mpr ⟨fun c hc => ?_, h1⟩
          rcases List.mem_cons.mp hc with e | e
          · exact e ▸ lt
          · exact Nat.lt_trans lt (hd.1 c e)
        · split
          · rename_i e
            exact List.pairwise_cons.mpr ⟨fun c hc => by simpa [e] using hd.1 c hc, hd.2⟩
          · rename_i nlt ne
            refine List.pairwise_cons.mpr ⟨fun c hc => ?_, ih hd.2⟩
            rcases Memory.mem_put m a b c hc with e | e
            · subst e; show d.1 < a; omega
            · exact hd.1 c e
    · rcases Memory.mem_put m a b c hc with e | e
      · subst e; exact hb
      · exact h.2 c e

theorem Memory.wf_setMany (m : List Host.Cell) (a : Nat) (bs : List Byte) (h : Memory.wf m) :
    Memory.wf (Memory.setMany m a bs) := by
  induction bs generalizing m a with
  | nil => exact h
  | cons b bs ih => exact ih _ _ (Memory.wf_set m a b h)

theorem Memory.wf_setCells (m cs : List Host.Cell) (h : Memory.wf m) : Memory.wf (Memory.setCells m cs) := by
  induction cs generalizing m with
  | nil => exact h
  | cons c cs ih => exact ih _ (Memory.wf_set m c.1 c.2 h)

/-- Memory right after reset is canonical. -/
theorem Memory.wf_reset : Memory.wf State.reset.mem := by decide

theorem Memory.get_setMany (m : List Host.Cell) (a : Nat) (bs : List Byte) (k : Nat) :
    Memory.get (Memory.setMany m a bs) k =
      if a ≤ k ∧ k < a + bs.length then (bs[k - a]?).getD 0 else Memory.get m k := by
  induction bs generalizing m a with
  | nil => simp [Memory.setMany]
  | cons b bs ih =>
    rw [Memory.setMany, ih, Memory.get_set]
    by_cases h1 : k = a
    · subst h1
      rw [if_neg (by omega), if_pos rfl, if_pos (by simp)]
      simp
    · by_cases h2 : a + 1 ≤ k ∧ k < a + 1 + bs.length
      · rw [if_pos h2, if_pos (by simp; omega)]
        rw [show k - a = (k - (a + 1)) + 1 by omega, List.getElem?_cons_succ]
      · rw [if_neg h2, if_neg h1, if_neg (by simp; omega)]

/-! ## Values and bytes -/

@[simp] theorem bytesOf_length (v n : Nat) : (bytesOf v n).length = n := by
  induction n generalizing v with
  | zero => rfl
  | succ n ih => simp [bytesOf, ih]

theorem bytesOf_getElem? (v n i : Nat) (h : i < n) : (bytesOf v n)[i]? = some (BitVec.ofNat 8 (v / 2 ^ (8 * i))) := by
  induction n generalizing v i with
  | zero => omega
  | succ n ih =>
    cases i with
    | zero => simp [bytesOf]
    | succ i =>
      rw [bytesOf, List.getElem?_cons_succ, ih _ _ (by omega), Nat.shiftRight_eq_div_pow, Nat.div_div_eq_div_mul,
        show 8 * (i + 1) = 8 + 8 * i by omega, Nat.pow_add]

theorem leVal_lt (bs : List Byte) : leVal bs < 2 ^ (8 * bs.length) := by
  induction bs with
  | nil => simp [leVal]
  | cons b bs ih =>
    have := b.isLt
    rw [leVal, List.length_cons, show 8 * (bs.length + 1) = 8 + 8 * bs.length by omega, Nat.pow_add]
    omega

/-- The bytes of the value of some bytes are those bytes. -/
theorem leVal_byte (bs : List Byte) (i : Nat) (h : i < bs.length) :
    BitVec.ofNat 8 (leVal bs / 2 ^ (8 * i)) = bs[i] := by
  induction bs generalizing i with
  | nil => exact absurd h (by simp)
  | cons b bs ih =>
    have hb := b.isLt
    cases i with
    | zero =>
      simp only [leVal, Nat.mul_zero, Nat.pow_zero, Nat.div_one, List.getElem_cons_zero]
      apply BitVec.eq_of_toNat_eq
      rw [BitVec.toNat_ofNat]
      omega
    | succ i =>
      have hi : i < bs.length := by simpa using h
      rw [List.getElem_cons_succ, ← ih i hi, leVal, show 8 * (i + 1) = 8 + 8 * i by omega, Nat.pow_add,
        ← Nat.div_div_eq_div_mul]
      congr 2
      show (b.toNat + 256 * leVal bs) / 256 = leVal bs
      omega

/-- The value of the bytes of a value. -/
theorem leVal_bytesOf (v n : Nat) : leVal (bytesOf v n) = v % 2 ^ (8 * n) := by
  induction n generalizing v with
  | zero => simp [bytesOf, leVal, Nat.mod_one]
  | succ n ih =>
    rw [bytesOf, leVal, ih, BitVec.toNat_ofNat, Nat.shiftRight_eq_div_pow, show 8 * (n + 1) = 8 + 8 * n by omega,
      Nat.pow_add, Nat.mod_mul]

/-! ## Key material (R230) -/

theorem State.tagOf_writePlain (s : State) (km : Option (BitVec 512)) (k : Nat) (b : Byte) (j : Nat) :
    (s.writePlain km k b).tagOf j = if j / 16 = k / 16 then km else s.tagOf j := by
  unfold State.writePlain
  split
  · rename_i h
    by_cases e : j / 16 = k / 16
    · rw [if_pos e, ← h]; simp [State.tagOf, e]
    · rw [if_neg e]; rfl
  · have f (l : List (Nat × BitVec 512)) (x : Nat) (h : x ≠ k / 16) :
        (l.filter (fun t => t.1 != k / 16)).find? (fun t => t.1 == x) = l.find? (fun t => t.1 == x) := by
      rw [List.find?_filter]
      congr 1
      funext t
      by_cases e : t.1 = x
      · simp [e, h]
      · simp [e]
    have g (l : List (Nat × BitVec 512)) : (l.filter (fun t => t.1 != k / 16)).find? (fun t => t.1 == k / 16) = none := by
      rw [List.find?_eq_none]
      intro t ht
      simpa using (List.mem_filter.mp ht).2
    cases km with
    | none =>
      by_cases e : j / 16 = k / 16
      · rw [if_pos e]; simp [State.tagOf, e, g]
      · rw [if_neg e]; simp [State.tagOf, f _ _ e]
    | some x =>
      by_cases e : j / 16 = k / 16
      · rw [if_pos e]; simp [State.tagOf, e]
      · rw [if_neg e]; simp [State.tagOf, Ne.symm e, f _ _ e]

/-- The byte that each key reads as, under the material of a write, after it. -/
theorem State.readPlain_writePlain (s : State) (km : Option (BitVec 512)) (k : Nat) (b : Byte) (j : Nat) :
    (s.writePlain km k b).readPlain km j = if j = k then b else s.readPlain km j := by
  have ht := s.tagOf_writePlain km k b j
  by_cases same : s.tagOf k = km
  · have hw : s.writePlain km k b = { s with mem := Memory.set s.mem k b } := by simp [State.writePlain, same]
    rw [hw]
    by_cases e : s.tagOf j = km
    · have e' : ({ s with mem := Memory.set s.mem k b } : State).tagOf j = km := e
      rw [State.readPlain, if_pos e', State.readPlain, if_pos e, Memory.get_set]
    · have e' : ¬ ({ s with mem := Memory.set s.mem k b } : State).tagOf j = km := e
      have hj : j ≠ k := fun h => e (by rw [h]; exact same)
      have hb : j / 16 ≠ k / 16 := fun h => e (by rw [← same]; simp [State.tagOf, h])
      rw [State.readPlain, if_neg e', State.readPlain, if_neg e, if_neg hj]
      have hr : ({ s with mem := Memory.set s.mem k b } : State).rawBlock j = s.rawBlock j := by
        unfold State.rawBlock
        congr 2
        refine List.map_congr_left fun i hi => ?_
        rw [Memory.get_set, if_neg]
        have := List.mem_range.mp hi
        omega
      rw [hr]
      rfl
  · have hm : (s.writePlain km k b).mem
        = Memory.set (Memory.setMany s.mem (k / 16 * 16)
            (bytesOf (recrypt (s.tagOf k) km k (s.rawBlock k)).toNat 16)) k b := by
      simp [State.writePlain, same]
    by_cases e : j / 16 = k / 16
    · rw [if_pos e] at ht
      rw [State.readPlain, if_pos ht, hm, Memory.get_set]
      by_cases hj : j = k
      · rw [if_pos hj, if_pos hj]
      · rw [if_neg hj, if_neg hj, Memory.get_setMany, bytesOf_length, if_pos (by omega), State.readPlain]
        have htj : s.tagOf j = s.tagOf k := by simp [State.tagOf, e]
        have hrj : s.rawBlock j = s.rawBlock k := by simp [State.rawBlock, e]
        have hc : recrypt (s.tagOf k) km j (s.rawBlock k) = recrypt (s.tagOf k) km k (s.rawBlock k) := by
          unfold recrypt
          rw [show j % 2 ^ 52 / 128 = k % 2 ^ 52 / 128 by omega, show j / 16 % 8 = k / 16 % 8 by omega]
        rw [htj, if_neg same, hrj, hc, bytesOf_getElem? _ _ _ (by omega), Option.getD_some,
          show j - k / 16 * 16 = j % 16 by omega]
        apply BitVec.eq_of_toNat_eq
        simp [BitVec.toNat_ofNat, Nat.shiftRight_eq_div_pow]
    · rw [if_neg e] at ht
      have hj : j ≠ k := fun h => e (by rw [h])
      rw [if_neg hj]
      have hget (x : Nat) (hx : x / 16 = j / 16) : Memory.get (s.writePlain km k b).mem x = Memory.get s.mem x := by
        rw [hm, Memory.get_set, if_neg (by omega), Memory.get_setMany, bytesOf_length, if_neg (by omega)]
      have hr : (s.writePlain km k b).rawBlock j = s.rawBlock j := by
        unfold State.rawBlock
        congr 2
        refine List.map_congr_left fun i hi => hget _ ?_
        have := List.mem_range.mp hi
        omega
      unfold State.readPlain
      rw [ht, hr, hget j rfl]

/-- A write keeps the canonical form. -/
theorem State.wf_writePlain (s : State) (km : Option (BitVec 512)) (k : Nat) (b : Byte) (h : Memory.wf s.mem) :
    Memory.wf (s.writePlain km k b).mem := by
  unfold State.writePlain
  split
  · exact Memory.wf_set _ _ _ h
  · exact Memory.wf_set _ _ _ (Memory.wf_setMany _ _ _ h)

/-- A write leaves the cells and the tag of every other 16-byte block. -/
theorem State.writePlain_others (s : State) (km : Option (BitVec 512)) (k : Nat) (b : Byte) (j : Nat) (h : j / 16 ≠ k / 16) :
    Memory.get (s.writePlain km k b).mem j = Memory.get s.mem j ∧ (s.writePlain km k b).tagOf j = s.tagOf j := by
  refine ⟨?_, by rw [State.tagOf_writePlain, if_neg h]⟩
  unfold State.writePlain
  split
  · show Memory.get (Memory.set s.mem k b) j = _
    rw [Memory.get_set, if_neg (by omega)]
  · show Memory.get (Memory.set (Memory.setMany s.mem _ _) k b) j = _
    rw [Memory.get_set, if_neg (by omega), Memory.get_setMany, bytesOf_length, if_neg (by omega)]

/-- A write changes memory and tags alone. -/
theorem State.writePlain_rest (s : State) (km : Option (BitVec 512)) (k : Nat) (b : Byte) :
    s.writePlain km k b = { s with mem := (s.writePlain km k b).mem, tags := (s.writePlain km k b).tags } := by
  unfold State.writePlain
  split <;> rfl

/-! ## Several bytes -/

theorem State.writePlainMany_some (s : State) (km : Option (BitVec 512)) (k : Nat) (bs : List Byte) :
    ∃ m g, s.writePlainMany km k bs = { s with mem := m, tags := g } := by
  induction bs generalizing s k with
  | nil => exact ⟨_, _, rfl⟩
  | cons b bs ih =>
    obtain ⟨m, g, e⟩ := ih (s.writePlain km k b) (k + 1)
    refine ⟨m, g, ?_⟩
    rw [State.writePlainMany, e, State.writePlain_rest s km k b]

theorem State.writePlainMany_rest (s : State) (km : Option (BitVec 512)) (k : Nat) (bs : List Byte) :
    s.writePlainMany km k bs = { s with mem := (s.writePlainMany km k bs).mem, tags := (s.writePlainMany km k bs).tags } := by
  obtain ⟨m, g, e⟩ := s.writePlainMany_some km k bs
  rw [e]

theorem State.readPlain_writePlainMany (s : State) (km : Option (BitVec 512)) (k : Nat) (bs : List Byte) (j : Nat) :
    (s.writePlainMany km k bs).readPlain km j =
      if k ≤ j ∧ j < k + bs.length then (bs[j - k]?).getD 0 else s.readPlain km j := by
  induction bs generalizing s k with
  | nil => rw [if_neg (by simp)]; rfl
  | cons b bs ih =>
    rw [State.writePlainMany, ih, State.readPlain_writePlain]
    by_cases h1 : j = k
    · subst h1
      rw [if_neg (by omega), if_pos rfl, if_pos (by simp)]
      simp
    · by_cases h2 : k + 1 ≤ j ∧ j < k + 1 + bs.length
      · rw [if_pos h2, if_pos (by simp; omega), show j - k = (j - (k + 1)) + 1 by omega, List.getElem?_cons_succ]
      · rw [if_neg h2, if_neg h1, if_neg (by simp; omega)]

theorem State.wf_writePlainMany (s : State) (km : Option (BitVec 512)) (k : Nat) (bs : List Byte) (h : Memory.wf s.mem) :
    Memory.wf (s.writePlainMany km k bs).mem := by
  induction bs generalizing s k with
  | nil => exact h
  | cons b bs ih => exact ih _ _ (s.wf_writePlain km k b h)

theorem State.writePlainMany_others (s : State) (km : Option (BitVec 512)) (k : Nat) (bs : List Byte) (j : Nat)
    (h : j / 16 < k / 16 ∨ (k + bs.length - 1) / 16 < j / 16) :
    Memory.get (s.writePlainMany km k bs).mem j = Memory.get s.mem j ∧ (s.writePlainMany km k bs).tagOf j = s.tagOf j := by
  induction bs generalizing s k with
  | nil => exact ⟨rfl, rfl⟩
  | cons b bs ih =>
    have hb : j / 16 ≠ k / 16 := by
      simp only [List.length_cons] at h
      omega
    have hr : j / 16 < (k + 1) / 16 ∨ (k + 1 + bs.length - 1) / 16 < j / 16 := by
      simp only [List.length_cons] at h
      omega
    obtain ⟨h1, h2⟩ := ih (s.writePlain km k b) (k + 1) hr
    obtain ⟨h3, h4⟩ := s.writePlain_others km k b j hb
    exact ⟨h1.trans h3, h2.trans h4⟩

/-! ## Accesses where memory is plain -/

theorem State.Plain.coherent {s : State} (h : s.Plain) (km : Option (BitVec 512)) (k : Nat) (bs : List Byte) (n : Nat) :
    (s.breakReservations n k).writeCoherent km n bs = (s.breakReservations n k).writePlainMany km n bs := by
  have h1 : (s.breakReservations n k).stash = [] := h.stash
  have h2 : (s.breakReservations n k).poison = [] := h.poison
  have h3 : ((s.breakReservations n k).writePlainMany km n bs).poison = [] := by
    rw [State.writePlainMany_rest]; exact h2
  unfold State.writeCoherent State.recallForWrite State.coverPoison State.curePoison
  simp [h1, h3]

/-- A store goes to memory. -/
theorem State.Plain.storeAt {s : State} (h : s.Plain) (p : Place) (bs : List Byte) (pol : Nat) (e : Nat := 0) :
    ∃ t, s.storeAt p bs pol e = .ok t ∧ s.Stored t p bs := by
  refine ⟨(s.breakReservations p.key bs.length).writePlainMany p.km p.key bs, ?_, ?_, ?_, ?_, ?_⟩
  · have hs : s.stashServed p pol = false := by simp [State.stashServed, h.windows]
    unfold State.storeAt
    rw [h.region, hs]
    simp [h.coherent]
  · exact State.writePlainMany_rest _ _ _ _
  · intro k
    rw [State.readPlain_writePlainMany]
    rfl
  · intro k hk
    exact State.writePlainMany_others _ _ _ _ _ hk
  · exact fun hw => State.wf_writePlainMany _ _ _ _ hw

/-- A read leaves memory and caches alone. -/
theorem State.Plain.afterRead {s : State} (h : s.Plain) (p : Place) (n pol : Nat) (e : Nat := 0) : s.afterRead p n pol e = s := by
  have hs : s.stashServed p pol = false := by simp [State.stashServed, h.windows]
  unfold State.afterRead
  rw [h.region, hs]
  simp [State.recallForRead, h.stash]

/-- A coherent read sees memory. -/
theorem State.Plain.viewNat {s : State} (h : s.Plain) (p : Place) (n : Nat) :
    s.viewNat p n = leVal ((List.range n).map (fun i => s.readPlain p.km (p.key + i))) := by
  unfold State.viewNat State.viewBytes State.peekByte
  rw [h.region]
  simp [h.stash]

theorem State.breakReservations_rest (s : State) (k n : Nat) :
    ∃ r, s.breakReservations k n =
      { s with task := { s.task with resv := r }, parked := s.parked.map (fun t => t.dropReservation k n),
               segments := s.segments.map (Segment.forget k n) } := by
  unfold State.breakReservations Task.dropReservation
  split
  · exact ⟨s.task.resv, rfl⟩
  · split
    · split
      · exact ⟨none, rfl⟩
      · exact ⟨s.task.resv, rfl⟩
    · exact ⟨s.task.resv, rfl⟩

/-- What stands in a region's lineage depends on the regions alone. -/
theorem State.lineage_congr {s t : State} (h : t.regions = s.regions) (c : Nat) (a : Word) (n : Nat) :
    t.lineage c a n = s.lineage c a n := by
  induction n generalizing a with
  | zero => rfl
  | succ n ih => simp only [State.lineage, State.region, h, ih]

/-- A store leaves memory plain. -/
theorem State.Stored.plain {s t : State} {p : Place} {bs : List Byte} (st : s.Stored t p bs) (h : s.Plain) : t.Plain := by
  obtain ⟨r, hr⟩ := s.breakReservations_rest p.key bs.length
  have e := st.rest
  rw [hr] at e
  refine ⟨?_, ?_, fun va => ?_, ?_⟩
  · have h1 := h.region
    unfold State.det State.isDet State.effFlags State.effField State.chain at h1 ⊢
    rw [State.lineage_congr (s := s) (by rw [e])]
    rw [e]
    exact h1
  · rw [e]; exact h.stash
  · rw [e]; exact h.windows va
  · rw [e]; exact h.poison

end Sys2Proof.Machine
end

