-- ==== Sys2Proof/Laws/Packets.lean ====
section
/-! SUPPORT. What the checks of a packet come to: the first that fails decides, and where all hold the packet starts (R418). -/

namespace Sys2Proof.Machine

@[simp] theorem State.decides_nil (s : State) (o : Host.Outcome State Fault Refusal) (q : Nat) (p : BitVec 512) (rest : Prop) : s.Decides o q p [] rest = rest := rfl

/-- A check whose condition is put in other words. -/
theorem State.decides_cons {s : State} {o : Host.Outcome State Fault Refusal} {q : Nat} {p : BitVec 512} {a b : Prop} {c : Option Nat} {cs ds : List (Prop × Option Nat)}
    {rest : Prop} (h : a ↔ b) (hs : s.Decides o q p cs rest → s.Decides o q p ds rest) (hd : s.Decides o q p ((a, c) :: cs) rest) :
    s.Decides o q p ((b, c) :: ds) rest :=
  ⟨fun n => hd.1 (fun x => n (h.1 x)), fun y => hs (hd.2 (h.2 y))⟩

/-- Checks that `firstFailure` goes through decide, in its order: code 0 stands for a root that can no longer be read (R36). -/
theorem State.decides_of_firstFailure {s : State} {o : Host.Outcome State Fault Refusal} {q : Nat} {p : BitVec 512} {rest : Prop} (cs : List (Bool × Nat))
    (hf : ∀ code, firstFailure cs = some code → o = .next (s.failPacket q p code)) (hr : firstFailure cs = none → rest) :
    s.Decides o q p (cs.map (fun c => (c.1 = true, if c.2 = 0 then none else some c.2))) rest := by
  induction cs with
  | nil => exact hr rfl
  | cons c cs ih =>
    obtain ⟨holds, code⟩ := c
    refine ⟨fun n => ?_, fun y => ih (fun k hk => hf k ?_) (fun hk => hr ?_)⟩
    · have := hf code (by simp only [firstFailure]; rw [if_neg n])
      rw [this]
      by_cases z : code = 0 <;> simp [State.failPacket, z]
    · simp only [firstFailure]; rw [if_pos y]; exact hk
    · simp only [firstFailure]; rw [if_pos y]; exact hk

/-- A packet of a queue, as `State.packet` runs it. -/
theorem State.packet_decides {s : State} {o : Host.Outcome State Fault Refusal} {q : Nat} {p : BitVec 512} {x : Queue} {used : List (Nat × Nat)}
    {checks : Queue → List (Bool × Nat)} {k : Queue → State → Nat → State} (hq : s.queue q = some x)
    (e : o = .next (s.packet q p used checks k)) :
    s.Decides o q p (((packetClean p used, 0x02) :: checks x).map (fun c => (c.1 = true, if c.2 = 0 then none else some c.2)))
      (o = .next ((k x (s.startPacket q x p) s.nextPid).settleQueue q).settle) := by
  refine State.decides_of_firstFailure _ (fun code h => ?_) (fun h => ?_) <;> rw [e] <;> simp only [State.packet, hq, h]

end Sys2Proof.Machine
end

