-- ==== Sys2Proof/Laws/PerInstr.lean ====
section
/-! SUPPORT. Facts that are made for each instruction. -/

namespace Sys2Proof.Laws.HasWord

/-- An instruction has a word exactly when it is no step of an agent (R95). -/
def Statement (i : Instr) : Prop := (encode i).isSome = (i.attr != .agent)

theorem lui (rd : BitVec 5) (imm : BitVec 20) : Statement (.lui rd imm) := rfl
theorem auipc (rd : BitVec 5) (imm : BitVec 20) : Statement (.auipc rd imm) := rfl
theorem jal (rd : BitVec 5) (imm : BitVec 20) : Statement (.jal rd imm) := rfl
theorem jalr (rd : BitVec 5) (rs1 : BitVec 5) (imm : BitVec 12) : Statement (.jalr rd rs1 imm) := rfl
theorem beq (rs1 : BitVec 5) (rs2 : BitVec 5) (imm : BitVec 12) : Statement (.beq rs1 rs2 imm) := rfl
theorem bne (rs1 : BitVec 5) (rs2 : BitVec 5) (imm : BitVec 12) : Statement (.bne rs1 rs2 imm) := rfl
theorem blt (rs1 : BitVec 5) (rs2 : BitVec 5) (imm : BitVec 12) : Statement (.blt rs1 rs2 imm) := rfl
theorem bge (rs1 : BitVec 5) (rs2 : BitVec 5) (imm : BitVec 12) : Statement (.bge rs1 rs2 imm) := rfl
theorem bltu (rs1 : BitVec 5) (rs2 : BitVec 5) (imm : BitVec 12) : Statement (.bltu rs1 rs2 imm) := rfl
theorem bgeu (rs1 : BitVec 5) (rs2 : BitVec 5) (imm : BitVec 12) : Statement (.bgeu rs1 rs2 imm) := rfl
theorem lb (rd : BitVec 5) (rs1 : BitVec 5) (imm : BitVec 12) : Statement (.lb rd rs1 imm) := rfl
theorem lh (rd : BitVec 5) (rs1 : BitVec 5) (imm : BitVec 12) : Statement (.lh rd rs1 imm) := rfl
theorem lw (rd : BitVec 5) (rs1 : BitVec 5) (imm : BitVec 12) : Statement (.lw rd rs1 imm) := rfl
theorem ld (rd : BitVec 5) (rs1 : BitVec 5) (imm : BitVec 12) : Statement (.ld rd rs1 imm) := rfl
theorem lbu (rd : BitVec 5) (rs1 : BitVec 5) (imm : BitVec 12) : Statement (.lbu rd rs1 imm) := rfl
theorem lhu (rd : BitVec 5) (rs1 : BitVec 5) (imm : BitVec 12) : Statement (.lhu rd rs1 imm) := rfl
theorem lwu (rd : BitVec 5) (rs1 : BitVec 5) (imm : BitVec 12) : Statement (.lwu rd rs1 imm) := rfl
theorem sb (rs1 : BitVec 5) (rs2 : BitVec 5) (imm : BitVec 12) : Statement (.sb rs1 rs2 imm) := rfl
theorem sh (rs1 : BitVec 5) (rs2 : BitVec 5) (imm : BitVec 12) : Statement (.sh rs1 rs2 imm) := rfl
theorem sw (rs1 : BitVec 5) (rs2 : BitVec 5) (imm : BitVec 12) : Statement (.sw rs1 rs2 imm) := rfl
theorem sd (rs1 : BitVec 5) (rs2 : BitVec 5) (imm : BitVec 12) : Statement (.sd rs1 rs2 imm) := rfl
theorem addi (rd : BitVec 5) (rs1 : BitVec 5) (imm : BitVec 12) : Statement (.addi rd rs1 imm) := rfl
theorem slti (rd : BitVec 5) (rs1 : BitVec 5) (imm : BitVec 12) : Statement (.slti rd rs1 imm) := rfl
theorem sltiu (rd : BitVec 5) (rs1 : BitVec 5) (imm : BitVec 12) : Statement (.sltiu rd rs1 imm) := rfl
theorem xori (rd : BitVec 5) (rs1 : BitVec 5) (imm : BitVec 12) : Statement (.xori rd rs1 imm) := rfl
theorem ori (rd : BitVec 5) (rs1 : BitVec 5) (imm : BitVec 12) : Statement (.ori rd rs1 imm) := rfl
theorem andi (rd : BitVec 5) (rs1 : BitVec 5) (imm : BitVec 12) : Statement (.andi rd rs1 imm) := rfl
theorem slli (rd : BitVec 5) (rs1 : BitVec 5) (shamt : BitVec 6) : Statement (.slli rd rs1 shamt) := rfl
theorem srli (rd : BitVec 5) (rs1 : BitVec 5) (shamt : BitVec 6) : Statement (.srli rd rs1 shamt) := rfl
theorem srai (rd : BitVec 5) (rs1 : BitVec 5) (shamt : BitVec 6) : Statement (.srai rd rs1 shamt) := rfl
theorem add (rd : BitVec 5) (rs1 : BitVec 5) (rs2 : BitVec 5) : Statement (.add rd rs1 rs2) := rfl
theorem sub (rd : BitVec 5) (rs1 : BitVec 5) (rs2 : BitVec 5) : Statement (.sub rd rs1 rs2) := rfl
theorem sll (rd : BitVec 5) (rs1 : BitVec 5) (rs2 : BitVec 5) : Statement (.sll rd rs1 rs2) := rfl
theorem slt (rd : BitVec 5) (rs1 : BitVec 5) (rs2 : BitVec 5) : Statement (.slt rd rs1 rs2) := rfl
theorem sltu (rd : BitVec 5) (rs1 : BitVec 5) (rs2 : BitVec 5) : Statement (.sltu rd rs1 rs2) := rfl
theorem xor (rd : BitVec 5) (rs1 : BitVec 5) (rs2 : BitVec 5) : Statement (.xor rd rs1 rs2) := rfl
theorem srl (rd : BitVec 5) (rs1 : BitVec 5) (rs2 : BitVec 5) : Statement (.srl rd rs1 rs2) := rfl
theorem sra (rd : BitVec 5) (rs1 : BitVec 5) (rs2 : BitVec 5) : Statement (.sra rd rs1 rs2) := rfl
theorem or (rd : BitVec 5) (rs1 : BitVec 5) (rs2 : BitVec 5) : Statement (.or rd rs1 rs2) := rfl
theorem and (rd : BitVec 5) (rs1 : BitVec 5) (rs2 : BitVec 5) : Statement (.and rd rs1 rs2) := rfl
theorem addiw (rd : BitVec 5) (rs1 : BitVec 5) (imm : BitVec 12) : Statement (.addiw rd rs1 imm) := rfl
theorem slliw (rd : BitVec 5) (rs1 : BitVec 5) (shamt : BitVec 5) : Statement (.slliw rd rs1 shamt) := rfl
theorem srliw (rd : BitVec 5) (rs1 : BitVec 5) (shamt : BitVec 5) : Statement (.srliw rd rs1 shamt) := rfl
theorem sraiw (rd : BitVec 5) (rs1 : BitVec 5) (shamt : BitVec 5) : Statement (.sraiw rd rs1 shamt) := rfl
theorem addw (rd : BitVec 5) (rs1 : BitVec 5) (rs2 : BitVec 5) : Statement (.addw rd rs1 rs2) := rfl
theorem subw (rd : BitVec 5) (rs1 : BitVec 5) (rs2 : BitVec 5) : Statement (.subw rd rs1 rs2) := rfl
theorem sllw (rd : BitVec 5) (rs1 : BitVec 5) (rs2 : BitVec 5) : Statement (.sllw rd rs1 rs2) := rfl
theorem srlw (rd : BitVec 5) (rs1 : BitVec 5) (rs2 : BitVec 5) : Statement (.srlw rd rs1 rs2) := rfl
theorem sraw (rd : BitVec 5) (rs1 : BitVec 5) (rs2 : BitVec 5) : Statement (.sraw rd rs1 rs2) := rfl
theorem fence (fm : BitVec 1) (pred : BitVec 4) (succ : BitVec 4) : Statement (.fence fm pred succ) := rfl
theorem ecall : Statement (.ecall) := rfl
theorem ebreak : Statement (.ebreak) := rfl
theorem mul (rd : BitVec 5) (rs1 : BitVec 5) (rs2 : BitVec 5) : Statement (.mul rd rs1 rs2) := rfl
theorem mulh (rd : BitVec 5) (rs1 : BitVec 5) (rs2 : BitVec 5) : Statement (.mulh rd rs1 rs2) := rfl
theorem mulhsu (rd : BitVec 5) (rs1 : BitVec 5) (rs2 : BitVec 5) : Statement (.mulhsu rd rs1 rs2) := rfl
theorem mulhu (rd : BitVec 5) (rs1 : BitVec 5) (rs2 : BitVec 5) : Statement (.mulhu rd rs1 rs2) := rfl
theorem div (rd : BitVec 5) (rs1 : BitVec 5) (rs2 : BitVec 5) : Statement (.div rd rs1 rs2) := rfl
theorem divu (rd : BitVec 5) (rs1 : BitVec 5) (rs2 : BitVec 5) : Statement (.divu rd rs1 rs2) := rfl
theorem rem (rd : BitVec 5) (rs1 : BitVec 5) (rs2 : BitVec 5) : Statement (.rem rd rs1 rs2) := rfl
theorem remu (rd : BitVec 5) (rs1 : BitVec 5) (rs2 : BitVec 5) : Statement (.remu rd rs1 rs2) := rfl
theorem mulw (rd : BitVec 5) (rs1 : BitVec 5) (rs2 : BitVec 5) : Statement (.mulw rd rs1 rs2) := rfl
theorem divw (rd : BitVec 5) (rs1 : BitVec 5) (rs2 : BitVec 5) : Statement (.divw rd rs1 rs2) := rfl
theorem divuw (rd : BitVec 5) (rs1 : BitVec 5) (rs2 : BitVec 5) : Statement (.divuw rd rs1 rs2) := rfl
theorem remw (rd : BitVec 5) (rs1 : BitVec 5) (rs2 : BitVec 5) : Statement (.remw rd rs1 rs2) := rfl
theorem remuw (rd : BitVec 5) (rs1 : BitVec 5) (rs2 : BitVec 5) : Statement (.remuw rd rs1 rs2) := rfl
theorem lrW (rd : BitVec 5) (rs1 : BitVec 5) (aq : BitVec 1) (rl : BitVec 1) : Statement (.lrW rd rs1 aq rl) := rfl
theorem lrD (rd : BitVec 5) (rs1 : BitVec 5) (aq : BitVec 1) (rl : BitVec 1) : Statement (.lrD rd rs1 aq rl) := rfl
theorem scW (rd : BitVec 5) (rs1 : BitVec 5) (rs2 : BitVec 5) (aq : BitVec 1) (rl : BitVec 1) : Statement (.scW rd rs1 rs2 aq rl) := rfl
theorem scD (rd : BitVec 5) (rs1 : BitVec 5) (rs2 : BitVec 5) (aq : BitVec 1) (rl : BitVec 1) : Statement (.scD rd rs1 rs2 aq rl) := rfl
theorem amoswapW (rd : BitVec 5) (rs1 : BitVec 5) (rs2 : BitVec 5) (aq : BitVec 1) (rl : BitVec 1) : Statement (.amoswapW rd rs1 rs2 aq rl) := rfl
theorem amoswapD (rd : BitVec 5) (rs1 : BitVec 5) (rs2 : BitVec 5) (aq : BitVec 1) (rl : BitVec 1) : Statement (.amoswapD rd rs1 rs2 aq rl) := rfl
theorem amoaddW (rd : BitVec 5) (rs1 : BitVec 5) (rs2 : BitVec 5) (aq : BitVec 1) (rl : BitVec 1) : Statement (.amoaddW rd rs1 rs2 aq rl) := rfl
theorem amoaddD (rd : BitVec 5) (rs1 : BitVec 5) (rs2 : BitVec 5) (aq : BitVec 1) (rl : BitVec 1) : Statement (.amoaddD rd rs1 rs2 aq rl) := rfl
theorem amoxorW (rd : BitVec 5) (rs1 : BitVec 5) (rs2 : BitVec 5) (aq : BitVec 1) (rl : BitVec 1) : Statement (.amoxorW rd rs1 rs2 aq rl) := rfl
theorem amoxorD (rd : BitVec 5) (rs1 : BitVec 5) (rs2 : BitVec 5) (aq : BitVec 1) (rl : BitVec 1) : Statement (.amoxorD rd rs1 rs2 aq rl) := rfl
theorem amoandW (rd : BitVec 5) (rs1 : BitVec 5) (rs2 : BitVec 5) (aq : BitVec 1) (rl : BitVec 1) : Statement (.amoandW rd rs1 rs2 aq rl) := rfl
theorem amoandD (rd : BitVec 5) (rs1 : BitVec 5) (rs2 : BitVec 5) (aq : BitVec 1) (rl : BitVec 1) : Statement (.amoandD rd rs1 rs2 aq rl) := rfl
theorem amoorW (rd : BitVec 5) (rs1 : BitVec 5) (rs2 : BitVec 5) (aq : BitVec 1) (rl : BitVec 1) : Statement (.amoorW rd rs1 rs2 aq rl) := rfl
theorem amoorD (rd : BitVec 5) (rs1 : BitVec 5) (rs2 : BitVec 5) (aq : BitVec 1) (rl : BitVec 1) : Statement (.amoorD rd rs1 rs2 aq rl) := rfl
theorem amominW (rd : BitVec 5) (rs1 : BitVec 5) (rs2 : BitVec 5) (aq : BitVec 1) (rl : BitVec 1) : Statement (.amominW rd rs1 rs2 aq rl) := rfl
theorem amominD (rd : BitVec 5) (rs1 : BitVec 5) (rs2 : BitVec 5) (aq : BitVec 1) (rl : BitVec 1) : Statement (.amominD rd rs1 rs2 aq rl) := rfl
theorem amomaxW (rd : BitVec 5) (rs1 : BitVec 5) (rs2 : BitVec 5) (aq : BitVec 1) (rl : BitVec 1) : Statement (.amomaxW rd rs1 rs2 aq rl) := rfl
theorem amomaxD (rd : BitVec 5) (rs1 : BitVec 5) (rs2 : BitVec 5) (aq : BitVec 1) (rl : BitVec 1) : Statement (.amomaxD rd rs1 rs2 aq rl) := rfl
theorem amominuW (rd : BitVec 5) (rs1 : BitVec 5) (rs2 : BitVec 5) (aq : BitVec 1) (rl : BitVec 1) : Statement (.amominuW rd rs1 rs2 aq rl) := rfl
theorem amominuD (rd : BitVec 5) (rs1 : BitVec 5) (rs2 : BitVec 5) (aq : BitVec 1) (rl : BitVec 1) : Statement (.amominuD rd rs1 rs2 aq rl) := rfl
theorem amomaxuW (rd : BitVec 5) (rs1 : BitVec 5) (rs2 : BitVec 5) (aq : BitVec 1) (rl : BitVec 1) : Statement (.amomaxuW rd rs1 rs2 aq rl) := rfl
theorem amomaxuD (rd : BitVec 5) (rs1 : BitVec 5) (rs2 : BitVec 5) (aq : BitVec 1) (rl : BitVec 1) : Statement (.amomaxuD rd rs1 rs2 aq rl) := rfl
theorem csrrw (rd : BitVec 5) (rs1 : BitVec 5) (csr : BitVec 12) : Statement (.csrrw rd rs1 csr) := rfl
theorem csrrs (rd : BitVec 5) (rs1 : BitVec 5) (csr : BitVec 12) : Statement (.csrrs rd rs1 csr) := rfl
theorem csrrc (rd : BitVec 5) (rs1 : BitVec 5) (csr : BitVec 12) : Statement (.csrrc rd rs1 csr) := rfl
theorem csrrwi (rd : BitVec 5) (uimm : BitVec 5) (csr : BitVec 12) : Statement (.csrrwi rd uimm csr) := rfl
theorem csrrsi (rd : BitVec 5) (uimm : BitVec 5) (csr : BitVec 12) : Statement (.csrrsi rd uimm csr) := rfl
theorem csrrci (rd : BitVec 5) (uimm : BitVec 5) (csr : BitVec 12) : Statement (.csrrci rd uimm csr) := rfl
theorem vaddVV (vd : BitVec 5) (vs2 : BitVec 5) (vs1 : BitVec 5) (c2 : BitVec 1) (c1 : BitVec 1) (vm : BitVec 1) : Statement (.vaddVV vd vs2 vs1 c2 c1 vm) := rfl
theorem vaddVX (vd : BitVec 5) (vs2 : BitVec 5) (xs : BitVec 5) (c2 : BitVec 1) (vm : BitVec 1) : Statement (.vaddVX vd vs2 xs c2 vm) := rfl
theorem vaddVI (vd : BitVec 5) (vs2 : BitVec 5) (simm : BitVec 5) (c2 : BitVec 1) (vm : BitVec 1) : Statement (.vaddVI vd vs2 simm c2 vm) := rfl
theorem vaddVR (vd : BitVec 5) (vs2 : BitVec 5) (vs1 : BitVec 5) (rsz : BitVec 2) (vm : BitVec 1) : Statement (.vaddVR vd vs2 vs1 rsz vm) := rfl
theorem vsubVV (vd : BitVec 5) (vs2 : BitVec 5) (vs1 : BitVec 5) (c2 : BitVec 1) (c1 : BitVec 1) (vm : BitVec 1) : Statement (.vsubVV vd vs2 vs1 c2 c1 vm) := rfl
theorem vsubVX (vd : BitVec 5) (vs2 : BitVec 5) (xs : BitVec 5) (c2 : BitVec 1) (vm : BitVec 1) : Statement (.vsubVX vd vs2 xs c2 vm) := rfl
theorem vsubVI (vd : BitVec 5) (vs2 : BitVec 5) (simm : BitVec 5) (c2 : BitVec 1) (vm : BitVec 1) : Statement (.vsubVI vd vs2 simm c2 vm) := rfl
theorem vsubVR (vd : BitVec 5) (vs2 : BitVec 5) (vs1 : BitVec 5) (rsz : BitVec 2) (vm : BitVec 1) : Statement (.vsubVR vd vs2 vs1 rsz vm) := rfl
theorem vmulVV (vd : BitVec 5) (vs2 : BitVec 5) (vs1 : BitVec 5) (c2 : BitVec 1) (c1 : BitVec 1) (vm : BitVec 1) : Statement (.vmulVV vd vs2 vs1 c2 c1 vm) := rfl
theorem vmulVX (vd : BitVec 5) (vs2 : BitVec 5) (xs : BitVec 5) (c2 : BitVec 1) (vm : BitVec 1) : Statement (.vmulVX vd vs2 xs c2 vm) := rfl
theorem vmulVI (vd : BitVec 5) (vs2 : BitVec 5) (simm : BitVec 5) (c2 : BitVec 1) (vm : BitVec 1) : Statement (.vmulVI vd vs2 simm c2 vm) := rfl
theorem vmulVR (vd : BitVec 5) (vs2 : BitVec 5) (vs1 : BitVec 5) (rsz : BitVec 2) (vm : BitVec 1) : Statement (.vmulVR vd vs2 vs1 rsz vm) := rfl
theorem vgathergVV (vd : BitVec 5) (vs2 : BitVec 5) (vs1 : BitVec 5) (c2 : BitVec 1) (c1 : BitVec 1) (vm : BitVec 1) : Statement (.vgathergVV vd vs2 vs1 c2 c1 vm) := rfl
theorem vgathergVX (vd : BitVec 5) (vs2 : BitVec 5) (xs : BitVec 5) (c2 : BitVec 1) (vm : BitVec 1) : Statement (.vgathergVX vd vs2 xs c2 vm) := rfl
theorem vgathergVI (vd : BitVec 5) (vs2 : BitVec 5) (simm : BitVec 5) (c2 : BitVec 1) (vm : BitVec 1) : Statement (.vgathergVI vd vs2 simm c2 vm) := rfl
theorem vgathergVR (vd : BitVec 5) (vs2 : BitVec 5) (vs1 : BitVec 5) (rsz : BitVec 2) (vm : BitVec 1) : Statement (.vgathergVR vd vs2 vs1 rsz vm) := rfl
theorem vandVV (vd : BitVec 5) (vs2 : BitVec 5) (vs1 : BitVec 5) (c2 : BitVec 1) (c1 : BitVec 1) (vm : BitVec 1) : Statement (.vandVV vd vs2 vs1 c2 c1 vm) := rfl
theorem vandVX (vd : BitVec 5) (vs2 : BitVec 5) (xs : BitVec 5) (c2 : BitVec 1) (vm : BitVec 1) : Statement (.vandVX vd vs2 xs c2 vm) := rfl
theorem vandVI (vd : BitVec 5) (vs2 : BitVec 5) (simm : BitVec 5) (c2 : BitVec 1) (vm : BitVec 1) : Statement (.vandVI vd vs2 simm c2 vm) := rfl
theorem vandVR (vd : BitVec 5) (vs2 : BitVec 5) (vs1 : BitVec 5) (rsz : BitVec 2) (vm : BitVec 1) : Statement (.vandVR vd vs2 vs1 rsz vm) := rfl
theorem vorVV (vd : BitVec 5) (vs2 : BitVec 5) (vs1 : BitVec 5) (c2 : BitVec 1) (c1 : BitVec 1) (vm : BitVec 1) : Statement (.vorVV vd vs2 vs1 c2 c1 vm) := rfl
theorem vorVX (vd : BitVec 5) (vs2 : BitVec 5) (xs : BitVec 5) (c2 : BitVec 1) (vm : BitVec 1) : Statement (.vorVX vd vs2 xs c2 vm) := rfl
theorem vorVI (vd : BitVec 5) (vs2 : BitVec 5) (simm : BitVec 5) (c2 : BitVec 1) (vm : BitVec 1) : Statement (.vorVI vd vs2 simm c2 vm) := rfl
theorem vorVR (vd : BitVec 5) (vs2 : BitVec 5) (vs1 : BitVec 5) (rsz : BitVec 2) (vm : BitVec 1) : Statement (.vorVR vd vs2 vs1 rsz vm) := rfl
theorem vxorVV (vd : BitVec 5) (vs2 : BitVec 5) (vs1 : BitVec 5) (c2 : BitVec 1) (c1 : BitVec 1) (vm : BitVec 1) : Statement (.vxorVV vd vs2 vs1 c2 c1 vm) := rfl
theorem vxorVX (vd : BitVec 5) (vs2 : BitVec 5) (xs : BitVec 5) (c2 : BitVec 1) (vm : BitVec 1) : Statement (.vxorVX vd vs2 xs c2 vm) := rfl
theorem vxorVI (vd : BitVec 5) (vs2 : BitVec 5) (simm : BitVec 5) (c2 : BitVec 1) (vm : BitVec 1) : Statement (.vxorVI vd vs2 simm c2 vm) := rfl
theorem vxorVR (vd : BitVec 5) (vs2 : BitVec 5) (vs1 : BitVec 5) (rsz : BitVec 2) (vm : BitVec 1) : Statement (.vxorVR vd vs2 vs1 rsz vm) := rfl
theorem vsllVV (vd : BitVec 5) (vs2 : BitVec 5) (vs1 : BitVec 5) (c2 : BitVec 1) (c1 : BitVec 1) (vm : BitVec 1) : Statement (.vsllVV vd vs2 vs1 c2 c1 vm) := rfl
theorem vsllVX (vd : BitVec 5) (vs2 : BitVec 5) (xs : BitVec 5) (c2 : BitVec 1) (vm : BitVec 1) : Statement (.vsllVX vd vs2 xs c2 vm) := rfl
theorem vsllVI (vd : BitVec 5) (vs2 : BitVec 5) (simm : BitVec 5) (c2 : BitVec 1) (vm : BitVec 1) : Statement (.vsllVI vd vs2 simm c2 vm) := rfl
theorem vsllVR (vd : BitVec 5) (vs2 : BitVec 5) (vs1 : BitVec 5) (rsz : BitVec 2) (vm : BitVec 1) : Statement (.vsllVR vd vs2 vs1 rsz vm) := rfl
theorem vsrlVV (vd : BitVec 5) (vs2 : BitVec 5) (vs1 : BitVec 5) (c2 : BitVec 1) (c1 : BitVec 1) (vm : BitVec 1) : Statement (.vsrlVV vd vs2 vs1 c2 c1 vm) := rfl
theorem vsrlVX (vd : BitVec 5) (vs2 : BitVec 5) (xs : BitVec 5) (c2 : BitVec 1) (vm : BitVec 1) : Statement (.vsrlVX vd vs2 xs c2 vm) := rfl
theorem vsrlVI (vd : BitVec 5) (vs2 : BitVec 5) (simm : BitVec 5) (c2 : BitVec 1) (vm : BitVec 1) : Statement (.vsrlVI vd vs2 simm c2 vm) := rfl
theorem vsrlVR (vd : BitVec 5) (vs2 : BitVec 5) (vs1 : BitVec 5) (rsz : BitVec 2) (vm : BitVec 1) : Statement (.vsrlVR vd vs2 vs1 rsz vm) := rfl
theorem vsraVV (vd : BitVec 5) (vs2 : BitVec 5) (vs1 : BitVec 5) (c2 : BitVec 1) (c1 : BitVec 1) (vm : BitVec 1) : Statement (.vsraVV vd vs2 vs1 c2 c1 vm) := rfl
theorem vsraVX (vd : BitVec 5) (vs2 : BitVec 5) (xs : BitVec 5) (c2 : BitVec 1) (vm : BitVec 1) : Statement (.vsraVX vd vs2 xs c2 vm) := rfl
theorem vsraVI (vd : BitVec 5) (vs2 : BitVec 5) (simm : BitVec 5) (c2 : BitVec 1) (vm : BitVec 1) : Statement (.vsraVI vd vs2 simm c2 vm) := rfl
theorem vsraVR (vd : BitVec 5) (vs2 : BitVec 5) (vs1 : BitVec 5) (rsz : BitVec 2) (vm : BitVec 1) : Statement (.vsraVR vd vs2 vs1 rsz vm) := rfl
theorem vminVV (vd : BitVec 5) (vs2 : BitVec 5) (vs1 : BitVec 5) (c2 : BitVec 1) (c1 : BitVec 1) (vm : BitVec 1) : Statement (.vminVV vd vs2 vs1 c2 c1 vm) := rfl
theorem vminVX (vd : BitVec 5) (vs2 : BitVec 5) (xs : BitVec 5) (c2 : BitVec 1) (vm : BitVec 1) : Statement (.vminVX vd vs2 xs c2 vm) := rfl
theorem vminVI (vd : BitVec 5) (vs2 : BitVec 5) (simm : BitVec 5) (c2 : BitVec 1) (vm : BitVec 1) : Statement (.vminVI vd vs2 simm c2 vm) := rfl
theorem vminVR (vd : BitVec 5) (vs2 : BitVec 5) (vs1 : BitVec 5) (rsz : BitVec 2) (vm : BitVec 1) : Statement (.vminVR vd vs2 vs1 rsz vm) := rfl
theorem vmaxVV (vd : BitVec 5) (vs2 : BitVec 5) (vs1 : BitVec 5) (c2 : BitVec 1) (c1 : BitVec 1) (vm : BitVec 1) : Statement (.vmaxVV vd vs2 vs1 c2 c1 vm) := rfl
theorem vmaxVX (vd : BitVec 5) (vs2 : BitVec 5) (xs : BitVec 5) (c2 : BitVec 1) (vm : BitVec 1) : Statement (.vmaxVX vd vs2 xs c2 vm) := rfl
theorem vmaxVI (vd : BitVec 5) (vs2 : BitVec 5) (simm : BitVec 5) (c2 : BitVec 1) (vm : BitVec 1) : Statement (.vmaxVI vd vs2 simm c2 vm) := rfl
theorem vmaxVR (vd : BitVec 5) (vs2 : BitVec 5) (vs1 : BitVec 5) (rsz : BitVec 2) (vm : BitVec 1) : Statement (.vmaxVR vd vs2 vs1 rsz vm) := rfl
theorem vmseqVV (vd : BitVec 5) (vs2 : BitVec 5) (vs1 : BitVec 5) (c2 : BitVec 1) (c1 : BitVec 1) (vm : BitVec 1) : Statement (.vmseqVV vd vs2 vs1 c2 c1 vm) := rfl
theorem vmseqVX (vd : BitVec 5) (vs2 : BitVec 5) (xs : BitVec 5) (c2 : BitVec 1) (vm : BitVec 1) : Statement (.vmseqVX vd vs2 xs c2 vm) := rfl
theorem vmseqVI (vd : BitVec 5) (vs2 : BitVec 5) (simm : BitVec 5) (c2 : BitVec 1) (vm : BitVec 1) : Statement (.vmseqVI vd vs2 simm c2 vm) := rfl
theorem vmseqVR (vd : BitVec 5) (vs2 : BitVec 5) (vs1 : BitVec 5) (rsz : BitVec 2) (vm : BitVec 1) : Statement (.vmseqVR vd vs2 vs1 rsz vm) := rfl
theorem vmsltVV (vd : BitVec 5) (vs2 : BitVec 5) (vs1 : BitVec 5) (c2 : BitVec 1) (c1 : BitVec 1) (vm : BitVec 1) : Statement (.vmsltVV vd vs2 vs1 c2 c1 vm) := rfl
theorem vmsltVX (vd : BitVec 5) (vs2 : BitVec 5) (xs : BitVec 5) (c2 : BitVec 1) (vm : BitVec 1) : Statement (.vmsltVX vd vs2 xs c2 vm) := rfl
theorem vmsltVI (vd : BitVec 5) (vs2 : BitVec 5) (simm : BitVec 5) (c2 : BitVec 1) (vm : BitVec 1) : Statement (.vmsltVI vd vs2 simm c2 vm) := rfl
theorem vmsltVR (vd : BitVec 5) (vs2 : BitVec 5) (vs1 : BitVec 5) (rsz : BitVec 2) (vm : BitVec 1) : Statement (.vmsltVR vd vs2 vs1 rsz vm) := rfl
theorem vmsltuVV (vd : BitVec 5) (vs2 : BitVec 5) (vs1 : BitVec 5) (c2 : BitVec 1) (c1 : BitVec 1) (vm : BitVec 1) : Statement (.vmsltuVV vd vs2 vs1 c2 c1 vm) := rfl
theorem vmsltuVX (vd : BitVec 5) (vs2 : BitVec 5) (xs : BitVec 5) (c2 : BitVec 1) (vm : BitVec 1) : Statement (.vmsltuVX vd vs2 xs c2 vm) := rfl
theorem vmsltuVI (vd : BitVec 5) (vs2 : BitVec 5) (simm : BitVec 5) (c2 : BitVec 1) (vm : BitVec 1) : Statement (.vmsltuVI vd vs2 simm c2 vm) := rfl
theorem vmsltuVR (vd : BitVec 5) (vs2 : BitVec 5) (vs1 : BitVec 5) (rsz : BitVec 2) (vm : BitVec 1) : Statement (.vmsltuVR vd vs2 vs1 rsz vm) := rfl
theorem vgatherVV (vd : BitVec 5) (vs2 : BitVec 5) (vs1 : BitVec 5) (c2 : BitVec 1) (c1 : BitVec 1) (vm : BitVec 1) : Statement (.vgatherVV vd vs2 vs1 c2 c1 vm) := rfl
theorem vgatherVX (vd : BitVec 5) (vs2 : BitVec 5) (xs : BitVec 5) (c2 : BitVec 1) (vm : BitVec 1) : Statement (.vgatherVX vd vs2 xs c2 vm) := rfl
theorem vgatherVI (vd : BitVec 5) (vs2 : BitVec 5) (simm : BitVec 5) (c2 : BitVec 1) (vm : BitVec 1) : Statement (.vgatherVI vd vs2 simm c2 vm) := rfl
theorem vgatherVR (vd : BitVec 5) (vs2 : BitVec 5) (vs1 : BitVec 5) (rsz : BitVec 2) (vm : BitVec 1) : Statement (.vgatherVR vd vs2 vs1 rsz vm) := rfl
theorem vfaddFVV (vd : BitVec 5) (vs2 : BitVec 5) (vs1 : BitVec 5) (c2 : BitVec 1) (c1 : BitVec 1) (vm : BitVec 1) : Statement (.vfaddFVV vd vs2 vs1 c2 c1 vm) := rfl
theorem vfaddFVX (vd : BitVec 5) (vs2 : BitVec 5) (xs : BitVec 5) (c2 : BitVec 1) (vm : BitVec 1) : Statement (.vfaddFVX vd vs2 xs c2 vm) := rfl
theorem vfaddFVR (vd : BitVec 5) (vs2 : BitVec 5) (vs1 : BitVec 5) (rsz : BitVec 2) (vm : BitVec 1) : Statement (.vfaddFVR vd vs2 vs1 rsz vm) := rfl
theorem vfsubFVV (vd : BitVec 5) (vs2 : BitVec 5) (vs1 : BitVec 5) (c2 : BitVec 1) (c1 : BitVec 1) (vm : BitVec 1) : Statement (.vfsubFVV vd vs2 vs1 c2 c1 vm) := rfl
theorem vfsubFVX (vd : BitVec 5) (vs2 : BitVec 5) (xs : BitVec 5) (c2 : BitVec 1) (vm : BitVec 1) : Statement (.vfsubFVX vd vs2 xs c2 vm) := rfl
theorem vfsubFVR (vd : BitVec 5) (vs2 : BitVec 5) (vs1 : BitVec 5) (rsz : BitVec 2) (vm : BitVec 1) : Statement (.vfsubFVR vd vs2 vs1 rsz vm) := rfl
theorem vfmulFVV (vd : BitVec 5) (vs2 : BitVec 5) (vs1 : BitVec 5) (c2 : BitVec 1) (c1 : BitVec 1) (vm : BitVec 1) : Statement (.vfmulFVV vd vs2 vs1 c2 c1 vm) := rfl
theorem vfmulFVX (vd : BitVec 5) (vs2 : BitVec 5) (xs : BitVec 5) (c2 : BitVec 1) (vm : BitVec 1) : Statement (.vfmulFVX vd vs2 xs c2 vm) := rfl
theorem vfmulFVR (vd : BitVec 5) (vs2 : BitVec 5) (vs1 : BitVec 5) (rsz : BitVec 2) (vm : BitVec 1) : Statement (.vfmulFVR vd vs2 vs1 rsz vm) := rfl
theorem vfdivFVV (vd : BitVec 5) (vs2 : BitVec 5) (vs1 : BitVec 5) (c2 : BitVec 1) (c1 : BitVec 1) (vm : BitVec 1) : Statement (.vfdivFVV vd vs2 vs1 c2 c1 vm) := rfl
theorem vfdivFVX (vd : BitVec 5) (vs2 : BitVec 5) (xs : BitVec 5) (c2 : BitVec 1) (vm : BitVec 1) : Statement (.vfdivFVX vd vs2 xs c2 vm) := rfl
theorem vfdivFVR (vd : BitVec 5) (vs2 : BitVec 5) (vs1 : BitVec 5) (rsz : BitVec 2) (vm : BitVec 1) : Statement (.vfdivFVR vd vs2 vs1 rsz vm) := rfl
theorem vfmaccFVV (vd : BitVec 5) (vs2 : BitVec 5) (vs1 : BitVec 5) (c2 : BitVec 1) (c1 : BitVec 1) (vm : BitVec 1) : Statement (.vfmaccFVV vd vs2 vs1 c2 c1 vm) := rfl
theorem vfmaccFVX (vd : BitVec 5) (vs2 : BitVec 5) (xs : BitVec 5) (c2 : BitVec 1) (vm : BitVec 1) : Statement (.vfmaccFVX vd vs2 xs c2 vm) := rfl
theorem vfmaccFVR (vd : BitVec 5) (vs2 : BitVec 5) (vs1 : BitVec 5) (rsz : BitVec 2) (vm : BitVec 1) : Statement (.vfmaccFVR vd vs2 vs1 rsz vm) := rfl
theorem vfnmsacFVV (vd : BitVec 5) (vs2 : BitVec 5) (vs1 : BitVec 5) (c2 : BitVec 1) (c1 : BitVec 1) (vm : BitVec 1) : Statement (.vfnmsacFVV vd vs2 vs1 c2 c1 vm) := rfl
theorem vfnmsacFVX (vd : BitVec 5) (vs2 : BitVec 5) (xs : BitVec 5) (c2 : BitVec 1) (vm : BitVec 1) : Statement (.vfnmsacFVX vd vs2 xs c2 vm) := rfl
theorem vfnmsacFVR (vd : BitVec 5) (vs2 : BitVec 5) (vs1 : BitVec 5) (rsz : BitVec 2) (vm : BitVec 1) : Statement (.vfnmsacFVR vd vs2 vs1 rsz vm) := rfl
theorem vfminFVV (vd : BitVec 5) (vs2 : BitVec 5) (vs1 : BitVec 5) (c2 : BitVec 1) (c1 : BitVec 1) (vm : BitVec 1) : Statement (.vfminFVV vd vs2 vs1 c2 c1 vm) := rfl
theorem vfminFVX (vd : BitVec 5) (vs2 : BitVec 5) (xs : BitVec 5) (c2 : BitVec 1) (vm : BitVec 1) : Statement (.vfminFVX vd vs2 xs c2 vm) := rfl
theorem vfminFVR (vd : BitVec 5) (vs2 : BitVec 5) (vs1 : BitVec 5) (rsz : BitVec 2) (vm : BitVec 1) : Statement (.vfminFVR vd vs2 vs1 rsz vm) := rfl
theorem vfmaxFVV (vd : BitVec 5) (vs2 : BitVec 5) (vs1 : BitVec 5) (c2 : BitVec 1) (c1 : BitVec 1) (vm : BitVec 1) : Statement (.vfmaxFVV vd vs2 vs1 c2 c1 vm) := rfl
theorem vfmaxFVX (vd : BitVec 5) (vs2 : BitVec 5) (xs : BitVec 5) (c2 : BitVec 1) (vm : BitVec 1) : Statement (.vfmaxFVX vd vs2 xs c2 vm) := rfl
theorem vfmaxFVR (vd : BitVec 5) (vs2 : BitVec 5) (vs1 : BitVec 5) (rsz : BitVec 2) (vm : BitVec 1) : Statement (.vfmaxFVR vd vs2 vs1 rsz vm) := rfl
theorem vfmfeqFVV (vd : BitVec 5) (vs2 : BitVec 5) (vs1 : BitVec 5) (c2 : BitVec 1) (c1 : BitVec 1) (vm : BitVec 1) : Statement (.vfmfeqFVV vd vs2 vs1 c2 c1 vm) := rfl
theorem vfmfeqFVX (vd : BitVec 5) (vs2 : BitVec 5) (xs : BitVec 5) (c2 : BitVec 1) (vm : BitVec 1) : Statement (.vfmfeqFVX vd vs2 xs c2 vm) := rfl
theorem vfmfeqFVR (vd : BitVec 5) (vs2 : BitVec 5) (vs1 : BitVec 5) (rsz : BitVec 2) (vm : BitVec 1) : Statement (.vfmfeqFVR vd vs2 vs1 rsz vm) := rfl
theorem vfmfltFVV (vd : BitVec 5) (vs2 : BitVec 5) (vs1 : BitVec 5) (c2 : BitVec 1) (c1 : BitVec 1) (vm : BitVec 1) : Statement (.vfmfltFVV vd vs2 vs1 c2 c1 vm) := rfl
theorem vfmfltFVX (vd : BitVec 5) (vs2 : BitVec 5) (xs : BitVec 5) (c2 : BitVec 1) (vm : BitVec 1) : Statement (.vfmfltFVX vd vs2 xs c2 vm) := rfl
theorem vfmfltFVR (vd : BitVec 5) (vs2 : BitVec 5) (vs1 : BitVec 5) (rsz : BitVec 2) (vm : BitVec 1) : Statement (.vfmfltFVR vd vs2 vs1 rsz vm) := rfl
theorem vfmfleFVV (vd : BitVec 5) (vs2 : BitVec 5) (vs1 : BitVec 5) (c2 : BitVec 1) (c1 : BitVec 1) (vm : BitVec 1) : Statement (.vfmfleFVV vd vs2 vs1 c2 c1 vm) := rfl
theorem vfmfleFVX (vd : BitVec 5) (vs2 : BitVec 5) (xs : BitVec 5) (c2 : BitVec 1) (vm : BitVec 1) : Statement (.vfmfleFVX vd vs2 xs c2 vm) := rfl
theorem vfmfleFVR (vd : BitVec 5) (vs2 : BitVec 5) (vs1 : BitVec 5) (rsz : BitVec 2) (vm : BitVec 1) : Statement (.vfmfleFVR vd vs2 vs1 rsz vm) := rfl
theorem vcvtq4 (vd : BitVec 5) (vs2 : BitVec 5) (vs1 : BitVec 5) (c2 : BitVec 1) (c1 : BitVec 1) (vm : BitVec 1) : Statement (.vcvtq4 vd vs2 vs1 c2 c1 vm) := rfl
theorem vfsgnjFVV (vd : BitVec 5) (vs2 : BitVec 5) (vs1 : BitVec 5) (c2 : BitVec 1) (c1 : BitVec 1) (vm : BitVec 1) : Statement (.vfsgnjFVV vd vs2 vs1 c2 c1 vm) := rfl
theorem vfsgnjFVX (vd : BitVec 5) (vs2 : BitVec 5) (xs : BitVec 5) (c2 : BitVec 1) (vm : BitVec 1) : Statement (.vfsgnjFVX vd vs2 xs c2 vm) := rfl
theorem vfsgnjFVR (vd : BitVec 5) (vs2 : BitVec 5) (vs1 : BitVec 5) (rsz : BitVec 2) (vm : BitVec 1) : Statement (.vfsgnjFVR vd vs2 vs1 rsz vm) := rfl
theorem vfsgnjnFVV (vd : BitVec 5) (vs2 : BitVec 5) (vs1 : BitVec 5) (c2 : BitVec 1) (c1 : BitVec 1) (vm : BitVec 1) : Statement (.vfsgnjnFVV vd vs2 vs1 c2 c1 vm) := rfl
theorem vfsgnjnFVX (vd : BitVec 5) (vs2 : BitVec 5) (xs : BitVec 5) (c2 : BitVec 1) (vm : BitVec 1) : Statement (.vfsgnjnFVX vd vs2 xs c2 vm) := rfl
theorem vfsgnjnFVR (vd : BitVec 5) (vs2 : BitVec 5) (vs1 : BitVec 5) (rsz : BitVec 2) (vm : BitVec 1) : Statement (.vfsgnjnFVR vd vs2 vs1 rsz vm) := rfl
theorem vfsgnjxFVV (vd : BitVec 5) (vs2 : BitVec 5) (vs1 : BitVec 5) (c2 : BitVec 1) (c1 : BitVec 1) (vm : BitVec 1) : Statement (.vfsgnjxFVV vd vs2 vs1 c2 c1 vm) := rfl
theorem vfsgnjxFVX (vd : BitVec 5) (vs2 : BitVec 5) (xs : BitVec 5) (c2 : BitVec 1) (vm : BitVec 1) : Statement (.vfsgnjxFVX vd vs2 xs c2 vm) := rfl
theorem vfsgnjxFVR (vd : BitVec 5) (vs2 : BitVec 5) (vs1 : BitVec 5) (rsz : BitVec 2) (vm : BitVec 1) : Statement (.vfsgnjxFVR vd vs2 vs1 rsz vm) := rfl
theorem vfscaleFVV (vd : BitVec 5) (vs2 : BitVec 5) (vs1 : BitVec 5) (c2 : BitVec 1) (c1 : BitVec 1) (vm : BitVec 1) : Statement (.vfscaleFVV vd vs2 vs1 c2 c1 vm) := rfl
theorem vfscaleFVX (vd : BitVec 5) (vs2 : BitVec 5) (xs : BitVec 5) (c2 : BitVec 1) (vm : BitVec 1) : Statement (.vfscaleFVX vd vs2 xs c2 vm) := rfl
theorem vfscaleFVR (vd : BitVec 5) (vs2 : BitVec 5) (vs1 : BitVec 5) (rsz : BitVec 2) (vm : BitVec 1) : Statement (.vfscaleFVR vd vs2 vs1 rsz vm) := rfl
theorem vmv (vd : BitVec 5) (vs2 : BitVec 5) (c2 : BitVec 1) (vm : BitVec 1) : Statement (.vmv vd vs2 c2 vm) := rfl
theorem vsplat (vd : BitVec 5) (xs : BitVec 5) (vm : BitVec 1) : Statement (.vsplat vd xs vm) := rfl
theorem vmvsx (vd : BitVec 5) (xs : BitVec 5) : Statement (.vmvsx vd xs) := rfl
theorem vmvxs (xd : BitVec 5) (vs2 : BitVec 5) (c2 : BitVec 1) : Statement (.vmvxs xd vs2 c2) := rfl
theorem vid (vd : BitVec 5) (vm : BitVec 1) : Statement (.vid vd vm) := rfl
theorem vredsum (vd : BitVec 5) (vs2 : BitVec 5) (c2 : BitVec 1) (vm : BitVec 1) : Statement (.vredsum vd vs2 c2 vm) := rfl
theorem vredmin (vd : BitVec 5) (vs2 : BitVec 5) (c2 : BitVec 1) (vm : BitVec 1) : Statement (.vredmin vd vs2 c2 vm) := rfl
theorem vredmax (vd : BitVec 5) (vs2 : BitVec 5) (c2 : BitVec 1) (vm : BitVec 1) : Statement (.vredmax vd vs2 c2 vm) := rfl
theorem vredand (vd : BitVec 5) (vs2 : BitVec 5) (c2 : BitVec 1) (vm : BitVec 1) : Statement (.vredand vd vs2 c2 vm) := rfl
theorem vredor (vd : BitVec 5) (vs2 : BitVec 5) (c2 : BitVec 1) (vm : BitVec 1) : Statement (.vredor vd vs2 c2 vm) := rfl
theorem vredxor (vd : BitVec 5) (vs2 : BitVec 5) (c2 : BitVec 1) (vm : BitVec 1) : Statement (.vredxor vd vs2 c2 vm) := rfl
theorem vmpopc (vd : BitVec 5) (vs2 : BitVec 5) (c2 : BitVec 1) (vm : BitVec 1) : Statement (.vmpopc vd vs2 c2 vm) := rfl
theorem vmfirst (vd : BitVec 5) (vs2 : BitVec 5) (c2 : BitVec 1) (vm : BitVec 1) : Statement (.vmfirst vd vs2 c2 vm) := rfl
theorem vcompress (vd : BitVec 5) (vs2 : BitVec 5) (c2 : BitVec 1) : Statement (.vcompress vd vs2 c2) := rfl
theorem vrng (vd : BitVec 5) (vm : BitVec 1) : Statement (.vrng vd vm) := rfl
theorem vfrecip (vd : BitVec 5) (vs2 : BitVec 5) (c2 : BitVec 1) (vm : BitVec 1) : Statement (.vfrecip vd vs2 c2 vm) := rfl
theorem vfrsqrt (vd : BitVec 5) (vs2 : BitVec 5) (c2 : BitVec 1) (vm : BitVec 1) : Statement (.vfrsqrt vd vs2 c2 vm) := rfl
theorem vfexp2 (vd : BitVec 5) (vs2 : BitVec 5) (c2 : BitVec 1) (vm : BitVec 1) : Statement (.vfexp2 vd vs2 c2 vm) := rfl
theorem vflog2 (vd : BitVec 5) (vs2 : BitVec 5) (c2 : BitVec 1) (vm : BitVec 1) : Statement (.vflog2 vd vs2 c2 vm) := rfl
theorem vfsqrt (vd : BitVec 5) (vs2 : BitVec 5) (c2 : BitVec 1) (vm : BitVec 1) : Statement (.vfsqrt vd vs2 c2 vm) := rfl
theorem vfclass (vd : BitVec 5) (vs2 : BitVec 5) (c2 : BitVec 1) (vm : BitVec 1) : Statement (.vfclass vd vs2 c2 vm) := rfl
theorem vfredsum (vd : BitVec 5) (vs2 : BitVec 5) (c2 : BitVec 1) (vm : BitVec 1) : Statement (.vfredsum vd vs2 c2 vm) := rfl
theorem vfredosum (vd : BitVec 5) (vs2 : BitVec 5) (c2 : BitVec 1) (vm : BitVec 1) : Statement (.vfredosum vd vs2 c2 vm) := rfl
theorem vfredmin (vd : BitVec 5) (vs2 : BitVec 5) (c2 : BitVec 1) (vm : BitVec 1) : Statement (.vfredmin vd vs2 c2 vm) := rfl
theorem vfredmax (vd : BitVec 5) (vs2 : BitVec 5) (c2 : BitVec 1) (vm : BitVec 1) : Statement (.vfredmax vd vs2 c2 vm) := rfl
theorem vncvt (vd : BitVec 5) (vs2 : BitVec 5) (c2 : BitVec 1) (vm : BitVec 1) : Statement (.vncvt vd vs2 c2 vm) := rfl
theorem vwcvt (vd : BitVec 5) (vs2 : BitVec 5) (c2 : BitVec 1) (vm : BitVec 1) : Statement (.vwcvt vd vs2 c2 vm) := rfl
theorem vncvti (vd : BitVec 5) (vs2 : BitVec 5) (c2 : BitVec 1) (vm : BitVec 1) : Statement (.vncvti vd vs2 c2 vm) := rfl
theorem vwcvti (vd : BitVec 5) (vs2 : BitVec 5) (c2 : BitVec 1) (vm : BitVec 1) : Statement (.vwcvti vd vs2 c2 vm) := rfl
theorem vwcvtn (vd : BitVec 5) (vs2 : BitVec 5) (c2 : BitVec 1) (vm : BitVec 1) : Statement (.vwcvtn vd vs2 c2 vm) := rfl
theorem vcvtif (vd : BitVec 5) (vs2 : BitVec 5) (c2 : BitVec 1) (vm : BitVec 1) : Statement (.vcvtif vd vs2 c2 vm) := rfl
theorem vcvtfi (vd : BitVec 5) (vs2 : BitVec 5) (c2 : BitVec 1) (vm : BitVec 1) : Statement (.vcvtfi vd vs2 c2 vm) := rfl
theorem vbscale (vd : BitVec 5) (vs2 : BitVec 5) (c2 : BitVec 1) (vm : BitVec 1) : Statement (.vbscale vd vs2 c2 vm) := rfl
theorem vle (vd : BitVec 5) (rs1 : BitVec 5) (pol : BitVec 2) (eew : BitVec 3) (vm : BitVec 1) : Statement (.vle vd rs1 pol eew vm) := rfl
theorem vlse (vd : BitVec 5) (rs1 : BitVec 5) (rs2 : BitVec 5) (pol : BitVec 2) (eew : BitVec 3) (vm : BitVec 1) : Statement (.vlse vd rs1 rs2 pol eew vm) := rfl
theorem vlxe (vd : BitVec 5) (vs2 : BitVec 5) (rs1 : BitVec 5) (pol : BitVec 2) (eew : BitVec 3) (c : BitVec 1) (vm : BitVec 1) : Statement (.vlxe vd vs2 rs1 pol eew c vm) := rfl
theorem vse (vs3 : BitVec 5) (rs1 : BitVec 5) (pol : BitVec 2) (eew : BitVec 3) (c : BitVec 1) (vm : BitVec 1) : Statement (.vse vs3 rs1 pol eew c vm) := rfl
theorem vsse (vs3 : BitVec 5) (rs1 : BitVec 5) (rs2 : BitVec 5) (pol : BitVec 2) (eew : BitVec 3) (c : BitVec 1) (vm : BitVec 1) : Statement (.vsse vs3 rs1 rs2 pol eew c vm) := rfl
theorem vsxe (vs3 : BitVec 5) (vs2 : BitVec 5) (rs1 : BitVec 5) (pol : BitVec 2) (eew : BitVec 3) (c : BitVec 1) (vm : BitVec 1) : Statement (.vsxe vs3 vs2 rs1 pol eew c vm) := rfl
theorem vappend (vs3 : BitVec 5) (rs1 : BitVec 5) (pol : BitVec 2) (eew : BitVec 3) (c : BitVec 1) (vm : BitVec 1) : Statement (.vappend vs3 rs1 pol eew c vm) := rfl
theorem vamoadd (vd : BitVec 5) (vs2 : BitVec 5) (rs1 : BitVec 5) (eew : BitVec 3) (vm : BitVec 1) : Statement (.vamoadd vd vs2 rs1 eew vm) := rfl
theorem vamomin (vd : BitVec 5) (vs2 : BitVec 5) (rs1 : BitVec 5) (eew : BitVec 3) (vm : BitVec 1) : Statement (.vamomin vd vs2 rs1 eew vm) := rfl
theorem vamomax (vd : BitVec 5) (vs2 : BitVec 5) (rs1 : BitVec 5) (eew : BitVec 3) (vm : BitVec 1) : Statement (.vamomax vd vs2 rs1 eew vm) := rfl
theorem vamoswap (vd : BitVec 5) (vs2 : BitVec 5) (rs1 : BitVec 5) (eew : BitVec 3) (vm : BitVec 1) : Statement (.vamoswap vd vs2 rs1 eew vm) := rfl
theorem vamoxor (vd : BitVec 5) (vs2 : BitVec 5) (rs1 : BitVec 5) (eew : BitVec 3) (vm : BitVec 1) : Statement (.vamoxor vd vs2 rs1 eew vm) := rfl
theorem mopa (md : BitVec 3) (vs2 : BitVec 5) (vs1 : BitVec 5) (c2 : BitVec 1) (c1 : BitVec 1) (vm : BitVec 1) : Statement (.mopa md vs2 vs1 c2 c1 vm) := rfl
theorem mopd (md : BitVec 3) (vs2 : BitVec 5) (vs1 : BitVec 5) (c2 : BitVec 1) (c1 : BitVec 1) (vm : BitVec 1) : Statement (.mopd md vs2 vs1 c2 c1 vm) := rfl
theorem mzero (md : BitVec 3) : Statement (.mzero md) := rfl
theorem mcupd (xb : BitVec 5) (vs2 : BitVec 5) (vs1 : BitVec 5) (c2 : BitVec 1) (c1 : BitVec 1) (vm : BitVec 1) : Statement (.mcupd xb vs2 vs1 c2 c1 vm) := rfl
theorem mdrain (vd : BitVec 5) (md : BitVec 3) (xs : BitVec 5) (vm : BitVec 1) : Statement (.mdrain vd md xs vm) := rfl
theorem mdrainq (vd : BitVec 5) (md : BitVec 3) (xs : BitVec 5) (vm : BitVec 1) : Statement (.mdrainq vd md xs vm) := rfl
theorem mbest (vd : BitVec 5) (md : BitVec 3) (vm : BitVec 1) : Statement (.mbest vd md vm) := rfl
theorem mld (md : BitVec 3) (xa : BitVec 5) (xs : BitVec 5) : Statement (.mld md xa xs) := rfl
theorem mst (md : BitVec 3) (xa : BitVec 5) (xs : BitVec 5) : Statement (.mst md xa xs) := rfl
theorem mfetch (md : BitVec 3) (xb : BitVec 5) (xa : BitVec 5) : Statement (.mfetch md xb xa) := rfl
theorem vpmul (vd : BitVec 5) (fl : BitVec 2) (vs2 : BitVec 5) (vs1 : BitVec 5) (c2 : BitVec 1) (c1 : BitVec 1) (vm : BitVec 1) : Statement (.vpmul vd fl vs2 vs1 c2 c1 vm) := rfl
theorem vpmacc (vd : BitVec 5) (fl : BitVec 2) (vs2 : BitVec 5) (vs1 : BitVec 5) (c2 : BitVec 1) (c1 : BitVec 1) (vm : BitVec 1) : Statement (.vpmacc vd fl vs2 vs1 c2 c1 vm) := rfl
theorem vpconv (vd : BitVec 5) (fl : BitVec 2) (vs2 : BitVec 5) (vs1 : BitVec 5) (cb : BitVec 1) (c2 : BitVec 1) (vm : BitVec 1) : Statement (.vpconv vd fl vs2 vs1 cb c2 vm) := rfl
theorem vpguard (vd : BitVec 5) (fl : BitVec 2) (vs2 : BitVec 5) (vs1 : BitVec 5) (c2 : BitVec 1) (c1 : BitVec 1) (vm : BitVec 1) : Statement (.vpguard vd fl vs2 vs1 c2 c1 vm) := rfl
theorem vpack (vd : BitVec 5) (fl : BitVec 2) (vs2 : BitVec 5) (c2 : BitVec 1) (vm : BitVec 1) : Statement (.vpack vd fl vs2 c2 vm) := rfl
theorem vunpack (vd : BitVec 5) (fl : BitVec 2) (vs2 : BitVec 5) (c2 : BitVec 1) (vm : BitVec 1) : Statement (.vunpack vd fl vs2 c2 vm) := rfl
theorem vpext (vd : BitVec 5) (fl : BitVec 2) (vs2 : BitVec 5) (j : BitVec 3) (c2 : BitVec 1) (vm : BitVec 1) : Statement (.vpext vd fl vs2 j c2 vm) := rfl
theorem flset (fl : BitVec 2) (xs : BitVec 5) : Statement (.flset fl xs) := rfl
theorem flget (xd : BitVec 5) (fl : BitVec 2) : Statement (.flget xd fl) := rfl
theorem msetshape (xs : BitVec 5) : Statement (.msetshape xs) := rfl
theorem msetcfg (xs : BitVec 5) : Statement (.msetcfg xs) := rfl
theorem mgetstat (xd : BitVec 5) : Statement (.mgetstat xd) := rfl
theorem mclrstat : Statement (.mclrstat) := rfl
theorem vblk (xs : BitVec 5) : Statement (.vblk xs) := rfl
theorem vreply (xd : BitVec 5) : Statement (.vreply xd) := rfl
theorem vdrainq : Statement (.vdrainq) := rfl
theorem vstrip (lc : BitVec 2) : Statement (.vstrip lc) := rfl
theorem vloop (lc : BitVec 2) (xs : BitVec 5) : Statement (.vloop lc xs) := rfl
theorem vlbnz (lc : BitVec 2) (dist : BitVec 10) : Statement (.vlbnz lc dist) := rfl
theorem baddi (xd : BitVec 5) (simm : BitVec 10) : Statement (.baddi xd simm) := rfl
theorem baddvl (xd : BitVec 5) (sh : BitVec 3) : Statement (.baddvl xd sh) := rfl
theorem vcond (vs2 : BitVec 5) (c2 : BitVec 1) (vm : BitVec 1) : Statement (.vcond vs2 c2 vm) := rfl
theorem vpost (xs : BitVec 5) : Statement (.vpost xs) := rfl
theorem vsplit (off : BitVec 10) (vm : BitVec 1) : Statement (.vsplit off vm) := rfl
theorem lbeq (vs2 : BitVec 5) (vs1 : BitVec 5) (off : BitVec 8) : Statement (.lbeq vs2 vs1 off) := rfl
theorem lbne (vs2 : BitVec 5) (vs1 : BitVec 5) (off : BitVec 8) : Statement (.lbne vs2 vs1 off) := rfl
theorem lblt (vs2 : BitVec 5) (vs1 : BitVec 5) (off : BitVec 8) : Statement (.lblt vs2 vs1 off) := rfl
theorem lbge (vs2 : BitVec 5) (vs1 : BitVec 5) (off : BitVec 8) : Statement (.lbge vs2 vs1 off) := rfl
theorem ljmp (off : BitVec 10) : Statement (.ljmp off) := rfl
theorem ljoin : Statement (.ljoin) := rfl
theorem vsetcfgi (rd : BitVec 5) (imm : BitVec 14) : Statement (.vsetcfgi rd imm) := rfl
theorem vsetcfg (rd : BitVec 5) (rs1 : BitVec 5) : Statement (.vsetcfg rd rs1) := rfl
theorem vdecl (code : BitVec 5) : Statement (.vdecl code) := rfl
theorem sybind (rs1 : BitVec 5) (rs2 : BitVec 5) (rs3 : BitVec 5) : Statement (.sybind rs1 rs2 rs3) := rfl
theorem acq (rs1 : BitVec 5) (scope : BitVec 3) : Statement (.acq rs1 scope) := rfl
theorem rel (rs1 : BitVec 5) (scope : BitVec 3) : Statement (.rel rs1 scope) := rfl
theorem fencev (scope : BitVec 3) : Statement (.fencev scope) := rfl
theorem bara (rs1 : BitVec 5) (scope : BitVec 3) : Statement (.bara rs1 scope) := rfl
theorem barw (rs1 : BitVec 5) (scope : BitVec 3) : Statement (.barw rs1 scope) := rfl
theorem publish (rs1 : BitVec 5) : Statement (.publish rs1) := rfl
theorem cpy (rd : BitVec 5) (pair : BitVec 4) (rs1 : BitVec 5) (rs2 : BitVec 5) : Statement (.cpy rd pair rs1 rs2) := rfl
theorem cpyc (rd : BitVec 5) (pair : BitVec 4) (rs1 : BitVec 5) (rs2 : BitVec 5) (trap : BitVec 1) : Statement (.cpyc rd pair rs1 rs2 trap) := rfl
theorem cpyx (rd : BitVec 5) (pair : BitVec 4) (rs1 : BitVec 5) (rs2 : BitVec 5) (trap : BitVec 1) : Statement (.cpyx rd pair rs1 rs2 trap) := rfl
theorem stmap (rs1 : BitVec 5) (rs2 : BitVec 5) (rs3 : BitVec 5) : Statement (.stmap rs1 rs2 rs3) := rfl
theorem stunmap (rs1 : BitVec 5) : Statement (.stunmap rs1) := rfl
theorem stwb (rs1 : BitVec 5) (rs2 : BitVec 5) : Statement (.stwb rs1 rs2) := rfl
theorem stdrop (rs1 : BitVec 5) (rs2 : BitVec 5) : Statement (.stdrop rs1 rs2) := rfl
theorem l2pin (n : BitVec 3) (rs1 : BitVec 5) (rs2 : BitVec 5) (ways : BitVec 5) : Statement (.l2pin n rs1 rs2 ways) := rfl
theorem l2unpin (n : BitVec 3) : Statement (.l2unpin n) := rfl
theorem sbind (vd : BitVec 5) (rs1 : BitVec 5) : Statement (.sbind vd rs1) := rfl
theorem sunbind (vd : BitVec 5) : Statement (.sunbind vd) := rfl
theorem vfxadd (vs2 : BitVec 5) (rs1 : BitVec 5) : Statement (.vfxadd vs2 rs1) := rfl
theorem fxrd (vd : BitVec 5) (rs1 : BitVec 5) (fmt : BitVec 2) : Statement (.fxrd vd rs1 fmt) := rfl
theorem fxclr (rs1 : BitVec 5) (rs2 : BitVec 5) : Statement (.fxclr rs1 rs2) := rfl
theorem tdone : Statement (.tdone) := rfl
theorem tspawn (rs1 : BitVec 5) : Statement (.tspawn rs1) := rfl
theorem tyield : Statement (.tyield) := rfl
theorem tinfo (rd : BitVec 5) (rs1 : BitVec 5) : Statement (.tinfo rd rs1) := rfl
theorem trapc (rs1 : BitVec 5) : Statement (.trapc rs1) := rfl
theorem wridx (q : Nat) (v : BitVec 64) : Statement (.wridx q v) := rfl
theorem qctlSkip (q : Nat) : Statement (.qctlSkip q) := rfl
theorem qctlDiscard (q : Nat) : Statement (.qctlDiscard q) := rfl
theorem qctlStop (q : Nat) : Statement (.qctlStop q) := rfl
theorem qctlResume (q : Nat) : Statement (.qctlResume q) := rfl
theorem launchGraph (q : Nat) (p : BitVec 512) : Statement (.launchGraph q p) := rfl
theorem launchNode (q : Nat) (p : BitVec 512) : Statement (.launchNode q p) := rfl
theorem waitValue (q : Nat) (p : BitVec 512) : Statement (.waitValue q p) := rfl
theorem waitValueMet (pid : Nat) : Statement (.waitValueMet pid) := rfl
theorem waitValueTimeout (pid : Nat) : Statement (.waitValueTimeout pid) := rfl
theorem writeValue (q : Nat) (p : BitVec 512) : Statement (.writeValue q p) := rfl
theorem indirect (q : Nat) (p : BitVec 512) : Statement (.indirect q p) := rfl
theorem setSeed (q : Nat) (p : BitVec 512) : Statement (.setSeed q p) := rfl
theorem regionCreate (q : Nat) (p : BitVec 512) : Statement (.regionCreate q p) := rfl
theorem regionDestroy (q : Nat) (p : BitVec 512) : Statement (.regionDestroy q p) := rfl
theorem regionDestroyComplete (pid : Nat) : Statement (.regionDestroyComplete pid) := rfl
theorem fencePacket (q : Nat) (p : BitVec 512) : Statement (.fencePacket q p) := rfl
theorem unknownKindPacket (q : Nat) (p : BitVec 512) : Statement (.unknownKindPacket q p) := rfl
theorem preempt (g : Nat) (n : Nat) : Statement (.preempt g n) := rfl
theorem condEval (g : Nat) (n : Nat) : Statement (.condEval g n) := rfl
theorem loopEval (g : Nat) (n : Nat) : Statement (.loopEval g n) := rfl
theorem pageArrived (ctx : BitVec 32) (va : BitVec 64) (dw0 : BitVec 64) (dw1 : BitVec 64) : Statement (.pageArrived ctx va dw0 dw1) := rfl
theorem copyComplete (tid : Nat) (k : Nat) : Statement (.copyComplete tid k) := rfl
theorem copyNodeComplete (g : Nat) (n : Nat) : Statement (.copyNodeComplete g n) := rfl
theorem collNodeComplete (g : Nat) (n : Nat) (parts : List (List (BitVec 8))) (rank0 : BitVec 512) : Statement (.collNodeComplete g n parts rank0) := rfl
theorem streamRefill (tid : Nat) (vd : BitVec 5) : Statement (.streamRefill tid vd) := rfl
theorem waitWatchdog (tid : Nat) : Statement (.waitWatchdog tid) := rfl
theorem runWatchdog (tid : Nat) : Statement (.runWatchdog tid) := rfl
theorem splitWatchdog (tid : Nat) : Statement (.splitWatchdog tid) := rfl
theorem patrolScrub (a : Nat) (found : ScrubResult) : Statement (.patrolScrub a found) := rfl
theorem uncontainedError (site : ErrorSite) : Statement (.uncontainedError site) := rfl
theorem flitReceive (lane : FlitPath) (quality : FlitQuality) : Statement (.flitReceive lane quality) := rfl
theorem linkFailed (lane : FlitPath) : Statement (.linkFailed lane) := rfl
theorem portTrainingLost (port : Nat) : Statement (.portTrainingLost port) := rfl
theorem serviceRequest (kind : Nat) : Statement (.serviceRequest kind) := rfl
theorem answer (e : BitVec 1024) : Statement (.answer e) := rfl
theorem resume (e : BitVec 1024) : Statement (.resume e) := rfl
theorem endTask (e : BitVec 1024) : Statement (.endTask e) := rfl
theorem releaseDomain (e : BitVec 1024) : Statement (.releaseDomain e) := rfl
theorem abortDomain (e : BitVec 1024) : Statement (.abortDomain e) := rfl
theorem removeSection (e : BitVec 1024) : Statement (.removeSection e) := rfl
theorem moveSections (e : BitVec 1024) : Statement (.moveSections e) := rfl
theorem linkDown (e : BitVec 1024) : Statement (.linkDown e) := rfl
theorem linkUp (e : BitVec 1024) : Statement (.linkUp e) := rfl
theorem firmwareUpdate (e : BitVec 1024) : Statement (.firmwareUpdate e) := rfl
theorem firmwareSwitchComplete (target : Nat) : Statement (.firmwareSwitchComplete target) := rfl
theorem serviceActionTimeout : Statement (.serviceActionTimeout) := rfl
theorem exportImage (e : BitVec 1024) : Statement (.exportImage e) := rfl
theorem importImage (e : BitVec 1024) : Statement (.importImage e) := rfl
theorem bindContext (e : BitVec 1024) : Statement (.bindContext e) := rfl
theorem unbindContext (e : BitVec 1024) : Statement (.unbindContext e) := rfl
theorem setKey (e : BitVec 1024) : Statement (.setKey e) := rfl
theorem invalidateTranslations (e : BitVec 1024) : Statement (.invalidateTranslations e) := rfl
theorem queueEnable (e : BitVec 1024) : Statement (.queueEnable e) := rfl
theorem queueDisable (e : BitVec 1024) : Statement (.queueDisable e) := rfl
theorem queueDisableComplete (q : Nat) : Statement (.queueDisableComplete q) := rfl
theorem partitionLimits (e : BitVec 1024) : Statement (.partitionLimits e) := rfl
theorem setEngineImage (e : BitVec 1024) : Statement (.setEngineImage e) := rfl
theorem unlistedCommand (e : BitVec 1024) : Statement (.unlistedCommand e) := rfl
theorem dutyWrite (v : BitVec 64) : Statement (.dutyWrite v) := rfl
theorem ringControlWrite (ring : RingName) (v : BitVec 64) : Statement (.ringControlWrite ring v) := rfl
theorem qtbaseWrite (v : BitVec 64) : Statement (.qtbaseWrite v) := rfl
theorem portcfgWrite (v : BitVec 64) : Statement (.portcfgWrite v) := rfl
theorem registerWrite (bar : BarName) (off : Nat) (size : Nat) (v : BitVec 64) : Statement (.registerWrite bar off size v) := rfl
theorem bar2Read (off : Nat) (n : Nat) : Statement (.bar2Read off n) := rfl
theorem bar2Write (off : Nat) (bytes : List (BitVec 8)) : Statement (.bar2Write off bytes) := rfl
theorem peerInboundRequest (src : BitVec 16) (a : Nat) (req : Transfer) : Statement (.peerInboundRequest src a req) := rfl
theorem pushRecoveryImage : Statement (.pushRecoveryImage) := rfl
theorem attest : Statement (.attest) := rfl
theorem moduleReset : Statement (.moduleReset) := rfl
theorem throttleStep : Statement (.throttleStep) := rfl
theorem thermalTrip : Statement (.thermalTrip) := rfl
theorem wordNotAnInstruction (w : BitVec 32) : Statement (.wordNotAnInstruction w) := rfl
theorem fetchFault (cause : BitVec 8) (info : BitVec 32) (a : BitVec 64) : Statement (.fetchFault cause info a) := rfl
theorem portTrained (port : Nat) : Statement (.portTrained port) := rfl
theorem cxlMemRequest (a : Nat) (req : Transfer) : Statement (.cxlMemRequest a req) := rfl
theorem fabricAddressAssigned (a : BitVec 16) : Statement (.fabricAddressAssigned a) := rfl

end Sys2Proof.Laws.HasWord
end

