-- ==== Sys2Proof/Laws/Recall.lean ====
section
/-! SUPPORT. What a recall of stash lines can do: it writes memory, lifts poison and cleans or drops lines, and nothing else; with no
line it does nothing (R239, R293, R296). -/

namespace Sys2Proof.Machine

/-- Two changes to memory and the stash are one. -/
theorem State.recalled_trans {s t u : State} (h : t = { s with mem := t.mem, tags := t.tags, poison := t.poison, stash := t.stash })
    (g : u = { t with mem := u.mem, tags := u.tags, poison := u.poison, stash := u.stash }) :
    u = { s with mem := u.mem, tags := u.tags, poison := u.poison, stash := u.stash } := by
  rw [g, h]

theorem State.recalled_foldl {α : Type} {f : State → α → State}
    (h : ∀ s a, f s a = { s with mem := (f s a).mem, tags := (f s a).tags, poison := (f s a).poison, stash := (f s a).stash })
    (l : List α) (s : State) :
    l.foldl f s = { s with mem := (l.foldl f s).mem, tags := (l.foldl f s).tags, poison := (l.foldl f s).poison,
                           stash := (l.foldl f s).stash } := by
  induction l generalizing s with
  | nil => rfl
  | cons a l ih => exact State.recalled_trans (h s a) (ih (f s a))

/-- A write-back changes memory, its key tags and poison alone. -/
theorem State.writeBackLine_rest (s : State) (l : StashLine) :
    s.writeBackLine l = { s with mem := (s.writeBackLine l).mem, tags := (s.writeBackLine l).tags,
                                 poison := (s.writeBackLine l).poison, stash := (s.writeBackLine l).stash } := by
  have h := State.recalled_foldl (f := fun s (c : Nat × Byte) => s.writePlain l.km c.1 c.2)
    (fun s c => by simp only [State.writePlain]; split <;> rfl) l.dirty s
  exact State.recalled_trans h rfl

theorem State.cleanLines_rest (s : State) (p : StashLine → Bool) :
    s.cleanLines p = { s with mem := (s.cleanLines p).mem, tags := (s.cleanLines p).tags,
                              poison := (s.cleanLines p).poison, stash := (s.cleanLines p).stash } :=
  State.recalled_trans (State.recalled_foldl State.writeBackLine_rest (s.stash.filter p) s) rfl

theorem State.flushLines_rest (s : State) (p : StashLine → Bool) :
    s.flushLines p = { s with mem := (s.flushLines p).mem, tags := (s.flushLines p).tags,
                              poison := (s.flushLines p).poison, stash := (s.flushLines p).stash } :=
  State.recalled_trans (s.cleanLines_rest p) rfl

theorem State.recallForRead_rest (s : State) (k n : Nat) :
    s.recallForRead k n = { s with mem := (s.recallForRead k n).mem, tags := (s.recallForRead k n).tags,
                                   poison := (s.recallForRead k n).poison, stash := (s.recallForRead k n).stash } := by
  unfold State.recallForRead
  split
  · exact s.cleanLines_rest _
  · rfl

theorem State.recallForWrite_rest (s : State) (k n : Nat) :
    s.recallForWrite k n = { s with mem := (s.recallForWrite k n).mem, tags := (s.recallForWrite k n).tags,
                                    poison := (s.recallForWrite k n).poison, stash := (s.recallForWrite k n).stash } := by
  unfold State.recallForWrite
  split
  · exact s.flushLines_rest _
  · rfl

theorem State.recallAt_rest (s : State) (ctx : Nat) (a : Word) (n : Nat) :
    s.recallAt ctx a n = { s with mem := (s.recallAt ctx a n).mem, tags := (s.recallAt ctx a n).tags,
                                  poison := (s.recallAt ctx a n).poison, stash := (s.recallAt ctx a n).stash } := by
  unfold State.recallAt
  split
  · rfl
  · split
    · exact s.recallForRead_rest _ _
    · rfl

theorem State.recallObject_rest (s : State) (c : Context) (va n : Nat) :
    s.recallObject c va n = { s with mem := (s.recallObject c va n).mem, tags := (s.recallObject c va n).tags,
                                     poison := (s.recallObject c va n).poison, stash := (s.recallObject c va n).stash } := by
  unfold State.recallObject
  split
  · rfl
  · refine State.recalled_foldl (fun s i => ?_) _ s
    split
    · exact s.recallForRead_rest _ _
    · rfl

theorem State.recallRaw_rest (s : State) (a n : Nat) :
    s.recallRaw a n = { s with mem := (s.recallRaw a n).mem, tags := (s.recallRaw a n).tags,
                               poison := (s.recallRaw a n).poison, stash := (s.recallRaw a n).stash } :=
  s.recallForRead_rest _ _

theorem State.recallLaunch_rest (s : State) (ctx : Nat) (a : Word) (count : Nat) (single : Bool) :
    s.recallLaunch ctx a count single = { s with
      mem := (s.recallLaunch ctx a count single).mem, tags := (s.recallLaunch ctx a count single).tags,
      poison := (s.recallLaunch ctx a count single).poison, stash := (s.recallLaunch ctx a count single).stash } := by
  unfold State.recallLaunch
  split
  · rfl
  · exact State.recalled_foldl (fun s r => s.recallAt_rest _ _ _) _ s

theorem State.recallBind_rest (s : State) (a : Nat) :
    s.recallBind a = { s with mem := (s.recallBind a).mem, tags := (s.recallBind a).tags,
                              poison := (s.recallBind a).poison, stash := (s.recallBind a).stash } := by
  unfold State.recallBind
  split
  · rfl
  · split
    · rfl
    · exact State.recalled_trans (s.recallRaw_rest _ _) (State.recallObject_rest _ _ _ _)

theorem State.recallEnable_rest (s : State) (q : Nat) :
    s.recallEnable q = { s with mem := (s.recallEnable q).mem, tags := (s.recallEnable q).tags,
                                poison := (s.recallEnable q).poison, stash := (s.recallEnable q).stash } := by
  unfold State.recallEnable
  split
  · rfl
  · split
    · rfl
    · exact State.recalled_trans (s.recallRaw_rest _ _) (State.recallAt_rest _ _ _ _)

theorem State.recallVisit_rest (s : State) (q : Nat) :
    s.recallVisit q = { s with mem := (s.recallVisit q).mem, tags := (s.recallVisit q).tags,
                               poison := (s.recallVisit q).poison, stash := (s.recallVisit q).stash } := by
  unfold State.recallVisit
  split
  · rfl
  · split
    · rfl
    · exact s.recallAt_rest _ _ _

theorem State.recallImage_rest (s : State) (t : Task) :
    s.recallImage t = { s with mem := (s.recallImage t).mem, tags := (s.recallImage t).tags,
                               poison := (s.recallImage t).poison, stash := (s.recallImage t).stash } := by
  unfold State.recallImage
  split
  · exact s.recallObject_rest _ _ _
  · rfl

theorem State.recallUpdate_rest (s : State) (a : Action) :
    s.recallUpdate a = { s with mem := (s.recallUpdate a).mem, tags := (s.recallUpdate a).tags,
                                poison := (s.recallUpdate a).poison, stash := (s.recallUpdate a).stash } := by
  unfold State.recallUpdate
  split
  · rfl
  · dsimp only
    split
    · rfl
    · exact s.recallRaw_rest _ _

/-! ## Memory without a stash line -/

theorem State.recallForRead_noLine {s : State} (h : s.stash = []) (k n : Nat) : s.recallForRead k n = s := by
  simp [State.recallForRead, h]

theorem State.recallAt_noLine {s : State} (h : s.stash = []) (ctx : Nat) (a : Word) (n : Nat) : s.recallAt ctx a n = s := by
  simp [State.recallAt, h]

theorem State.recallRaw_noLine {s : State} (h : s.stash = []) (a n : Nat) : s.recallRaw a n = s :=
  State.recallForRead_noLine h _ _

theorem State.recallLaunch_noLine {s : State} (h : s.stash = []) (ctx : Nat) (a : Word) (count : Nat) (single : Bool) :
    s.recallLaunch ctx a count single = s := by
  simp [State.recallLaunch, h]

theorem State.recallBind_noLine {s : State} (h : s.stash = []) (a : Nat) : s.recallBind a = s := by simp [State.recallBind, h]

theorem State.recallEnable_noLine {s : State} (h : s.stash = []) (q : Nat) : s.recallEnable q = s := by simp [State.recallEnable, h]

end Sys2Proof.Machine
end

