-- ==== Sys2Proof/Laws/State.lean ====
section
/-! SUPPORT. What each update of a part of the state leaves: one lemma for each field, so that no proof unfolds a record update. -/

namespace Sys2Proof.Machine

/-! ### onTask: the task on stage -/

@[simp] theorem State.onTask_sched (s : State) (f : Task → Task) : (s.onTask f).sched = s.sched := rfl
@[simp] theorem State.onTask_cur (s : State) (f : Task → Task) : (s.onTask f).cur = s.cur := rfl
@[simp] theorem State.onTask_freeCtr (s : State) (f : Task → Task) : (s.onTask f).freeCtr = s.freeCtr := rfl
@[simp] theorem State.onTask_cycle (s : State) (f : Task → Task) : (s.onTask f).cycle = s.cycle := rfl
@[simp] theorem State.onTask_ticks (s : State) (f : Task → Task) : (s.onTask f).ticks = s.ticks := rfl
@[simp] theorem State.onTask_clock (s : State) (f : Task → Task) : (s.onTask f).clock = s.clock := rfl
@[simp] theorem State.onTask_task (s : State) (f : Task → Task) : (s.onTask f).task = f s.task := rfl
@[simp] theorem State.onTask_parked (s : State) (f : Task → Task) : (s.onTask f).parked = s.parked := rfl
@[simp] theorem State.onTask_nextTid (s : State) (f : Task → Task) : (s.onTask f).nextTid = s.nextTid := rfl
@[simp] theorem State.onTask_mem (s : State) (f : Task → Task) : (s.onTask f).mem = s.mem := rfl
@[simp] theorem State.onTask_tags (s : State) (f : Task → Task) : (s.onTask f).tags = s.tags := rfl
@[simp] theorem State.onTask_keys (s : State) (f : Task → Task) : (s.onTask f).keys = s.keys := rfl
@[simp] theorem State.onTask_poison (s : State) (f : Task → Task) : (s.onTask f).poison = s.poison := rfl
@[simp] theorem State.onTask_stash (s : State) (f : Task → Task) : (s.onTask f).stash = s.stash := rfl
@[simp] theorem State.onTask_unservable (s : State) (f : Task → Task) : (s.onTask f).unservable = s.unservable := rfl
@[simp] theorem State.onTask_pageWaits (s : State) (f : Task → Task) : (s.onTask f).pageWaits = s.pageWaits := rfl
@[simp] theorem State.onTask_bounds (s : State) (f : Task → Task) : (s.onTask f).bounds = s.bounds := rfl
@[simp] theorem State.onTask_queues (s : State) (f : Task → Task) : (s.onTask f).queues = s.queues := rfl
@[simp] theorem State.onTask_packets (s : State) (f : Task → Task) : (s.onTask f).packets = s.packets := rfl
@[simp] theorem State.onTask_nextPid (s : State) (f : Task → Task) : (s.onTask f).nextPid = s.nextPid := rfl
@[simp] theorem State.onTask_regions (s : State) (f : Task → Task) : (s.onTask f).regions = s.regions := rfl
@[simp] theorem State.onTask_graphs (s : State) (f : Task → Task) : (s.onTask f).graphs = s.graphs := rfl
@[simp] theorem State.onTask_nextGid (s : State) (f : Task → Task) : (s.onTask f).nextGid = s.nextGid := rfl
@[simp] theorem State.onTask_nextAge (s : State) (f : Task → Task) : (s.onTask f).nextAge = s.nextAge := rfl
@[simp] theorem State.onTask_segments (s : State) (f : Task → Task) : (s.onTask f).segments = s.segments := rfl
@[simp] theorem State.onTask_nextSegment (s : State) (f : Task → Task) : (s.onTask f).nextSegment = s.nextSegment := rfl
@[simp] theorem State.onTask_contexts (s : State) (f : Task → Task) : (s.onTask f).contexts = s.contexts := rfl
@[simp] theorem State.onTask_kernels (s : State) (f : Task → Task) : (s.onTask f).kernels = s.kernels := rfl
@[simp] theorem State.onTask_arrays (s : State) (f : Task → Task) : (s.onTask f).arrays = s.arrays := rfl
@[simp] theorem State.onTask_limits (s : State) (f : Task → Task) : (s.onTask f).limits = s.limits := rfl
@[simp] theorem State.onTask_engines (s : State) (f : Task → Task) : (s.onTask f).engines = s.engines := rfl
@[simp] theorem State.onTask_clovers (s : State) (f : Task → Task) : (s.onTask f).clovers = s.clovers := rfl
@[simp] theorem State.onTask_gen (s : State) (f : Task → Task) : (s.onTask f).gen = s.gen := rfl
@[simp] theorem State.onTask_dies (s : State) (f : Task → Task) : (s.onTask f).dies = s.dies := rfl
@[simp] theorem State.onTask_links (s : State) (f : Task → Task) : (s.onTask f).links = s.links := rfl
@[simp] theorem State.onTask_sects (s : State) (f : Task → Task) : (s.onTask f).sects = s.sects := rfl
@[simp] theorem State.onTask_epoch (s : State) (f : Task → Task) : (s.onTask f).epoch = s.epoch := rfl
@[simp] theorem State.onTask_port0 (s : State) (f : Task → Task) : (s.onTask f).port0 = s.port0 := rfl
@[simp] theorem State.onTask_ports (s : State) (f : Task → Task) : (s.onTask f).ports = s.ports := rfl
@[simp] theorem State.onTask_fabric (s : State) (f : Task → Task) : (s.onTask f).fabric = s.fabric := rfl
@[simp] theorem State.onTask_peerWindows (s : State) (f : Task → Task) : (s.onTask f).peerWindows = s.peerWindows := rfl
@[simp] theorem State.onTask_hostRejects (s : State) (f : Task → Task) : (s.onTask f).hostRejects = s.hostRejects := rfl
@[simp] theorem State.onTask_errors (s : State) (f : Task → Task) : (s.onTask f).errors = s.errors := rfl
@[simp] theorem State.onTask_action (s : State) (f : Task → Task) : (s.onTask f).action = s.action := rfl
@[simp] theorem State.onTask_actionQueue (s : State) (f : Task → Task) : (s.onTask f).actionQueue = s.actionQueue := rfl
@[simp] theorem State.onTask_boot (s : State) (f : Task → Task) : (s.onTask f).boot = s.boot := rfl

/-! ### onBoot: the boot state -/

@[simp] theorem State.onBoot_sched (s : State) (f : Boot → Boot) : (s.onBoot f).sched = s.sched := rfl
@[simp] theorem State.onBoot_cur (s : State) (f : Boot → Boot) : (s.onBoot f).cur = s.cur := rfl
@[simp] theorem State.onBoot_freeCtr (s : State) (f : Boot → Boot) : (s.onBoot f).freeCtr = s.freeCtr := rfl
@[simp] theorem State.onBoot_cycle (s : State) (f : Boot → Boot) : (s.onBoot f).cycle = s.cycle := rfl
@[simp] theorem State.onBoot_ticks (s : State) (f : Boot → Boot) : (s.onBoot f).ticks = s.ticks := rfl
@[simp] theorem State.onBoot_clock (s : State) (f : Boot → Boot) : (s.onBoot f).clock = s.clock := rfl
@[simp] theorem State.onBoot_task (s : State) (f : Boot → Boot) : (s.onBoot f).task = s.task := rfl
@[simp] theorem State.onBoot_parked (s : State) (f : Boot → Boot) : (s.onBoot f).parked = s.parked := rfl
@[simp] theorem State.onBoot_nextTid (s : State) (f : Boot → Boot) : (s.onBoot f).nextTid = s.nextTid := rfl
@[simp] theorem State.onBoot_mem (s : State) (f : Boot → Boot) : (s.onBoot f).mem = s.mem := rfl
@[simp] theorem State.onBoot_tags (s : State) (f : Boot → Boot) : (s.onBoot f).tags = s.tags := rfl
@[simp] theorem State.onBoot_keys (s : State) (f : Boot → Boot) : (s.onBoot f).keys = s.keys := rfl
@[simp] theorem State.onBoot_poison (s : State) (f : Boot → Boot) : (s.onBoot f).poison = s.poison := rfl
@[simp] theorem State.onBoot_stash (s : State) (f : Boot → Boot) : (s.onBoot f).stash = s.stash := rfl
@[simp] theorem State.onBoot_unservable (s : State) (f : Boot → Boot) : (s.onBoot f).unservable = s.unservable := rfl
@[simp] theorem State.onBoot_pageWaits (s : State) (f : Boot → Boot) : (s.onBoot f).pageWaits = s.pageWaits := rfl
@[simp] theorem State.onBoot_bounds (s : State) (f : Boot → Boot) : (s.onBoot f).bounds = s.bounds := rfl
@[simp] theorem State.onBoot_queues (s : State) (f : Boot → Boot) : (s.onBoot f).queues = s.queues := rfl
@[simp] theorem State.onBoot_packets (s : State) (f : Boot → Boot) : (s.onBoot f).packets = s.packets := rfl
@[simp] theorem State.onBoot_nextPid (s : State) (f : Boot → Boot) : (s.onBoot f).nextPid = s.nextPid := rfl
@[simp] theorem State.onBoot_regions (s : State) (f : Boot → Boot) : (s.onBoot f).regions = s.regions := rfl
@[simp] theorem State.onBoot_graphs (s : State) (f : Boot → Boot) : (s.onBoot f).graphs = s.graphs := rfl
@[simp] theorem State.onBoot_nextGid (s : State) (f : Boot → Boot) : (s.onBoot f).nextGid = s.nextGid := rfl
@[simp] theorem State.onBoot_nextAge (s : State) (f : Boot → Boot) : (s.onBoot f).nextAge = s.nextAge := rfl
@[simp] theorem State.onBoot_segments (s : State) (f : Boot → Boot) : (s.onBoot f).segments = s.segments := rfl
@[simp] theorem State.onBoot_nextSegment (s : State) (f : Boot → Boot) : (s.onBoot f).nextSegment = s.nextSegment := rfl
@[simp] theorem State.onBoot_contexts (s : State) (f : Boot → Boot) : (s.onBoot f).contexts = s.contexts := rfl
@[simp] theorem State.onBoot_kernels (s : State) (f : Boot → Boot) : (s.onBoot f).kernels = s.kernels := rfl
@[simp] theorem State.onBoot_arrays (s : State) (f : Boot → Boot) : (s.onBoot f).arrays = s.arrays := rfl
@[simp] theorem State.onBoot_limits (s : State) (f : Boot → Boot) : (s.onBoot f).limits = s.limits := rfl
@[simp] theorem State.onBoot_engines (s : State) (f : Boot → Boot) : (s.onBoot f).engines = s.engines := rfl
@[simp] theorem State.onBoot_clovers (s : State) (f : Boot → Boot) : (s.onBoot f).clovers = s.clovers := rfl
@[simp] theorem State.onBoot_gen (s : State) (f : Boot → Boot) : (s.onBoot f).gen = s.gen := rfl
@[simp] theorem State.onBoot_dies (s : State) (f : Boot → Boot) : (s.onBoot f).dies = s.dies := rfl
@[simp] theorem State.onBoot_links (s : State) (f : Boot → Boot) : (s.onBoot f).links = s.links := rfl
@[simp] theorem State.onBoot_sects (s : State) (f : Boot → Boot) : (s.onBoot f).sects = s.sects := rfl
@[simp] theorem State.onBoot_epoch (s : State) (f : Boot → Boot) : (s.onBoot f).epoch = s.epoch := rfl
@[simp] theorem State.onBoot_port0 (s : State) (f : Boot → Boot) : (s.onBoot f).port0 = s.port0 := rfl
@[simp] theorem State.onBoot_ports (s : State) (f : Boot → Boot) : (s.onBoot f).ports = s.ports := rfl
@[simp] theorem State.onBoot_fabric (s : State) (f : Boot → Boot) : (s.onBoot f).fabric = s.fabric := rfl
@[simp] theorem State.onBoot_peerWindows (s : State) (f : Boot → Boot) : (s.onBoot f).peerWindows = s.peerWindows := rfl
@[simp] theorem State.onBoot_hostRejects (s : State) (f : Boot → Boot) : (s.onBoot f).hostRejects = s.hostRejects := rfl
@[simp] theorem State.onBoot_errors (s : State) (f : Boot → Boot) : (s.onBoot f).errors = s.errors := rfl
@[simp] theorem State.onBoot_action (s : State) (f : Boot → Boot) : (s.onBoot f).action = s.action := rfl
@[simp] theorem State.onBoot_actionQueue (s : State) (f : Boot → Boot) : (s.onBoot f).actionQueue = s.actionQueue := rfl
@[simp] theorem State.onBoot_boot (s : State) (f : Boot → Boot) : (s.onBoot f).boot = f s.boot := rfl

/-! ### onAction: the service action -/

@[simp] theorem State.onAction_sched (s : State) (f : Action → Action) : (s.onAction f).sched = s.sched := rfl
@[simp] theorem State.onAction_cur (s : State) (f : Action → Action) : (s.onAction f).cur = s.cur := rfl
@[simp] theorem State.onAction_freeCtr (s : State) (f : Action → Action) : (s.onAction f).freeCtr = s.freeCtr := rfl
@[simp] theorem State.onAction_cycle (s : State) (f : Action → Action) : (s.onAction f).cycle = s.cycle := rfl
@[simp] theorem State.onAction_ticks (s : State) (f : Action → Action) : (s.onAction f).ticks = s.ticks := rfl
@[simp] theorem State.onAction_clock (s : State) (f : Action → Action) : (s.onAction f).clock = s.clock := rfl
@[simp] theorem State.onAction_task (s : State) (f : Action → Action) : (s.onAction f).task = s.task := rfl
@[simp] theorem State.onAction_parked (s : State) (f : Action → Action) : (s.onAction f).parked = s.parked := rfl
@[simp] theorem State.onAction_nextTid (s : State) (f : Action → Action) : (s.onAction f).nextTid = s.nextTid := rfl
@[simp] theorem State.onAction_mem (s : State) (f : Action → Action) : (s.onAction f).mem = s.mem := rfl
@[simp] theorem State.onAction_tags (s : State) (f : Action → Action) : (s.onAction f).tags = s.tags := rfl
@[simp] theorem State.onAction_keys (s : State) (f : Action → Action) : (s.onAction f).keys = s.keys := rfl
@[simp] theorem State.onAction_poison (s : State) (f : Action → Action) : (s.onAction f).poison = s.poison := rfl
@[simp] theorem State.onAction_stash (s : State) (f : Action → Action) : (s.onAction f).stash = s.stash := rfl
@[simp] theorem State.onAction_unservable (s : State) (f : Action → Action) : (s.onAction f).unservable = s.unservable := rfl
@[simp] theorem State.onAction_pageWaits (s : State) (f : Action → Action) : (s.onAction f).pageWaits = s.pageWaits := rfl
@[simp] theorem State.onAction_bounds (s : State) (f : Action → Action) : (s.onAction f).bounds = s.bounds := rfl
@[simp] theorem State.onAction_queues (s : State) (f : Action → Action) : (s.onAction f).queues = s.queues := rfl
@[simp] theorem State.onAction_packets (s : State) (f : Action → Action) : (s.onAction f).packets = s.packets := rfl
@[simp] theorem State.onAction_nextPid (s : State) (f : Action → Action) : (s.onAction f).nextPid = s.nextPid := rfl
@[simp] theorem State.onAction_regions (s : State) (f : Action → Action) : (s.onAction f).regions = s.regions := rfl
@[simp] theorem State.onAction_graphs (s : State) (f : Action → Action) : (s.onAction f).graphs = s.graphs := rfl
@[simp] theorem State.onAction_nextGid (s : State) (f : Action → Action) : (s.onAction f).nextGid = s.nextGid := rfl
@[simp] theorem State.onAction_nextAge (s : State) (f : Action → Action) : (s.onAction f).nextAge = s.nextAge := rfl
@[simp] theorem State.onAction_segments (s : State) (f : Action → Action) : (s.onAction f).segments = s.segments := rfl
@[simp] theorem State.onAction_nextSegment (s : State) (f : Action → Action) : (s.onAction f).nextSegment = s.nextSegment := rfl
@[simp] theorem State.onAction_contexts (s : State) (f : Action → Action) : (s.onAction f).contexts = s.contexts := rfl
@[simp] theorem State.onAction_kernels (s : State) (f : Action → Action) : (s.onAction f).kernels = s.kernels := rfl
@[simp] theorem State.onAction_arrays (s : State) (f : Action → Action) : (s.onAction f).arrays = s.arrays := rfl
@[simp] theorem State.onAction_limits (s : State) (f : Action → Action) : (s.onAction f).limits = s.limits := rfl
@[simp] theorem State.onAction_engines (s : State) (f : Action → Action) : (s.onAction f).engines = s.engines := rfl
@[simp] theorem State.onAction_clovers (s : State) (f : Action → Action) : (s.onAction f).clovers = s.clovers := rfl
@[simp] theorem State.onAction_gen (s : State) (f : Action → Action) : (s.onAction f).gen = s.gen := rfl
@[simp] theorem State.onAction_dies (s : State) (f : Action → Action) : (s.onAction f).dies = s.dies := rfl
@[simp] theorem State.onAction_links (s : State) (f : Action → Action) : (s.onAction f).links = s.links := rfl
@[simp] theorem State.onAction_sects (s : State) (f : Action → Action) : (s.onAction f).sects = s.sects := rfl
@[simp] theorem State.onAction_epoch (s : State) (f : Action → Action) : (s.onAction f).epoch = s.epoch := rfl
@[simp] theorem State.onAction_port0 (s : State) (f : Action → Action) : (s.onAction f).port0 = s.port0 := rfl
@[simp] theorem State.onAction_ports (s : State) (f : Action → Action) : (s.onAction f).ports = s.ports := rfl
@[simp] theorem State.onAction_fabric (s : State) (f : Action → Action) : (s.onAction f).fabric = s.fabric := rfl
@[simp] theorem State.onAction_peerWindows (s : State) (f : Action → Action) : (s.onAction f).peerWindows = s.peerWindows := rfl
@[simp] theorem State.onAction_hostRejects (s : State) (f : Action → Action) : (s.onAction f).hostRejects = s.hostRejects := rfl
@[simp] theorem State.onAction_errors (s : State) (f : Action → Action) : (s.onAction f).errors = s.errors := rfl
@[simp] theorem State.onAction_action (s : State) (f : Action → Action) : (s.onAction f).action = s.action.map f := rfl
@[simp] theorem State.onAction_actionQueue (s : State) (f : Action → Action) : (s.onAction f).actionQueue = s.actionQueue := rfl
@[simp] theorem State.onAction_boot (s : State) (f : Action → Action) : (s.onAction f).boot = s.boot := rfl

/-! ### modTask: a task -/

@[simp] theorem State.modTask_sched (s : State) (n : Nat) (f : Task → Task) : (s.modTask n f).sched = s.sched := rfl
@[simp] theorem State.modTask_cur (s : State) (n : Nat) (f : Task → Task) : (s.modTask n f).cur = s.cur := rfl
@[simp] theorem State.modTask_freeCtr (s : State) (n : Nat) (f : Task → Task) : (s.modTask n f).freeCtr = s.freeCtr := rfl
@[simp] theorem State.modTask_cycle (s : State) (n : Nat) (f : Task → Task) : (s.modTask n f).cycle = s.cycle := rfl
@[simp] theorem State.modTask_ticks (s : State) (n : Nat) (f : Task → Task) : (s.modTask n f).ticks = s.ticks := rfl
@[simp] theorem State.modTask_clock (s : State) (n : Nat) (f : Task → Task) : (s.modTask n f).clock = s.clock := rfl
@[simp] theorem State.modTask_nextTid (s : State) (n : Nat) (f : Task → Task) : (s.modTask n f).nextTid = s.nextTid := rfl
@[simp] theorem State.modTask_mem (s : State) (n : Nat) (f : Task → Task) : (s.modTask n f).mem = s.mem := rfl
@[simp] theorem State.modTask_tags (s : State) (n : Nat) (f : Task → Task) : (s.modTask n f).tags = s.tags := rfl
@[simp] theorem State.modTask_keys (s : State) (n : Nat) (f : Task → Task) : (s.modTask n f).keys = s.keys := rfl
@[simp] theorem State.modTask_poison (s : State) (n : Nat) (f : Task → Task) : (s.modTask n f).poison = s.poison := rfl
@[simp] theorem State.modTask_stash (s : State) (n : Nat) (f : Task → Task) : (s.modTask n f).stash = s.stash := rfl
@[simp] theorem State.modTask_unservable (s : State) (n : Nat) (f : Task → Task) : (s.modTask n f).unservable = s.unservable := rfl
@[simp] theorem State.modTask_pageWaits (s : State) (n : Nat) (f : Task → Task) : (s.modTask n f).pageWaits = s.pageWaits := rfl
@[simp] theorem State.modTask_bounds (s : State) (n : Nat) (f : Task → Task) : (s.modTask n f).bounds = s.bounds := rfl
@[simp] theorem State.modTask_queues (s : State) (n : Nat) (f : Task → Task) : (s.modTask n f).queues = s.queues := rfl
@[simp] theorem State.modTask_packets (s : State) (n : Nat) (f : Task → Task) : (s.modTask n f).packets = s.packets := rfl
@[simp] theorem State.modTask_nextPid (s : State) (n : Nat) (f : Task → Task) : (s.modTask n f).nextPid = s.nextPid := rfl
@[simp] theorem State.modTask_regions (s : State) (n : Nat) (f : Task → Task) : (s.modTask n f).regions = s.regions := rfl
@[simp] theorem State.modTask_graphs (s : State) (n : Nat) (f : Task → Task) : (s.modTask n f).graphs = s.graphs := rfl
@[simp] theorem State.modTask_nextGid (s : State) (n : Nat) (f : Task → Task) : (s.modTask n f).nextGid = s.nextGid := rfl
@[simp] theorem State.modTask_nextAge (s : State) (n : Nat) (f : Task → Task) : (s.modTask n f).nextAge = s.nextAge := rfl
@[simp] theorem State.modTask_segments (s : State) (n : Nat) (f : Task → Task) : (s.modTask n f).segments = s.segments := rfl
@[simp] theorem State.modTask_nextSegment (s : State) (n : Nat) (f : Task → Task) : (s.modTask n f).nextSegment = s.nextSegment := rfl
@[simp] theorem State.modTask_contexts (s : State) (n : Nat) (f : Task → Task) : (s.modTask n f).contexts = s.contexts := rfl
@[simp] theorem State.modTask_kernels (s : State) (n : Nat) (f : Task → Task) : (s.modTask n f).kernels = s.kernels := rfl
@[simp] theorem State.modTask_arrays (s : State) (n : Nat) (f : Task → Task) : (s.modTask n f).arrays = s.arrays := rfl
@[simp] theorem State.modTask_limits (s : State) (n : Nat) (f : Task → Task) : (s.modTask n f).limits = s.limits := rfl
@[simp] theorem State.modTask_engines (s : State) (n : Nat) (f : Task → Task) : (s.modTask n f).engines = s.engines := rfl
@[simp] theorem State.modTask_clovers (s : State) (n : Nat) (f : Task → Task) : (s.modTask n f).clovers = s.clovers := rfl
@[simp] theorem State.modTask_gen (s : State) (n : Nat) (f : Task → Task) : (s.modTask n f).gen = s.gen := rfl
@[simp] theorem State.modTask_dies (s : State) (n : Nat) (f : Task → Task) : (s.modTask n f).dies = s.dies := rfl
@[simp] theorem State.modTask_links (s : State) (n : Nat) (f : Task → Task) : (s.modTask n f).links = s.links := rfl
@[simp] theorem State.modTask_sects (s : State) (n : Nat) (f : Task → Task) : (s.modTask n f).sects = s.sects := rfl
@[simp] theorem State.modTask_epoch (s : State) (n : Nat) (f : Task → Task) : (s.modTask n f).epoch = s.epoch := rfl
@[simp] theorem State.modTask_port0 (s : State) (n : Nat) (f : Task → Task) : (s.modTask n f).port0 = s.port0 := rfl
@[simp] theorem State.modTask_ports (s : State) (n : Nat) (f : Task → Task) : (s.modTask n f).ports = s.ports := rfl
@[simp] theorem State.modTask_fabric (s : State) (n : Nat) (f : Task → Task) : (s.modTask n f).fabric = s.fabric := rfl
@[simp] theorem State.modTask_peerWindows (s : State) (n : Nat) (f : Task → Task) : (s.modTask n f).peerWindows = s.peerWindows := rfl
@[simp] theorem State.modTask_hostRejects (s : State) (n : Nat) (f : Task → Task) : (s.modTask n f).hostRejects = s.hostRejects := rfl
@[simp] theorem State.modTask_errors (s : State) (n : Nat) (f : Task → Task) : (s.modTask n f).errors = s.errors := rfl
@[simp] theorem State.modTask_action (s : State) (n : Nat) (f : Task → Task) : (s.modTask n f).action = s.action := rfl
@[simp] theorem State.modTask_actionQueue (s : State) (n : Nat) (f : Task → Task) : (s.modTask n f).actionQueue = s.actionQueue := rfl
@[simp] theorem State.modTask_boot (s : State) (n : Nat) (f : Task → Task) : (s.modTask n f).boot = s.boot := rfl

/-! ### modDie: a die -/

@[simp] theorem State.modDie_sched (s : State) (n : Nat) (f : Die → Die) : (s.modDie n f).sched = s.sched := rfl
@[simp] theorem State.modDie_cur (s : State) (n : Nat) (f : Die → Die) : (s.modDie n f).cur = s.cur := rfl
@[simp] theorem State.modDie_freeCtr (s : State) (n : Nat) (f : Die → Die) : (s.modDie n f).freeCtr = s.freeCtr := rfl
@[simp] theorem State.modDie_cycle (s : State) (n : Nat) (f : Die → Die) : (s.modDie n f).cycle = s.cycle := rfl
@[simp] theorem State.modDie_ticks (s : State) (n : Nat) (f : Die → Die) : (s.modDie n f).ticks = s.ticks := rfl
@[simp] theorem State.modDie_clock (s : State) (n : Nat) (f : Die → Die) : (s.modDie n f).clock = s.clock := rfl
@[simp] theorem State.modDie_task (s : State) (n : Nat) (f : Die → Die) : (s.modDie n f).task = s.task := rfl
@[simp] theorem State.modDie_parked (s : State) (n : Nat) (f : Die → Die) : (s.modDie n f).parked = s.parked := rfl
@[simp] theorem State.modDie_nextTid (s : State) (n : Nat) (f : Die → Die) : (s.modDie n f).nextTid = s.nextTid := rfl
@[simp] theorem State.modDie_mem (s : State) (n : Nat) (f : Die → Die) : (s.modDie n f).mem = s.mem := rfl
@[simp] theorem State.modDie_tags (s : State) (n : Nat) (f : Die → Die) : (s.modDie n f).tags = s.tags := rfl
@[simp] theorem State.modDie_keys (s : State) (n : Nat) (f : Die → Die) : (s.modDie n f).keys = s.keys := rfl
@[simp] theorem State.modDie_poison (s : State) (n : Nat) (f : Die → Die) : (s.modDie n f).poison = s.poison := rfl
@[simp] theorem State.modDie_stash (s : State) (n : Nat) (f : Die → Die) : (s.modDie n f).stash = s.stash := rfl
@[simp] theorem State.modDie_unservable (s : State) (n : Nat) (f : Die → Die) : (s.modDie n f).unservable = s.unservable := rfl
@[simp] theorem State.modDie_pageWaits (s : State) (n : Nat) (f : Die → Die) : (s.modDie n f).pageWaits = s.pageWaits := rfl
@[simp] theorem State.modDie_bounds (s : State) (n : Nat) (f : Die → Die) : (s.modDie n f).bounds = s.bounds := rfl
@[simp] theorem State.modDie_queues (s : State) (n : Nat) (f : Die → Die) : (s.modDie n f).queues = s.queues := rfl
@[simp] theorem State.modDie_packets (s : State) (n : Nat) (f : Die → Die) : (s.modDie n f).packets = s.packets := rfl
@[simp] theorem State.modDie_nextPid (s : State) (n : Nat) (f : Die → Die) : (s.modDie n f).nextPid = s.nextPid := rfl
@[simp] theorem State.modDie_regions (s : State) (n : Nat) (f : Die → Die) : (s.modDie n f).regions = s.regions := rfl
@[simp] theorem State.modDie_graphs (s : State) (n : Nat) (f : Die → Die) : (s.modDie n f).graphs = s.graphs := rfl
@[simp] theorem State.modDie_nextGid (s : State) (n : Nat) (f : Die → Die) : (s.modDie n f).nextGid = s.nextGid := rfl
@[simp] theorem State.modDie_nextAge (s : State) (n : Nat) (f : Die → Die) : (s.modDie n f).nextAge = s.nextAge := rfl
@[simp] theorem State.modDie_segments (s : State) (n : Nat) (f : Die → Die) : (s.modDie n f).segments = s.segments := rfl
@[simp] theorem State.modDie_nextSegment (s : State) (n : Nat) (f : Die → Die) : (s.modDie n f).nextSegment = s.nextSegment := rfl
@[simp] theorem State.modDie_contexts (s : State) (n : Nat) (f : Die → Die) : (s.modDie n f).contexts = s.contexts := rfl
@[simp] theorem State.modDie_kernels (s : State) (n : Nat) (f : Die → Die) : (s.modDie n f).kernels = s.kernels := rfl
@[simp] theorem State.modDie_arrays (s : State) (n : Nat) (f : Die → Die) : (s.modDie n f).arrays = s.arrays := rfl
@[simp] theorem State.modDie_limits (s : State) (n : Nat) (f : Die → Die) : (s.modDie n f).limits = s.limits := rfl
@[simp] theorem State.modDie_engines (s : State) (n : Nat) (f : Die → Die) : (s.modDie n f).engines = s.engines := rfl
@[simp] theorem State.modDie_clovers (s : State) (n : Nat) (f : Die → Die) : (s.modDie n f).clovers = s.clovers := rfl
@[simp] theorem State.modDie_gen (s : State) (n : Nat) (f : Die → Die) : (s.modDie n f).gen = s.gen := rfl
@[simp] theorem State.modDie_links (s : State) (n : Nat) (f : Die → Die) : (s.modDie n f).links = s.links := rfl
@[simp] theorem State.modDie_sects (s : State) (n : Nat) (f : Die → Die) : (s.modDie n f).sects = s.sects := rfl
@[simp] theorem State.modDie_epoch (s : State) (n : Nat) (f : Die → Die) : (s.modDie n f).epoch = s.epoch := rfl
@[simp] theorem State.modDie_port0 (s : State) (n : Nat) (f : Die → Die) : (s.modDie n f).port0 = s.port0 := rfl
@[simp] theorem State.modDie_ports (s : State) (n : Nat) (f : Die → Die) : (s.modDie n f).ports = s.ports := rfl
@[simp] theorem State.modDie_fabric (s : State) (n : Nat) (f : Die → Die) : (s.modDie n f).fabric = s.fabric := rfl
@[simp] theorem State.modDie_peerWindows (s : State) (n : Nat) (f : Die → Die) : (s.modDie n f).peerWindows = s.peerWindows := rfl
@[simp] theorem State.modDie_hostRejects (s : State) (n : Nat) (f : Die → Die) : (s.modDie n f).hostRejects = s.hostRejects := rfl
@[simp] theorem State.modDie_errors (s : State) (n : Nat) (f : Die → Die) : (s.modDie n f).errors = s.errors := rfl
@[simp] theorem State.modDie_action (s : State) (n : Nat) (f : Die → Die) : (s.modDie n f).action = s.action := rfl
@[simp] theorem State.modDie_actionQueue (s : State) (n : Nat) (f : Die → Die) : (s.modDie n f).actionQueue = s.actionQueue := rfl
@[simp] theorem State.modDie_boot (s : State) (n : Nat) (f : Die → Die) : (s.modDie n f).boot = s.boot := rfl

/-! ### modSect: a section -/

@[simp] theorem State.modSect_sched (s : State) (n : Nat) (f : Sect → Sect) : (s.modSect n f).sched = s.sched := rfl
@[simp] theorem State.modSect_cur (s : State) (n : Nat) (f : Sect → Sect) : (s.modSect n f).cur = s.cur := rfl
@[simp] theorem State.modSect_freeCtr (s : State) (n : Nat) (f : Sect → Sect) : (s.modSect n f).freeCtr = s.freeCtr := rfl
@[simp] theorem State.modSect_cycle (s : State) (n : Nat) (f : Sect → Sect) : (s.modSect n f).cycle = s.cycle := rfl
@[simp] theorem State.modSect_ticks (s : State) (n : Nat) (f : Sect → Sect) : (s.modSect n f).ticks = s.ticks := rfl
@[simp] theorem State.modSect_clock (s : State) (n : Nat) (f : Sect → Sect) : (s.modSect n f).clock = s.clock := rfl
@[simp] theorem State.modSect_task (s : State) (n : Nat) (f : Sect → Sect) : (s.modSect n f).task = s.task := rfl
@[simp] theorem State.modSect_parked (s : State) (n : Nat) (f : Sect → Sect) : (s.modSect n f).parked = s.parked := rfl
@[simp] theorem State.modSect_nextTid (s : State) (n : Nat) (f : Sect → Sect) : (s.modSect n f).nextTid = s.nextTid := rfl
@[simp] theorem State.modSect_mem (s : State) (n : Nat) (f : Sect → Sect) : (s.modSect n f).mem = s.mem := rfl
@[simp] theorem State.modSect_tags (s : State) (n : Nat) (f : Sect → Sect) : (s.modSect n f).tags = s.tags := rfl
@[simp] theorem State.modSect_keys (s : State) (n : Nat) (f : Sect → Sect) : (s.modSect n f).keys = s.keys := rfl
@[simp] theorem State.modSect_poison (s : State) (n : Nat) (f : Sect → Sect) : (s.modSect n f).poison = s.poison := rfl
@[simp] theorem State.modSect_stash (s : State) (n : Nat) (f : Sect → Sect) : (s.modSect n f).stash = s.stash := rfl
@[simp] theorem State.modSect_unservable (s : State) (n : Nat) (f : Sect → Sect) : (s.modSect n f).unservable = s.unservable := rfl
@[simp] theorem State.modSect_pageWaits (s : State) (n : Nat) (f : Sect → Sect) : (s.modSect n f).pageWaits = s.pageWaits := rfl
@[simp] theorem State.modSect_bounds (s : State) (n : Nat) (f : Sect → Sect) : (s.modSect n f).bounds = s.bounds := rfl
@[simp] theorem State.modSect_queues (s : State) (n : Nat) (f : Sect → Sect) : (s.modSect n f).queues = s.queues := rfl
@[simp] theorem State.modSect_packets (s : State) (n : Nat) (f : Sect → Sect) : (s.modSect n f).packets = s.packets := rfl
@[simp] theorem State.modSect_nextPid (s : State) (n : Nat) (f : Sect → Sect) : (s.modSect n f).nextPid = s.nextPid := rfl
@[simp] theorem State.modSect_regions (s : State) (n : Nat) (f : Sect → Sect) : (s.modSect n f).regions = s.regions := rfl
@[simp] theorem State.modSect_graphs (s : State) (n : Nat) (f : Sect → Sect) : (s.modSect n f).graphs = s.graphs := rfl
@[simp] theorem State.modSect_nextGid (s : State) (n : Nat) (f : Sect → Sect) : (s.modSect n f).nextGid = s.nextGid := rfl
@[simp] theorem State.modSect_nextAge (s : State) (n : Nat) (f : Sect → Sect) : (s.modSect n f).nextAge = s.nextAge := rfl
@[simp] theorem State.modSect_segments (s : State) (n : Nat) (f : Sect → Sect) : (s.modSect n f).segments = s.segments := rfl
@[simp] theorem State.modSect_nextSegment (s : State) (n : Nat) (f : Sect → Sect) : (s.modSect n f).nextSegment = s.nextSegment := rfl
@[simp] theorem State.modSect_contexts (s : State) (n : Nat) (f : Sect → Sect) : (s.modSect n f).contexts = s.contexts := rfl
@[simp] theorem State.modSect_kernels (s : State) (n : Nat) (f : Sect → Sect) : (s.modSect n f).kernels = s.kernels := rfl
@[simp] theorem State.modSect_arrays (s : State) (n : Nat) (f : Sect → Sect) : (s.modSect n f).arrays = s.arrays := rfl
@[simp] theorem State.modSect_limits (s : State) (n : Nat) (f : Sect → Sect) : (s.modSect n f).limits = s.limits := rfl
@[simp] theorem State.modSect_engines (s : State) (n : Nat) (f : Sect → Sect) : (s.modSect n f).engines = s.engines := rfl
@[simp] theorem State.modSect_clovers (s : State) (n : Nat) (f : Sect → Sect) : (s.modSect n f).clovers = s.clovers := rfl
@[simp] theorem State.modSect_gen (s : State) (n : Nat) (f : Sect → Sect) : (s.modSect n f).gen = s.gen := rfl
@[simp] theorem State.modSect_dies (s : State) (n : Nat) (f : Sect → Sect) : (s.modSect n f).dies = s.dies := rfl
@[simp] theorem State.modSect_links (s : State) (n : Nat) (f : Sect → Sect) : (s.modSect n f).links = s.links := rfl
@[simp] theorem State.modSect_epoch (s : State) (n : Nat) (f : Sect → Sect) : (s.modSect n f).epoch = s.epoch := rfl
@[simp] theorem State.modSect_port0 (s : State) (n : Nat) (f : Sect → Sect) : (s.modSect n f).port0 = s.port0 := rfl
@[simp] theorem State.modSect_ports (s : State) (n : Nat) (f : Sect → Sect) : (s.modSect n f).ports = s.ports := rfl
@[simp] theorem State.modSect_fabric (s : State) (n : Nat) (f : Sect → Sect) : (s.modSect n f).fabric = s.fabric := rfl
@[simp] theorem State.modSect_peerWindows (s : State) (n : Nat) (f : Sect → Sect) : (s.modSect n f).peerWindows = s.peerWindows := rfl
@[simp] theorem State.modSect_hostRejects (s : State) (n : Nat) (f : Sect → Sect) : (s.modSect n f).hostRejects = s.hostRejects := rfl
@[simp] theorem State.modSect_errors (s : State) (n : Nat) (f : Sect → Sect) : (s.modSect n f).errors = s.errors := rfl
@[simp] theorem State.modSect_action (s : State) (n : Nat) (f : Sect → Sect) : (s.modSect n f).action = s.action := rfl
@[simp] theorem State.modSect_actionQueue (s : State) (n : Nat) (f : Sect → Sect) : (s.modSect n f).actionQueue = s.actionQueue := rfl
@[simp] theorem State.modSect_boot (s : State) (n : Nat) (f : Sect → Sect) : (s.modSect n f).boot = s.boot := rfl

/-! ### modQueue: a queue -/

@[simp] theorem State.modQueue_sched (s : State) (n : Nat) (f : Queue → Queue) : (s.modQueue n f).sched = s.sched := rfl
@[simp] theorem State.modQueue_cur (s : State) (n : Nat) (f : Queue → Queue) : (s.modQueue n f).cur = s.cur := rfl
@[simp] theorem State.modQueue_freeCtr (s : State) (n : Nat) (f : Queue → Queue) : (s.modQueue n f).freeCtr = s.freeCtr := rfl
@[simp] theorem State.modQueue_cycle (s : State) (n : Nat) (f : Queue → Queue) : (s.modQueue n f).cycle = s.cycle := rfl
@[simp] theorem State.modQueue_ticks (s : State) (n : Nat) (f : Queue → Queue) : (s.modQueue n f).ticks = s.ticks := rfl
@[simp] theorem State.modQueue_clock (s : State) (n : Nat) (f : Queue → Queue) : (s.modQueue n f).clock = s.clock := rfl
@[simp] theorem State.modQueue_task (s : State) (n : Nat) (f : Queue → Queue) : (s.modQueue n f).task = s.task := rfl
@[simp] theorem State.modQueue_parked (s : State) (n : Nat) (f : Queue → Queue) : (s.modQueue n f).parked = s.parked := rfl
@[simp] theorem State.modQueue_nextTid (s : State) (n : Nat) (f : Queue → Queue) : (s.modQueue n f).nextTid = s.nextTid := rfl
@[simp] theorem State.modQueue_mem (s : State) (n : Nat) (f : Queue → Queue) : (s.modQueue n f).mem = s.mem := rfl
@[simp] theorem State.modQueue_tags (s : State) (n : Nat) (f : Queue → Queue) : (s.modQueue n f).tags = s.tags := rfl
@[simp] theorem State.modQueue_keys (s : State) (n : Nat) (f : Queue → Queue) : (s.modQueue n f).keys = s.keys := rfl
@[simp] theorem State.modQueue_poison (s : State) (n : Nat) (f : Queue → Queue) : (s.modQueue n f).poison = s.poison := rfl
@[simp] theorem State.modQueue_stash (s : State) (n : Nat) (f : Queue → Queue) : (s.modQueue n f).stash = s.stash := rfl
@[simp] theorem State.modQueue_unservable (s : State) (n : Nat) (f : Queue → Queue) : (s.modQueue n f).unservable = s.unservable := rfl
@[simp] theorem State.modQueue_pageWaits (s : State) (n : Nat) (f : Queue → Queue) : (s.modQueue n f).pageWaits = s.pageWaits := rfl
@[simp] theorem State.modQueue_bounds (s : State) (n : Nat) (f : Queue → Queue) : (s.modQueue n f).bounds = s.bounds := rfl
@[simp] theorem State.modQueue_packets (s : State) (n : Nat) (f : Queue → Queue) : (s.modQueue n f).packets = s.packets := rfl
@[simp] theorem State.modQueue_nextPid (s : State) (n : Nat) (f : Queue → Queue) : (s.modQueue n f).nextPid = s.nextPid := rfl
@[simp] theorem State.modQueue_regions (s : State) (n : Nat) (f : Queue → Queue) : (s.modQueue n f).regions = s.regions := rfl
@[simp] theorem State.modQueue_graphs (s : State) (n : Nat) (f : Queue → Queue) : (s.modQueue n f).graphs = s.graphs := rfl
@[simp] theorem State.modQueue_nextGid (s : State) (n : Nat) (f : Queue → Queue) : (s.modQueue n f).nextGid = s.nextGid := rfl
@[simp] theorem State.modQueue_nextAge (s : State) (n : Nat) (f : Queue → Queue) : (s.modQueue n f).nextAge = s.nextAge := rfl
@[simp] theorem State.modQueue_segments (s : State) (n : Nat) (f : Queue → Queue) : (s.modQueue n f).segments = s.segments := rfl
@[simp] theorem State.modQueue_nextSegment (s : State) (n : Nat) (f : Queue → Queue) : (s.modQueue n f).nextSegment = s.nextSegment := rfl
@[simp] theorem State.modQueue_contexts (s : State) (n : Nat) (f : Queue → Queue) : (s.modQueue n f).contexts = s.contexts := rfl
@[simp] theorem State.modQueue_kernels (s : State) (n : Nat) (f : Queue → Queue) : (s.modQueue n f).kernels = s.kernels := rfl
@[simp] theorem State.modQueue_arrays (s : State) (n : Nat) (f : Queue → Queue) : (s.modQueue n f).arrays = s.arrays := rfl
@[simp] theorem State.modQueue_limits (s : State) (n : Nat) (f : Queue → Queue) : (s.modQueue n f).limits = s.limits := rfl
@[simp] theorem State.modQueue_engines (s : State) (n : Nat) (f : Queue → Queue) : (s.modQueue n f).engines = s.engines := rfl
@[simp] theorem State.modQueue_clovers (s : State) (n : Nat) (f : Queue → Queue) : (s.modQueue n f).clovers = s.clovers := rfl
@[simp] theorem State.modQueue_gen (s : State) (n : Nat) (f : Queue → Queue) : (s.modQueue n f).gen = s.gen := rfl
@[simp] theorem State.modQueue_dies (s : State) (n : Nat) (f : Queue → Queue) : (s.modQueue n f).dies = s.dies := rfl
@[simp] theorem State.modQueue_links (s : State) (n : Nat) (f : Queue → Queue) : (s.modQueue n f).links = s.links := rfl
@[simp] theorem State.modQueue_sects (s : State) (n : Nat) (f : Queue → Queue) : (s.modQueue n f).sects = s.sects := rfl
@[simp] theorem State.modQueue_epoch (s : State) (n : Nat) (f : Queue → Queue) : (s.modQueue n f).epoch = s.epoch := rfl
@[simp] theorem State.modQueue_port0 (s : State) (n : Nat) (f : Queue → Queue) : (s.modQueue n f).port0 = s.port0 := rfl
@[simp] theorem State.modQueue_ports (s : State) (n : Nat) (f : Queue → Queue) : (s.modQueue n f).ports = s.ports := rfl
@[simp] theorem State.modQueue_fabric (s : State) (n : Nat) (f : Queue → Queue) : (s.modQueue n f).fabric = s.fabric := rfl
@[simp] theorem State.modQueue_peerWindows (s : State) (n : Nat) (f : Queue → Queue) : (s.modQueue n f).peerWindows = s.peerWindows := rfl
@[simp] theorem State.modQueue_hostRejects (s : State) (n : Nat) (f : Queue → Queue) : (s.modQueue n f).hostRejects = s.hostRejects := rfl
@[simp] theorem State.modQueue_errors (s : State) (n : Nat) (f : Queue → Queue) : (s.modQueue n f).errors = s.errors := rfl
@[simp] theorem State.modQueue_action (s : State) (n : Nat) (f : Queue → Queue) : (s.modQueue n f).action = s.action := rfl
@[simp] theorem State.modQueue_actionQueue (s : State) (n : Nat) (f : Queue → Queue) : (s.modQueue n f).actionQueue = s.actionQueue := rfl
@[simp] theorem State.modQueue_boot (s : State) (n : Nat) (f : Queue → Queue) : (s.modQueue n f).boot = s.boot := rfl

/-! ### modNode: a node -/

@[simp] theorem State.modNode_sched (s : State) (g n : Nat) (f : Node → Node) : (s.modNode g n f).sched = s.sched := rfl
@[simp] theorem State.modNode_cur (s : State) (g n : Nat) (f : Node → Node) : (s.modNode g n f).cur = s.cur := rfl
@[simp] theorem State.modNode_freeCtr (s : State) (g n : Nat) (f : Node → Node) : (s.modNode g n f).freeCtr = s.freeCtr := rfl
@[simp] theorem State.modNode_cycle (s : State) (g n : Nat) (f : Node → Node) : (s.modNode g n f).cycle = s.cycle := rfl
@[simp] theorem State.modNode_ticks (s : State) (g n : Nat) (f : Node → Node) : (s.modNode g n f).ticks = s.ticks := rfl
@[simp] theorem State.modNode_clock (s : State) (g n : Nat) (f : Node → Node) : (s.modNode g n f).clock = s.clock := rfl
@[simp] theorem State.modNode_task (s : State) (g n : Nat) (f : Node → Node) : (s.modNode g n f).task = s.task := rfl
@[simp] theorem State.modNode_parked (s : State) (g n : Nat) (f : Node → Node) : (s.modNode g n f).parked = s.parked := rfl
@[simp] theorem State.modNode_nextTid (s : State) (g n : Nat) (f : Node → Node) : (s.modNode g n f).nextTid = s.nextTid := rfl
@[simp] theorem State.modNode_mem (s : State) (g n : Nat) (f : Node → Node) : (s.modNode g n f).mem = s.mem := rfl
@[simp] theorem State.modNode_tags (s : State) (g n : Nat) (f : Node → Node) : (s.modNode g n f).tags = s.tags := rfl
@[simp] theorem State.modNode_keys (s : State) (g n : Nat) (f : Node → Node) : (s.modNode g n f).keys = s.keys := rfl
@[simp] theorem State.modNode_poison (s : State) (g n : Nat) (f : Node → Node) : (s.modNode g n f).poison = s.poison := rfl
@[simp] theorem State.modNode_stash (s : State) (g n : Nat) (f : Node → Node) : (s.modNode g n f).stash = s.stash := rfl
@[simp] theorem State.modNode_unservable (s : State) (g n : Nat) (f : Node → Node) : (s.modNode g n f).unservable = s.unservable := rfl
@[simp] theorem State.modNode_pageWaits (s : State) (g n : Nat) (f : Node → Node) : (s.modNode g n f).pageWaits = s.pageWaits := rfl
@[simp] theorem State.modNode_bounds (s : State) (g n : Nat) (f : Node → Node) : (s.modNode g n f).bounds = s.bounds := rfl
@[simp] theorem State.modNode_queues (s : State) (g n : Nat) (f : Node → Node) : (s.modNode g n f).queues = s.queues := rfl
@[simp] theorem State.modNode_packets (s : State) (g n : Nat) (f : Node → Node) : (s.modNode g n f).packets = s.packets := rfl
@[simp] theorem State.modNode_nextPid (s : State) (g n : Nat) (f : Node → Node) : (s.modNode g n f).nextPid = s.nextPid := rfl
@[simp] theorem State.modNode_regions (s : State) (g n : Nat) (f : Node → Node) : (s.modNode g n f).regions = s.regions := rfl
@[simp] theorem State.modNode_nextGid (s : State) (g n : Nat) (f : Node → Node) : (s.modNode g n f).nextGid = s.nextGid := rfl
@[simp] theorem State.modNode_nextAge (s : State) (g n : Nat) (f : Node → Node) : (s.modNode g n f).nextAge = s.nextAge := rfl
@[simp] theorem State.modNode_segments (s : State) (g n : Nat) (f : Node → Node) : (s.modNode g n f).segments = s.segments := rfl
@[simp] theorem State.modNode_nextSegment (s : State) (g n : Nat) (f : Node → Node) : (s.modNode g n f).nextSegment = s.nextSegment := rfl
@[simp] theorem State.modNode_contexts (s : State) (g n : Nat) (f : Node → Node) : (s.modNode g n f).contexts = s.contexts := rfl
@[simp] theorem State.modNode_kernels (s : State) (g n : Nat) (f : Node → Node) : (s.modNode g n f).kernels = s.kernels := rfl
@[simp] theorem State.modNode_arrays (s : State) (g n : Nat) (f : Node → Node) : (s.modNode g n f).arrays = s.arrays := rfl
@[simp] theorem State.modNode_limits (s : State) (g n : Nat) (f : Node → Node) : (s.modNode g n f).limits = s.limits := rfl
@[simp] theorem State.modNode_engines (s : State) (g n : Nat) (f : Node → Node) : (s.modNode g n f).engines = s.engines := rfl
@[simp] theorem State.modNode_clovers (s : State) (g n : Nat) (f : Node → Node) : (s.modNode g n f).clovers = s.clovers := rfl
@[simp] theorem State.modNode_gen (s : State) (g n : Nat) (f : Node → Node) : (s.modNode g n f).gen = s.gen := rfl
@[simp] theorem State.modNode_dies (s : State) (g n : Nat) (f : Node → Node) : (s.modNode g n f).dies = s.dies := rfl
@[simp] theorem State.modNode_links (s : State) (g n : Nat) (f : Node → Node) : (s.modNode g n f).links = s.links := rfl
@[simp] theorem State.modNode_sects (s : State) (g n : Nat) (f : Node → Node) : (s.modNode g n f).sects = s.sects := rfl
@[simp] theorem State.modNode_epoch (s : State) (g n : Nat) (f : Node → Node) : (s.modNode g n f).epoch = s.epoch := rfl
@[simp] theorem State.modNode_port0 (s : State) (g n : Nat) (f : Node → Node) : (s.modNode g n f).port0 = s.port0 := rfl
@[simp] theorem State.modNode_ports (s : State) (g n : Nat) (f : Node → Node) : (s.modNode g n f).ports = s.ports := rfl
@[simp] theorem State.modNode_fabric (s : State) (g n : Nat) (f : Node → Node) : (s.modNode g n f).fabric = s.fabric := rfl
@[simp] theorem State.modNode_peerWindows (s : State) (g n : Nat) (f : Node → Node) : (s.modNode g n f).peerWindows = s.peerWindows := rfl
@[simp] theorem State.modNode_hostRejects (s : State) (g n : Nat) (f : Node → Node) : (s.modNode g n f).hostRejects = s.hostRejects := rfl
@[simp] theorem State.modNode_errors (s : State) (g n : Nat) (f : Node → Node) : (s.modNode g n f).errors = s.errors := rfl
@[simp] theorem State.modNode_action (s : State) (g n : Nat) (f : Node → Node) : (s.modNode g n f).action = s.action := rfl
@[simp] theorem State.modNode_actionQueue (s : State) (g n : Nat) (f : Node → Node) : (s.modNode g n f).actionQueue = s.actionQueue := rfl
@[simp] theorem State.modNode_boot (s : State) (g n : Nat) (f : Node → Node) : (s.modNode g n f).boot = s.boot := rfl

/-! ### modLink: a link -/

@[simp] theorem State.modLink_sched (s : State) (n : Nat) (f : Link → Link) : (s.modLink n f).sched = s.sched := rfl
@[simp] theorem State.modLink_cur (s : State) (n : Nat) (f : Link → Link) : (s.modLink n f).cur = s.cur := rfl
@[simp] theorem State.modLink_freeCtr (s : State) (n : Nat) (f : Link → Link) : (s.modLink n f).freeCtr = s.freeCtr := rfl
@[simp] theorem State.modLink_cycle (s : State) (n : Nat) (f : Link → Link) : (s.modLink n f).cycle = s.cycle := rfl
@[simp] theorem State.modLink_ticks (s : State) (n : Nat) (f : Link → Link) : (s.modLink n f).ticks = s.ticks := rfl
@[simp] theorem State.modLink_clock (s : State) (n : Nat) (f : Link → Link) : (s.modLink n f).clock = s.clock := rfl
@[simp] theorem State.modLink_task (s : State) (n : Nat) (f : Link → Link) : (s.modLink n f).task = s.task := rfl
@[simp] theorem State.modLink_parked (s : State) (n : Nat) (f : Link → Link) : (s.modLink n f).parked = s.parked := rfl
@[simp] theorem State.modLink_nextTid (s : State) (n : Nat) (f : Link → Link) : (s.modLink n f).nextTid = s.nextTid := rfl
@[simp] theorem State.modLink_mem (s : State) (n : Nat) (f : Link → Link) : (s.modLink n f).mem = s.mem := rfl
@[simp] theorem State.modLink_tags (s : State) (n : Nat) (f : Link → Link) : (s.modLink n f).tags = s.tags := rfl
@[simp] theorem State.modLink_keys (s : State) (n : Nat) (f : Link → Link) : (s.modLink n f).keys = s.keys := rfl
@[simp] theorem State.modLink_poison (s : State) (n : Nat) (f : Link → Link) : (s.modLink n f).poison = s.poison := rfl
@[simp] theorem State.modLink_stash (s : State) (n : Nat) (f : Link → Link) : (s.modLink n f).stash = s.stash := rfl
@[simp] theorem State.modLink_unservable (s : State) (n : Nat) (f : Link → Link) : (s.modLink n f).unservable = s.unservable := rfl
@[simp] theorem State.modLink_pageWaits (s : State) (n : Nat) (f : Link → Link) : (s.modLink n f).pageWaits = s.pageWaits := rfl
@[simp] theorem State.modLink_bounds (s : State) (n : Nat) (f : Link → Link) : (s.modLink n f).bounds = s.bounds := rfl
@[simp] theorem State.modLink_queues (s : State) (n : Nat) (f : Link → Link) : (s.modLink n f).queues = s.queues := rfl
@[simp] theorem State.modLink_packets (s : State) (n : Nat) (f : Link → Link) : (s.modLink n f).packets = s.packets := rfl
@[simp] theorem State.modLink_nextPid (s : State) (n : Nat) (f : Link → Link) : (s.modLink n f).nextPid = s.nextPid := rfl
@[simp] theorem State.modLink_regions (s : State) (n : Nat) (f : Link → Link) : (s.modLink n f).regions = s.regions := rfl
@[simp] theorem State.modLink_graphs (s : State) (n : Nat) (f : Link → Link) : (s.modLink n f).graphs = s.graphs := rfl
@[simp] theorem State.modLink_nextGid (s : State) (n : Nat) (f : Link → Link) : (s.modLink n f).nextGid = s.nextGid := rfl
@[simp] theorem State.modLink_nextAge (s : State) (n : Nat) (f : Link → Link) : (s.modLink n f).nextAge = s.nextAge := rfl
@[simp] theorem State.modLink_segments (s : State) (n : Nat) (f : Link → Link) : (s.modLink n f).segments = s.segments := rfl
@[simp] theorem State.modLink_nextSegment (s : State) (n : Nat) (f : Link → Link) : (s.modLink n f).nextSegment = s.nextSegment := rfl
@[simp] theorem State.modLink_contexts (s : State) (n : Nat) (f : Link → Link) : (s.modLink n f).contexts = s.contexts := rfl
@[simp] theorem State.modLink_kernels (s : State) (n : Nat) (f : Link → Link) : (s.modLink n f).kernels = s.kernels := rfl
@[simp] theorem State.modLink_arrays (s : State) (n : Nat) (f : Link → Link) : (s.modLink n f).arrays = s.arrays := rfl
@[simp] theorem State.modLink_limits (s : State) (n : Nat) (f : Link → Link) : (s.modLink n f).limits = s.limits := rfl
@[simp] theorem State.modLink_engines (s : State) (n : Nat) (f : Link → Link) : (s.modLink n f).engines = s.engines := rfl
@[simp] theorem State.modLink_clovers (s : State) (n : Nat) (f : Link → Link) : (s.modLink n f).clovers = s.clovers := rfl
@[simp] theorem State.modLink_gen (s : State) (n : Nat) (f : Link → Link) : (s.modLink n f).gen = s.gen := rfl
@[simp] theorem State.modLink_dies (s : State) (n : Nat) (f : Link → Link) : (s.modLink n f).dies = s.dies := rfl
@[simp] theorem State.modLink_sects (s : State) (n : Nat) (f : Link → Link) : (s.modLink n f).sects = s.sects := rfl
@[simp] theorem State.modLink_epoch (s : State) (n : Nat) (f : Link → Link) : (s.modLink n f).epoch = s.epoch := rfl
@[simp] theorem State.modLink_port0 (s : State) (n : Nat) (f : Link → Link) : (s.modLink n f).port0 = s.port0 := rfl
@[simp] theorem State.modLink_ports (s : State) (n : Nat) (f : Link → Link) : (s.modLink n f).ports = s.ports := rfl
@[simp] theorem State.modLink_fabric (s : State) (n : Nat) (f : Link → Link) : (s.modLink n f).fabric = s.fabric := rfl
@[simp] theorem State.modLink_peerWindows (s : State) (n : Nat) (f : Link → Link) : (s.modLink n f).peerWindows = s.peerWindows := rfl
@[simp] theorem State.modLink_hostRejects (s : State) (n : Nat) (f : Link → Link) : (s.modLink n f).hostRejects = s.hostRejects := rfl
@[simp] theorem State.modLink_errors (s : State) (n : Nat) (f : Link → Link) : (s.modLink n f).errors = s.errors := rfl
@[simp] theorem State.modLink_action (s : State) (n : Nat) (f : Link → Link) : (s.modLink n f).action = s.action := rfl
@[simp] theorem State.modLink_actionQueue (s : State) (n : Nat) (f : Link → Link) : (s.modLink n f).actionQueue = s.actionQueue := rfl
@[simp] theorem State.modLink_boot (s : State) (n : Nat) (f : Link → Link) : (s.modLink n f).boot = s.boot := rfl

/-! ### modPort: a port -/

@[simp] theorem State.modPort_sched (s : State) (n : Nat) (f : Port → Port) : (s.modPort n f).sched = s.sched := rfl
@[simp] theorem State.modPort_cur (s : State) (n : Nat) (f : Port → Port) : (s.modPort n f).cur = s.cur := rfl
@[simp] theorem State.modPort_freeCtr (s : State) (n : Nat) (f : Port → Port) : (s.modPort n f).freeCtr = s.freeCtr := rfl
@[simp] theorem State.modPort_cycle (s : State) (n : Nat) (f : Port → Port) : (s.modPort n f).cycle = s.cycle := rfl
@[simp] theorem State.modPort_ticks (s : State) (n : Nat) (f : Port → Port) : (s.modPort n f).ticks = s.ticks := rfl
@[simp] theorem State.modPort_clock (s : State) (n : Nat) (f : Port → Port) : (s.modPort n f).clock = s.clock := rfl
@[simp] theorem State.modPort_task (s : State) (n : Nat) (f : Port → Port) : (s.modPort n f).task = s.task := rfl
@[simp] theorem State.modPort_parked (s : State) (n : Nat) (f : Port → Port) : (s.modPort n f).parked = s.parked := rfl
@[simp] theorem State.modPort_nextTid (s : State) (n : Nat) (f : Port → Port) : (s.modPort n f).nextTid = s.nextTid := rfl
@[simp] theorem State.modPort_mem (s : State) (n : Nat) (f : Port → Port) : (s.modPort n f).mem = s.mem := rfl
@[simp] theorem State.modPort_tags (s : State) (n : Nat) (f : Port → Port) : (s.modPort n f).tags = s.tags := rfl
@[simp] theorem State.modPort_keys (s : State) (n : Nat) (f : Port → Port) : (s.modPort n f).keys = s.keys := rfl
@[simp] theorem State.modPort_poison (s : State) (n : Nat) (f : Port → Port) : (s.modPort n f).poison = s.poison := rfl
@[simp] theorem State.modPort_stash (s : State) (n : Nat) (f : Port → Port) : (s.modPort n f).stash = s.stash := rfl
@[simp] theorem State.modPort_unservable (s : State) (n : Nat) (f : Port → Port) : (s.modPort n f).unservable = s.unservable := rfl
@[simp] theorem State.modPort_pageWaits (s : State) (n : Nat) (f : Port → Port) : (s.modPort n f).pageWaits = s.pageWaits := rfl
@[simp] theorem State.modPort_bounds (s : State) (n : Nat) (f : Port → Port) : (s.modPort n f).bounds = s.bounds := rfl
@[simp] theorem State.modPort_queues (s : State) (n : Nat) (f : Port → Port) : (s.modPort n f).queues = s.queues := rfl
@[simp] theorem State.modPort_packets (s : State) (n : Nat) (f : Port → Port) : (s.modPort n f).packets = s.packets := rfl
@[simp] theorem State.modPort_nextPid (s : State) (n : Nat) (f : Port → Port) : (s.modPort n f).nextPid = s.nextPid := rfl
@[simp] theorem State.modPort_regions (s : State) (n : Nat) (f : Port → Port) : (s.modPort n f).regions = s.regions := rfl
@[simp] theorem State.modPort_graphs (s : State) (n : Nat) (f : Port → Port) : (s.modPort n f).graphs = s.graphs := rfl
@[simp] theorem State.modPort_nextGid (s : State) (n : Nat) (f : Port → Port) : (s.modPort n f).nextGid = s.nextGid := rfl
@[simp] theorem State.modPort_nextAge (s : State) (n : Nat) (f : Port → Port) : (s.modPort n f).nextAge = s.nextAge := rfl
@[simp] theorem State.modPort_segments (s : State) (n : Nat) (f : Port → Port) : (s.modPort n f).segments = s.segments := rfl
@[simp] theorem State.modPort_nextSegment (s : State) (n : Nat) (f : Port → Port) : (s.modPort n f).nextSegment = s.nextSegment := rfl
@[simp] theorem State.modPort_contexts (s : State) (n : Nat) (f : Port → Port) : (s.modPort n f).contexts = s.contexts := rfl
@[simp] theorem State.modPort_kernels (s : State) (n : Nat) (f : Port → Port) : (s.modPort n f).kernels = s.kernels := rfl
@[simp] theorem State.modPort_arrays (s : State) (n : Nat) (f : Port → Port) : (s.modPort n f).arrays = s.arrays := rfl
@[simp] theorem State.modPort_limits (s : State) (n : Nat) (f : Port → Port) : (s.modPort n f).limits = s.limits := rfl
@[simp] theorem State.modPort_engines (s : State) (n : Nat) (f : Port → Port) : (s.modPort n f).engines = s.engines := rfl
@[simp] theorem State.modPort_clovers (s : State) (n : Nat) (f : Port → Port) : (s.modPort n f).clovers = s.clovers := rfl
@[simp] theorem State.modPort_gen (s : State) (n : Nat) (f : Port → Port) : (s.modPort n f).gen = s.gen := rfl
@[simp] theorem State.modPort_dies (s : State) (n : Nat) (f : Port → Port) : (s.modPort n f).dies = s.dies := rfl
@[simp] theorem State.modPort_links (s : State) (n : Nat) (f : Port → Port) : (s.modPort n f).links = s.links := rfl
@[simp] theorem State.modPort_sects (s : State) (n : Nat) (f : Port → Port) : (s.modPort n f).sects = s.sects := rfl
@[simp] theorem State.modPort_epoch (s : State) (n : Nat) (f : Port → Port) : (s.modPort n f).epoch = s.epoch := rfl
@[simp] theorem State.modPort_port0 (s : State) (n : Nat) (f : Port → Port) : (s.modPort n f).port0 = s.port0 := rfl
@[simp] theorem State.modPort_fabric (s : State) (n : Nat) (f : Port → Port) : (s.modPort n f).fabric = s.fabric := rfl
@[simp] theorem State.modPort_peerWindows (s : State) (n : Nat) (f : Port → Port) : (s.modPort n f).peerWindows = s.peerWindows := rfl
@[simp] theorem State.modPort_hostRejects (s : State) (n : Nat) (f : Port → Port) : (s.modPort n f).hostRejects = s.hostRejects := rfl
@[simp] theorem State.modPort_errors (s : State) (n : Nat) (f : Port → Port) : (s.modPort n f).errors = s.errors := rfl
@[simp] theorem State.modPort_action (s : State) (n : Nat) (f : Port → Port) : (s.modPort n f).action = s.action := rfl
@[simp] theorem State.modPort_actionQueue (s : State) (n : Nat) (f : Port → Port) : (s.modPort n f).actionQueue = s.actionQueue := rfl
@[simp] theorem State.modPort_boot (s : State) (n : Nat) (f : Port → Port) : (s.modPort n f).boot = s.boot := rfl

/-! ### fireMsix: the vectors fired -/

@[simp] theorem State.fireMsix_sched (s : State) (n : Nat) : (s.fireMsix n).sched = s.sched := rfl
@[simp] theorem State.fireMsix_cur (s : State) (n : Nat) : (s.fireMsix n).cur = s.cur := rfl
@[simp] theorem State.fireMsix_freeCtr (s : State) (n : Nat) : (s.fireMsix n).freeCtr = s.freeCtr := rfl
@[simp] theorem State.fireMsix_cycle (s : State) (n : Nat) : (s.fireMsix n).cycle = s.cycle := rfl
@[simp] theorem State.fireMsix_ticks (s : State) (n : Nat) : (s.fireMsix n).ticks = s.ticks := rfl
@[simp] theorem State.fireMsix_clock (s : State) (n : Nat) : (s.fireMsix n).clock = s.clock := rfl
@[simp] theorem State.fireMsix_task (s : State) (n : Nat) : (s.fireMsix n).task = s.task := rfl
@[simp] theorem State.fireMsix_parked (s : State) (n : Nat) : (s.fireMsix n).parked = s.parked := rfl
@[simp] theorem State.fireMsix_nextTid (s : State) (n : Nat) : (s.fireMsix n).nextTid = s.nextTid := rfl
@[simp] theorem State.fireMsix_mem (s : State) (n : Nat) : (s.fireMsix n).mem = s.mem := rfl
@[simp] theorem State.fireMsix_tags (s : State) (n : Nat) : (s.fireMsix n).tags = s.tags := rfl
@[simp] theorem State.fireMsix_keys (s : State) (n : Nat) : (s.fireMsix n).keys = s.keys := rfl
@[simp] theorem State.fireMsix_poison (s : State) (n : Nat) : (s.fireMsix n).poison = s.poison := rfl
@[simp] theorem State.fireMsix_stash (s : State) (n : Nat) : (s.fireMsix n).stash = s.stash := rfl
@[simp] theorem State.fireMsix_unservable (s : State) (n : Nat) : (s.fireMsix n).unservable = s.unservable := rfl
@[simp] theorem State.fireMsix_pageWaits (s : State) (n : Nat) : (s.fireMsix n).pageWaits = s.pageWaits := rfl
@[simp] theorem State.fireMsix_bounds (s : State) (n : Nat) : (s.fireMsix n).bounds = s.bounds := rfl
@[simp] theorem State.fireMsix_queues (s : State) (n : Nat) : (s.fireMsix n).queues = s.queues := rfl
@[simp] theorem State.fireMsix_packets (s : State) (n : Nat) : (s.fireMsix n).packets = s.packets := rfl
@[simp] theorem State.fireMsix_nextPid (s : State) (n : Nat) : (s.fireMsix n).nextPid = s.nextPid := rfl
@[simp] theorem State.fireMsix_regions (s : State) (n : Nat) : (s.fireMsix n).regions = s.regions := rfl
@[simp] theorem State.fireMsix_graphs (s : State) (n : Nat) : (s.fireMsix n).graphs = s.graphs := rfl
@[simp] theorem State.fireMsix_nextGid (s : State) (n : Nat) : (s.fireMsix n).nextGid = s.nextGid := rfl
@[simp] theorem State.fireMsix_nextAge (s : State) (n : Nat) : (s.fireMsix n).nextAge = s.nextAge := rfl
@[simp] theorem State.fireMsix_segments (s : State) (n : Nat) : (s.fireMsix n).segments = s.segments := rfl
@[simp] theorem State.fireMsix_nextSegment (s : State) (n : Nat) : (s.fireMsix n).nextSegment = s.nextSegment := rfl
@[simp] theorem State.fireMsix_contexts (s : State) (n : Nat) : (s.fireMsix n).contexts = s.contexts := rfl
@[simp] theorem State.fireMsix_kernels (s : State) (n : Nat) : (s.fireMsix n).kernels = s.kernels := rfl
@[simp] theorem State.fireMsix_arrays (s : State) (n : Nat) : (s.fireMsix n).arrays = s.arrays := rfl
@[simp] theorem State.fireMsix_limits (s : State) (n : Nat) : (s.fireMsix n).limits = s.limits := rfl
@[simp] theorem State.fireMsix_engines (s : State) (n : Nat) : (s.fireMsix n).engines = s.engines := rfl
@[simp] theorem State.fireMsix_clovers (s : State) (n : Nat) : (s.fireMsix n).clovers = s.clovers := rfl
@[simp] theorem State.fireMsix_gen (s : State) (n : Nat) : (s.fireMsix n).gen = s.gen := rfl
@[simp] theorem State.fireMsix_dies (s : State) (n : Nat) : (s.fireMsix n).dies = s.dies := rfl
@[simp] theorem State.fireMsix_links (s : State) (n : Nat) : (s.fireMsix n).links = s.links := rfl
@[simp] theorem State.fireMsix_sects (s : State) (n : Nat) : (s.fireMsix n).sects = s.sects := rfl
@[simp] theorem State.fireMsix_epoch (s : State) (n : Nat) : (s.fireMsix n).epoch = s.epoch := rfl
@[simp] theorem State.fireMsix_ports (s : State) (n : Nat) : (s.fireMsix n).ports = s.ports := rfl
@[simp] theorem State.fireMsix_fabric (s : State) (n : Nat) : (s.fireMsix n).fabric = s.fabric := rfl
@[simp] theorem State.fireMsix_peerWindows (s : State) (n : Nat) : (s.fireMsix n).peerWindows = s.peerWindows := rfl
@[simp] theorem State.fireMsix_hostRejects (s : State) (n : Nat) : (s.fireMsix n).hostRejects = s.hostRejects := rfl
@[simp] theorem State.fireMsix_errors (s : State) (n : Nat) : (s.fireMsix n).errors = s.errors := rfl
@[simp] theorem State.fireMsix_action (s : State) (n : Nat) : (s.fireMsix n).action = s.action := rfl
@[simp] theorem State.fireMsix_actionQueue (s : State) (n : Nat) : (s.fireMsix n).actionQueue = s.actionQueue := rfl
@[simp] theorem State.fireMsix_boot (s : State) (n : Nat) : (s.fireMsix n).boot = s.boot := rfl

/-! ### dropLines: stash lines -/

@[simp] theorem State.dropLines_sched (s : State) (p : StashLine → Bool) : (s.dropLines p).sched = s.sched := rfl
@[simp] theorem State.dropLines_cur (s : State) (p : StashLine → Bool) : (s.dropLines p).cur = s.cur := rfl
@[simp] theorem State.dropLines_freeCtr (s : State) (p : StashLine → Bool) : (s.dropLines p).freeCtr = s.freeCtr := rfl
@[simp] theorem State.dropLines_cycle (s : State) (p : StashLine → Bool) : (s.dropLines p).cycle = s.cycle := rfl
@[simp] theorem State.dropLines_ticks (s : State) (p : StashLine → Bool) : (s.dropLines p).ticks = s.ticks := rfl
@[simp] theorem State.dropLines_clock (s : State) (p : StashLine → Bool) : (s.dropLines p).clock = s.clock := rfl
@[simp] theorem State.dropLines_task (s : State) (p : StashLine → Bool) : (s.dropLines p).task = s.task := rfl
@[simp] theorem State.dropLines_parked (s : State) (p : StashLine → Bool) : (s.dropLines p).parked = s.parked := rfl
@[simp] theorem State.dropLines_nextTid (s : State) (p : StashLine → Bool) : (s.dropLines p).nextTid = s.nextTid := rfl
@[simp] theorem State.dropLines_mem (s : State) (p : StashLine → Bool) : (s.dropLines p).mem = s.mem := rfl
@[simp] theorem State.dropLines_tags (s : State) (p : StashLine → Bool) : (s.dropLines p).tags = s.tags := rfl
@[simp] theorem State.dropLines_keys (s : State) (p : StashLine → Bool) : (s.dropLines p).keys = s.keys := rfl
@[simp] theorem State.dropLines_poison (s : State) (p : StashLine → Bool) : (s.dropLines p).poison = s.poison := rfl
@[simp] theorem State.dropLines_unservable (s : State) (p : StashLine → Bool) : (s.dropLines p).unservable = s.unservable := rfl
@[simp] theorem State.dropLines_pageWaits (s : State) (p : StashLine → Bool) : (s.dropLines p).pageWaits = s.pageWaits := rfl
@[simp] theorem State.dropLines_bounds (s : State) (p : StashLine → Bool) : (s.dropLines p).bounds = s.bounds := rfl
@[simp] theorem State.dropLines_queues (s : State) (p : StashLine → Bool) : (s.dropLines p).queues = s.queues := rfl
@[simp] theorem State.dropLines_packets (s : State) (p : StashLine → Bool) : (s.dropLines p).packets = s.packets := rfl
@[simp] theorem State.dropLines_nextPid (s : State) (p : StashLine → Bool) : (s.dropLines p).nextPid = s.nextPid := rfl
@[simp] theorem State.dropLines_regions (s : State) (p : StashLine → Bool) : (s.dropLines p).regions = s.regions := rfl
@[simp] theorem State.dropLines_graphs (s : State) (p : StashLine → Bool) : (s.dropLines p).graphs = s.graphs := rfl
@[simp] theorem State.dropLines_nextGid (s : State) (p : StashLine → Bool) : (s.dropLines p).nextGid = s.nextGid := rfl
@[simp] theorem State.dropLines_nextAge (s : State) (p : StashLine → Bool) : (s.dropLines p).nextAge = s.nextAge := rfl
@[simp] theorem State.dropLines_segments (s : State) (p : StashLine → Bool) : (s.dropLines p).segments = s.segments := rfl
@[simp] theorem State.dropLines_nextSegment (s : State) (p : StashLine → Bool) : (s.dropLines p).nextSegment = s.nextSegment := rfl
@[simp] theorem State.dropLines_contexts (s : State) (p : StashLine → Bool) : (s.dropLines p).contexts = s.contexts := rfl
@[simp] theorem State.dropLines_kernels (s : State) (p : StashLine → Bool) : (s.dropLines p).kernels = s.kernels := rfl
@[simp] theorem State.dropLines_arrays (s : State) (p : StashLine → Bool) : (s.dropLines p).arrays = s.arrays := rfl
@[simp] theorem State.dropLines_limits (s : State) (p : StashLine → Bool) : (s.dropLines p).limits = s.limits := rfl
@[simp] theorem State.dropLines_engines (s : State) (p : StashLine → Bool) : (s.dropLines p).engines = s.engines := rfl
@[simp] theorem State.dropLines_clovers (s : State) (p : StashLine → Bool) : (s.dropLines p).clovers = s.clovers := rfl
@[simp] theorem State.dropLines_gen (s : State) (p : StashLine → Bool) : (s.dropLines p).gen = s.gen := rfl
@[simp] theorem State.dropLines_dies (s : State) (p : StashLine → Bool) : (s.dropLines p).dies = s.dies := rfl
@[simp] theorem State.dropLines_links (s : State) (p : StashLine → Bool) : (s.dropLines p).links = s.links := rfl
@[simp] theorem State.dropLines_sects (s : State) (p : StashLine → Bool) : (s.dropLines p).sects = s.sects := rfl
@[simp] theorem State.dropLines_epoch (s : State) (p : StashLine → Bool) : (s.dropLines p).epoch = s.epoch := rfl
@[simp] theorem State.dropLines_port0 (s : State) (p : StashLine → Bool) : (s.dropLines p).port0 = s.port0 := rfl
@[simp] theorem State.dropLines_ports (s : State) (p : StashLine → Bool) : (s.dropLines p).ports = s.ports := rfl
@[simp] theorem State.dropLines_fabric (s : State) (p : StashLine → Bool) : (s.dropLines p).fabric = s.fabric := rfl
@[simp] theorem State.dropLines_peerWindows (s : State) (p : StashLine → Bool) : (s.dropLines p).peerWindows = s.peerWindows := rfl
@[simp] theorem State.dropLines_hostRejects (s : State) (p : StashLine → Bool) : (s.dropLines p).hostRejects = s.hostRejects := rfl
@[simp] theorem State.dropLines_errors (s : State) (p : StashLine → Bool) : (s.dropLines p).errors = s.errors := rfl
@[simp] theorem State.dropLines_action (s : State) (p : StashLine → Bool) : (s.dropLines p).action = s.action := rfl
@[simp] theorem State.dropLines_actionQueue (s : State) (p : StashLine → Bool) : (s.dropLines p).actionQueue = s.actionQueue := rfl
@[simp] theorem State.dropLines_boot (s : State) (p : StashLine → Bool) : (s.dropLines p).boot = s.boot := rfl

/-! ### stashStore: a stash line -/

@[simp] theorem State.stashStore_sched (s : State) (n k : Nat) (b : Byte) (e : Nat) : (s.stashStore n k b e).sched = s.sched := rfl
@[simp] theorem State.stashStore_cur (s : State) (n k : Nat) (b : Byte) (e : Nat) : (s.stashStore n k b e).cur = s.cur := rfl
@[simp] theorem State.stashStore_freeCtr (s : State) (n k : Nat) (b : Byte) (e : Nat) : (s.stashStore n k b e).freeCtr = s.freeCtr := rfl
@[simp] theorem State.stashStore_cycle (s : State) (n k : Nat) (b : Byte) (e : Nat) : (s.stashStore n k b e).cycle = s.cycle := rfl
@[simp] theorem State.stashStore_ticks (s : State) (n k : Nat) (b : Byte) (e : Nat) : (s.stashStore n k b e).ticks = s.ticks := rfl
@[simp] theorem State.stashStore_clock (s : State) (n k : Nat) (b : Byte) (e : Nat) : (s.stashStore n k b e).clock = s.clock := rfl
@[simp] theorem State.stashStore_task (s : State) (n k : Nat) (b : Byte) (e : Nat) : (s.stashStore n k b e).task = s.task := rfl
@[simp] theorem State.stashStore_parked (s : State) (n k : Nat) (b : Byte) (e : Nat) : (s.stashStore n k b e).parked = s.parked := rfl
@[simp] theorem State.stashStore_nextTid (s : State) (n k : Nat) (b : Byte) (e : Nat) : (s.stashStore n k b e).nextTid = s.nextTid := rfl
@[simp] theorem State.stashStore_mem (s : State) (n k : Nat) (b : Byte) (e : Nat) : (s.stashStore n k b e).mem = s.mem := rfl
@[simp] theorem State.stashStore_tags (s : State) (n k : Nat) (b : Byte) (e : Nat) : (s.stashStore n k b e).tags = s.tags := rfl
@[simp] theorem State.stashStore_keys (s : State) (n k : Nat) (b : Byte) (e : Nat) : (s.stashStore n k b e).keys = s.keys := rfl
@[simp] theorem State.stashStore_poison (s : State) (n k : Nat) (b : Byte) (e : Nat) : (s.stashStore n k b e).poison = s.poison := rfl
@[simp] theorem State.stashStore_unservable (s : State) (n k : Nat) (b : Byte) (e : Nat) : (s.stashStore n k b e).unservable = s.unservable := rfl
@[simp] theorem State.stashStore_pageWaits (s : State) (n k : Nat) (b : Byte) (e : Nat) : (s.stashStore n k b e).pageWaits = s.pageWaits := rfl
@[simp] theorem State.stashStore_bounds (s : State) (n k : Nat) (b : Byte) (e : Nat) : (s.stashStore n k b e).bounds = s.bounds := rfl
@[simp] theorem State.stashStore_queues (s : State) (n k : Nat) (b : Byte) (e : Nat) : (s.stashStore n k b e).queues = s.queues := rfl
@[simp] theorem State.stashStore_packets (s : State) (n k : Nat) (b : Byte) (e : Nat) : (s.stashStore n k b e).packets = s.packets := rfl
@[simp] theorem State.stashStore_nextPid (s : State) (n k : Nat) (b : Byte) (e : Nat) : (s.stashStore n k b e).nextPid = s.nextPid := rfl
@[simp] theorem State.stashStore_regions (s : State) (n k : Nat) (b : Byte) (e : Nat) : (s.stashStore n k b e).regions = s.regions := rfl
@[simp] theorem State.stashStore_graphs (s : State) (n k : Nat) (b : Byte) (e : Nat) : (s.stashStore n k b e).graphs = s.graphs := rfl
@[simp] theorem State.stashStore_nextGid (s : State) (n k : Nat) (b : Byte) (e : Nat) : (s.stashStore n k b e).nextGid = s.nextGid := rfl
@[simp] theorem State.stashStore_nextAge (s : State) (n k : Nat) (b : Byte) (e : Nat) : (s.stashStore n k b e).nextAge = s.nextAge := rfl
@[simp] theorem State.stashStore_segments (s : State) (n k : Nat) (b : Byte) (e : Nat) : (s.stashStore n k b e).segments = s.segments := rfl
@[simp] theorem State.stashStore_nextSegment (s : State) (n k : Nat) (b : Byte) (e : Nat) : (s.stashStore n k b e).nextSegment = s.nextSegment := rfl
@[simp] theorem State.stashStore_contexts (s : State) (n k : Nat) (b : Byte) (e : Nat) : (s.stashStore n k b e).contexts = s.contexts := rfl
@[simp] theorem State.stashStore_kernels (s : State) (n k : Nat) (b : Byte) (e : Nat) : (s.stashStore n k b e).kernels = s.kernels := rfl
@[simp] theorem State.stashStore_arrays (s : State) (n k : Nat) (b : Byte) (e : Nat) : (s.stashStore n k b e).arrays = s.arrays := rfl
@[simp] theorem State.stashStore_limits (s : State) (n k : Nat) (b : Byte) (e : Nat) : (s.stashStore n k b e).limits = s.limits := rfl
@[simp] theorem State.stashStore_engines (s : State) (n k : Nat) (b : Byte) (e : Nat) : (s.stashStore n k b e).engines = s.engines := rfl
@[simp] theorem State.stashStore_clovers (s : State) (n k : Nat) (b : Byte) (e : Nat) : (s.stashStore n k b e).clovers = s.clovers := rfl
@[simp] theorem State.stashStore_gen (s : State) (n k : Nat) (b : Byte) (e : Nat) : (s.stashStore n k b e).gen = s.gen := rfl
@[simp] theorem State.stashStore_dies (s : State) (n k : Nat) (b : Byte) (e : Nat) : (s.stashStore n k b e).dies = s.dies := rfl
@[simp] theorem State.stashStore_links (s : State) (n k : Nat) (b : Byte) (e : Nat) : (s.stashStore n k b e).links = s.links := rfl
@[simp] theorem State.stashStore_sects (s : State) (n k : Nat) (b : Byte) (e : Nat) : (s.stashStore n k b e).sects = s.sects := rfl
@[simp] theorem State.stashStore_epoch (s : State) (n k : Nat) (b : Byte) (e : Nat) : (s.stashStore n k b e).epoch = s.epoch := rfl
@[simp] theorem State.stashStore_port0 (s : State) (n k : Nat) (b : Byte) (e : Nat) : (s.stashStore n k b e).port0 = s.port0 := rfl
@[simp] theorem State.stashStore_ports (s : State) (n k : Nat) (b : Byte) (e : Nat) : (s.stashStore n k b e).ports = s.ports := rfl
@[simp] theorem State.stashStore_fabric (s : State) (n k : Nat) (b : Byte) (e : Nat) : (s.stashStore n k b e).fabric = s.fabric := rfl
@[simp] theorem State.stashStore_peerWindows (s : State) (n k : Nat) (b : Byte) (e : Nat) : (s.stashStore n k b e).peerWindows = s.peerWindows := rfl
@[simp] theorem State.stashStore_hostRejects (s : State) (n k : Nat) (b : Byte) (e : Nat) : (s.stashStore n k b e).hostRejects = s.hostRejects := rfl
@[simp] theorem State.stashStore_errors (s : State) (n k : Nat) (b : Byte) (e : Nat) : (s.stashStore n k b e).errors = s.errors := rfl
@[simp] theorem State.stashStore_action (s : State) (n k : Nat) (b : Byte) (e : Nat) : (s.stashStore n k b e).action = s.action := rfl
@[simp] theorem State.stashStore_actionQueue (s : State) (n k : Nat) (b : Byte) (e : Nat) : (s.stashStore n k b e).actionQueue = s.actionQueue := rfl
@[simp] theorem State.stashStore_boot (s : State) (n k : Nat) (b : Byte) (e : Nat) : (s.stashStore n k b e).boot = s.boot := rfl

/-! ### addPoison: poisoned granules -/

@[simp] theorem State.addPoison_sched (s : State) (ps : List Nat) : (s.addPoison ps).sched = s.sched := rfl
@[simp] theorem State.addPoison_cur (s : State) (ps : List Nat) : (s.addPoison ps).cur = s.cur := rfl
@[simp] theorem State.addPoison_freeCtr (s : State) (ps : List Nat) : (s.addPoison ps).freeCtr = s.freeCtr := rfl
@[simp] theorem State.addPoison_cycle (s : State) (ps : List Nat) : (s.addPoison ps).cycle = s.cycle := rfl
@[simp] theorem State.addPoison_ticks (s : State) (ps : List Nat) : (s.addPoison ps).ticks = s.ticks := rfl
@[simp] theorem State.addPoison_clock (s : State) (ps : List Nat) : (s.addPoison ps).clock = s.clock := rfl
@[simp] theorem State.addPoison_task (s : State) (ps : List Nat) : (s.addPoison ps).task = s.task := rfl
@[simp] theorem State.addPoison_parked (s : State) (ps : List Nat) : (s.addPoison ps).parked = s.parked := rfl
@[simp] theorem State.addPoison_nextTid (s : State) (ps : List Nat) : (s.addPoison ps).nextTid = s.nextTid := rfl
@[simp] theorem State.addPoison_mem (s : State) (ps : List Nat) : (s.addPoison ps).mem = s.mem := rfl
@[simp] theorem State.addPoison_tags (s : State) (ps : List Nat) : (s.addPoison ps).tags = s.tags := rfl
@[simp] theorem State.addPoison_keys (s : State) (ps : List Nat) : (s.addPoison ps).keys = s.keys := rfl
@[simp] theorem State.addPoison_stash (s : State) (ps : List Nat) : (s.addPoison ps).stash = s.stash := rfl
@[simp] theorem State.addPoison_unservable (s : State) (ps : List Nat) : (s.addPoison ps).unservable = s.unservable := rfl
@[simp] theorem State.addPoison_pageWaits (s : State) (ps : List Nat) : (s.addPoison ps).pageWaits = s.pageWaits := rfl
@[simp] theorem State.addPoison_bounds (s : State) (ps : List Nat) : (s.addPoison ps).bounds = s.bounds := rfl
@[simp] theorem State.addPoison_queues (s : State) (ps : List Nat) : (s.addPoison ps).queues = s.queues := rfl
@[simp] theorem State.addPoison_packets (s : State) (ps : List Nat) : (s.addPoison ps).packets = s.packets := rfl
@[simp] theorem State.addPoison_nextPid (s : State) (ps : List Nat) : (s.addPoison ps).nextPid = s.nextPid := rfl
@[simp] theorem State.addPoison_regions (s : State) (ps : List Nat) : (s.addPoison ps).regions = s.regions := rfl
@[simp] theorem State.addPoison_graphs (s : State) (ps : List Nat) : (s.addPoison ps).graphs = s.graphs := rfl
@[simp] theorem State.addPoison_nextGid (s : State) (ps : List Nat) : (s.addPoison ps).nextGid = s.nextGid := rfl
@[simp] theorem State.addPoison_nextAge (s : State) (ps : List Nat) : (s.addPoison ps).nextAge = s.nextAge := rfl
@[simp] theorem State.addPoison_segments (s : State) (ps : List Nat) : (s.addPoison ps).segments = s.segments := rfl
@[simp] theorem State.addPoison_nextSegment (s : State) (ps : List Nat) : (s.addPoison ps).nextSegment = s.nextSegment := rfl
@[simp] theorem State.addPoison_contexts (s : State) (ps : List Nat) : (s.addPoison ps).contexts = s.contexts := rfl
@[simp] theorem State.addPoison_kernels (s : State) (ps : List Nat) : (s.addPoison ps).kernels = s.kernels := rfl
@[simp] theorem State.addPoison_arrays (s : State) (ps : List Nat) : (s.addPoison ps).arrays = s.arrays := rfl
@[simp] theorem State.addPoison_limits (s : State) (ps : List Nat) : (s.addPoison ps).limits = s.limits := rfl
@[simp] theorem State.addPoison_engines (s : State) (ps : List Nat) : (s.addPoison ps).engines = s.engines := rfl
@[simp] theorem State.addPoison_clovers (s : State) (ps : List Nat) : (s.addPoison ps).clovers = s.clovers := rfl
@[simp] theorem State.addPoison_gen (s : State) (ps : List Nat) : (s.addPoison ps).gen = s.gen := rfl
@[simp] theorem State.addPoison_dies (s : State) (ps : List Nat) : (s.addPoison ps).dies = s.dies := rfl
@[simp] theorem State.addPoison_links (s : State) (ps : List Nat) : (s.addPoison ps).links = s.links := rfl
@[simp] theorem State.addPoison_sects (s : State) (ps : List Nat) : (s.addPoison ps).sects = s.sects := rfl
@[simp] theorem State.addPoison_epoch (s : State) (ps : List Nat) : (s.addPoison ps).epoch = s.epoch := rfl
@[simp] theorem State.addPoison_port0 (s : State) (ps : List Nat) : (s.addPoison ps).port0 = s.port0 := rfl
@[simp] theorem State.addPoison_ports (s : State) (ps : List Nat) : (s.addPoison ps).ports = s.ports := rfl
@[simp] theorem State.addPoison_fabric (s : State) (ps : List Nat) : (s.addPoison ps).fabric = s.fabric := rfl
@[simp] theorem State.addPoison_peerWindows (s : State) (ps : List Nat) : (s.addPoison ps).peerWindows = s.peerWindows := rfl
@[simp] theorem State.addPoison_hostRejects (s : State) (ps : List Nat) : (s.addPoison ps).hostRejects = s.hostRejects := rfl
@[simp] theorem State.addPoison_errors (s : State) (ps : List Nat) : (s.addPoison ps).errors = s.errors := rfl
@[simp] theorem State.addPoison_action (s : State) (ps : List Nat) : (s.addPoison ps).action = s.action := rfl
@[simp] theorem State.addPoison_actionQueue (s : State) (ps : List Nat) : (s.addPoison ps).actionQueue = s.actionQueue := rfl
@[simp] theorem State.addPoison_boot (s : State) (ps : List Nat) : (s.addPoison ps).boot = s.boot := rfl

/-! ### setX and advance -/

/-- A write of a scalar register touches the task on stage only. -/
theorem State.setX_rest (s : State) (r : BitVec 5) (v : Word) : s.setX r v = { s with task := (s.setX r v).task } := by
  simp only [State.setX]; split
  · rfl
  · split <;> rfl

/-- So does the advance of the issuing party. -/
theorem State.advance_rest (s : State) : s.advance = { s with task := s.advance.task } := by
  simp only [State.advance]; split <;> rfl

@[simp] theorem State.setX_sched (s : State) (r : BitVec 5) (v : Word) : (s.setX r v).sched = s.sched := by
  rw [State.setX_rest]
@[simp] theorem State.advance_sched (s : State) : s.advance.sched = s.sched := by rw [State.advance_rest]
@[simp] theorem State.setX_cur (s : State) (r : BitVec 5) (v : Word) : (s.setX r v).cur = s.cur := by
  rw [State.setX_rest]
@[simp] theorem State.advance_cur (s : State) : s.advance.cur = s.cur := by rw [State.advance_rest]
@[simp] theorem State.setX_freeCtr (s : State) (r : BitVec 5) (v : Word) : (s.setX r v).freeCtr = s.freeCtr := by
  rw [State.setX_rest]
@[simp] theorem State.advance_freeCtr (s : State) : s.advance.freeCtr = s.freeCtr := by rw [State.advance_rest]
@[simp] theorem State.setX_cycle (s : State) (r : BitVec 5) (v : Word) : (s.setX r v).cycle = s.cycle := by
  rw [State.setX_rest]
@[simp] theorem State.advance_cycle (s : State) : s.advance.cycle = s.cycle := by rw [State.advance_rest]
@[simp] theorem State.setX_ticks (s : State) (r : BitVec 5) (v : Word) : (s.setX r v).ticks = s.ticks := by
  rw [State.setX_rest]
@[simp] theorem State.advance_ticks (s : State) : s.advance.ticks = s.ticks := by rw [State.advance_rest]
@[simp] theorem State.setX_clock (s : State) (r : BitVec 5) (v : Word) : (s.setX r v).clock = s.clock := by
  rw [State.setX_rest]
@[simp] theorem State.advance_clock (s : State) : s.advance.clock = s.clock := by rw [State.advance_rest]
@[simp] theorem State.setX_parked (s : State) (r : BitVec 5) (v : Word) : (s.setX r v).parked = s.parked := by
  rw [State.setX_rest]
@[simp] theorem State.advance_parked (s : State) : s.advance.parked = s.parked := by rw [State.advance_rest]
@[simp] theorem State.setX_nextTid (s : State) (r : BitVec 5) (v : Word) : (s.setX r v).nextTid = s.nextTid := by
  rw [State.setX_rest]
@[simp] theorem State.advance_nextTid (s : State) : s.advance.nextTid = s.nextTid := by rw [State.advance_rest]
@[simp] theorem State.setX_mem (s : State) (r : BitVec 5) (v : Word) : (s.setX r v).mem = s.mem := by
  rw [State.setX_rest]
@[simp] theorem State.advance_mem (s : State) : s.advance.mem = s.mem := by rw [State.advance_rest]
@[simp] theorem State.setX_tags (s : State) (r : BitVec 5) (v : Word) : (s.setX r v).tags = s.tags := by
  rw [State.setX_rest]
@[simp] theorem State.advance_tags (s : State) : s.advance.tags = s.tags := by rw [State.advance_rest]
@[simp] theorem State.setX_keys (s : State) (r : BitVec 5) (v : Word) : (s.setX r v).keys = s.keys := by
  rw [State.setX_rest]
@[simp] theorem State.advance_keys (s : State) : s.advance.keys = s.keys := by rw [State.advance_rest]
@[simp] theorem State.setX_poison (s : State) (r : BitVec 5) (v : Word) : (s.setX r v).poison = s.poison := by
  rw [State.setX_rest]
@[simp] theorem State.advance_poison (s : State) : s.advance.poison = s.poison := by rw [State.advance_rest]
@[simp] theorem State.setX_stash (s : State) (r : BitVec 5) (v : Word) : (s.setX r v).stash = s.stash := by
  rw [State.setX_rest]
@[simp] theorem State.advance_stash (s : State) : s.advance.stash = s.stash := by rw [State.advance_rest]
@[simp] theorem State.setX_unservable (s : State) (r : BitVec 5) (v : Word) : (s.setX r v).unservable = s.unservable := by
  rw [State.setX_rest]
@[simp] theorem State.setX_pageWaits (s : State) (r : BitVec 5) (v : Word) : (s.setX r v).pageWaits = s.pageWaits := by
  rw [State.setX_rest]
@[simp] theorem State.advance_unservable (s : State) : s.advance.unservable = s.unservable := by rw [State.advance_rest]
@[simp] theorem State.advance_pageWaits (s : State) : s.advance.pageWaits = s.pageWaits := by rw [State.advance_rest]
@[simp] theorem State.setX_bounds (s : State) (r : BitVec 5) (v : Word) : (s.setX r v).bounds = s.bounds := by
  rw [State.setX_rest]
@[simp] theorem State.advance_bounds (s : State) : s.advance.bounds = s.bounds := by rw [State.advance_rest]
@[simp] theorem State.setX_queues (s : State) (r : BitVec 5) (v : Word) : (s.setX r v).queues = s.queues := by
  rw [State.setX_rest]
@[simp] theorem State.advance_queues (s : State) : s.advance.queues = s.queues := by rw [State.advance_rest]
@[simp] theorem State.setX_packets (s : State) (r : BitVec 5) (v : Word) : (s.setX r v).packets = s.packets := by
  rw [State.setX_rest]
@[simp] theorem State.advance_packets (s : State) : s.advance.packets = s.packets := by rw [State.advance_rest]
@[simp] theorem State.setX_nextPid (s : State) (r : BitVec 5) (v : Word) : (s.setX r v).nextPid = s.nextPid := by
  rw [State.setX_rest]
@[simp] theorem State.advance_nextPid (s : State) : s.advance.nextPid = s.nextPid := by rw [State.advance_rest]
@[simp] theorem State.setX_regions (s : State) (r : BitVec 5) (v : Word) : (s.setX r v).regions = s.regions := by
  rw [State.setX_rest]
@[simp] theorem State.advance_regions (s : State) : s.advance.regions = s.regions := by rw [State.advance_rest]
@[simp] theorem State.setX_graphs (s : State) (r : BitVec 5) (v : Word) : (s.setX r v).graphs = s.graphs := by
  rw [State.setX_rest]
@[simp] theorem State.advance_graphs (s : State) : s.advance.graphs = s.graphs := by rw [State.advance_rest]
@[simp] theorem State.setX_nextGid (s : State) (r : BitVec 5) (v : Word) : (s.setX r v).nextGid = s.nextGid := by
  rw [State.setX_rest]
@[simp] theorem State.advance_nextGid (s : State) : s.advance.nextGid = s.nextGid := by rw [State.advance_rest]
@[simp] theorem State.setX_nextAge (s : State) (r : BitVec 5) (v : Word) : (s.setX r v).nextAge = s.nextAge := by
  rw [State.setX_rest]
@[simp] theorem State.advance_nextAge (s : State) : s.advance.nextAge = s.nextAge := by rw [State.advance_rest]
@[simp] theorem State.setX_segments (s : State) (r : BitVec 5) (v : Word) : (s.setX r v).segments = s.segments := by
  rw [State.setX_rest]
@[simp] theorem State.advance_segments (s : State) : s.advance.segments = s.segments := by rw [State.advance_rest]
@[simp] theorem State.setX_nextSegment (s : State) (r : BitVec 5) (v : Word) : (s.setX r v).nextSegment = s.nextSegment := by
  rw [State.setX_rest]
@[simp] theorem State.advance_nextSegment (s : State) : s.advance.nextSegment = s.nextSegment := by rw [State.advance_rest]
@[simp] theorem State.setX_contexts (s : State) (r : BitVec 5) (v : Word) : (s.setX r v).contexts = s.contexts := by
  rw [State.setX_rest]
@[simp] theorem State.advance_contexts (s : State) : s.advance.contexts = s.contexts := by rw [State.advance_rest]
@[simp] theorem State.setX_kernels (s : State) (r : BitVec 5) (v : Word) : (s.setX r v).kernels = s.kernels := by
  rw [State.setX_rest]
@[simp] theorem State.advance_kernels (s : State) : s.advance.kernels = s.kernels := by rw [State.advance_rest]
@[simp] theorem State.setX_arrays (s : State) (r : BitVec 5) (v : Word) : (s.setX r v).arrays = s.arrays := by
  rw [State.setX_rest]
@[simp] theorem State.advance_arrays (s : State) : s.advance.arrays = s.arrays := by rw [State.advance_rest]
@[simp] theorem State.setX_limits (s : State) (r : BitVec 5) (v : Word) : (s.setX r v).limits = s.limits := by
  rw [State.setX_rest]
@[simp] theorem State.advance_limits (s : State) : s.advance.limits = s.limits := by rw [State.advance_rest]
@[simp] theorem State.setX_engines (s : State) (r : BitVec 5) (v : Word) : (s.setX r v).engines = s.engines := by
  rw [State.setX_rest]
@[simp] theorem State.advance_engines (s : State) : s.advance.engines = s.engines := by rw [State.advance_rest]
@[simp] theorem State.setX_clovers (s : State) (r : BitVec 5) (v : Word) : (s.setX r v).clovers = s.clovers := by
  rw [State.setX_rest]
@[simp] theorem State.advance_clovers (s : State) : s.advance.clovers = s.clovers := by rw [State.advance_rest]
@[simp] theorem State.setX_gen (s : State) (r : BitVec 5) (v : Word) : (s.setX r v).gen = s.gen := by
  rw [State.setX_rest]
@[simp] theorem State.advance_gen (s : State) : s.advance.gen = s.gen := by rw [State.advance_rest]
@[simp] theorem State.setX_dies (s : State) (r : BitVec 5) (v : Word) : (s.setX r v).dies = s.dies := by
  rw [State.setX_rest]
@[simp] theorem State.advance_dies (s : State) : s.advance.dies = s.dies := by rw [State.advance_rest]
@[simp] theorem State.setX_links (s : State) (r : BitVec 5) (v : Word) : (s.setX r v).links = s.links := by
  rw [State.setX_rest]
@[simp] theorem State.advance_links (s : State) : s.advance.links = s.links := by rw [State.advance_rest]
@[simp] theorem State.setX_sects (s : State) (r : BitVec 5) (v : Word) : (s.setX r v).sects = s.sects := by
  rw [State.setX_rest]
@[simp] theorem State.advance_sects (s : State) : s.advance.sects = s.sects := by rw [State.advance_rest]
@[simp] theorem State.setX_epoch (s : State) (r : BitVec 5) (v : Word) : (s.setX r v).epoch = s.epoch := by
  rw [State.setX_rest]
@[simp] theorem State.advance_epoch (s : State) : s.advance.epoch = s.epoch := by rw [State.advance_rest]
@[simp] theorem State.setX_port0 (s : State) (r : BitVec 5) (v : Word) : (s.setX r v).port0 = s.port0 := by
  rw [State.setX_rest]
@[simp] theorem State.advance_port0 (s : State) : s.advance.port0 = s.port0 := by rw [State.advance_rest]
@[simp] theorem State.setX_ports (s : State) (r : BitVec 5) (v : Word) : (s.setX r v).ports = s.ports := by
  rw [State.setX_rest]
@[simp] theorem State.advance_ports (s : State) : s.advance.ports = s.ports := by rw [State.advance_rest]
@[simp] theorem State.setX_fabric (s : State) (r : BitVec 5) (v : Word) : (s.setX r v).fabric = s.fabric := by
  rw [State.setX_rest]
@[simp] theorem State.advance_fabric (s : State) : s.advance.fabric = s.fabric := by rw [State.advance_rest]
@[simp] theorem State.setX_peerWindows (s : State) (r : BitVec 5) (v : Word) : (s.setX r v).peerWindows = s.peerWindows := by
  rw [State.setX_rest]
@[simp] theorem State.advance_peerWindows (s : State) : s.advance.peerWindows = s.peerWindows := by rw [State.advance_rest]
@[simp] theorem State.setX_hostRejects (s : State) (r : BitVec 5) (v : Word) : (s.setX r v).hostRejects = s.hostRejects := by
  rw [State.setX_rest]
@[simp] theorem State.advance_hostRejects (s : State) : s.advance.hostRejects = s.hostRejects := by rw [State.advance_rest]
@[simp] theorem State.setX_errors (s : State) (r : BitVec 5) (v : Word) : (s.setX r v).errors = s.errors := by
  rw [State.setX_rest]
@[simp] theorem State.advance_errors (s : State) : s.advance.errors = s.errors := by rw [State.advance_rest]
@[simp] theorem State.setX_action (s : State) (r : BitVec 5) (v : Word) : (s.setX r v).action = s.action := by
  rw [State.setX_rest]
@[simp] theorem State.advance_action (s : State) : s.advance.action = s.action := by rw [State.advance_rest]
@[simp] theorem State.setX_actionQueue (s : State) (r : BitVec 5) (v : Word) : (s.setX r v).actionQueue = s.actionQueue := by
  rw [State.setX_rest]
@[simp] theorem State.advance_actionQueue (s : State) : s.advance.actionQueue = s.actionQueue := by rw [State.advance_rest]
@[simp] theorem State.setX_boot (s : State) (r : BitVec 5) (v : Word) : (s.setX r v).boot = s.boot := by
  rw [State.setX_rest]
@[simp] theorem State.advance_boot (s : State) : s.advance.boot = s.boot := by rw [State.advance_rest]

/-- Of the task, a write of a scalar register touches its registers and their poison, or its block. -/
theorem State.setX_task (s : State) (r : BitVec 5) (v : Word) : (s.setX r v).task =
    { s.task with x := (s.setX r v).task.x, xPoison := (s.setX r v).task.xPoison, block := (s.setX r v).task.block } := by
  simp only [State.setX]; split
  · rfl
  · split <;> rfl

@[simp] theorem State.setX_task_status (s : State) (r : BitVec 5) (v : Word) : (s.setX r v).task.status = s.task.status := by
  rw [State.setX_task]
@[simp] theorem State.setX_task_id (s : State) (r : BitVec 5) (v : Word) : (s.setX r v).task.id = s.task.id := by
  rw [State.setX_task]
@[simp] theorem State.setX_task_pc (s : State) (r : BitVec 5) (v : Word) : (s.setX r v).task.pc = s.task.pc := by
  rw [State.setX_task]
@[simp] theorem State.setX_task_resv (s : State) (r : BitVec 5) (v : Word) : (s.setX r v).task.resv = s.task.resv := by
  rw [State.setX_task]
@[simp] theorem State.setX_task_instret (s : State) (r : BitVec 5) (v : Word) : (s.setX r v).task.instret = s.task.instret := by
  rw [State.setX_task]
@[simp] theorem State.setX_task_fold (s : State) (r : BitVec 5) (v : Word) : (s.setX r v).task.fold = s.task.fold := by
  rw [State.setX_task]
@[simp] theorem State.setX_task_foldPending (s : State) (r : BitVec 5) (v : Word) : (s.setX r v).task.foldPending = s.task.foldPending := by
  rw [State.setX_task]
@[simp] theorem State.setX_task_vcfg (s : State) (r : BitVec 5) (v : Word) : (s.setX r v).task.vcfg = s.task.vcfg := by
  rw [State.setX_task]
@[simp] theorem State.setX_task_vl (s : State) (r : BitVec 5) (v : Word) : (s.setX r v).task.vl = s.task.vl := by
  rw [State.setX_task]
@[simp] theorem State.setX_task_vstart (s : State) (r : BitVec 5) (v : Word) : (s.setX r v).task.vstart = s.task.vstart := by
  rw [State.setX_task]
@[simp] theorem State.setX_task_v (s : State) (r : BitVec 5) (v : Word) : (s.setX r v).task.v = s.task.v := by
  rw [State.setX_task]
@[simp] theorem State.setX_task_rngpos (s : State) (r : BitVec 5) (v : Word) : (s.setX r v).task.rngpos = s.task.rngpos := by
  rw [State.setX_task]
@[simp] theorem State.setX_task_srcount (s : State) (r : BitVec 5) (v : Word) : (s.setX r v).task.srcount = s.task.srcount := by
  rw [State.setX_task]
@[simp] theorem State.setX_task_fl (s : State) (r : BitVec 5) (v : Word) : (s.setX r v).task.fl = s.task.fl := by
  rw [State.setX_task]
@[simp] theorem State.setX_task_m (s : State) (r : BitVec 5) (v : Word) : (s.setX r v).task.m = s.task.m := by
  rw [State.setX_task]
@[simp] theorem State.setX_task_mshape (s : State) (r : BitVec 5) (v : Word) : (s.setX r v).task.mshape = s.task.mshape := by
  rw [State.setX_task]
@[simp] theorem State.setX_task_mcfg (s : State) (r : BitVec 5) (v : Word) : (s.setX r v).task.mcfg = s.task.mcfg := by
  rw [State.setX_task]
@[simp] theorem State.setX_task_astat (s : State) (r : BitVec 5) (v : Word) : (s.setX r v).task.astat = s.task.astat := by
  rw [State.setX_task]
@[simp] theorem State.setX_task_vq (s : State) (r : BitVec 5) (v : Word) : (s.setX r v).task.vq = s.task.vq := by
  rw [State.setX_task]
@[simp] theorem State.setX_task_nextSerial (s : State) (r : BitVec 5) (v : Word) : (s.setX r v).task.nextSerial = s.task.nextSerial := by
  rw [State.setX_task]
@[simp] theorem State.setX_task_replies (s : State) (r : BitVec 5) (v : Word) : (s.setX r v).task.replies = s.task.replies := by
  rw [State.setX_task]
@[simp] theorem State.setX_task_split (s : State) (r : BitVec 5) (v : Word) : (s.setX r v).task.split = s.task.split := by
  rw [State.setX_task]
@[simp] theorem State.setX_task_windows (s : State) (r : BitVec 5) (v : Word) : (s.setX r v).task.windows = s.task.windows := by
  rw [State.setX_task]
@[simp] theorem State.setX_task_streams (s : State) (r : BitVec 5) (v : Word) : (s.setX r v).task.streams = s.task.streams := by
  rw [State.setX_task]
@[simp] theorem State.setX_task_copies (s : State) (r : BitVec 5) (v : Word) : (s.setX r v).task.copies = s.task.copies := by
  rw [State.setX_task]
@[simp] theorem State.setX_task_slots (s : State) (r : BitVec 5) (v : Word) : (s.setX r v).task.slots = s.task.slots := by
  rw [State.setX_task]
@[simp] theorem State.setX_task_before (s : State) (r : BitVec 5) (v : Word) : (s.setX r v).task.before = s.task.before := by
  rw [State.setX_task]
@[simp] theorem State.setX_task_segment (s : State) (r : BitVec 5) (v : Word) : (s.setX r v).task.segment = s.task.segment := by
  rw [State.setX_task]
@[simp] theorem State.setX_task_wset (s : State) (r : BitVec 5) (v : Word) : (s.setX r v).task.wset = s.task.wset := by
  rw [State.setX_task]
@[simp] theorem State.setX_task_second (s : State) (r : BitVec 5) (v : Word) : (s.setX r v).task.second = s.task.second := by
  rw [State.setX_task]
@[simp] theorem State.setX_task_heldAppend (s : State) (r : BitVec 5) (v : Word) : (s.setX r v).task.heldAppend = s.task.heldAppend := by
  rw [State.setX_task]
@[simp] theorem State.setX_task_aqueue (s : State) (r : BitVec 5) (v : Word) : (s.setX r v).task.aqueue = s.task.aqueue := by
  rw [State.setX_task]
@[simp] theorem State.setX_task_entrySave (s : State) (r : BitVec 5) (v : Word) : (s.setX r v).task.entrySave = s.task.entrySave := by
  rw [State.setX_task]
@[simp] theorem State.setX_task_spawned (s : State) (r : BitVec 5) (v : Word) : (s.setX r v).task.spawned = s.task.spawned := by
  rw [State.setX_task]
@[simp] theorem State.setX_task_spawnCount (s : State) (r : BitVec 5) (v : Word) : (s.setX r v).task.spawnCount = s.task.spawnCount := by
  rw [State.setX_task]
@[simp] theorem State.setX_task_fseq (s : State) (r : BitVec 5) (v : Word) : (s.setX r v).task.fseq = s.task.fseq := by
  rw [State.setX_task]
@[simp] theorem State.setX_task_frec (s : State) (r : BitVec 5) (v : Word) : (s.setX r v).task.frec = s.task.frec := by
  rw [State.setX_task]
@[simp] theorem State.setX_task_servicing (s : State) (r : BitVec 5) (v : Word) : (s.setX r v).task.servicing = s.task.servicing := by
  rw [State.setX_task]
@[simp] theorem State.setX_task_vPoison (s : State) (r : BitVec 5) (v : Word) : (s.setX r v).task.vPoison = s.task.vPoison := by
  rw [State.setX_task]
@[simp] theorem State.setX_task_mPoison (s : State) (r : BitVec 5) (v : Word) : (s.setX r v).task.mPoison = s.task.mPoison := by
  rw [State.setX_task]
@[simp] theorem State.setX_task_latent (s : State) (r : BitVec 5) (v : Word) : (s.setX r v).task.latent = s.task.latent := by
  rw [State.setX_task]
@[simp] theorem State.setX_task_h2Unread (s : State) (r : BitVec 5) (v : Word) : (s.setX r v).task.h2Unread = s.task.h2Unread := by
  rw [State.setX_task]
@[simp] theorem State.setX_task_progressAt (s : State) (r : BitVec 5) (v : Word) : (s.setX r v).task.progressAt = s.task.progressAt := by
  rw [State.setX_task]
@[simp] theorem State.setX_task_away (s : State) (r : BitVec 5) (v : Word) : (s.setX r v).task.away = s.task.away := by
  rw [State.setX_task]
@[simp] theorem State.setX_task_runTime (s : State) (r : BitVec 5) (v : Word) : (s.setX r v).task.runTime = s.task.runTime := by
  rw [State.setX_task]
@[simp] theorem State.setX_task_runSince (s : State) (r : BitVec 5) (v : Word) : (s.setX r v).task.runSince = s.task.runSince := by
  rw [State.setX_task]
@[simp] theorem State.setX_task_startAt (s : State) (r : BitVec 5) (v : Word) : (s.setX r v).task.startAt = s.task.startAt := by
  rw [State.setX_task]
@[simp] theorem State.setX_task_dispatched (s : State) (r : BitVec 5) (v : Word) : (s.setX r v).task.dispatched = s.task.dispatched := by
  rw [State.setX_task]
@[simp] theorem State.setX_task_stopAsked (s : State) (r : BitVec 5) (v : Word) : (s.setX r v).task.stopAsked = s.task.stopAsked := by
  rw [State.setX_task]
@[simp] theorem State.setX_task_image (s : State) (r : BitVec 5) (v : Word) : (s.setX r v).task.image = s.task.image := by
  rw [State.setX_task]

@[simp] theorem Task.moveLane_status (t : Task) (e off : Nat) : (t.moveLane e off).status = t.status := by
  simp only [Task.moveLane]; split <;> rfl
@[simp] theorem Task.moveLane_id (t : Task) (e off : Nat) : (t.moveLane e off).id = t.id := by
  simp only [Task.moveLane]; split <;> rfl
@[simp] theorem Task.moveLane_x (t : Task) (e off : Nat) : (t.moveLane e off).x = t.x := by
  simp only [Task.moveLane]; split <;> rfl
@[simp] theorem Task.moveLane_pc (t : Task) (e off : Nat) : (t.moveLane e off).pc = t.pc := by
  simp only [Task.moveLane]; split <;> rfl
@[simp] theorem Task.moveLane_resv (t : Task) (e off : Nat) : (t.moveLane e off).resv = t.resv := by
  simp only [Task.moveLane]; split <;> rfl
@[simp] theorem Task.moveLane_instret (t : Task) (e off : Nat) : (t.moveLane e off).instret = t.instret := by
  simp only [Task.moveLane]; split <;> rfl
@[simp] theorem Task.moveLane_fold (t : Task) (e off : Nat) : (t.moveLane e off).fold = t.fold := by
  simp only [Task.moveLane]; split <;> rfl
@[simp] theorem Task.moveLane_foldPending (t : Task) (e off : Nat) : (t.moveLane e off).foldPending = t.foldPending := by
  simp only [Task.moveLane]; split <;> rfl
@[simp] theorem Task.moveLane_vcfg (t : Task) (e off : Nat) : (t.moveLane e off).vcfg = t.vcfg := by
  simp only [Task.moveLane]; split <;> rfl
@[simp] theorem Task.moveLane_vl (t : Task) (e off : Nat) : (t.moveLane e off).vl = t.vl := by
  simp only [Task.moveLane]; split <;> rfl
@[simp] theorem Task.moveLane_vstart (t : Task) (e off : Nat) : (t.moveLane e off).vstart = t.vstart := by
  simp only [Task.moveLane]; split <;> rfl
@[simp] theorem Task.moveLane_v (t : Task) (e off : Nat) : (t.moveLane e off).v = t.v := by
  simp only [Task.moveLane]; split <;> rfl
@[simp] theorem Task.moveLane_rngpos (t : Task) (e off : Nat) : (t.moveLane e off).rngpos = t.rngpos := by
  simp only [Task.moveLane]; split <;> rfl
@[simp] theorem Task.moveLane_srcount (t : Task) (e off : Nat) : (t.moveLane e off).srcount = t.srcount := by
  simp only [Task.moveLane]; split <;> rfl
@[simp] theorem Task.moveLane_fl (t : Task) (e off : Nat) : (t.moveLane e off).fl = t.fl := by
  simp only [Task.moveLane]; split <;> rfl
@[simp] theorem Task.moveLane_m (t : Task) (e off : Nat) : (t.moveLane e off).m = t.m := by
  simp only [Task.moveLane]; split <;> rfl
@[simp] theorem Task.moveLane_mshape (t : Task) (e off : Nat) : (t.moveLane e off).mshape = t.mshape := by
  simp only [Task.moveLane]; split <;> rfl
@[simp] theorem Task.moveLane_mcfg (t : Task) (e off : Nat) : (t.moveLane e off).mcfg = t.mcfg := by
  simp only [Task.moveLane]; split <;> rfl
@[simp] theorem Task.moveLane_astat (t : Task) (e off : Nat) : (t.moveLane e off).astat = t.astat := by
  simp only [Task.moveLane]; split <;> rfl
@[simp] theorem Task.moveLane_vq (t : Task) (e off : Nat) : (t.moveLane e off).vq = t.vq := by
  simp only [Task.moveLane]; split <;> rfl
@[simp] theorem Task.moveLane_block (t : Task) (e off : Nat) : (t.moveLane e off).block = t.block := by
  simp only [Task.moveLane]; split <;> rfl
@[simp] theorem Task.moveLane_nextSerial (t : Task) (e off : Nat) : (t.moveLane e off).nextSerial = t.nextSerial := by
  simp only [Task.moveLane]; split <;> rfl
@[simp] theorem Task.moveLane_replies (t : Task) (e off : Nat) : (t.moveLane e off).replies = t.replies := by
  simp only [Task.moveLane]; split <;> rfl
@[simp] theorem Task.moveLane_windows (t : Task) (e off : Nat) : (t.moveLane e off).windows = t.windows := by
  simp only [Task.moveLane]; split <;> rfl
@[simp] theorem Task.moveLane_streams (t : Task) (e off : Nat) : (t.moveLane e off).streams = t.streams := by
  simp only [Task.moveLane]; split <;> rfl
@[simp] theorem Task.moveLane_copies (t : Task) (e off : Nat) : (t.moveLane e off).copies = t.copies := by
  simp only [Task.moveLane]; split <;> rfl
@[simp] theorem Task.moveLane_slots (t : Task) (e off : Nat) : (t.moveLane e off).slots = t.slots := by
  simp only [Task.moveLane]; split <;> rfl
@[simp] theorem Task.moveLane_before (t : Task) (e off : Nat) : (t.moveLane e off).before = t.before := by
  simp only [Task.moveLane]; split <;> rfl
@[simp] theorem Task.moveLane_segment (t : Task) (e off : Nat) : (t.moveLane e off).segment = t.segment := by
  simp only [Task.moveLane]; split <;> rfl
@[simp] theorem Task.moveLane_wset (t : Task) (e off : Nat) : (t.moveLane e off).wset = t.wset := by
  simp only [Task.moveLane]; split <;> rfl
@[simp] theorem Task.moveLane_second (t : Task) (e off : Nat) : (t.moveLane e off).second = t.second := by
  simp only [Task.moveLane]; split <;> rfl
@[simp] theorem Task.moveLane_heldAppend (t : Task) (e off : Nat) : (t.moveLane e off).heldAppend = t.heldAppend := by
  simp only [Task.moveLane]; split <;> rfl
@[simp] theorem Task.moveLane_aqueue (t : Task) (e off : Nat) : (t.moveLane e off).aqueue = t.aqueue := by
  simp only [Task.moveLane]; split <;> rfl
@[simp] theorem Task.moveLane_entrySave (t : Task) (e off : Nat) : (t.moveLane e off).entrySave = t.entrySave := by
  simp only [Task.moveLane]; split <;> rfl
@[simp] theorem Task.moveLane_spawned (t : Task) (e off : Nat) : (t.moveLane e off).spawned = t.spawned := by
  simp only [Task.moveLane]; split <;> rfl
@[simp] theorem Task.moveLane_spawnCount (t : Task) (e off : Nat) : (t.moveLane e off).spawnCount = t.spawnCount := by
  simp only [Task.moveLane]; split <;> rfl
@[simp] theorem Task.moveLane_fseq (t : Task) (e off : Nat) : (t.moveLane e off).fseq = t.fseq := by
  simp only [Task.moveLane]; split <;> rfl
@[simp] theorem Task.moveLane_frec (t : Task) (e off : Nat) : (t.moveLane e off).frec = t.frec := by
  simp only [Task.moveLane]; split <;> rfl
@[simp] theorem Task.moveLane_servicing (t : Task) (e off : Nat) : (t.moveLane e off).servicing = t.servicing := by
  simp only [Task.moveLane]; split <;> rfl
@[simp] theorem Task.moveLane_xPoison (t : Task) (e off : Nat) : (t.moveLane e off).xPoison = t.xPoison := by
  simp only [Task.moveLane]; split <;> rfl
@[simp] theorem Task.moveLane_vPoison (t : Task) (e off : Nat) : (t.moveLane e off).vPoison = t.vPoison := by
  simp only [Task.moveLane]; split <;> rfl
@[simp] theorem Task.moveLane_mPoison (t : Task) (e off : Nat) : (t.moveLane e off).mPoison = t.mPoison := by
  simp only [Task.moveLane]; split <;> rfl
@[simp] theorem Task.moveLane_latent (t : Task) (e off : Nat) : (t.moveLane e off).latent = t.latent := by
  simp only [Task.moveLane]; split <;> rfl
@[simp] theorem Task.moveLane_h2Unread (t : Task) (e off : Nat) : (t.moveLane e off).h2Unread = t.h2Unread := by
  simp only [Task.moveLane]; split <;> rfl
@[simp] theorem Task.moveLane_progressAt (t : Task) (e off : Nat) : (t.moveLane e off).progressAt = t.progressAt := by
  simp only [Task.moveLane]; split <;> rfl
@[simp] theorem Task.moveLane_away (t : Task) (e off : Nat) : (t.moveLane e off).away = t.away := by
  simp only [Task.moveLane]; split <;> rfl
@[simp] theorem Task.moveLane_runTime (t : Task) (e off : Nat) : (t.moveLane e off).runTime = t.runTime := by
  simp only [Task.moveLane]; split <;> rfl
@[simp] theorem Task.moveLane_runSince (t : Task) (e off : Nat) : (t.moveLane e off).runSince = t.runSince := by
  simp only [Task.moveLane]; split <;> rfl
@[simp] theorem Task.moveLane_startAt (t : Task) (e off : Nat) : (t.moveLane e off).startAt = t.startAt := by
  simp only [Task.moveLane]; split <;> rfl
@[simp] theorem Task.moveLane_dispatched (t : Task) (e off : Nat) : (t.moveLane e off).dispatched = t.dispatched := by
  simp only [Task.moveLane]; split <;> rfl
@[simp] theorem Task.moveLane_stopAsked (t : Task) (e off : Nat) : (t.moveLane e off).stopAsked = t.stopAsked := by
  simp only [Task.moveLane]; split <;> rfl
@[simp] theorem Task.moveLane_image (t : Task) (e off : Nat) : (t.moveLane e off).image = t.image := by
  simp only [Task.moveLane]; split <;> rfl

@[simp] theorem Task.freeDead_status (t : Task) (h : BitVec 32) : (t.freeDead h).status = t.status := by
  simp only [Task.freeDead]; split <;> rfl
@[simp] theorem Task.freeDead_id (t : Task) (h : BitVec 32) : (t.freeDead h).id = t.id := by
  simp only [Task.freeDead]; split <;> rfl
@[simp] theorem Task.freeDead_x (t : Task) (h : BitVec 32) : (t.freeDead h).x = t.x := by
  simp only [Task.freeDead]; split <;> rfl
@[simp] theorem Task.freeDead_pc (t : Task) (h : BitVec 32) : (t.freeDead h).pc = t.pc := by
  simp only [Task.freeDead]; split <;> rfl
@[simp] theorem Task.freeDead_resv (t : Task) (h : BitVec 32) : (t.freeDead h).resv = t.resv := by
  simp only [Task.freeDead]; split <;> rfl
@[simp] theorem Task.freeDead_instret (t : Task) (h : BitVec 32) : (t.freeDead h).instret = t.instret := by
  simp only [Task.freeDead]; split <;> rfl
@[simp] theorem Task.freeDead_fold (t : Task) (h : BitVec 32) : (t.freeDead h).fold = t.fold := by
  simp only [Task.freeDead]; split <;> rfl
@[simp] theorem Task.freeDead_foldPending (t : Task) (h : BitVec 32) : (t.freeDead h).foldPending = t.foldPending := by
  simp only [Task.freeDead]; split <;> rfl
@[simp] theorem Task.freeDead_vcfg (t : Task) (h : BitVec 32) : (t.freeDead h).vcfg = t.vcfg := by
  simp only [Task.freeDead]; split <;> rfl
@[simp] theorem Task.freeDead_vl (t : Task) (h : BitVec 32) : (t.freeDead h).vl = t.vl := by
  simp only [Task.freeDead]; split <;> rfl
@[simp] theorem Task.freeDead_vstart (t : Task) (h : BitVec 32) : (t.freeDead h).vstart = t.vstart := by
  simp only [Task.freeDead]; split <;> rfl
@[simp] theorem Task.freeDead_rngpos (t : Task) (h : BitVec 32) : (t.freeDead h).rngpos = t.rngpos := by
  simp only [Task.freeDead]; split <;> rfl
@[simp] theorem Task.freeDead_srcount (t : Task) (h : BitVec 32) : (t.freeDead h).srcount = t.srcount := by
  simp only [Task.freeDead]; split <;> rfl
@[simp] theorem Task.freeDead_fl (t : Task) (h : BitVec 32) : (t.freeDead h).fl = t.fl := by
  simp only [Task.freeDead]; split <;> rfl
@[simp] theorem Task.freeDead_m (t : Task) (h : BitVec 32) : (t.freeDead h).m = t.m := by
  simp only [Task.freeDead]; split <;> rfl
@[simp] theorem Task.freeDead_mshape (t : Task) (h : BitVec 32) : (t.freeDead h).mshape = t.mshape := by
  simp only [Task.freeDead]; split <;> rfl
@[simp] theorem Task.freeDead_mcfg (t : Task) (h : BitVec 32) : (t.freeDead h).mcfg = t.mcfg := by
  simp only [Task.freeDead]; split <;> rfl
@[simp] theorem Task.freeDead_astat (t : Task) (h : BitVec 32) : (t.freeDead h).astat = t.astat := by
  simp only [Task.freeDead]; split <;> rfl
@[simp] theorem Task.freeDead_vq (t : Task) (h : BitVec 32) : (t.freeDead h).vq = t.vq := by
  simp only [Task.freeDead]; split <;> rfl
@[simp] theorem Task.freeDead_block (t : Task) (h : BitVec 32) : (t.freeDead h).block = t.block := by
  simp only [Task.freeDead]; split <;> rfl
@[simp] theorem Task.freeDead_nextSerial (t : Task) (h : BitVec 32) : (t.freeDead h).nextSerial = t.nextSerial := by
  simp only [Task.freeDead]; split <;> rfl
@[simp] theorem Task.freeDead_replies (t : Task) (h : BitVec 32) : (t.freeDead h).replies = t.replies := by
  simp only [Task.freeDead]; split <;> rfl
@[simp] theorem Task.freeDead_split (t : Task) (h : BitVec 32) : (t.freeDead h).split = t.split := by
  simp only [Task.freeDead]; split <;> rfl
@[simp] theorem Task.freeDead_windows (t : Task) (h : BitVec 32) : (t.freeDead h).windows = t.windows := by
  simp only [Task.freeDead]; split <;> rfl
@[simp] theorem Task.freeDead_streams (t : Task) (h : BitVec 32) : (t.freeDead h).streams = t.streams := by
  simp only [Task.freeDead]; split <;> rfl
@[simp] theorem Task.freeDead_copies (t : Task) (h : BitVec 32) : (t.freeDead h).copies = t.copies := by
  simp only [Task.freeDead]; split <;> rfl
@[simp] theorem Task.freeDead_slots (t : Task) (h : BitVec 32) : (t.freeDead h).slots = t.slots := by
  simp only [Task.freeDead]; split <;> rfl
@[simp] theorem Task.freeDead_before (t : Task) (h : BitVec 32) : (t.freeDead h).before = t.before := by
  simp only [Task.freeDead]; split <;> rfl
@[simp] theorem Task.freeDead_segment (t : Task) (h : BitVec 32) : (t.freeDead h).segment = t.segment := by
  simp only [Task.freeDead]; split <;> rfl
@[simp] theorem Task.freeDead_wset (t : Task) (h : BitVec 32) : (t.freeDead h).wset = t.wset := by
  simp only [Task.freeDead]; split <;> rfl
@[simp] theorem Task.freeDead_second (t : Task) (h : BitVec 32) : (t.freeDead h).second = t.second := by
  simp only [Task.freeDead]; split <;> rfl
@[simp] theorem Task.freeDead_heldAppend (t : Task) (h : BitVec 32) : (t.freeDead h).heldAppend = t.heldAppend := by
  simp only [Task.freeDead]; split <;> rfl
@[simp] theorem Task.freeDead_aqueue (t : Task) (h : BitVec 32) : (t.freeDead h).aqueue = t.aqueue := by
  simp only [Task.freeDead]; split <;> rfl
@[simp] theorem Task.freeDead_entrySave (t : Task) (h : BitVec 32) : (t.freeDead h).entrySave = t.entrySave := by
  simp only [Task.freeDead]; split <;> rfl
@[simp] theorem Task.freeDead_spawned (t : Task) (h : BitVec 32) : (t.freeDead h).spawned = t.spawned := by
  simp only [Task.freeDead]; split <;> rfl
@[simp] theorem Task.freeDead_spawnCount (t : Task) (h : BitVec 32) : (t.freeDead h).spawnCount = t.spawnCount := by
  simp only [Task.freeDead]; split <;> rfl
@[simp] theorem Task.freeDead_fseq (t : Task) (h : BitVec 32) : (t.freeDead h).fseq = t.fseq := by
  simp only [Task.freeDead]; split <;> rfl
@[simp] theorem Task.freeDead_frec (t : Task) (h : BitVec 32) : (t.freeDead h).frec = t.frec := by
  simp only [Task.freeDead]; split <;> rfl
@[simp] theorem Task.freeDead_servicing (t : Task) (h : BitVec 32) : (t.freeDead h).servicing = t.servicing := by
  simp only [Task.freeDead]; split <;> rfl
@[simp] theorem Task.freeDead_xPoison (t : Task) (h : BitVec 32) : (t.freeDead h).xPoison = t.xPoison := by
  simp only [Task.freeDead]; split <;> rfl
@[simp] theorem Task.freeDead_mPoison (t : Task) (h : BitVec 32) : (t.freeDead h).mPoison = t.mPoison := by
  simp only [Task.freeDead]; split <;> rfl
@[simp] theorem Task.freeDead_latent (t : Task) (h : BitVec 32) : (t.freeDead h).latent = t.latent := by
  simp only [Task.freeDead]; split <;> rfl
@[simp] theorem Task.freeDead_h2Unread (t : Task) (h : BitVec 32) : (t.freeDead h).h2Unread = t.h2Unread := by
  simp only [Task.freeDead]; split <;> rfl
@[simp] theorem Task.freeDead_progressAt (t : Task) (h : BitVec 32) : (t.freeDead h).progressAt = t.progressAt := by
  simp only [Task.freeDead]; split <;> rfl
@[simp] theorem Task.freeDead_away (t : Task) (h : BitVec 32) : (t.freeDead h).away = t.away := by
  simp only [Task.freeDead]; split <;> rfl
@[simp] theorem Task.freeDead_runTime (t : Task) (h : BitVec 32) : (t.freeDead h).runTime = t.runTime := by
  simp only [Task.freeDead]; split <;> rfl
@[simp] theorem Task.freeDead_runSince (t : Task) (h : BitVec 32) : (t.freeDead h).runSince = t.runSince := by
  simp only [Task.freeDead]; split <;> rfl
@[simp] theorem Task.freeDead_startAt (t : Task) (h : BitVec 32) : (t.freeDead h).startAt = t.startAt := by
  simp only [Task.freeDead]; split <;> rfl
@[simp] theorem Task.freeDead_dispatched (t : Task) (h : BitVec 32) : (t.freeDead h).dispatched = t.dispatched := by
  simp only [Task.freeDead]; split <;> rfl
@[simp] theorem Task.freeDead_stopAsked (t : Task) (h : BitVec 32) : (t.freeDead h).stopAsked = t.stopAsked := by
  simp only [Task.freeDead]; split <;> rfl
@[simp] theorem Task.freeDead_image (t : Task) (h : BitVec 32) : (t.freeDead h).image = t.image := by
  simp only [Task.freeDead]; split <;> rfl

@[simp] theorem Task.moveVector_status (t : Task) (off : Nat) : (t.moveVector off).status = t.status := by
  simp only [Task.moveVector]; split
  · rfl
  · split <;> simp
@[simp] theorem Task.moveVector_id (t : Task) (off : Nat) : (t.moveVector off).id = t.id := by
  simp only [Task.moveVector]; split
  · rfl
  · split <;> simp
@[simp] theorem Task.moveVector_x (t : Task) (off : Nat) : (t.moveVector off).x = t.x := by
  simp only [Task.moveVector]; split
  · rfl
  · split <;> simp
@[simp] theorem Task.moveVector_pc (t : Task) (off : Nat) : (t.moveVector off).pc = t.pc := by
  simp only [Task.moveVector]; split
  · rfl
  · split <;> simp
@[simp] theorem Task.moveVector_resv (t : Task) (off : Nat) : (t.moveVector off).resv = t.resv := by
  simp only [Task.moveVector]; split
  · rfl
  · split <;> simp
@[simp] theorem Task.moveVector_instret (t : Task) (off : Nat) : (t.moveVector off).instret = t.instret := by
  simp only [Task.moveVector]; split
  · rfl
  · split <;> simp
@[simp] theorem Task.moveVector_fold (t : Task) (off : Nat) : (t.moveVector off).fold = t.fold := by
  simp only [Task.moveVector]; split
  · rfl
  · split <;> simp
@[simp] theorem Task.moveVector_foldPending (t : Task) (off : Nat) : (t.moveVector off).foldPending = t.foldPending := by
  simp only [Task.moveVector]; split
  · rfl
  · split <;> simp
@[simp] theorem Task.moveVector_vcfg (t : Task) (off : Nat) : (t.moveVector off).vcfg = t.vcfg := by
  simp only [Task.moveVector]; split
  · rfl
  · split <;> simp
@[simp] theorem Task.moveVector_vl (t : Task) (off : Nat) : (t.moveVector off).vl = t.vl := by
  simp only [Task.moveVector]; split
  · rfl
  · split <;> simp
@[simp] theorem Task.moveVector_rngpos (t : Task) (off : Nat) : (t.moveVector off).rngpos = t.rngpos := by
  simp only [Task.moveVector]; split
  · rfl
  · split <;> simp
@[simp] theorem Task.moveVector_srcount (t : Task) (off : Nat) : (t.moveVector off).srcount = t.srcount := by
  simp only [Task.moveVector]; split
  · rfl
  · split <;> simp
@[simp] theorem Task.moveVector_fl (t : Task) (off : Nat) : (t.moveVector off).fl = t.fl := by
  simp only [Task.moveVector]; split
  · rfl
  · split <;> simp
@[simp] theorem Task.moveVector_m (t : Task) (off : Nat) : (t.moveVector off).m = t.m := by
  simp only [Task.moveVector]; split
  · rfl
  · split <;> simp
@[simp] theorem Task.moveVector_mshape (t : Task) (off : Nat) : (t.moveVector off).mshape = t.mshape := by
  simp only [Task.moveVector]; split
  · rfl
  · split <;> simp
@[simp] theorem Task.moveVector_mcfg (t : Task) (off : Nat) : (t.moveVector off).mcfg = t.mcfg := by
  simp only [Task.moveVector]; split
  · rfl
  · split <;> simp
@[simp] theorem Task.moveVector_astat (t : Task) (off : Nat) : (t.moveVector off).astat = t.astat := by
  simp only [Task.moveVector]; split
  · rfl
  · split <;> simp
@[simp] theorem Task.moveVector_vq (t : Task) (off : Nat) : (t.moveVector off).vq = t.vq := by
  simp only [Task.moveVector]; split
  · rfl
  · split <;> simp
@[simp] theorem Task.moveVector_nextSerial (t : Task) (off : Nat) : (t.moveVector off).nextSerial = t.nextSerial := by
  simp only [Task.moveVector]; split
  · rfl
  · split <;> simp
@[simp] theorem Task.moveVector_replies (t : Task) (off : Nat) : (t.moveVector off).replies = t.replies := by
  simp only [Task.moveVector]; split
  · rfl
  · split <;> simp
@[simp] theorem Task.moveVector_split (t : Task) (off : Nat) : (t.moveVector off).split = t.split := by
  simp only [Task.moveVector]; split
  · rfl
  · split <;> simp
@[simp] theorem Task.moveVector_windows (t : Task) (off : Nat) : (t.moveVector off).windows = t.windows := by
  simp only [Task.moveVector]; split
  · rfl
  · split <;> simp
@[simp] theorem Task.moveVector_streams (t : Task) (off : Nat) : (t.moveVector off).streams = t.streams := by
  simp only [Task.moveVector]; split
  · rfl
  · split <;> simp
@[simp] theorem Task.moveVector_copies (t : Task) (off : Nat) : (t.moveVector off).copies = t.copies := by
  simp only [Task.moveVector]; split
  · rfl
  · split <;> simp
@[simp] theorem Task.moveVector_slots (t : Task) (off : Nat) : (t.moveVector off).slots = t.slots := by
  simp only [Task.moveVector]; split
  · rfl
  · split <;> simp
@[simp] theorem Task.moveVector_before (t : Task) (off : Nat) : (t.moveVector off).before = t.before := by
  simp only [Task.moveVector]; split
  · rfl
  · split <;> simp
@[simp] theorem Task.moveVector_segment (t : Task) (off : Nat) : (t.moveVector off).segment = t.segment := by
  simp only [Task.moveVector]; split
  · rfl
  · split <;> simp
@[simp] theorem Task.moveVector_wset (t : Task) (off : Nat) : (t.moveVector off).wset = t.wset := by
  simp only [Task.moveVector]; split
  · rfl
  · split <;> simp
@[simp] theorem Task.moveVector_second (t : Task) (off : Nat) : (t.moveVector off).second = t.second := by
  simp only [Task.moveVector]; split
  · rfl
  · split <;> simp
@[simp] theorem Task.moveVector_heldAppend (t : Task) (off : Nat) : (t.moveVector off).heldAppend = t.heldAppend := by
  simp only [Task.moveVector]; split
  · rfl
  · split <;> simp
@[simp] theorem Task.moveVector_aqueue (t : Task) (off : Nat) : (t.moveVector off).aqueue = t.aqueue := by
  simp only [Task.moveVector]; split
  · rfl
  · split <;> simp
@[simp] theorem Task.moveVector_entrySave (t : Task) (off : Nat) : (t.moveVector off).entrySave = t.entrySave := by
  simp only [Task.moveVector]; split
  · rfl
  · split <;> simp
@[simp] theorem Task.moveVector_spawned (t : Task) (off : Nat) : (t.moveVector off).spawned = t.spawned := by
  simp only [Task.moveVector]; split
  · rfl
  · split <;> simp
@[simp] theorem Task.moveVector_spawnCount (t : Task) (off : Nat) : (t.moveVector off).spawnCount = t.spawnCount := by
  simp only [Task.moveVector]; split
  · rfl
  · split <;> simp
@[simp] theorem Task.moveVector_fseq (t : Task) (off : Nat) : (t.moveVector off).fseq = t.fseq := by
  simp only [Task.moveVector]; split
  · rfl
  · split <;> simp
@[simp] theorem Task.moveVector_frec (t : Task) (off : Nat) : (t.moveVector off).frec = t.frec := by
  simp only [Task.moveVector]; split
  · rfl
  · split <;> simp
@[simp] theorem Task.moveVector_servicing (t : Task) (off : Nat) : (t.moveVector off).servicing = t.servicing := by
  simp only [Task.moveVector]; split
  · rfl
  · split <;> simp
@[simp] theorem Task.moveVector_xPoison (t : Task) (off : Nat) : (t.moveVector off).xPoison = t.xPoison := by
  simp only [Task.moveVector]; split
  · rfl
  · split <;> simp
@[simp] theorem Task.moveVector_mPoison (t : Task) (off : Nat) : (t.moveVector off).mPoison = t.mPoison := by
  simp only [Task.moveVector]; split
  · rfl
  · split <;> simp
@[simp] theorem Task.moveVector_latent (t : Task) (off : Nat) : (t.moveVector off).latent = t.latent := by
  simp only [Task.moveVector]; split
  · rfl
  · split <;> simp
@[simp] theorem Task.moveVector_h2Unread (t : Task) (off : Nat) : (t.moveVector off).h2Unread = t.h2Unread := by
  simp only [Task.moveVector]; split
  · rfl
  · split <;> simp
@[simp] theorem Task.moveVector_progressAt (t : Task) (off : Nat) : (t.moveVector off).progressAt = t.progressAt := by
  simp only [Task.moveVector]; split
  · rfl
  · split <;> simp
@[simp] theorem Task.moveVector_away (t : Task) (off : Nat) : (t.moveVector off).away = t.away := by
  simp only [Task.moveVector]; split
  · rfl
  · split <;> simp
@[simp] theorem Task.moveVector_runTime (t : Task) (off : Nat) : (t.moveVector off).runTime = t.runTime := by
  simp only [Task.moveVector]; split
  · rfl
  · split <;> simp
@[simp] theorem Task.moveVector_runSince (t : Task) (off : Nat) : (t.moveVector off).runSince = t.runSince := by
  simp only [Task.moveVector]; split
  · rfl
  · split <;> simp
@[simp] theorem Task.moveVector_startAt (t : Task) (off : Nat) : (t.moveVector off).startAt = t.startAt := by
  simp only [Task.moveVector]; split
  · rfl
  · split <;> simp
@[simp] theorem Task.moveVector_dispatched (t : Task) (off : Nat) : (t.moveVector off).dispatched = t.dispatched := by
  simp only [Task.moveVector]; split
  · rfl
  · split <;> simp
@[simp] theorem Task.moveVector_stopAsked (t : Task) (off : Nat) : (t.moveVector off).stopAsked = t.stopAsked := by
  simp only [Task.moveVector]; split
  · rfl
  · split <;> simp
@[simp] theorem Task.moveVector_image (t : Task) (off : Nat) : (t.moveVector off).image = t.image := by
  simp only [Task.moveVector]; split
  · rfl
  · split <;> simp

end Sys2Proof.Machine
end

