-- ==== Sys2Proof/Laws/Words.lean ====
section
/-! SUPPORT. What the operations that every word shares come to where a word issues undisturbed: one lemma for each. -/

namespace Sys2Proof.Machine

/-! ## Issue -/

theorem State.issue_of (s : State) (a : Attr) (k : State → Act) (h : s.mayIssue a = true) :
    s.issue a true k = (k s).outcome := by
  simp [State.issue, h]

/-- A word out of its place raises 0x01 (R95). -/
theorem State.issue_bad (s : State) (a : Attr) (wf : Bool) (k : State → Act) (h : s.mayIssue a = false) :
    s.issue a wf k = .next (s.takeFault illegal) := by
  simp [State.issue, h, Act.outcome]

/-- Ill-formed fields raise 0x01 (R94). -/
theorem State.issue_illFormed (s : State) (a : Attr) (k : State → Act) :
    s.issue a false k = .next (s.takeFault illegal) := by
  simp [State.issue, Act.outcome]

theorem State.AtControl.issue {s : State} (h : s.AtControl) (k : State → Act) : s.issue .c true k = (k s).outcome :=
  s.issue_of .c k (by simp [State.mayIssue, h.party])

theorem State.AtControl.issueCb {s : State} (h : s.AtControl) (k : State → Act) : s.issue .cb true k = (k s).outcome :=
  s.issue_of .cb k (by simp [State.mayIssue, h.party])

theorem State.AtBlock.issue {s : State} {b : Block} (h : s.AtBlock b) (k : State → Act) :
    s.issue .b true k = (k s).outcome := s.issue_of .b k (by simp [State.mayIssue, h.party])

theorem State.AtBlock.issueL {s : State} {b : Block} (h : s.AtBlock b) (k : State → Act) :
    s.issue .l true k = (k s).outcome := s.issue_of .l k (by simp [State.mayIssue, h.party])

theorem State.AtBlock.issueCb {s : State} {b : Block} (h : s.AtBlock b) (k : State → Act) :
    s.issue .cb true k = (k s).outcome := s.issue_of .cb k (by simp [State.mayIssue, h.party])

theorem State.AtWord.issue {s : State} {b : Block} (h : s.AtWord b) (k : State → Act) :
    s.issue .l true k = (k s).outcome := by
  refine s.issue_of .l k ?_
  rcases h.party with p | ⟨e, p⟩ <;> simp [State.mayIssue, p]

theorem State.AtBlock.word {s : State} {b : Block} (h : s.AtBlock b) : s.AtWord b := ⟨.inl h.party, h.runs⟩

/-! ## Moving on -/

theorem State.advance_control {s : State} (h : s.cur = .control) : s.advance =
    { s with task := { s.task with pc := s.task.pc + 4, instret := s.task.instret + 1, progressAt := s.micros } } := by
  simp [State.advance, h]

/-- A word of the block's own moves the vector unit on in the block (R118). -/
theorem Task.passVector_own {t : Task} (h : t.entrySave = none) (off : Nat) : t.passVector off = t.moveVector off := by
  simp [Task.passVector, h]

/-- A word of the block's own has put nothing aside. -/
theorem Task.leaveEntry_own {t : Task} (h : t.entrySave = none) : t.leaveEntry = t := by simp [Task.leaveEntry, h]

theorem State.advance_vector {s : State} (h : s.cur = .vector) (o : s.task.entrySave = none) : s.advance =
    { s with task := { s.task.moveVector (s.offset + 1) with progressAt := s.micros } } := by
  simp [State.advance, h, Task.passVector_own o]

theorem State.advance_lane {s : State} {e : Nat} (h : s.cur = .lane e) : s.advance =
    { s with task := { s.task.moveLane e (s.offset + 1) with progressAt := s.micros } } := by
  simp [State.advance, h]

theorem Task.moveVector_on {t : Task} {b : Block} (h : t.block = some b) {off : Nat} (ho : off < b.len) :
    t.moveVector off = { t with block := some { b with off := off }, vstart := 0 } := by
  simp [Task.moveVector, h, ho]

theorem Task.moveVector_end {t : Task} {b : Block} (h : t.block = some b) {off : Nat} (ho : b.len ≤ off) :
    t.moveVector off = { t.freeDead b.h2 with block := none, vstart := 0 } := by
  simp [Task.moveVector, h, Nat.not_lt.mpr ho]

/-- A dead mask frees registers in renamed mode alone (R118). -/
theorem Task.freeDead_v (t : Task) (h2 : BitVec 32) (r : Fin 32) :
    (t.freeDead h2).v[r] = if t.fold = 1 ∧ h2.getLsbD r.val = true then 0 else t.v[r] := by
  unfold Task.freeDead
  by_cases h : t.fold = 1 <;> simp [h]

/-! ## Scalars -/

theorem State.AtControl.notBad {s : State} (h : s.AtControl) (rs : List (BitVec 5)) : s.xBad rs = false := by
  simp [State.xBad, State.xPoison, h.party, h.clean]

theorem State.AtControl.needX {s : State} (h : s.AtControl) (rs ws : List (BitVec 5)) (k : State → Act) :
    s.needX rs ws k = k s := by
  simp [State.needX, h.party, h.notBad]

theorem State.AtWord.notBad {s : State} {b : Block} (h : s.AtWord b) (rs : List (BitVec 5)) : s.xBad rs = false := by
  rcases h.party with p | ⟨e, p⟩ <;> simp [State.xBad, State.xPoison, p, h.runs.block, h.runs.scalars]

theorem Task.Runs.onToken {t : Task} {b : Block} (h : t.Runs b) (r : BitVec 5) : t.onToken r = [] := by
  simp [Task.onToken, h.block, h.copies]

theorem Task.Runs.pending {t : Task} {b : Block} (h : t.Runs b) (r : BitVec 5) : t.pending r = false := by
  simp [Task.pending, h.onToken]

theorem Task.Runs.tokenFault {t : Task} {b : Block} (h : t.Runs b) (rs : List (BitVec 5)) : t.tokenFault rs = none := by
  simp [Task.tokenFault, Task.unreadStatus, h.onToken]

theorem Task.Runs.markTokens {t : Task} {b : Block} (h : t.Runs b) (rs ws : List (BitVec 5)) : t.markTokens rs ws = t := by
  simp [Task.markTokens, h.copies]

theorem State.AtWord.needX {s : State} {b : Block} (h : s.AtWord b) (rs ws : List (BitVec 5)) (k : State → Act) :
    s.needX rs ws k = k s := by
  have e : s.onTask (fun t => t.markTokens rs ws) = s := by simp [State.onTask, h.runs.markTokens]
  have p : (rs ++ ws).any s.task.pending = false := by simp [h.runs.pending]
  rcases h.party with c | ⟨x, c⟩ <;> simp only [State.needX, c, p, h.notBad, h.runs.tokenFault, e] <;> rfl

/-! ## Vector registers -/

theorem Task.Runs.needClean {s : State} {b : Block} (h : s.task.Runs b) (rs : List Reading) (k : Act) :
    s.needClean rs k = k := by
  simp [State.needClean, Task.badElem, h.registers]

theorem Task.Runs.needTile {s : State} {b : Block} (h : s.task.Runs b) (md : Nat) (rs : List (Nat × Nat)) (k : State → Act) :
    s.needTile md rs k = k s := by
  simp [State.needTile, h.tiles]

theorem Task.Runs.anyBound {t : Task} {b : Block} (h : t.Runs b) (g : Nat × Nat) : t.anyBound g = false := by
  simp [Task.anyBound, h.streams]

theorem Task.Runs.withStreams {s : State} {b : Block} (h : s.task.Runs b) (srcs dsts : List (Nat × Nat)) (k : State → Act) :
    s.withStreams srcs dsts k = k s := by
  have e : (srcs ++ dsts).any s.task.anyBound = false := by
    rw [List.any_eq_false]
    intro g _
    simp [h.anyBound]
  simp only [State.withStreams, e]
  rfl

/-- Where no register is poisoned nothing is latent (R352). -/
theorem Task.Runs.noteLatent {s : State} {b : Block} (h : s.task.Runs b) (gs : List (Nat × Nat)) : s.noteLatent gs = s := by
  simp [State.noteLatent, h.registers]

theorem State.vectorWord_of {s : State} {b : Block} (h : s.task.Runs b) {g : Groups} {vm : BitVec 1}
    (hg : s.task.groupsOk g vm = true) (rs : State → List Reading) (k : State → Act) : s.vectorWord g vm rs k = k s := by
  simp [State.vectorWord, State.vectorForm, hg, h.withStreams, h.needClean, h.noteLatent]

/-- A word whose groups are not legal raises 0x01 (R142). -/
theorem State.vectorWord_bad (s : State) {g : Groups} {vm : BitVec 1} (hg : s.task.groupsOk g vm = false)
    (rs : State → List Reading) (k : State → Act) : s.vectorWord g vm rs k = .trap s illegal := by
  simp [State.vectorWord, State.vectorForm, hg]

theorem State.memoryWord_of {s : State} {b : Block} (h : s.AtWord b) {eew : BitVec 3} {g : Groups} {vm : BitVec 1}
    (he : eew.toNat = s.task.sewCode) (hg : s.task.groupsOk g vm = true) (xs : List (BitVec 5)) (k : State → Act) :
    s.memoryWord eew g vm xs k = k s := by
  simp only [State.memoryWord, he, hg, h.runs.withStreams, h.needX, h.runs.registers, List.isEmpty_nil, if_true]
  cases k s <;> simp

theorem Task.regCount_le (t : Task) : t.regCount ≤ 32 := by
  unfold Task.regCount; split <;> [omega; split <;> omega]

theorem Task.sew_pos (t : Task) : 0 < t.sew := Nat.mul_pos (by omega) (Nat.pow_pos (by omega))

theorem Task.lmul_pos (t : Task) : 0 < t.lmul := Nat.pow_pos (by omega)

theorem Task.groupsOk_dst {t : Task} {g : Groups} {vm : BitVec 1} (h : t.groupsOk g vm = true) {n size : Nat}
    (hm : (n, size) ∈ g.dsts) : n + size ≤ 32 := by
  simp only [Task.groupsOk, Bool.and_eq_true, List.all_eq_true] at h
  have := h.1.1 (n, size) (List.mem_append_right _ hm)
  simp only [Task.groupOk, Bool.and_eq_true, decide_eq_true_eq] at this
  have := t.regCount_le
  omega

/-! ## Declared resources -/

theorem State.needFlag_of {s : State} {b : Block} (hb : s.task.block = some b) {x y : Nat}
    (h : b.h0.getLsbD x = true) (r : s.regsAllow y = true) (k : Act) : s.needFlag x y k = k := by
  simp [State.needFlag, hb, h, r]

/-! ## Element words -/

theorem Task.vlmax_eq (t : Task) : t.vlmax = t.lmul * t.perReg t.sew := Nat.mul_comm _ _

/-- A word that writes each active element of a group at SEW. -/
theorem State.writes_actives {s : State} {b : Block} (h : s.task.Runs b) {i : Instr} {n : Nat} {vm : BitVec 1} {f : Nat → Nat}
    (hn : n + s.task.lmul ≤ 32)
    (e : exec i s = (Act.go (s.onTask (fun t => t.setElems t.sew n ((s.actives vm).map (fun i => (i, f i)))))).outcome) :
    s.Writes i s.task.sew n s.task.lmul (forElems (s.actives vm) f) :=
  ⟨_, e, Task.setElems_wrote s.task _ n _ _ _ h.registers s.task.sew_pos hn
    (fun j hj => by rw [← Task.vlmax_eq]; exact s.actives_lt vm j hj) (s.nodup_actives vm)⟩

/-- A word that writes a mask bit for each active element. -/
theorem State.writes_bits {s : State} {b : Block} (h : s.task.Runs b) {i : Instr} {n : Nat} {vm : BitVec 1} {f : Nat → Bool} (hn : n < 32)
    (e : exec i s = (Act.go (s.onTask (fun t => t.setMaskBits n ((s.actives vm).map (fun i => (i, f i)))))).outcome) :
    s.WritesBits i n (forBits (s.actives vm) f) :=
  ⟨_, e, Task.setMaskBits_wrote s.task n _ f h.registers hn⟩

end Sys2Proof.Machine
end

