-- ==== Sys2Proof/Laws/Vector.lean ====
section
/-! SUPPORT. What the shared operations of vector words come to where a word issues undisturbed: one lemma for each shape. -/

namespace Sys2Proof.Machine

/-! ## Integer words -/

theorem State.intWord_writes {s : State} {b : Block} (h : s.AtWord b) {i : Instr} {vd vs2 : BitVec 5} {src : Src} {vm : BitVec 1}
    {f : Bool → Nat → Nat → Nat → Nat}
    (hg : s.task.groupsOk { srcs := (vs2.toNat, s.task.lmul) :: src.groups s.task.lmul, dsts := [(vd.toNat, s.task.lmul)] } vm = true)
    (e : exec i s = (s.intWord vd vs2 src vm f).outcome) :
    s.Writes i s.task.sew vd.toNat s.task.lmul (forElems (s.actives vm) (fun i =>
      f s.task.sat s.task.sew (s.task.elem s.task.sew vs2.toNat i) (src.value s s.task.sew i))) := by
  refine State.writes_actives h.runs (Task.groupsOk_dst hg (by simp)) ?_
  rw [e, State.intWord, State.binaryWord, State.vectorWord_of h.runs hg, h.needX]
  rfl

theorem State.intWord_bad (s : State) {vd vs2 : BitVec 5} {src : Src} {vm : BitVec 1} {f : Bool → Nat → Nat → Nat → Nat}
    (hg : s.task.groupsOk { srcs := (vs2.toNat, s.task.lmul) :: src.groups s.task.lmul, dsts := [(vd.toNat, s.task.lmul)] } vm = false) :
    (s.intWord vd vs2 src vm f).outcome = .next (s.takeFault { cause := 0x01 }) := by
  rw [State.intWord, State.binaryWord, State.vectorWord_bad s hg]
  rfl

theorem State.cmpWord_writes {s : State} {b : Block} (h : s.AtWord b) {i : Instr} {vd vs2 : BitVec 5} {src : Src} {vm : BitVec 1}
    {f : Nat → Nat → Nat → Bool} (hd : s.task.cmpDstOk vd vs2 src = true)
    (hg : s.task.groupsOk { srcs := (vs2.toNat, s.task.lmul) :: src.groups s.task.lmul, dsts := [(vd.toNat, 1)] } vm = true)
    (e : exec i s = (s.cmpWord vd vs2 src vm f).outcome) :
    s.WritesBits i vd.toNat (forBits (s.actives vm) (fun i =>
      f s.task.sew (s.task.elem s.task.sew vs2.toNat i) (src.value s s.task.sew i))) := by
  have hn := Task.groupsOk_dst hg (n := vd.toNat) (size := 1) (by simp)
  refine State.writes_bits h.runs (by omega) ?_
  rw [e, State.cmpWord, State.binaryWord]
  simp only [hd]
  rw [State.vectorWord_of h.runs hg, h.needX]
  rfl

theorem State.cmpWord_bad (s : State) {vd vs2 : BitVec 5} {src : Src} {vm : BitVec 1} {f : Nat → Nat → Nat → Bool}
    (hd : s.task.cmpDstOk vd vs2 src = false) : (s.cmpWord vd vs2 src vm f).outcome = .next (s.takeFault { cause := 0x01 }) := by
  rw [State.cmpWord]
  simp only [hd]
  rfl

theorem State.gatherWord_writes {s : State} {b : Block} (h : s.AtWord b) {i : Instr} {vd vs2 : BitVec 5} {src : Src} {vm : BitVec 1}
    (hd : s.task.gatherDstOk vd vs2 s.task.lmul src = true)
    (hg : s.task.groupsOk { srcs := (vs2.toNat, s.task.lmul) :: src.groups s.task.lmul, dsts := [(vd.toNat, s.task.lmul)] } vm = true)
    (e : exec i s = (s.gatherWord vd vs2 src vm).outcome) :
    s.Writes i s.task.sew vd.toNat s.task.lmul (forElems (s.actives vm) (fun i =>
      if src.index s s.task.sew i < s.task.vlmax then s.task.elem s.task.sew vs2.toNat (src.index s s.task.sew i) else 0)) := by
  refine State.writes_actives h.runs (Task.groupsOk_dst hg (by simp)) ?_
  rw [e, State.gatherWord]
  simp only [hd]
  simp only [Bool.not_true, Bool.false_eq_true, if_false, State.vectorWord_of h.runs hg, h.needX, h.runs.needClean]
  rfl

theorem State.gatherWord_bad (s : State) {vd vs2 : BitVec 5} {src : Src} {vm : BitVec 1}
    (hd : s.task.gatherDstOk vd vs2 s.task.lmul src = false) :
    (s.gatherWord vd vs2 src vm).outcome = .next (s.takeFault { cause := 0x01 }) := by
  rw [State.gatherWord]
  simp only [hd]
  rfl

theorem State.longGatherWord_writes {s : State} {b : Block} (h : s.AtWord b) {i : Instr} {vd vs2 : BitVec 5} {src : Src} {vm : BitVec 1}
    (hd : s.task.gatherDstOk vd vs2 (s.task.longLen vs2) src = true)
    (hg : s.task.groupsOk { srcs := src.groups s.task.lmul, dsts := [(vd.toNat, s.task.lmul)],
                            loose := [(vs2.toNat, s.task.longLen vs2)] } vm = true)
    (e : exec i s = (s.longGatherWord vd vs2 src vm).outcome) :
    s.Writes i s.task.sew vd.toNat s.task.lmul (forElems (s.actives vm) (fun i =>
      if src.index s s.task.sew i < s.task.longLen vs2 * s.task.perReg s.task.sew then
        s.task.elem s.task.sew vs2.toNat (src.index s s.task.sew i) else 0)) := by
  refine State.writes_actives h.runs (Task.groupsOk_dst hg (by simp)) ?_
  rw [e, State.longGatherWord]
  simp only [hd]
  simp only [Bool.not_true, Bool.false_eq_true, if_false, State.vectorWord_of h.runs hg, h.needX, h.runs.needClean]
  rfl

theorem State.longGatherWord_bad (s : State) {vd vs2 : BitVec 5} {src : Src} {vm : BitVec 1}
    (hd : s.task.gatherDstOk vd vs2 (s.task.longLen vs2) src = false) :
    (s.longGatherWord vd vs2 src vm).outcome = .next (s.takeFault { cause := 0x01 }) := by
  rw [State.longGatherWord]
  simp only [hd]
  rfl

/-! ## Element 0 -/

theorem Task.setElem_zero_wrote (t : Task) (bits n size v : Nat) (hp : t.vPoison = []) (hb : 0 < bits) (hn : n + size ≤ 32)
    (hs : 0 < size) : WroteElems t (t.setElem bits n 0 v) bits n size (forElems [0] (fun _ => v)) := by
  by_cases hz : t.perReg bits = 0
  · refine ⟨Task.setElem_rest t bits n 0 v hp, fun r hr => ?_, fun i hi _ => ?_⟩
    · rw [Task.setElem_others]
      rw [hz]
      omega
    · rw [hz] at hi
      omega
  · exact Task.setElem_wrote t bits n size 0 v hp hb hn (Nat.mul_pos hs (by omega))

/-- A word that writes element 0 of one register, or with vl 0 nothing. -/
theorem State.writes_zero {s : State} {b : Block} (h : s.task.Runs b) {i : Instr} {n size v : Nat} {c : Prop} [Decidable c]
    (hn : n + size ≤ 32)
    (e : exec i s = (if c then Act.go s else Act.go (s.onTask (fun t => t.setElem t.sew n 0 v))).outcome) (hs : 0 < size) :
    s.Writes i s.task.sew n size (forElems (if c then [] else [0]) (fun _ => v)) := by
  by_cases hc : c
  · refine ⟨s.task, ?_, ?_⟩
    · rw [e, if_pos hc]; rfl
    · rw [if_pos hc]
      exact WroteElems.none s.task _ _ _
  · rw [if_neg hc] at e ⊢
    exact ⟨s.task.setElem s.task.sew n 0 v, e, Task.setElem_zero_wrote s.task _ n size v h.registers s.task.sew_pos hn hs⟩

theorem State.writes_zero' {s : State} {b : Block} (h : s.task.Runs b) {i : Instr} {n size v : Nat} {c : Prop} [Decidable c]
    (hn : n + size ≤ 32)
    (e : exec i s = (if c then Act.go (s.onTask (fun t => t.setElem t.sew n 0 v)) else Act.go s).outcome) (hs : 0 < size) :
    s.Writes i s.task.sew n size (forElems (if c then [0] else []) (fun _ => v)) := by
  have := State.writes_zero h (i := i) (n := n) (size := size) (v := v) (c := ¬c) hn (by rw [e]; by_cases hc : c <;> simp [hc]) hs
  by_cases hc : c <;> simpa [hc] using this

theorem State.reduceWord_writes {s : State} {b : Block} (h : s.AtWord b) {i : Instr} {vd vs2 : BitVec 5} {vm : BitVec 1}
    {op : Nat → Nat → Nat → Nat}
    (hg : s.task.groupsOk { srcs := [(vs2.toNat, s.task.lmul)], dsts := [(vd.toNat, 1)] } vm = true)
    (e : exec i s = (s.reduceWord vd vs2 vm op).outcome) :
    s.Writes i s.task.sew vd.toNat 1 (forElems (if s.task.vl = 0 then [] else [0]) (fun _ => s.reduceValue vd vs2 vm op)) := by
  refine State.writes_zero h.runs (Task.groupsOk_dst hg (by simp)) ?_ Nat.one_pos
  rw [e, State.reduceWord, State.vectorWord_of h.runs hg]

theorem State.countWord_writes {s : State} {b : Block} (h : s.AtWord b) {i : Instr} {vd vs2 : BitVec 5} {vm : BitVec 1}
    {f : State → Nat} (hg : s.task.groupsOk { srcs := [(vs2.toNat, 1)], dsts := [(vd.toNat, s.task.lmul)] } vm = true)
    (e : exec i s = (s.countWord vd vs2 vm f).outcome) :
    s.Writes i s.task.sew vd.toNat 1 (forElems (if s.task.vl = 0 then [] else [0]) (fun _ => f s)) := by
  have hd := Task.groupsOk_dst hg (n := vd.toNat) (size := s.task.lmul) (by simp)
  refine State.writes_zero h.runs (by have := s.task.lmul_pos; omega) ?_ Nat.one_pos
  rw [e, State.countWord, State.vectorWord_of h.runs hg]

/-! ## Rounding -/

/-- A word that rounds counts itself (R188); without counters it raises 0x0B. -/
theorem State.rounding_go {s : State} (k : State → Act) {u : Task} (hu : k s = .go { s with task := u }) (hm : s.MayRound)
    (hv : u.vcfg = s.task.vcfg ∧ u.vl = s.task.vl) : s.rounding k = .go ({ s with task := u } : State).countRounding := by
  have e : (({ s with task := u } : State).task.rm = 5 ∧ 0 < ({ s with task := u } : State).task.vl) ↔
      (s.task.rm = 5 ∧ 0 < s.task.vl) := by
    simp only [Task.rm, hv.1, hv.2]
  by_cases hc : s.task.rm = 5 ∧ 0 < s.task.vl
  · have hd := hm hc.1 hc.2
    unfold State.rounding State.countRounding
    rw [if_pos hc, if_neg hd, if_pos (e.mpr hc), hu]
    simp only
    cases s.cur <;> rfl
  · unfold State.rounding State.countRounding
    rw [if_neg hc, if_neg (fun h => hc (e.mp h)), hu]

theorem State.rounding_none {s : State} (k : State → Act) (hm : ¬s.MayRound) : s.rounding k = .trap s (cause 0x0B) := by
  have : s.task.rm = 5 ∧ 0 < s.task.vl ∧ s.drawRange.2 = 0 := by
    unfold State.MayRound at hm
    simpa using hm
  unfold State.rounding
  rw [if_pos ⟨this.1, this.2.1⟩, if_pos this.2.2]

/-- A word that rounds and writes each active element. -/
theorem State.writes_rounding {s : State} {b : Block} (h : s.task.Runs b) {i : Instr} {bits n size : Nat} {is : List Nat} {f : Nat → Nat}
    (hb : 0 < bits) (hn : n + size ≤ 32) (hs : ∀ i ∈ is, i < size * s.task.perReg bits) (nd : is.Nodup) (hm : s.MayRound)
    {k : State → Act} (e : exec i s = (s.rounding k).outcome)
    (hk : k s = .go ({ s with task := s.task.setElems bits n (is.map (fun i => (i, f i))) })) :
    s.Writes i bits n size (forElems is f) State.countRounding := by
  have w := Task.setElems_wrote s.task bits n size is f h.registers hb hn hs nd
  refine ⟨_, ?_, w⟩
  rw [e, State.rounding_go k hk hm ⟨by rw [w.rest], by rw [w.rest]⟩]
  rfl

/-! ## Floating words -/

theorem State.withFmt_of {s : State} {f : Fmt} (h : fmtOf s.task.sew s.task.fk = some f) (k : Fmt → Act) : s.withFmt k = k f := by
  simp [State.withFmt, h]

theorem State.floatWord_writes {s : State} {b : Block} (h : s.AtWord b) {i : Instr} {vd vs2 : BitVec 5} {src : Src} {vm : BitVec 1}
    {f : Fmt} {fused : Bool} {op : FloatOp} (hf : fmtOf s.task.sew s.task.fk = some f)
    (hg : s.task.groupsOk { srcs := (vs2.toNat, s.task.lmul) :: src.groups s.task.lmul, dsts := [(vd.toNat, s.task.lmul)] } vm = true)
    (hm : s.MayRound) (e : exec i s = (s.floatWord vd vs2 src vm fused op).outcome) :
    s.Writes i s.task.sew vd.toNat s.task.lmul (forElems (s.actives vm) (fun i =>
      f.round s.task.rm (s.roundDraw i) (op s.task.rm (f.decode (s.task.elem s.task.sew vs2.toNat i))
        (f.decode (src.value s s.task.sew i)) (f.decode (s.task.elem s.task.sew vd.toNat i)) (src.value s s.task.sew i) s.task.sew)))
      State.countRounding := by
  rw [State.floatWord, State.withFmt_of hf, State.binaryWord, State.vectorWord_of h.runs hg, h.needX, h.runs.needClean] at e
  exact State.writes_rounding h.runs s.task.sew_pos (Task.groupsOk_dst hg (by simp))
    (fun j hj => by rw [← Task.vlmax_eq]; exact s.actives_lt vm j hj) (s.nodup_actives vm) hm e rfl

theorem State.floatWord_uncounted {s : State} {b : Block} (h : s.AtWord b) {vd vs2 : BitVec 5} {src : Src} {vm : BitVec 1}
    {f : Fmt} {fused : Bool} {op : FloatOp} (hf : fmtOf s.task.sew s.task.fk = some f)
    (hg : s.task.groupsOk { srcs := (vs2.toNat, s.task.lmul) :: src.groups s.task.lmul, dsts := [(vd.toNat, s.task.lmul)] } vm = true)
    (hm : ¬s.MayRound) : (s.floatWord vd vs2 src vm fused op).outcome = .next (s.takeFault { cause := 0x0B }) := by
  rw [State.floatWord, State.withFmt_of hf, State.binaryWord, State.vectorWord_of h.runs hg, h.needX, h.runs.needClean,
    State.rounding_none _ hm]
  rfl

theorem State.floatPick_writes {s : State} {b : Block} (h : s.AtWord b) {i : Instr} {vd vs2 : BitVec 5} {src : Src} {vm : BitVec 1}
    {f : Fmt} {op : Fmt → Nat → Nat → Nat} (hf : fmtOf s.task.sew s.task.fk = some f)
    (hg : s.task.groupsOk { srcs := (vs2.toNat, s.task.lmul) :: src.groups s.task.lmul, dsts := [(vd.toNat, s.task.lmul)] } vm = true)
    (e : exec i s = (s.floatPick vd vs2 src vm op).outcome) :
    s.Writes i s.task.sew vd.toNat s.task.lmul (forElems (s.actives vm) (fun i =>
      op f (s.task.elem s.task.sew vs2.toNat i) (src.value s s.task.sew i))) := by
  refine State.writes_actives h.runs (Task.groupsOk_dst hg (by simp)) ?_
  rw [e, State.floatPick, State.withFmt_of hf, State.binaryWord, State.vectorWord_of h.runs hg, h.needX]

theorem State.floatCmp_writes {s : State} {b : Block} (h : s.AtWord b) {i : Instr} {vd vs2 : BitVec 5} {src : Src} {vm : BitVec 1}
    {f : Fmt} {op : Fmt → Nat → Nat → Bool} (hf : fmtOf s.task.sew s.task.fk = some f) (hd : s.task.cmpDstOk vd vs2 src = true)
    (hg : s.task.groupsOk { srcs := (vs2.toNat, s.task.lmul) :: src.groups s.task.lmul, dsts := [(vd.toNat, 1)] } vm = true)
    (e : exec i s = (s.floatCmp vd vs2 src vm op).outcome) :
    s.WritesBits i vd.toNat (forBits (s.actives vm) (fun i =>
      op f (s.task.elem s.task.sew vs2.toNat i) (src.value s s.task.sew i))) := by
  have hn := Task.groupsOk_dst hg (n := vd.toNat) (size := 1) (by simp)
  refine State.writes_bits h.runs (by omega) ?_
  rw [e, State.floatCmp, State.withFmt_of hf, State.binaryWord]
  simp only [hd]
  rw [State.vectorWord_of h.runs hg, h.needX]
  rfl

theorem State.floatCmp_bad (s : State) {vd vs2 : BitVec 5} {src : Src} {vm : BitVec 1} {f : Fmt} {op : Fmt → Nat → Nat → Bool}
    (hf : fmtOf s.task.sew s.task.fk = some f) (hd : s.task.cmpDstOk vd vs2 src = false) :
    (s.floatCmp vd vs2 src vm op).outcome = .next (s.takeFault { cause := 0x01 }) := by
  rw [State.floatCmp, State.withFmt_of hf]
  simp only [hd]
  rfl

theorem State.floatMap_writes {s : State} {b : Block} (h : s.AtWord b) {i : Instr} {vd vs2 : BitVec 5} {vm : BitVec 1}
    {f : Fmt} {op : State → Fmt → Nat → Nat → Nat} (hf : fmtOf s.task.sew s.task.fk = some f)
    (hg : s.task.groupsOk { srcs := [(vs2.toNat, s.task.lmul)], dsts := [(vd.toNat, s.task.lmul)] } vm = true)
    (e : exec i s = (s.floatMap vd vs2 vm false op).outcome) :
    s.Writes i s.task.sew vd.toNat s.task.lmul (forElems (s.actives vm) (fun i => op s f i (s.task.elem s.task.sew vs2.toNat i))) := by
  refine State.writes_actives h.runs (Task.groupsOk_dst hg (by simp)) ?_
  rw [e, State.floatMap, State.withFmt_of hf, State.unaryWord, State.vectorWord_of h.runs hg]
  rfl

theorem State.floatMap_rounds {s : State} {b : Block} (h : s.AtWord b) {i : Instr} {vd vs2 : BitVec 5} {vm : BitVec 1}
    {f : Fmt} {op : State → Fmt → Nat → Nat → Nat} (hf : fmtOf s.task.sew s.task.fk = some f)
    (hg : s.task.groupsOk { srcs := [(vs2.toNat, s.task.lmul)], dsts := [(vd.toNat, s.task.lmul)] } vm = true) (hm : s.MayRound)
    (e : exec i s = (s.floatMap vd vs2 vm true op).outcome) :
    s.Writes i s.task.sew vd.toNat s.task.lmul (forElems (s.actives vm) (fun i => op s f i (s.task.elem s.task.sew vs2.toNat i)))
      State.countRounding := by
  rw [State.floatMap, State.withFmt_of hf, State.unaryWord, State.vectorWord_of h.runs hg] at e
  simp only [if_true] at e
  exact State.writes_rounding h.runs s.task.sew_pos (Task.groupsOk_dst hg (by simp))
    (fun j hj => by rw [← Task.vlmax_eq]; exact s.actives_lt vm j hj) (s.nodup_actives vm) hm e rfl

theorem State.floatMap_uncounted {s : State} {b : Block} (h : s.AtWord b) {vd vs2 : BitVec 5} {vm : BitVec 1}
    {f : Fmt} {op : State → Fmt → Nat → Nat → Nat} (hf : fmtOf s.task.sew s.task.fk = some f)
    (hg : s.task.groupsOk { srcs := [(vs2.toNat, s.task.lmul)], dsts := [(vd.toNat, s.task.lmul)] } vm = true) (hm : ¬s.MayRound) :
    (s.floatMap vd vs2 vm true op).outcome = .next (s.takeFault { cause := 0x0B }) := by
  rw [State.floatMap, State.withFmt_of hf, State.unaryWord, State.vectorWord_of h.runs hg]
  simp only [if_true]
  rw [State.rounding_none _ hm]
  rfl

/-- A reduction that does not round. -/
theorem State.floatReduce_writes {s : State} {b : Block} (h : s.AtWord b) {i : Instr} {vd vs2 : BitVec 5} {vm : BitVec 1}
    {f : Fmt} {res : State → Fmt → Nat} (hf : fmtOf s.task.sew s.task.fk = some f)
    (hg : s.task.groupsOk { srcs := [(vs2.toNat, s.task.lmul)], dsts := [(vd.toNat, 1)] } vm = true)
    (e : exec i s = (s.floatReduce vd vs2 vm false res).outcome) :
    s.Writes i s.task.sew vd.toNat 1 (forElems (if s.task.vl = 0 then [] else [0]) (fun _ => res s f)) := by
  refine State.writes_zero h.runs (Task.groupsOk_dst hg (by simp)) ?_ Nat.one_pos
  rw [e, State.floatReduce, State.withFmt_of hf, State.vectorWord_of h.runs hg]
  rfl

/-- A reduction that rounds. -/
theorem State.floatReduce_rounds {s : State} {b : Block} (h : s.AtWord b) {i : Instr} {vd vs2 : BitVec 5} {vm : BitVec 1}
    {f : Fmt} {res : State → Fmt → Nat} (hf : fmtOf s.task.sew s.task.fk = some f)
    (hg : s.task.groupsOk { srcs := [(vs2.toNat, s.task.lmul)], dsts := [(vd.toNat, 1)] } vm = true) (hm : s.MayRound)
    (e : exec i s = (s.floatReduce vd vs2 vm true res).outcome) :
    s.Writes i s.task.sew vd.toNat 1 (forElems (if s.task.vl = 0 then [] else [0]) (fun _ => res s f)) State.countRounding := by
  rw [State.floatReduce, State.withFmt_of hf, State.vectorWord_of h.runs hg] at e
  simp only [if_true] at e
  by_cases hv : s.task.vl = 0
  · refine ⟨s.task, ?_, ?_⟩
    · rw [e, State.rounding_go _ (u := s.task) (by simp only [hv, if_true]) hm ⟨rfl, rfl⟩]
      rfl
    · rw [if_pos hv]
      exact WroteElems.none s.task _ _ _
  · have w := Task.setElem_zero_wrote s.task s.task.sew vd.toNat 1 (res s f) h.runs.registers s.task.sew_pos
      (Task.groupsOk_dst hg (by simp)) Nat.one_pos
    refine ⟨s.task.setElem s.task.sew vd.toNat 0 (res s f), ?_, by rw [if_neg hv]; exact w⟩
    rw [e, State.rounding_go _ (u := s.task.setElem s.task.sew vd.toNat 0 (res s f)) (by simp only [hv, if_false]; rfl) hm
      ⟨by rw [w.rest], by rw [w.rest]⟩]
    rfl

/-- A resizing word whose groups are legal. -/
theorem State.resizeWord_writes {s : State} {b : Block} (h : s.AtWord b) {i : Instr} {vd vs2 : BitVec 5} {vm : BitVec 1}
    {narrowing : Bool} {op : State → Nat → Nat → Nat} {src dst : Nat × Nat} {sw dw : Nat}
    (hs : (if narrowing then (vs2.toNat, 2 * s.task.lmul) else (vs2.toNat, s.task.lmul)) = src)
    (hd : (if narrowing then (vd.toNat, s.task.lmul) else (vd.toNat, 2 * s.task.lmul)) = dst)
    (hsw : (if narrowing then 2 * s.task.sew else s.task.sew) = sw) (hdw : (if narrowing then s.task.sew else 2 * s.task.sew) = dw)
    (ho : overlap dst.1 dst.2 src.1 src.2 = false) (h8 : s.task.lmul ≠ 8) (h64 : s.task.sew ≠ 64)
    (hg : s.task.groupsOk { srcs := [src], dsts := [dst] } vm = true) (hl : ∀ j ∈ s.actives vm, j < dst.2 * s.task.perReg dw) :
    (exec i s = (s.resizeWord vd vs2 vm narrowing false op).outcome →
      s.Writes i dw dst.1 dst.2 (forElems (s.actives vm) (fun i => op s i (s.task.elem sw src.1 i)))) ∧
    (s.MayRound → exec i s = (s.resizeWord vd vs2 vm narrowing true op).outcome →
      s.Writes i dw dst.1 dst.2 (forElems (s.actives vm) (fun i => op s i (s.task.elem sw src.1 i))) State.countRounding) := by
  have hn : dst.1 + dst.2 ≤ 32 := Task.groupsOk_dst hg (by simp)
  have hw : 0 < dw := by rw [← hdw]; have := s.task.sew_pos; split <;> omega
  have R : ∀ r, s.resizeWord vd vs2 vm narrowing r op =
      (let run (s : State) : Act := .go (s.onTask (fun t => t.setElems dw dst.1 ((s.actives vm).map (fun i => (i, op s i (s.task.elem sw src.1 i))))))
       if r then s.rounding run else run s) := by
    intro r
    unfold State.resizeWord
    simp only [hs, hd, hsw, hdw]
    rw [if_neg (by simp [ho, h8, h64]), State.vectorWord_of h.runs hg]
  refine ⟨fun e => ?_, fun hm e => ?_⟩
  · refine ⟨_, ?_, Task.setElems_wrote s.task dw dst.1 dst.2 _ _ h.runs.registers hw hn hl (s.nodup_actives vm)⟩
    rw [e, R]
    rfl
  · rw [R] at e
    simp only [if_true] at e
    exact State.writes_rounding h.runs hw hn hl (s.nodup_actives vm) hm e rfl

theorem State.resizeWord_bad (s : State) {vd vs2 : BitVec 5} {vm : BitVec 1} {narrowing rounds : Bool} {op : State → Nat → Nat → Nat}
    (hb : s.task.lmul = 8 ∨ s.task.sew = 64 ∨
      overlap vd.toNat (if narrowing then s.task.lmul else 2 * s.task.lmul) vs2.toNat (if narrowing then 2 * s.task.lmul else s.task.lmul) = true) :
    (s.resizeWord vd vs2 vm narrowing rounds op).outcome = .next (s.takeFault { cause := 0x01 }) := by
  unfold State.resizeWord
  cases narrowing <;> (simp only [Bool.false_eq_true, if_false, if_true] at hb ⊢; rw [if_pos hb]; rfl)

end Sys2Proof.Machine
end

