-- ==== Sys2Proof/Laws/VectorMemory.lean ====
section
/-! SUPPORT. What vector loads, stores and atomics come to where memory is plain: the probe of the elements, and the commits. -/

namespace Sys2Proof.Machine

/-! ## The order of the elements -/

theorem pairwise_rangeFrom (lo hi : Nat) : (rangeFrom lo hi).Pairwise (· < ·) := by
  unfold rangeFrom
  rw [List.pairwise_map]
  exact List.pairwise_lt_range.imp (fun h => by omega)

theorem State.pairwise_touched (s : State) : s.touched.Pairwise (· < ·) := by
  unfold State.touched
  split
  · split
    · exact List.pairwise_singleton _ _
    · exact List.Pairwise.nil
  · exact pairwise_rangeFrom _ _

/-- The active elements are taken in ascending order. -/
theorem State.pairwise_actives (s : State) (vm : BitVec 1) : (s.actives vm).Pairwise (· < ·) := s.pairwise_touched.filter _

/-- A list in ascending order around one of its members. -/
theorem ascending_split {l : List Nat} (h : l.Pairwise (· < ·)) {f : Nat} (hf : f ∈ l) :
    ∃ rest, l = l.filter (fun e => e < f) ++ f :: rest := by
  induction l with
  | nil => cases hf
  | cons a as ih =>
    have hp := List.pairwise_cons.mp h
    rcases List.mem_cons.mp hf with rfl | hm
    · refine ⟨as, ?_⟩
      have : as.filter (fun e => decide (e < f)) = [] := by
        rw [List.filter_eq_nil_iff]
        intro e he
        have := hp.1 e he
        simp; omega
      simp [this]
    · obtain ⟨rest, hr⟩ := ih hp.2 hm
      refine ⟨rest, ?_⟩
      have := hp.1 f hm
      rw [List.filter_cons_of_pos (by simpa using this), List.cons_append, ← hr]

/-! ## The probe -/

/-- Where an access of a kind finds its place. -/
def State.placeFor (s : State) (acc : Access) (a : Word) (n : Nat) : Except Trap Place :=
  if acc == .write then s.locate a n acc else s.locateRead a n acc

theorem State.probe_all (s : State) (acc : Access) (n : Nat) (es : List Nat) (addr : Nat → Word) (pl : Nat → Place)
    (tail : List (Nat × Word)) (h : ∀ e ∈ es, (addr e).toNat % n = 0 ∧ s.placeFor acc (addr e) n = .ok (pl e)) :
    s.probe acc n (es.map (fun i => (i, addr i)) ++ tail) =
      { s.probe acc n tail with good := es.map (fun i => (i, pl i)) ++ (s.probe acc n tail).good } := by
  induction es with
  | nil => rfl
  | cons a as ih =>
    have ha := h a (List.mem_cons_self ..)
    have hp := ha.2
    unfold State.placeFor at hp
    simp only [List.map_cons, List.cons_append, State.probe, ha.1, ne_eq, not_true, if_false, hp,
      ih (fun e he => h e (List.mem_cons_of_mem _ he))]

/-- The fault of an element that fails. -/
def State.ElemFails (s : State) (acc : Access) (n : Nat) (a : Word) (e : Nat) (t : Trap) : Prop :=
  (a.toNat % n ≠ 0 ∧ t = { cause := 0x03, addr := some a, elem := some e }) ∨
  (a.toNat % n = 0 ∧ ∃ r, s.placeFor acc a n = .error r ∧ t = { r with elem := some e })

theorem State.probe_fail (s : State) (acc : Access) (n : Nat) (f : Nat) (a : Word) (t : Trap) (tail : List (Nat × Word))
    (h : s.ElemFails acc n a f t) : s.probe acc n ((f, a) :: tail) = { good := [], bad := some (f, t) } := by
  rcases h with ⟨ha, rfl⟩ | ⟨ha, r, hr, rfl⟩
  · simp [State.probe, ha]
  · unfold State.placeFor at hr
    simp only [State.probe, ha, ne_eq, not_true, if_false, hr]

theorem Task.Runs.probeActive {s : State} {b : Block} (h : s.task.Runs b) (acc : Access) (n : Nat) (vm : BitVec 1) (rs : List Reading)
    (addr : Nat → Word) : s.probeActive acc n vm rs addr = s.probe acc n ((s.actives vm).map (fun i => (i, addr i))) := by
  simp [State.probeActive, Task.badElem, h.registers]

/-- The probe where every active element finds its place. -/
theorem State.probeActive_all {s : State} {b : Block} (h : s.task.Runs b) (acc : Access) (n : Nat) (vm : BitVec 1) (rs : List Reading)
    (addr : Nat → Word) (pl : Nat → Place)
    (hp : ∀ e ∈ s.actives vm, (addr e).toNat % n = 0 ∧ s.placeFor acc (addr e) n = .ok (pl e)) :
    s.probeActive acc n vm rs addr = { good := (s.actives vm).map (fun i => (i, pl i)), bad := none } := by
  have := s.probe_all acc n (s.actives vm) addr pl [] hp
  simp only [List.append_nil] at this
  rw [h.probeActive, this]
  simp [State.probe]

/-- The probe whose lowest failing element is f. -/
theorem State.probeActive_fail {s : State} {b : Block} (h : s.task.Runs b) (acc : Access) (n : Nat) (vm : BitVec 1) (rs : List Reading)
    (addr : Nat → Word) (pl : Nat → Place) {f : Nat} {t : Trap} (hf : f ∈ s.actives vm)
    (hp : ∀ e ∈ s.actives vm, e < f → (addr e).toNat % n = 0 ∧ s.placeFor acc (addr e) n = .ok (pl e))
    (ht : s.ElemFails acc n (addr f) f t) :
    s.probeActive acc n vm rs addr =
      { good := ((s.actives vm).filter (fun e => e < f)).map (fun i => (i, pl i)), bad := some (f, t) } := by
  obtain ⟨rest, hr⟩ := ascending_split (s.pairwise_actives vm) hf
  rw [h.probeActive]
  have e : (s.actives vm).map (fun i => (i, addr i)) =
      ((s.actives vm).filter (fun e => e < f)).map (fun i => (i, addr i)) ++ (f, addr f) :: rest.map (fun i => (i, addr i)) := by
    conv => lhs; rw [hr]
    simp
  rw [e, State.probe_all s acc n _ addr pl _ (fun e he => ?_), State.probe_fail s acc n f (addr f) t _ ht]
  · simp
  · have := List.mem_filter.mp he
    exact hp e this.1 (by simpa using this.2)

/-! ## Loads -/

theorem State.afterReads_of {s : State} (hp : s.Plain) (n pol : Nat) (ps : List (Nat × Place)) : s.afterReads n pol ps = s := by
  unfold State.afterReads
  induction ps with
  | nil => rfl
  | cons p ps ih => rw [List.foldl_cons, hp.afterRead p.2 n pol p.1, ih]

theorem State.commitLoad_of {s : State} (hp : s.Plain) (vd : BitVec 5) (n pol : Nat) (es : List Nat) (pl : Nat → Place) :
    s.commitLoad vd n pol (es.map (fun i => (i, pl i))) =
      { s with task := s.task.setElems (8 * n) vd.toNat (es.map (fun i => (i, leVal ((List.range n).map (fun j =>
          s.readPlain (pl i).km ((pl i).key + j)))))) } := by
  unfold State.commitLoad
  rw [State.afterReads_of hp]
  simp only [List.map_map, Function.comp_def, hp.viewNat]
  rfl

theorem Task.sew_bytes (t : Task) : 8 * (t.sew / 8) = t.sew := by
  unfold Task.sew
  rw [Nat.mul_div_cancel_left _ (by omega : 0 < 8)]

/-- A load: what it leaves where every element is found, and where one fails. -/
theorem State.loadWord_of {s : State} {b : Block} (h : s.AtWord b) (hp : s.Plain) {vd : BitVec 5} (hn : vd.toNat + s.task.lmul ≤ 32)
    (pol : BitVec 2) (vm : BitVec 1) (rs : List Reading) (addr : Nat → Word) (i : Instr)
    (e : exec i s = (s.loadWord vd pol vm rs addr).outcome) (pl : Nat → Place) :
    let n := s.task.sew / 8
    let value (p : Place) : Nat := leVal ((List.range n).map (fun j => s.readPlain p.km (p.key + j)))
    ((∀ x ∈ s.actives vm, (addr x).toNat % n = 0 ∧ s.placeFor .read (addr x) n = .ok (pl x)) →
      s.Writes i s.task.sew vd.toNat s.task.lmul (forElems (s.actives vm) (fun x => value (pl x)))) ∧
    (∀ f t, s.cur = .vector → f ∈ s.actives vm →
      (∀ x ∈ s.actives vm, x < f → (addr x).toNat % n = 0 ∧ s.placeFor .read (addr x) n = .ok (pl x)) →
      s.ElemFails .read n (addr f) f t →
      ∃ u, WroteElems s.task u s.task.sew vd.toNat s.task.lmul (forElems ((s.actives vm).filter (fun x => x < f)) (fun x => value (pl x))) ∧
        exec i s = .next (({ s with task := { u with vstart := f } } : State).takeFault t)) := by
  intro n value
  have W : ∀ es : List Nat, (∀ x ∈ es, x ∈ s.actives vm) → es.Nodup →
      WroteElems s.task (s.task.setElems (8 * n) vd.toNat (es.map (fun i => (i, value (pl i))))) s.task.sew vd.toNat s.task.lmul
        (forElems es (fun x => value (pl x))) := by
    intro es hes nd
    rw [s.task.sew_bytes]
    exact Task.setElems_wrote s.task _ _ _ es _ h.runs.registers s.task.sew_pos hn
      (fun j hj => by rw [← Task.vlmax_eq]; exact s.actives_lt vm j (hes j hj)) nd
  refine ⟨fun hf => ⟨_, ?_, W (s.actives vm) (fun _ hx => hx) (s.nodup_actives vm)⟩, fun f t hc hf hl ht => ⟨_, W _ (fun x hx => (List.mem_filter.mp hx).1) ((s.nodup_actives vm).filter _), ?_⟩⟩
  · rw [e]
    unfold State.loadWord
    simp only
    rw [State.probeActive_all h.runs .read n vm rs addr pl hf, State.commitLoad_of hp]
    rfl
  · rw [e]
    unfold State.loadWord
    simp only
    rw [State.probeActive_fail h.runs .read n vm rs addr pl hf hl ht, State.commitLoad_of hp]
    unfold State.endMemory
    simp only [hc]
    rfl

/-! ## Stores -/

theorem State.StoredAll.plain {s t : State} {ps : List (Place × List Byte)} (h : s.StoredAll t ps) (hp : s.Plain) : t.Plain := by
  induction ps generalizing s with
  | nil => exact h ▸ hp
  | cons p ps ih =>
    obtain ⟨u, hu, hr⟩ := h
    exact ih hr (hu.plain hp)

theorem State.Stored.cur {s t : State} {p : Place} {bs : List Byte} (h : s.Stored t p bs) : t.cur = s.cur := by
  obtain ⟨r, hr⟩ := s.breakReservations_rest p.key bs.length
  rw [h.rest, hr]

theorem State.StoredAll.cur {s t : State} {ps : List (Place × List Byte)} (h : s.StoredAll t ps) : t.cur = s.cur := by
  induction ps generalizing s with
  | nil => exact h ▸ rfl
  | cons p ps ih =>
    obtain ⟨u, hu, hr⟩ := h
    rw [ih hr, hu.cur]

theorem State.commitStore_of {s : State} (hp : s.Plain) (n pol : Nat) (es : List Nat) (pl : Nat → Place) (v : Nat → Nat) :
    ∃ t, s.commitStore n pol (es.map (fun i => (i, pl i))) v = .ok t ∧ s.StoredAll t (es.map (fun x => (pl x, bytesOf (v x) n))) := by
  induction es generalizing s with
  | nil => exact ⟨s, rfl, rfl⟩
  | cons a as ih =>
    obtain ⟨u, hu, st⟩ := hp.storeAt (pl a) (bytesOf (v a) n) pol a
    obtain ⟨t, ht, sa⟩ := ih (st.plain hp)
    refine ⟨t, ?_, u, st, sa⟩
    simp only [List.map_cons, State.commitStore, hu, ht]

theorem State.cleanStored_of {s : State} (hp : s.Plain) (ks : List Nat) : s.cleanStored ks = s := by
  simp [State.cleanStored, State.clearPoison, State.curePoison, hp.poison]

/-- A store: what it leaves where every element is found, and where one fails. -/
theorem State.storeWord_of {s : State} {b : Block} (h : s.AtWord b) (hp : s.Plain) (vs3 : BitVec 5)
    (pol : BitVec 2) (vm : BitVec 1) (rs : List Reading) (addr : Nat → Word) (i : Instr)
    (e : exec i s = (s.storeWord vs3 pol vm rs addr).outcome) (pl : Nat → Place) :
    let n := s.task.sew / 8
    let stores (es : List Nat) : List (Place × List Byte) := es.map (fun x => (pl x, bytesOf (s.task.elem s.task.sew vs3.toNat x) n))
    ((∀ x ∈ s.actives vm, (addr x).toNat % n = 0 ∧ s.placeFor .write (addr x) n = .ok (pl x)) →
      ∃ t, exec i s = .next t.advance ∧ s.StoredAll t (stores (s.actives vm))) ∧
    (∀ f r, s.cur = .vector → f ∈ s.actives vm →
      (∀ x ∈ s.actives vm, x < f → (addr x).toNat % n = 0 ∧ s.placeFor .write (addr x) n = .ok (pl x)) →
      s.ElemFails .write n (addr f) f r →
      ∃ t, exec i s = .next ((t.onTask (fun x => { x with vstart := f })).takeFault r) ∧
        s.StoredAll t (stores ((s.actives vm).filter (fun x => x < f)))) := by
  intro n stores
  refine ⟨fun hf => ?_, fun f r hc hf hl hr => ?_⟩
  · obtain ⟨t, ht, st⟩ := State.commitStore_of hp (s.task.sew / 8) pol.toNat (s.actives vm) pl (fun i => s.task.elem s.task.sew vs3.toNat i)
    refine ⟨t, ?_, st⟩
    rw [e]
    unfold State.storeWord
    simp only
    rw [State.probeActive_all h.runs .write n vm _ addr pl hf]
    simp only [orTrap, ht]
    rw [State.cleanStored_of (st.plain hp)]
    rfl
  · obtain ⟨t, ht, st⟩ := State.commitStore_of hp (s.task.sew / 8) pol.toNat ((s.actives vm).filter (fun x => x < f)) pl
      (fun i => s.task.elem s.task.sew vs3.toNat i)
    refine ⟨t, ?_, st⟩
    rw [e]
    unfold State.storeWord
    simp only
    rw [State.probeActive_fail h.runs .write n vm _ addr pl hf hl hr]
    simp only [orTrap, ht]
    rw [State.cleanStored_of (st.plain hp)]
    have : t.cur = .vector := by rw [st.cur, hc]
    unfold State.endMemory
    simp only [this]
    rfl

end Sys2Proof.Machine
end

