-- ==== Sys2Proof/Tests/Slice0.lean ====
section
/-! SUPPORT. Tests: words written out bit by bit from the manual's encoding tables, words that the manual prints, ill-formed terms that the
checks refuse, single steps with the results that the manual states, and for every obligation states and operands that meet its
hypotheses, each clause at a boundary of its range. -/

namespace Sys2Proof.Tests

open Sys2Proof Sys2Proof.Machine

-- one theorem after another: their checks side by side take more memory than one of them needs
set_option Elab.async false

/-! ## Words built from the fields of the encoding tables -/

theorem test_decode_1 :
    decode 0xA93C5CB7 = .instr (.lui 25 693189) ∧
    decode 0xA93C5C97 = .instr (.auipc 25 693189) ∧
    decode 0xF8A52CEF = .instr (.jal 25 693189) ∧
    decode 0x9A348CE7 = .instr (.jalr 25 9 2467) ∧
    decode 0xB5648763 = .instr (.beq 9 22 2471) ∧
    decode 0xB5649763 = .instr (.bne 9 22 2471) ∧
    decode 0xB564C763 = .instr (.blt 9 22 2471) ∧
    decode 0xB564D763 = .instr (.bge 9 22 2471) ∧
    decode 0xB564E763 = .instr (.bltu 9 22 2471) ∧
    decode 0xB564F763 = .instr (.bgeu 9 22 2471) ∧
    decode 0x9A348C83 = .instr (.lb 25 9 2467) ∧
    decode 0x9A349C83 = .instr (.lh 25 9 2467) ∧
    decode 0x9A34AC83 = .instr (.lw 25 9 2467) ∧
    decode 0x9A34BC83 = .instr (.ld 25 9 2467) ∧
    decode 0x9A34CC83 = .instr (.lbu 25 9 2467) ∧
    decode 0x9A34DC83 = .instr (.lhu 25 9 2467) ∧
    decode 0x9A34EC83 = .instr (.lwu 25 9 2467) ∧
    decode 0x9B6483A3 = .instr (.sb 9 22 2471) ∧
    decode 0x9B6493A3 = .instr (.sh 9 22 2471) ∧
    decode 0x9B64A3A3 = .instr (.sw 9 22 2471) := by decide +kernel
theorem test_decode_2 :
    decode 0x9B64B3A3 = .instr (.sd 9 22 2471) ∧
    decode 0x9A348C93 = .instr (.addi 25 9 2467) ∧
    decode 0x9A34AC93 = .instr (.slti 25 9 2467) ∧
    decode 0x9A34BC93 = .instr (.sltiu 25 9 2467) ∧
    decode 0x9A34CC93 = .instr (.xori 25 9 2467) ∧
    decode 0x9A34EC93 = .instr (.ori 25 9 2467) ∧
    decode 0x9A34FC93 = .instr (.andi 25 9 2467) ∧
    decode 0x02549C93 = .instr (.slli 25 9 37) ∧
    decode 0x0254DC93 = .instr (.srli 25 9 37) ∧
    decode 0x4254DC93 = .instr (.srai 25 9 37) ∧
    decode 0x01648CB3 = .instr (.add 25 9 22) ∧
    decode 0x41648CB3 = .instr (.sub 25 9 22) ∧
    decode 0x01649CB3 = .instr (.sll 25 9 22) ∧
    decode 0x0164ACB3 = .instr (.slt 25 9 22) ∧
    decode 0x0164BCB3 = .instr (.sltu 25 9 22) ∧
    decode 0x0164CCB3 = .instr (.xor 25 9 22) ∧
    decode 0x0164DCB3 = .instr (.srl 25 9 22) ∧
    decode 0x4164DCB3 = .instr (.sra 25 9 22) ∧
    decode 0x0164ECB3 = .instr (.or 25 9 22) ∧
    decode 0x0164FCB3 = .instr (.and 25 9 22) := by decide +kernel
theorem test_decode_3 :
    decode 0x9A348C9B = .instr (.addiw 25 9 2467) ∧
    decode 0x01349C9B = .instr (.slliw 25 9 19) ∧
    decode 0x0134DC9B = .instr (.srliw 25 9 19) ∧
    decode 0x4134DC9B = .instr (.sraiw 25 9 19) ∧
    decode 0x01648CBB = .instr (.addw 25 9 22) ∧
    decode 0x41648CBB = .instr (.subw 25 9 22) ∧
    decode 0x01649CBB = .instr (.sllw 25 9 22) ∧
    decode 0x0164DCBB = .instr (.srlw 25 9 22) ∧
    decode 0x4164DCBB = .instr (.sraw 25 9 22) ∧
    decode 0x05C0000F = .instr (.fence 0 5 12) ∧
    decode 0x00000073 = .instr (.ecall) ∧
    decode 0x00100073 = .instr (.ebreak) ∧
    decode 0x03648CB3 = .instr (.mul 25 9 22) ∧
    decode 0x03649CB3 = .instr (.mulh 25 9 22) ∧
    decode 0x0364ACB3 = .instr (.mulhsu 25 9 22) ∧
    decode 0x0364BCB3 = .instr (.mulhu 25 9 22) ∧
    decode 0x0364CCB3 = .instr (.div 25 9 22) ∧
    decode 0x0364DCB3 = .instr (.divu 25 9 22) ∧
    decode 0x0364ECB3 = .instr (.rem 25 9 22) ∧
    decode 0x0364FCB3 = .instr (.remu 25 9 22) := by decide +kernel
theorem test_decode_4 :
    decode 0x03648CBB = .instr (.mulw 25 9 22) ∧
    decode 0x0364CCBB = .instr (.divw 25 9 22) ∧
    decode 0x0364DCBB = .instr (.divuw 25 9 22) ∧
    decode 0x0364ECBB = .instr (.remw 25 9 22) ∧
    decode 0x0364FCBB = .instr (.remuw 25 9 22) ∧
    decode 0x1404ACAF = .instr (.lrW 25 9 1 0) ∧
    decode 0x1004BCAF = .instr (.lrD 25 9 0 0) ∧
    decode 0x1B64ACAF = .instr (.scW 25 9 22 0 1) ∧
    decode 0x1D64BCAF = .instr (.scD 25 9 22 1 0) ∧
    decode 0x0964ACAF = .instr (.amoswapW 25 9 22 0 0) ∧
    decode 0x0B64BCAF = .instr (.amoswapD 25 9 22 0 1) ∧
    decode 0x0564ACAF = .instr (.amoaddW 25 9 22 1 0) ∧
    decode 0x0164BCAF = .instr (.amoaddD 25 9 22 0 0) ∧
    decode 0x2364ACAF = .instr (.amoxorW 25 9 22 0 1) ∧
    decode 0x2564BCAF = .instr (.amoxorD 25 9 22 1 0) ∧
    decode 0x6164ACAF = .instr (.amoandW 25 9 22 0 0) ∧
    decode 0x6364BCAF = .instr (.amoandD 25 9 22 0 1) ∧
    decode 0x4564ACAF = .instr (.amoorW 25 9 22 1 0) ∧
    decode 0x4164BCAF = .instr (.amoorD 25 9 22 0 0) ∧
    decode 0x8364ACAF = .instr (.amominW 25 9 22 0 1) := by decide +kernel
theorem test_decode_5 :
    decode 0x8564BCAF = .instr (.amominD 25 9 22 1 0) ∧
    decode 0xA164ACAF = .instr (.amomaxW 25 9 22 0 0) ∧
    decode 0xA364BCAF = .instr (.amomaxD 25 9 22 0 1) ∧
    decode 0xC564ACAF = .instr (.amominuW 25 9 22 1 0) ∧
    decode 0xC164BCAF = .instr (.amominuD 25 9 22 0 0) ∧
    decode 0xE364ACAF = .instr (.amomaxuW 25 9 22 0 1) ∧
    decode 0xE564BCAF = .instr (.amomaxuD 25 9 22 1 0) ∧
    decode 0x9A349CF3 = .instr (.csrrw 25 9 2467) ∧
    decode 0x9A34ACF3 = .instr (.csrrs 25 9 2467) ∧
    decode 0x9A34BCF3 = .instr (.csrrc 25 9 2467) ∧
    decode 0x9A35DCF3 = .instr (.csrrwi 25 11 2467) ∧
    decode 0x9A35ECF3 = .instr (.csrrsi 25 11 2467) ∧
    decode 0x9A35FCF3 = .instr (.csrrci 25 11 2467) ∧
    decode 0x03648C8B = .instr (.vaddVV 25 22 9 0 0 1) ∧
    decode 0x03649C8B = .instr (.vaddVX 25 22 9 0 1) ∧
    decode 0x096AAC8B = .instr (.vaddVI 25 22 21 1 0) ∧
    decode 0x0764BC8B = .instr (.vaddVR 25 22 9 1 1) ∧
    decode 0x15648C8B = .instr (.vsubVV 25 22 9 0 1 0) ∧
    decode 0x19649C8B = .instr (.vsubVX 25 22 9 1 0) ∧
    decode 0x116AAC8B = .instr (.vsubVI 25 22 21 0 0) := by decide +kernel
theorem test_decode_6 :
    decode 0x1764BC8B = .instr (.vsubVR 25 22 9 1 1) ∧
    decode 0x29648C8B = .instr (.vmulVV 25 22 9 1 0 0) ∧
    decode 0x21649C8B = .instr (.vmulVX 25 22 9 0 0) ∧
    decode 0x236AAC8B = .instr (.vmulVI 25 22 21 0 1) ∧
    decode 0x2764BC8B = .instr (.vmulVR 25 22 9 1 1) ∧
    decode 0x33648C8B = .instr (.vgathergVV 25 22 9 0 0 1) ∧
    decode 0x33649C8B = .instr (.vgathergVX 25 22 9 0 1) ∧
    decode 0x396AAC8B = .instr (.vgathergVI 25 22 21 1 0) ∧
    decode 0x3764BC8B = .instr (.vgathergVR 25 22 9 1 1) ∧
    decode 0x45648C8B = .instr (.vandVV 25 22 9 0 1 0) ∧
    decode 0x49649C8B = .instr (.vandVX 25 22 9 1 0) ∧
    decode 0x416AAC8B = .instr (.vandVI 25 22 21 0 0) ∧
    decode 0x4764BC8B = .instr (.vandVR 25 22 9 1 1) ∧
    decode 0x59648C8B = .instr (.vorVV 25 22 9 1 0 0) ∧
    decode 0x51649C8B = .instr (.vorVX 25 22 9 0 0) ∧
    decode 0x536AAC8B = .instr (.vorVI 25 22 21 0 1) ∧
    decode 0x5764BC8B = .instr (.vorVR 25 22 9 1 1) ∧
    decode 0x63648C8B = .instr (.vxorVV 25 22 9 0 0 1) ∧
    decode 0x63649C8B = .instr (.vxorVX 25 22 9 0 1) ∧
    decode 0x696AAC8B = .instr (.vxorVI 25 22 21 1 0) := by decide +kernel
theorem test_decode_7 :
    decode 0x6764BC8B = .instr (.vxorVR 25 22 9 1 1) ∧
    decode 0x75648C8B = .instr (.vsllVV 25 22 9 0 1 0) ∧
    decode 0x79649C8B = .instr (.vsllVX 25 22 9 1 0) ∧
    decode 0x716AAC8B = .instr (.vsllVI 25 22 21 0 0) ∧
    decode 0x7764BC8B = .instr (.vsllVR 25 22 9 1 1) ∧
    decode 0x89648C8B = .instr (.vsrlVV 25 22 9 1 0 0) ∧
    decode 0x81649C8B = .instr (.vsrlVX 25 22 9 0 0) ∧
    decode 0x836AAC8B = .instr (.vsrlVI 25 22 21 0 1) ∧
    decode 0x8764BC8B = .instr (.vsrlVR 25 22 9 1 1) ∧
    decode 0x93648C8B = .instr (.vsraVV 25 22 9 0 0 1) ∧
    decode 0x93649C8B = .instr (.vsraVX 25 22 9 0 1) ∧
    decode 0x996AAC8B = .instr (.vsraVI 25 22 21 1 0) ∧
    decode 0x9764BC8B = .instr (.vsraVR 25 22 9 1 1) ∧
    decode 0xA5648C8B = .instr (.vminVV 25 22 9 0 1 0) ∧
    decode 0xA9649C8B = .instr (.vminVX 25 22 9 1 0) ∧
    decode 0xA16AAC8B = .instr (.vminVI 25 22 21 0 0) ∧
    decode 0xA764BC8B = .instr (.vminVR 25 22 9 1 1) ∧
    decode 0xB9648C8B = .instr (.vmaxVV 25 22 9 1 0 0) ∧
    decode 0xB1649C8B = .instr (.vmaxVX 25 22 9 0 0) ∧
    decode 0xB36AAC8B = .instr (.vmaxVI 25 22 21 0 1) := by decide +kernel
theorem test_decode_8 :
    decode 0xB764BC8B = .instr (.vmaxVR 25 22 9 1 1) ∧
    decode 0xC3648C8B = .instr (.vmseqVV 25 22 9 0 0 1) ∧
    decode 0xC3649C8B = .instr (.vmseqVX 25 22 9 0 1) ∧
    decode 0xC96AAC8B = .instr (.vmseqVI 25 22 21 1 0) ∧
    decode 0xC764BC8B = .instr (.vmseqVR 25 22 9 1 1) ∧
    decode 0xD5648C8B = .instr (.vmsltVV 25 22 9 0 1 0) ∧
    decode 0xD9649C8B = .instr (.vmsltVX 25 22 9 1 0) ∧
    decode 0xD16AAC8B = .instr (.vmsltVI 25 22 21 0 0) ∧
    decode 0xD764BC8B = .instr (.vmsltVR 25 22 9 1 1) ∧
    decode 0xE9648C8B = .instr (.vmsltuVV 25 22 9 1 0 0) ∧
    decode 0xE1649C8B = .instr (.vmsltuVX 25 22 9 0 0) ∧
    decode 0xE36AAC8B = .instr (.vmsltuVI 25 22 21 0 1) ∧
    decode 0xE764BC8B = .instr (.vmsltuVR 25 22 9 1 1) ∧
    decode 0xF3648C8B = .instr (.vgatherVV 25 22 9 0 0 1) ∧
    decode 0xF3649C8B = .instr (.vgatherVX 25 22 9 0 1) ∧
    decode 0xF96AAC8B = .instr (.vgatherVI 25 22 21 1 0) ∧
    decode 0xF764BC8B = .instr (.vgatherVR 25 22 9 1 1) ∧
    decode 0x0564CC8B = .instr (.vfaddFVV 25 22 9 0 1 0) ∧
    decode 0x0964DC8B = .instr (.vfaddFVX 25 22 9 1 0) ∧
    decode 0x0964EC8B = .instr (.vfaddFVR 25 22 9 2 0) := by decide +kernel
theorem test_decode_9 :
    decode 0x1564CC8B = .instr (.vfsubFVV 25 22 9 0 1 0) ∧
    decode 0x1964DC8B = .instr (.vfsubFVX 25 22 9 1 0) ∧
    decode 0x1764EC8B = .instr (.vfsubFVR 25 22 9 1 1) ∧
    decode 0x2564CC8B = .instr (.vfmulFVV 25 22 9 0 1 0) ∧
    decode 0x2964DC8B = .instr (.vfmulFVX 25 22 9 1 0) ∧
    decode 0x2964EC8B = .instr (.vfmulFVR 25 22 9 2 0) ∧
    decode 0x3564CC8B = .instr (.vfdivFVV 25 22 9 0 1 0) ∧
    decode 0x3964DC8B = .instr (.vfdivFVX 25 22 9 1 0) ∧
    decode 0x3764EC8B = .instr (.vfdivFVR 25 22 9 1 1) ∧
    decode 0x4564CC8B = .instr (.vfmaccFVV 25 22 9 0 1 0) ∧
    decode 0x4964DC8B = .instr (.vfmaccFVX 25 22 9 1 0) ∧
    decode 0x4964EC8B = .instr (.vfmaccFVR 25 22 9 2 0) ∧
    decode 0x5564CC8B = .instr (.vfnmsacFVV 25 22 9 0 1 0) ∧
    decode 0x5964DC8B = .instr (.vfnmsacFVX 25 22 9 1 0) ∧
    decode 0x5764EC8B = .instr (.vfnmsacFVR 25 22 9 1 1) ∧
    decode 0x6564CC8B = .instr (.vfminFVV 25 22 9 0 1 0) ∧
    decode 0x6964DC8B = .instr (.vfminFVX 25 22 9 1 0) ∧
    decode 0x6964EC8B = .instr (.vfminFVR 25 22 9 2 0) ∧
    decode 0x7564CC8B = .instr (.vfmaxFVV 25 22 9 0 1 0) ∧
    decode 0x7964DC8B = .instr (.vfmaxFVX 25 22 9 1 0) := by decide +kernel
theorem test_decode_10 :
    decode 0x7764EC8B = .instr (.vfmaxFVR 25 22 9 1 1) ∧
    decode 0x8564CC8B = .instr (.vfmfeqFVV 25 22 9 0 1 0) ∧
    decode 0x8964DC8B = .instr (.vfmfeqFVX 25 22 9 1 0) ∧
    decode 0x8964EC8B = .instr (.vfmfeqFVR 25 22 9 2 0) ∧
    decode 0x9564CC8B = .instr (.vfmfltFVV 25 22 9 0 1 0) ∧
    decode 0x9964DC8B = .instr (.vfmfltFVX 25 22 9 1 0) ∧
    decode 0x9764EC8B = .instr (.vfmfltFVR 25 22 9 1 1) ∧
    decode 0xA564CC8B = .instr (.vfmfleFVV 25 22 9 0 1 0) ∧
    decode 0xA964DC8B = .instr (.vfmfleFVX 25 22 9 1 0) ∧
    decode 0xA964EC8B = .instr (.vfmfleFVR 25 22 9 2 0) ∧
    decode 0xB564CC8B = .instr (.vcvtq4 25 22 9 0 1 0) ∧
    decode 0xC964CC8B = .instr (.vfsgnjFVV 25 22 9 1 0 0) ∧
    decode 0xC164DC8B = .instr (.vfsgnjFVX 25 22 9 0 0) ∧
    decode 0xC964EC8B = .instr (.vfsgnjFVR 25 22 9 2 0) ∧
    decode 0xD964CC8B = .instr (.vfsgnjnFVV 25 22 9 1 0 0) ∧
    decode 0xD164DC8B = .instr (.vfsgnjnFVX 25 22 9 0 0) ∧
    decode 0xD764EC8B = .instr (.vfsgnjnFVR 25 22 9 1 1) ∧
    decode 0xE964CC8B = .instr (.vfsgnjxFVV 25 22 9 1 0 0) ∧
    decode 0xE164DC8B = .instr (.vfsgnjxFVX 25 22 9 0 0) ∧
    decode 0xE964EC8B = .instr (.vfsgnjxFVR 25 22 9 2 0) := by decide +kernel
theorem test_decode_11 :
    decode 0xF964CC8B = .instr (.vfscaleFVV 25 22 9 1 0 0) ∧
    decode 0xF164DC8B = .instr (.vfscaleFVX 25 22 9 0 0) ∧
    decode 0xF764EC8B = .instr (.vfscaleFVR 25 22 9 1 1) ∧
    decode 0x09607C8B = .instr (.vmv 25 22 1 0) ∧
    decode 0x0290FC8B = .instr (.vsplat 25 9 1) ∧
    decode 0x02917C8B = .instr (.vmvsx 25 9) ∧
    decode 0x0B61FC8B = .instr (.vmvxs 25 22 1) ∧
    decode 0x00027C8B = .instr (.vid 25 0) ∧
    decode 0x0362FC8B = .instr (.vredsum 25 22 0 1) ∧
    decode 0x09637C8B = .instr (.vredmin 25 22 1 0) ∧
    decode 0x0163FC8B = .instr (.vredmax 25 22 0 0) ∧
    decode 0x03647C8B = .instr (.vredand 25 22 0 1) ∧
    decode 0x0964FC8B = .instr (.vredor 25 22 1 0) ∧
    decode 0x01657C8B = .instr (.vredxor 25 22 0 0) ∧
    decode 0x0365FC8B = .instr (.vmpopc 25 22 0 1) ∧
    decode 0x09667C8B = .instr (.vmfirst 25 22 1 0) ∧
    decode 0x0966FC8B = .instr (.vcompress 25 22 1) ∧
    decode 0x00077C8B = .instr (.vrng 25 0) ∧
    decode 0x19607C8B = .instr (.vfrecip 25 22 1 0) ∧
    decode 0x1160FC8B = .instr (.vfrsqrt 25 22 0 0) := by decide +kernel
theorem test_decode_12 :
    decode 0x13617C8B = .instr (.vfexp2 25 22 0 1) ∧
    decode 0x1961FC8B = .instr (.vflog2 25 22 1 0) ∧
    decode 0x11627C8B = .instr (.vfsqrt 25 22 0 0) ∧
    decode 0x1362FC8B = .instr (.vfclass 25 22 0 1) ∧
    decode 0x19637C8B = .instr (.vfredsum 25 22 1 0) ∧
    decode 0x1163FC8B = .instr (.vfredosum 25 22 0 0) ∧
    decode 0x13647C8B = .instr (.vfredmin 25 22 0 1) ∧
    decode 0x1964FC8B = .instr (.vfredmax 25 22 1 0) ∧
    decode 0x21607C8B = .instr (.vncvt 25 22 0 0) ∧
    decode 0x2360FC8B = .instr (.vwcvt 25 22 0 1) ∧
    decode 0x29617C8B = .instr (.vncvti 25 22 1 0) ∧
    decode 0x2161FC8B = .instr (.vwcvti 25 22 0 0) ∧
    decode 0x23627C8B = .instr (.vwcvtn 25 22 0 1) ∧
    decode 0x2962FC8B = .instr (.vcvtif 25 22 1 0) ∧
    decode 0x21637C8B = .instr (.vcvtfi 25 22 0 0) ∧
    decode 0x2363FC8B = .instr (.vbscale 25 22 0 1) ∧
    decode 0x0A04ACAB = .instr (.vle 25 9 1 2 1) ∧
    decode 0x3164BCAB = .instr (.vlse 25 9 22 2 3 0) ∧
    decode 0x4B649CAB = .instr (.vlxe 25 22 9 1 1 0 1) ∧
    decode 0x9404ACAB = .instr (.vse 25 9 2 2 1 0) := by decide +kernel
theorem test_decode_13 :
    decode 0xA964BCAB = .instr (.vsse 25 9 22 1 3 0 0) ∧
    decode 0xD3649CAB = .instr (.vsxe 25 22 9 2 1 0 1) ∧
    decode 0xEC04ACAB = .instr (.vappend 25 9 1 2 1 0) ∧
    decode 0x6164BCAB = .instr (.vamoadd 25 22 9 3 0) ∧
    decode 0x67649CAB = .instr (.vamomin 25 22 9 1 1) ∧
    decode 0x6B64ACAB = .instr (.vamomax 25 22 9 2 1) ∧
    decode 0x6F64BCAB = .instr (.vamoswap 25 22 9 3 1) ∧
    decode 0x71649CAB = .instr (.vamoxor 25 22 9 1 0) ∧
    decode 0x0964815B = .instr (.mopa 2 22 9 1 0 0) ∧
    decode 0x136481DB = .instr (.mopd 3 22 9 0 0 1) ∧
    decode 0x200000DB = .instr (.mzero 1) ∧
    decode 0x3964835B = .instr (.mcupd 6 22 9 1 0 0) ∧
    decode 0x02349CDB = .instr (.mdrain 25 3 9 1) ∧
    decode 0x10149CDB = .instr (.mdrainq 25 1 9 0) ∧
    decode 0x22201CDB = .instr (.mbest 25 2 1) ∧
    decode 0x0366A1DB = .instr (.mld 3 13 22) ∧
    decode 0x1366A0DB = .instr (.mst 1 13 22) ∧
    decode 0x2366A15B = .instr (.mfetch 2 22 13) ∧
    decode 0x1364BCDB = .instr (.vpmul 25 1 22 9 0 0 1) ∧
    decode 0x6564BCDB = .instr (.vpmacc 25 2 22 9 0 1 0) := by decide +kernel
theorem test_decode_14 :
    decode 0x9964BCDB = .instr (.vpconv 25 1 22 9 0 1 0) ∧
    decode 0xE364BCDB = .instr (.vpguard 25 2 22 9 0 0 1) ∧
    decode 0x0360CCDB = .instr (.vpack 25 1 22 0 1) ∧
    decode 0x19614CDB = .instr (.vunpack 25 2 22 1 0) ∧
    decode 0x216ACCDB = .instr (.vpext 25 1 22 5 0 0) ∧
    decode 0x8090415B = .instr (.flset 2 9) ∧
    decode 0x9000CCDB = .instr (.flget 25 1) ∧
    decode 0xA090405B = .instr (.msetshape 9) ∧
    decode 0xB090405B = .instr (.msetcfg 9) ∧
    decode 0xC0004CDB = .instr (.mgetstat 25) ∧
    decode 0xD000405B = .instr (.mclrstat) ∧
    decode 0x0004D05B = .instr (.vblk 9) ∧
    decode 0x10005CDB = .instr (.vreply 25) ∧
    decode 0x2000505B = .instr (.vdrainq) ∧
    decode 0x300050DB = .instr (.vstrip 1) ∧
    decode 0x4004D15B = .instr (.vloop 2 9) ∧
    decode 0x506450DB = .instr (.vlbnz 1 200) ∧
    decode 0x60645CDB = .instr (.baddi 25 200) ∧
    decode 0x70015CDB = .instr (.baddvl 25 2) ∧
    decode 0x8160505B = .instr (.vcond 22 0 0) := by decide +kernel
theorem test_decode_15 :
    decode 0x9004D05B = .instr (.vpost 9) ∧
    decode 0x0264605B = .instr (.vsplit 200 1) ∧
    decode 0x1B64E35B = .instr (.lbeq 22 9 166) ∧
    decode 0x2B64E35B = .instr (.lbne 22 9 166) ∧
    decode 0x3B64E35B = .instr (.lblt 22 9 166) ∧
    decode 0x4B64E35B = .instr (.lbge 22 9 166) ∧
    decode 0x5064605B = .instr (.ljmp 200) ∧
    decode 0x6000605B = .instr (.ljoin) ∧
    decode 0xB0710CFB = .instr (.vsetcfgi 25 11015) ∧
    decode 0x00049CFB = .instr (.vsetcfg 25 9) ∧
    decode 0x0200107B = .instr (.vdecl 0) ∧
    decode 0x0164A5FB = .instr (.sybind 9 22 11) ∧
    decode 0x0214A07B = .instr (.acq 9 1) ∧
    decode 0x0424A07B = .instr (.rel 9 2) ∧
    decode 0x0630207B = .instr (.fencev 3) ∧
    decode 0x0814A07B = .instr (.bara 9 1) ∧
    decode 0x0A24A07B = .instr (.barw 9 2) ∧
    decode 0x0C04A07B = .instr (.publish 9) ∧
    decode 0x5164BCFB = .instr (.cpy 25 5 9 22) ∧
    decode 0x5B64BCFB = .instr (.cpyc 25 5 9 22 1) := by decide +kernel
theorem test_decode_16 :
    decode 0x5D64BCFB = .instr (.cpyx 25 5 9 22 1) ∧
    decode 0x0164C5FB = .instr (.stmap 9 22 11) ∧
    decode 0x0204C07B = .instr (.stunmap 9) ∧
    decode 0x0564C07B = .instr (.stwb 9 22) ∧
    decode 0x0764C07B = .instr (.stdrop 9 22) ∧
    decode 0x1564C1FB = .instr (.l2pin 2 9 22 3) ∧
    decode 0x2600407B = .instr (.l2unpin 3) ∧
    decode 0x0004DCFB = .instr (.sbind 25 9) ∧
    decode 0x02005CFB = .instr (.sunbind 25) ∧
    decode 0x1164D07B = .instr (.vfxadd 22 9) ∧
    decode 0x1214DCFB = .instr (.fxrd 25 9 1) ∧
    decode 0x1564D07B = .instr (.fxclr 9 22) ∧
    decode 0x0000607B = .instr (.tdone) ∧
    decode 0x0204E07B = .instr (.tspawn 9) ∧
    decode 0x0400607B = .instr (.tyield) ∧
    decode 0x0604ECFB = .instr (.tinfo 25 9) ∧
    decode 0x0804E07B = .instr (.trapc 9) := by decide +kernel

/-! ## Words that the manual prints beside their text -/

theorem test_printed_words :
    decode 0x0000607B = .instr .tdone ∧ decode 0x0006505B = .instr (.vblk 12) ∧ decode 0x00553023 = .instr (.sd 10 5 0) ∧
    decode 0x0200F18B = .instr (.vsplat 3 0 1) ∧ decode 0x020520AB = .instr (.vle 1 10 0 2 1) ∧ decode 0x0231F28B = .instr (.vmvxs 5 3 0) ∧
    decode 0x0A22F18B = .instr (.vredsum 3 2 1 1) ∧ decode 0x100052DB = .instr (.vreply 5) ∧ decode 0x1020007B = .instr (.vsetcfgi 0 0x102) ∧
    decode 0x2000505B = .instr .vdrainq ∧ decode 0x3000505B = .instr (.vstrip 0) ∧ decode 0x4005D05B = .instr (.vloop 0 11) ∧
    decode 0x5006505B = .instr (.vlbnz 0 12) ∧ decode 0x600155DB = .instr (.baddi 11 2) ∧ decode 0x7001555B = .instr (.baddvl 10 2) ∧
    decode 0x8606212B = .instr (.vse 2 12 0 2 1 1) ∧ decode 0x9005D05B = .instr (.vpost 11) ∧ decode 0xAA15210B = .instr (.vminVI 2 1 10 1 1) := by
  decide +kernel

theorem test_printed_words_more :
    decode 0x0224A07B = .instr (.acq 9 2) ∧ decode 0x0424A07B = .instr (.rel 9 2) ∧ decode 0x0630207B = .instr (.fencev 3) ∧
    decode 0x0834207B = .instr (.bara 8 3) ∧ decode 0x0A34207B = .instr (.barw 8 3) ∧ decode 0x0C04A07B = .instr (.publish 9) ∧
    decode 0x00B5267B = .instr (.sybind 10 11 12) ∧ decode 0x14B5507B = .instr (.fxclr 10 11) ∧ decode 0x1205527B = .instr (.fxrd 4 10 0) ∧
    decode 0x1215527B = .instr (.fxrd 4 10 1) ∧ decode 0x1025507B = .instr (.vfxadd 2 10) ∧ decode 0x060362FB = .instr (.tinfo 5 6) ∧
    decode 0x0205607B = .instr (.tspawn 10) ∧ decode 0x0400607B = .instr .tyield ∧ decode 0x2271D38B = .instr (.vfmulFVX 7 7 3 0 1) ∧
    decode 0x2654448B = .instr (.vfmulFVV 9 5 8 0 1 1) ∧ decode 0x1A93738B = .instr (.vfredsum 7 9 1 1) ∧ decode 0x0202730B = .instr (.vid 6 1) ∧
    decode 0xC260200B = .instr (.vmseqVI 0 6 0 0 1) ∧ decode 0x6273838B = .instr (.vxorVV 7 7 7 0 0 1) ∧ decode 0x0200A42B = .instr (.vle 8 1 0 2 1) ∧
    decode 0x800123AB = .instr (.vse 7 2 0 2 0 0) := by decide +kernel

/-! ## Ill-formed terms, one for each check -/

theorem test_wf_widths :
    Instr.wf (.vle 0 0 0 4 0) = false ∧
    Instr.wf (.vlse 0 0 0 0 4 0) = false ∧
    Instr.wf (.vlxe 0 0 0 0 4 0 0) = false ∧
    Instr.wf (.vse 0 0 0 4 0 0) = false ∧
    Instr.wf (.vsse 0 0 0 0 4 0 0) = false ∧
    Instr.wf (.vsxe 0 0 0 0 4 0 0) = false ∧
    Instr.wf (.vappend 0 0 0 4 0 0) = false ∧
    Instr.wf (.vamoadd 0 0 0 4 0) = false ∧
    Instr.wf (.vamomin 0 0 0 4 0) = false ∧
    Instr.wf (.vamomax 0 0 0 4 0) = false ∧
    Instr.wf (.vamoswap 0 0 0 4 0) = false ∧
    Instr.wf (.vamoxor 0 0 0 4 0) = false := by decide +kernel

theorem test_wf_fields :
    Instr.wf (.vpext 0 0 0 7 0 0) = false ∧
    Instr.wf (.vlbnz 0 0) = false ∧
    Instr.wf (.vlbnz 0 254) = false ∧
    Instr.wf (.vsplit 0 0) = false ∧
    Instr.wf (.lbeq 0 0 0) = false ∧
    Instr.wf (.lbne 0 0 0) = false ∧
    Instr.wf (.lblt 0 0 0) = false ∧
    Instr.wf (.lbge 0 0 0) = false ∧
    Instr.wf (.ljmp 0) = false ∧
    Instr.wf (.vdecl 3) = false ∧
    Instr.wf (.acq 0 6) = false ∧
    Instr.wf (.rel 0 6) = false ∧
    Instr.wf (.fencev 6) = false ∧
    Instr.wf (.bara 0 6) = false ∧
    Instr.wf (.barw 0 6) = false ∧
    Instr.wf (.cpy 0 0 0 0) = false ∧
    Instr.wf (.cpyc 0 0 0 0 0) = false ∧
    Instr.wf (.cpyx 0 0 0 0 0) = false ∧
    Instr.wf (.l2pin 0 0 0 0) = false ∧
    Instr.wf (.l2pin 0 0 0 9) = false ∧
    Instr.wf (.sbind 23 0) = false ∧
    Instr.wf (.sunbind 23) = false ∧
    Instr.wf (.fxrd 0 0 3) = false := by decide +kernel

theorem test_wf_events :
    Instr.wf (.wridx 4096 0) = false ∧
    Instr.wf (.qctlSkip 4096) = false ∧
    Instr.wf (.qctlDiscard 4096) = false ∧
    Instr.wf (.qctlStop 4096) = false ∧
    Instr.wf (.qctlResume 4096) = false ∧
    Instr.wf (.launchGraph 4096 0) = false ∧
    Instr.wf (.launchNode 4096 0) = false ∧
    Instr.wf (.waitValue 4096 0) = false ∧
    Instr.wf (.writeValue 4096 0) = false ∧
    Instr.wf (.indirect 4096 0) = false ∧
    Instr.wf (.setSeed 4096 0) = false ∧
    Instr.wf (.regionCreate 4096 0) = false ∧
    Instr.wf (.regionDestroy 4096 0) = false ∧
    Instr.wf (.fencePacket 4096 0) = false ∧
    Instr.wf (.unknownKindPacket 4096 0) = false ∧
    Instr.wf (.portTrainingLost 18) = false ∧
    Instr.wf (.portTrained 18) = false ∧
    Instr.wf (.serviceRequest 0) = false ∧
    Instr.wf (.serviceRequest 8) = false ∧
    Instr.wf (.firmwareSwitchComplete 3) = false ∧
    Instr.wf (.queueDisableComplete 4096) = false ∧
    Instr.wf (.registerWrite .bar0 0 3 0) = false ∧
    Instr.wf (.fetchFault 5 0 0) = false := by decide +kernel

/-! ## Machines to test on -/

/-- A part of grade 8 in boot stage 4 (R78, R394). -/
def ready : State := ({ State.reset with boot := { Boot.reset with stage := 4 } } : State).enumerate Boot.reset.gradeRecord

/-- A running task whose control thread stands at a word: a context whose page table maps the first GiB onto itself, and a
fault-domain entry with a ring of 16 records (log 2). -/
def ctl : State := ready.placeAs .c 0x00000013

/-- The same with some x registers set. -/
def ctlX (l : List (Nat × Word)) : State :=
  { ctl with task := { ctl.task with x := l.foldl (fun v p => v.setIfInBounds p.1 p.2) ctl.task.x } }

/-- An ARRAY task whose vector unit issues a word of a block with 253 words and every header flag. -/
def blk (vcfg : Word) (vl : Nat) : State :=
  let s := ready.placeAs .b 0
  { s with cur := .vector, task := { s.task with vcfg := vcfg, vl := vl } }

/-- The same with some block scalars set. -/
def blockX (l : List (Nat × Word)) : Block :=
  { placedBlock with xs := l.foldl (fun v p => v.setIfInBounds p.1 p.2) placedBlock.xs }
def blkX (vcfg : Word) (vl : Nat) (l : List (Nat × Word)) : State :=
  let s := blk vcfg vl
  { s with task := { s.task with block := some (blockX l) } }

/-- The same with a vector register set. -/
def withV (s : State) (n : Nat) (v : VReg) : State := { s with task := { s.task with v := s.task.v.setIfInBounds n v } }

/-- A lane thread of element 0 that issues a word of such a block. -/
def lan (vcfg : Word) : State :=
  let s := ready.placeAs .lOnly 0
  { s with cur := .lane 0, task := { s.task with vcfg := vcfg, vl := 1 } }

/-- Bytes put into the memory of a state. -/
def withMem (s : State) (a : Nat) (bs : List Byte) : State := { s with mem := Memory.setMany s.mem a bs }

/-- The second GiB mapped onto the host's space (home device 0xFFF, R226), with every right. -/
def withHostPage (s : State) : State := withMem s 0x2010 (bytesOf (0x1F + 2 ^ 64 * (0xFFF * 2 ^ 16)) 16)

/-- SEW 8 and SEW 32, 64 at LMUL 1, IEEE, nearest even (R146), and SEW 32 at LMUL 2 and 8. -/
abbrev sew32 : Word := 0x102
abbrev sew64 : Word := 0x103
abbrev sew32x2 : Word := 0x10A
abbrev sew32x8 : Word := 0x11A

/-- AtControl, AtBlock's and AtLane's data, and Plain, as checks. -/
def controlHere (s : State) : Bool := s.cur == .control && s.task.xPoison == 0
def runsHere (t : Task) (b : Block) : Bool :=
  (t.block == some b && t.streams == Vector.replicate 8 none && t.copies.isEmpty) &&
    (b.poison == 0 && t.vPoison.isEmpty && t.mPoison.isEmpty)
def plainHere (s : State) : Bool := !s.det && s.stash.isEmpty && s.task.windows == Vector.replicate 8 none && s.poison.isEmpty

theorem control_of {s : State} (h : controlHere s = true) : s.AtControl := by
  simp only [controlHere, Bool.and_eq_true, beq_iff_eq] at h; exact ⟨h.1, h.2⟩

/-- Without a stream no vector register is bound. -/
theorem unbound {t : Task} (free : t.streams = Vector.replicate 8 none) (n : Nat) : t.binding n = none := by
  simp only [Task.binding, free, Vector.getElem?_replicate]
  repeat' split
  all_goals rfl

theorem runs_of {t : Task} {b : Block} (h : runsHere t b = true) : t.Runs b := by
  simp only [runsHere, Bool.and_eq_true, beq_iff_eq, List.isEmpty_iff] at h
  have ⟨⟨⟨here, free⟩, copies⟩, ⟨scalars, registers⟩, tiles⟩ := h
  exact { block := here, streams := unbound free, copies, scalars, registers, tiles }

theorem block_of {s : State} {b : Block} (h : (s.cur == .vector && runsHere s.task b) = true) : s.AtBlock b := by
  simp only [Bool.and_eq_true, beq_iff_eq] at h; exact ⟨h.1, runs_of h.2⟩

theorem lane_of {s : State} {b : Block} {e : Nat} (h : (s.cur == .lane e && runsHere s.task b) = true) : s.AtLane b e := by
  simp only [Bool.and_eq_true, beq_iff_eq] at h; exact ⟨h.1, runs_of h.2⟩

theorem word_of_block {s : State} {b : Block} (h : s.AtBlock b) : s.AtWord b := ⟨.inl h.party, h.runs⟩
theorem word_of_lane {s : State} {b : Block} {e : Nat} (h : s.AtLane b e) : s.AtWord b := ⟨.inr ⟨e, h.party⟩, h.runs⟩

theorem plain_of {s : State} (h : plainHere s = true) : s.Plain := by
  simp only [plainHere, Bool.and_eq_true, Bool.not_eq_true', beq_iff_eq, List.isEmpty_iff] at h
  obtain ⟨⟨⟨h1, h2⟩, h3⟩, h4⟩ := h
  refine ⟨h1, h2, fun va => ?_, h4⟩
  simp only [State.inWindow, h3, Vector.toList_replicate]; rfl

theorem array_of {s : State} {b : Block} (h : s.AtBlock b) (h2 : (s.task.id.kind == 2 && b.h0.getLsbD 11 && s.regsAllow 0) = true) :
    s.AtArray b := by
  simp only [Bool.and_eq_true, beq_iff_eq] at h2; exact ⟨h, h2.1.1, h2.1.2, h2.2⟩

theorem any_of {α : Type} {o : Option α} {f : α → Bool} (h : o.any f = true) : ∃ p, o = some p ∧ f p = true := by
  cases o with
  | none => cases h
  | some p => exact ⟨p, rfl, h⟩

theorem ok_of {ε α : Type} {e : Except ε α} (h : e.isOk = true) : ∃ p, e = .ok p := by
  cases e with
  | ok p => exact ⟨p, rfl⟩
  | error t => cases h

theorem error_of {ε α : Type} {e : Except ε α} (h : e.isOk = false) : ∃ t, e = .error t := by
  cases e with
  | ok p => cases h
  | error t => exact ⟨t, rfl⟩

theorem some_of {α : Type} {e : Option α} (h : e.isSome = true) : ∃ p, e = some p := by
  cases e with
  | some p => exact ⟨p, rfl⟩
  | none => cases h

theorem ok_with {e : Except Trap Place} {f : Place → Bool} (h : (match e with
    | .ok p => f p
    | .error _ => false) = true) : ∃ p, e = .ok p ∧ f p = true := by
  cases e with
  | ok p => exact ⟨p, rfl, h⟩
  | error t => cases h

/-! ## Witnesses -/

/-! ## Statements: encoding, the step, the control core -/

/-- A restored task with one saved array word, MZERO of tile 0, in its array queue (R347), and the same with that word under way. -/
def savedWord : ArrayEntry :=
  { word := 0, off := 0, vcfg := sew32, vl := 1, mshape := 0, mcfg := 0, fl := 0, plan := 0, xs := Vector.replicate 32 0 }
def restoredCtl : State := { ctl with task := { ctl.task with aqueue := [savedWord] } }
def saving : State := { restoredCtl with cur := .vector, task := restoredCtl.task.enterEntry }

theorem witness_RegistersAndProgress :
    ctl.cur = .control ∧ ctl.task.block = none ∧
    (lan sew32).cur ≠ .control ∧ (lan sew32).task.block = some placedBlock ∧ (lan sew32).task.split = some placedSplit ∧
    (blk sew32 1).cur = .vector ∧ (placedBlock.off + 1 < placedBlock.len) ∧
    ({ placedBlock with off := 251 } : Block).off + 1 < placedBlock.len ∧
    placedBlock.len ≤ ({ placedBlock with off := 252 } : Block).off + 1 ∧
    (blk sew32 1).task.entrySave = none ∧ saving.cur = .vector ∧ saving.task.entrySave ≠ none :=
  ⟨rfl, rfl, by decide, rfl, rfl, rfl, by decide, by decide, by decide, rfl, rfl, by decide +kernel⟩

/-- The word that the control thread of a state fetches, time having passed, and the fault of its fetch. -/
def fetchedWord (s : State) : Option (BitVec 32) := match (({ s with sched := [] } : State).tick).fetch .control with
  | .word _ w => some w
  | _ => none
def fetchedFault (s : State) : Option (Nat × Option Word) := match (({ s with sched := [] } : State).tick).fetch .control with
  | .bad _ t => some (t.cause, t.addr)
  | _ => none

theorem witness_StepRunsDecoded :
    (ready.withFetchWord 32 0x13).boot.tripped = false ∧
    (ready.withFetchWord 32 0x13).sched = .party (ready.withFetchWord 32 0x13).task.id.tid .control :: [] ∧
    (ready.withFetchWord 32 0x13).task.status = .running ∧
    fetchedWord (ready.withFetchWord 32 0x13) = some 0x13 ∧ decode 0x13 = .instr (.addi 0 0 0) ∧
    fetchedWord (ready.withFetchWord 32 0) = some 0 ∧ decode 0 = .reject .allZero ∧
    fetchedFault { ctl with task := { ctl.task with pc := 0x40000000 } } = some (0x04, some 0x40000000) ∧
    ctl.task.entrySave = none ∧ saving.task.entrySave ≠ none ∧
    ({ ctl with cur := .control } : State).codeWord ctl.task.pc = .ok 0x13 ∧
    restoredCtl.task.status = .running ∧ restoredCtl.task.servicing = none ∧ restoredCtl.task.aqueue = savedWord :: [] ∧ ctl.task.servicing = none ∧
    ({ ctl.task with servicing := some 0 } : Machine.Task).servicing.isSome = true ∧ ctl.stash = [] := by decide +kernel

/-- The word of a block in memory (R118): one that the vector unit stands at, and one that a lane thread stands at. -/
theorem witness_BlockFetch :
    (let s := withMem (blk sew32 1) 0x110000 (bytesOf 0xB1003CFD 4 ++ bytesOf 0 8 ++ bytesOf 0x13 4)
     s.task.status = .running ∧ s.task.servicing = none ∧ s.task.aqueue = [] ∧ s.task.split = none ∧ s.task.block = some placedBlock ∧
     s.task.h2Unread = false ∧ placedBlock.off < placedBlock.len ∧ (match s.codeWord (placedBlock.wordAddr placedBlock.off) with
       | .ok w => w == 0x13
       | .error _ => false) = true) ∧
    (let s := withMem (lan sew32) 0x110000 (bytesOf 0xB1003CFD 4 ++ bytesOf 0 8 ++ bytesOf 0x13 4)
     s.task.servicing = none ∧ s.task.aqueue = [] ∧ s.task.block = some placedBlock ∧
     (({ s with cur := .lane 0 } : State).curThread.any (fun th => !th.joined && th.off == 0)) = true ∧
     (match s.codeWord (placedBlock.wordAddr 0) with
       | .ok w => w == 0x13
       | .error _ => false) = true) := by decide +kernel

theorem witness_AtControl : ctl.AtControl ∧ (ctlX [(5, 7)]).AtControl := ⟨control_of (by decide +kernel), control_of (by decide +kernel)⟩

theorem witness_JumpsAndBranches :
    (ctlX [(5, 1), (6, BitVec.allOnes 64)]).AtControl ∧
    (let s := ctlX [(5, 1), (6, BitVec.allOnes 64)]
     (s.task.pc + (2#20 ++ 0#1).signExtend 64).toNat % 4 = 0 ∧ (s.task.pc + (1#20 ++ 0#1).signExtend 64).toNat % 4 ≠ 0 ∧
     s.x 5 = s.x 5 ∧ ¬(s.x 5 = s.x 6) ∧ (s.x 6).slt (s.x 5) = true ∧ (s.x 5).slt (s.x 6) = false ∧ (s.x 5).slt (s.x 5) = false ∧
     (s.x 5).ult (s.x 6) = true ∧ (s.x 6).ult (s.x 5) = false) := ⟨control_of (by decide +kernel), by decide +kernel⟩

theorem witness_Loads :
    (ctlX [(5, 0x3FFFFFF8), (6, 0x3FFFFFF9), (7, 0x40000000)]).AtControl ∧ (ctlX [(5, 0x3FFFFFF8), (6, 0x3FFFFFF9), (7, 0x40000000)]).Plain ∧
    (let s := ctlX [(5, 0x3FFFFFF8), (6, 0x3FFFFFF9), (7, 0x40000000)]
     ((s.x 5 + (0#12).signExtend 64).toNat % 8 = 0 ∧ ∃ p, s.locateRead (s.x 5 + (0#12).signExtend 64) 8 = .ok p) ∧
     (s.x 6 + (0#12).signExtend 64).toNat % 2 ≠ 0 ∧
     ((s.x 7 + (0#12).signExtend 64).toNat % 8 = 0 ∧ ∃ t, s.locateRead (s.x 7 + (0#12).signExtend 64) 8 = .error t)) :=
  ⟨control_of (by decide +kernel), plain_of (by decide +kernel), ⟨by decide +kernel, ok_of (by decide +kernel)⟩, by decide +kernel, by decide +kernel, error_of (by decide +kernel)⟩

theorem witness_Stores :
    (ctlX [(5, 0x3FFFFFF8), (6, 0x3FFFFFF9), (7, 0x40000000)]).AtControl ∧ (ctlX [(5, 0x3FFFFFF8), (6, 0x3FFFFFF9), (7, 0x40000000)]).Plain ∧
    (let s := ctlX [(5, 0x3FFFFFF8), (6, 0x3FFFFFF9), (7, 0x40000000)]
     ((s.x 5 + (0#12).signExtend 64).toNat % 8 = 0 ∧ ∃ p, s.locate (s.x 5 + (0#12).signExtend 64) 8 .write = .ok p) ∧
     (s.x 6 + (0#12).signExtend 64).toNat % 2 ≠ 0 ∧
     ((s.x 7 + (0#12).signExtend 64).toNat % 8 = 0 ∧ ∃ t, s.locate (s.x 7 + (0#12).signExtend 64) 8 .write = .error t)) :=
  ⟨control_of (by decide +kernel), plain_of (by decide +kernel), ⟨by decide +kernel, ok_of (by decide +kernel)⟩, by decide +kernel, by decide +kernel, error_of (by decide +kernel)⟩

theorem witness_LoadReservedStoreConditional :
    (ctlX [(5, 0x3FFFFFF8), (6, 0x3FFFFFFC)]).AtControl ∧ (ctlX [(5, 0x3FFFFFF8), (6, 0x3FFFFFFC)]).Plain ∧
    (withHostPage (ctlX [(5, 0x40000000)])).AtControl ∧
    (let s := ctlX [(5, 0x3FFFFFF8), (6, 0x3FFFFFFC)]
     let r : State := { s with task := { s.task with resv := some 0x7FFFFF } }
     (s.x 5).toNat % 8 = 0 ∧ (∃ p, s.locateRead (s.x 5) 8 = .ok p ∧ (p.page.home == 0) = true) ∧ (s.x 6).toNat % 8 ≠ 0 ∧
     (∃ p, r.locate (r.x 5) 8 .write = .ok p ∧ (p.page.home == 0 && r.task.resv == some (p.key / 128)) = true) ∧
     (∃ p, s.locate (s.x 5) 8 .write = .ok p ∧ (p.page.home == 0 && s.task.resv != some (p.key / 128)) = true)) ∧
    (∃ p, (withHostPage (ctlX [(5, 0x40000000)])).locateRead 0x40000000 8 = .ok p ∧ (p.page.home != 0) = true) ∧
    (∃ p, (withHostPage (ctlX [(5, 0x40000000)])).locate 0x40000000 8 .write = .ok p ∧ (p.page.home != 0) = true) :=
  ⟨control_of (by decide +kernel), plain_of (by decide +kernel), control_of (by decide +kernel),
   ⟨by decide +kernel, ok_with (by decide +kernel), by decide +kernel, ok_with (by decide +kernel), ok_with (by decide +kernel)⟩,
   ok_with (by decide +kernel), ok_with (by decide +kernel)⟩

theorem witness_AtomicMemoryOperations :
    (ctlX [(5, 0x3FFFFFF8), (6, 0x3FFFFFFC)]).AtControl ∧ (ctlX [(5, 0x3FFFFFF8), (6, 0x3FFFFFFC)]).Plain ∧
    (let s := ctlX [(5, 0x3FFFFFF8), (6, 0x3FFFFFFC)]
     (s.x 5).toNat % 8 = 0 ∧ (∃ p, s.locateRead (s.x 5) 8 .atomic = .ok p ∧ (p.page.home == 0) = true) ∧ (s.x 6).toNat % 8 ≠ 0) :=
  ⟨control_of (by decide +kernel), plain_of (by decide +kernel), by decide +kernel, ok_with (by decide +kernel), by decide +kernel⟩

theorem witness_Traps : ctl.AtControl ∧ (blkX sew32 1 []).AtBlock (blockX []) ∧
    (cause 0x12).cause ≠ 0x04 ∧ (cause 0x12).cause ≠ 0x05 ∧ (cause 0x12).cause ≠ 0x0E ∧ (cause 0x12).whole = none ∧ ctl.task.entrySave = none := ⟨control_of (by decide +kernel), block_of (by decide +kernel), by decide⟩

/-- The placed machine with its fault-domain entry changed: base, wridx. -/
def ringAt (base wr : Nat) : State := withMem ctl 0x20000 (layBytes [(base, 8), (4, 1), (0, 7), (wr, 8)])

/-- Whether the ring of a fault-domain entry has room (R334). -/
def hasRoom (s : State) (p : Place) : Bool :=
  let field (off n : Nat) : Nat := leVal (s.peekBytes p.km (p.key + off) n)
  field 0x10 8 - field 0x18 8 < 2 ^ field 8 1

theorem witness_FaultDelivery :
    ctl.context 1 = some placedContext ∧
    (∃ p, ctl.yarrowPlace 1 0x20000 64 .read = some p) ∧ (∃ p, ctl.yarrowPlace 1 0x20000 64 .write = some p) ∧
    (∃ p, (ringAt 0x30000 15).yarrowPlace 1 0x20000 64 .read = some p ∧ hasRoom (ringAt 0x30000 15) p = true) ∧
    (∃ p, (ringAt 0x30000 16).yarrowPlace 1 0x20000 64 .read = some p ∧ (!hasRoom (ringAt 0x30000 16) p) = true) ∧
    (∃ p, (ringAt 0x30000 15).yarrowPlace 1 (BitVec.ofNat 64 (0x30000 + 15 * 64)) 64 .write = some p) ∧
    (ringAt 0x40000000 0).yarrowPlace 1 0x40000000 64 .write = none ∧ ctl.yarrowPlace 1 0x40000000 64 .read = none ∧
    (∃ p, ctl.yarrowPlace 1 0x20009 1 .read = some p) ∧
    ({ ctl with poison := [0x20000 / 64] } : State).yarrowPlace 1 0x20009 1 .read = none :=
  ⟨by decide +kernel, some_of (by decide +kernel), some_of (by decide +kernel), any_of (by decide +kernel), any_of (by decide +kernel),
   some_of (by decide +kernel), by decide +kernel, by decide +kernel, some_of (by decide +kernel), by decide +kernel⟩

/-- The placed machine with a save pool of a size. -/
def pooled (n : Nat) : State := { ctl with contexts := [{ placedContext with psize := n }] }

/-- A pool that holds exactly the image of the task, and one a byte short: a header with four directory entries, CTRL, BLOCK, REGS of a
grant of one strip, and PLANS (R345, R346). -/
theorem roomy_holds : (pooled 17472).poolHolds ctl.task = true := by decide +kernel
theorem short_full : (pooled 17471).poolHolds ctl.task = false := by decide +kernel

/-- The clauses that hold a task, and those of the fault service (the end of FaultDelivery). -/
theorem witness_FaultService :
    (ctl.deliverRecord 1 0 0).2 = true ∧ (pooled 17472).poolHolds ctl.task = true ∧
    (pooled 17471).poolHolds ctl.task = false ∧
    ((ringAt 0x30000 16).deliverRecord 1 0 0).2 = false ∧
    (withMem ctl 0x20009 [1]).domainHalts 1 0 = true ∧ ctl.domainHalts 1 0 = false ∧
    ({ cause := 0x05, addr := some 0x40000000 } : Trap).info.getLsbD 1 = false ∧ (0x40000000#64).toNat < 2 ^ 48 ∧
    (ctl.task.id.ctx, (0x40000000#64).toNat / 4096) ∉ ctl.unservable ∧ ctl.task.entrySave = none ∧
    ctl.task.status = .running ∧ ({ ctl.task with status := .waitPage 0 } : Machine.Task).status ≠ .running ∧
    ctl.task.servicing = none ∧ ({ ctl.task with servicing := some 1 } : Machine.Task).servicing = some (1 : BitVec 512) ∧
    (cause 0x0E).cause = 0x0E ∧ (cause 0x0E).whole = none :=
  ⟨by decide +kernel, roomy_holds, short_full, by decide +kernel, by decide +kernel, by decide +kernel, by decide, by decide, by decide +kernel, rfl, rfl,
   by decide, rfl, rfl, rfl, rfl⟩

/-- Records of a meld and of none, a fault that the service has had and one that it has not, be it that info bit 2 differs, and whether
the host is asked (R66, R140, R358). -/
theorem witness_Offered :
    (BitVec.ofNat 512 (2 ^ 10)).getLsbD 10 = true ∧ (0#512).getLsbD 10 = false ∧
    (let t : Machine.Task := { ctl.task with status := .waitPage (4#512 <<< 448) }
     t.status = .waitPage (4#512 <<< 448) ∧ t.offered 0 = true ∧ t.offered 1 = false) ∧
    (let t : Machine.Task := { ctl.task with servicing := some 1 }
     t.servicing = some 1 ∧ t.offered 1 = true) ∧ ctl.task.servicing = none ∧ ctl.task.offered 0 = false ∧
    ctl.port0.duty.getLsbD 2 = false ∧ ({ ctl with port0 := { ctl.port0 with duty := 4 } } : State).port0.duty.getLsbD 2 = true := by decide +kernel

/-! ## Statements: memory and the vector unit -/

theorem witness_WordsOutOfPlace : (blk sew32 1).cur ≠ .control ∧ (lan sew32).cur = .lane 0 ∧ (blk sew32 1).cur = .vector ∧ ctl.cur = .control :=
  by decide +kernel

theorem witness_MemoryReadAfterWrite : Memory.wf ctl.mem ∧ (0xF : Nat) / 16 < 0x10 / 16 ∧ (0x10 + 1 - 1) / 16 < 0x20 / 16 := by decide +kernel

/-- The second GiB mapped by a given level-2 entry. -/
def mapped (entry : Nat) : State := withMem ctl 0x2010 (bytesOf entry 16)

/-- How a walk ends without a page. -/
def walkEnd (e : Except WalkEnd Page) : Option WalkEnd := match e with
  | .ok _ => none
  | .error m => some m

theorem page_with {e : Except WalkEnd Page} {f : Page → Bool} (h : (match e with
    | .ok p => f p
    | .error _ => false) = true) : ∃ p, e = .ok p ∧ f p = true := by
  cases e with
  | ok p => exact ⟨p, rfl, h⟩
  | error t => cases h

/-- The page that the second GiB is mapped by, for the firmware complex. -/
def upper (entry : Nat) : Except WalkEnd Page := (mapped entry).pageOf none placedContext 0x40000000
def lower : Except WalkEnd Page := ctl.pageOf none placedContext 0x3FFFFFFF

/-- The same part with every die link down, and a page table on die 1, which the west I/O die then does not reach. -/
def cutTables : State := { ctl with links := ctl.links.map (fun l => { l with state := 1 }) }

/-- The second GiB double-backed, by the GiB at 4 GiB and the one behind it, with a descriptor of it at 0x50000 whose selector bit is given. -/
def doubled (sel : Nat) : State :=
  withMem { mapped 0x10000011F with bounds := [{ ctx := 1, obj := 0x50000 }] } 0x50000 (layBytes [(0x40000000, 8), (sel, 8), (0x1000, 8)])

theorem witness_Translation :
    2 ^ 48 ≤ (0x1000000000000#64).toNat ∧ (0xFFFFFFFFFFFF#64).toNat < 2 ^ 48 ∧ ctl.context 1 = some placedContext ∧
    walkEnd (upper 0) = some .absent ∧ walkEnd (upper 0x21) = some .malformed ∧
    (∃ p, lower = .ok p ∧ (p.rd && p.wr && p.ex && p.owner == 0 && !p.dbl && p.home == 0) = true) ∧
    (∃ p, upper 0x13 = .ok p ∧ (!p.rd && !p.wr && p.owner == 0) = true) ∧
    (∃ p, upper 0x21F = .ok p ∧ (p.rd && p.owner == 1) = true) ∧
    (∃ p, upper 0x20000001F = .ok p ∧ (!p.dbl && ((mapped 0x20000001F).reachCause none p.home 0x200000000 8 false).isSome) = true) ∧
    (∃ p, lower = .ok p ∧ (ctl.reachCause none p.home 0x3FFFFFFF 1 false).isNone = true) ∧
    walkEnd (ctl.walk none 0 3 0x40000) = some .absent ∧ walkEnd (upper 0x1001) = some .malformed ∧
    (ctl.rangeDie placedContext.ptroot).isSome = true ∧
    (ctl.homeDie 0x3FFFFFFF = some 0 ∧ ctl.homeDie (0x3FFFFFFF + 1 - 1) = some 0 ∧ ctl.homeDie (0x3FFFFFFF + 2 - 1) = some 1) ∧
    (∃ p, upper 0x1F = .ok p ∧ (p.home == 0) = true) ∧
    (∃ p, upper (0x1F + 2 ^ 64 * (5 * 2 ^ 16)) = .ok p ∧ (p.home == 5) = true) ∧
    cutTables.homeDie 0x40000000 = some 1 ∧ cutTables.exitCause 1 westExits = some 0x06 ∧ cutTables.pathCause 0 1 = some 0x06 ∧
    walkEnd (cutTables.walk none 0 2 0x40000000) = some (.lost 0x06) ∧ cutTables.exitCause 0 westExits = none := by
  and_intros <;> first | exact page_with (by decide +kernel) | decide +kernel

/-- The clauses of double-backed pages: each selector bit, the descriptor read, and an address that no object covers. -/
theorem witness_DoubleBacked :
    (∀ sel ∈ [0, 1], ((doubled sel).selector placedContext 0x40000FFF = some (sel == 1) ∧ (doubled sel).selector placedContext 0x40001000 = none)) ∧
    (∃ p, (doubled 1).pageOf none placedContext 0x40000FFF = .ok p ∧ (p.dbl && p.home == 0 && p.owner == 0 && p.grants .read && p.base == 0x100000000) =
      true) ∧
    (doubled 1).reachCause none 0 0x140000FFF 1 false = none ∧ (doubled 1).reachCause none 0 0x100000FFF 1 false = none ∧
    ∀ a ∈ [0x50000, 0x50017], (∃ p, (doubled 1).pageOf none placedContext a = .ok p ∧
      (!p.dbl && p.home == 0 && ((doubled 1).homeCause none (p.base + a % p.size)).isNone) = true) := by
  refine ⟨by decide +kernel, page_with (by decide +kernel), by decide +kernel, by decide +kernel, ?_⟩
  intro a h
  rcases List.mem_cons.1 h with rfl | h
  · exact page_with (by decide +kernel)
  · rcases List.mem_singleton.1 h with rfl; exact page_with (by decide +kernel)

/-- A granule poisoned, met by a read and missed by the next. -/
theorem witness_PoisonedReads :
    let s : State := { ctl with poison := [0x100000 / 64] }
    s.det = false ∧ (∃ p, s.locate 0x10003F 1 .read = .ok p ∧ s.poisoned p.key 1 = true) ∧
    (∃ p, s.locate 0x100040 1 .read = .ok p ∧ (!s.poisoned p.key 1) = true) ∧ ∃ t, s.locate 0x40000000 1 .read = .error t :=
  ⟨by decide +kernel, ok_with (by decide +kernel), ok_with (by decide +kernel), error_of (by decide +kernel)⟩

theorem witness_ActiveElements :
    (blk sew32 5).cur = .vector ∧ (lan sew32).cur = .lane 0 ∧ (blk sew32 5).task.perReg 32 = 128 ∧
    (9 : Fin 32).val = 8 + 128 / (blk sew32x2 5).task.perReg 32 := by decide +kernel

/-- The issuing states of the vector statements: a block word, and the word of a lane thread. -/
theorem witness_AtBlock (vcfg : Word) (vl : Nat) : (blkX vcfg vl []).AtBlock (blockX []) := ⟨rfl, ⟨rfl, rfl, rfl, rfl, rfl, fun n => by
  simp only [Task.binding]; split
  · show (((Vector.replicate 8 none : Vector (Option Stream) 8)[n - 24]?).getD none) = none
    rw [Vector.getElem?_replicate]; split <;> rfl
  · rfl⟩⟩

theorem witness_AtLane : (lan sew32).AtLane placedBlock 0 ∧ (lan sew32).AtWord placedBlock :=
  ⟨lane_of (by decide +kernel), word_of_lane (e := 0) (lane_of (by decide +kernel))⟩

/-- Groups that the register file admits, and that it does not: misaligned at LMUL 2, past the end at LMUL 8, or v0 as a masked
destination. -/
theorem witness_Groups :
    (blk sew32 5).task.groupsOk { srcs := [(8, 1), (12, 1)], dsts := [(31, 1)] } 0 = true ∧
    (blk sew32x8 5).task.groupsOk { srcs := [(8, 8)], dsts := [(24, 8)] } 1 = true ∧
    (blk sew32x2 5).task.groupsOk { srcs := [(7, 2)], dsts := [(4, 2)] } 1 = false ∧
    (blk sew32 5).task.groupsOk { srcs := [(8, 1)], dsts := [(0, 1)] } 0 = false := by decide +kernel

theorem witness_IntegerVectors :
    (blkX sew32x2 5 []).AtBlock (blockX []) ∧ (lan sew32).AtWord placedBlock ∧
    (blkX sew32x2 5 []).task.groupsOk { srcs := [(8, 2), (12, 2)], dsts := [(30, 2)] } 1 = true ∧
    (blkX sew32x2 5 []).task.groupsOk { srcs := [(8, 2), (12, 2)], dsts := [(31, 2)] } 1 = false ∧
    (blkX sew32x2 5 []).task.groupsOk { srcs := [(8, 2), (31, 1)], dsts := [(30, 2)] } 0 = true :=
  ⟨witness_AtBlock _ _, witness_AtLane.2, by decide +kernel⟩

/-- One register at LMUL 1 may be source and mask; at LMUL 2 it may not lie in a source group. -/
theorem witness_IntegerCompares :
    (blk sew32 5).task.lmul = 1 ∧ (blk sew32x2 5).task.lmul = 2 ∧
    overlap 10 1 8 2 = false ∧ overlap 10 1 12 2 = false ∧ overlap 9 1 8 2 = true ∧
    (blk sew32x2 5).task.groupsOk { srcs := [(8, 2), (12, 2)], dsts := [(10, 1)] } 1 = true ∧
    (blk sew32 5).task.groupsOk { srcs := [(8, 1), (8, 1)], dsts := [(8, 1)] } 1 = true := by decide +kernel

theorem witness_Gathers :
    overlap 4 2 8 2 = false ∧ overlap 4 2 12 2 = false ∧ overlap 4 2 4 2 = true ∧ overlap 24 2 24 8 = true ∧ overlap 22 2 24 8 = false ∧
    (blk sew32x2 5).task.groupsOk { srcs := [(8, 2), (12, 2)], dsts := [(4, 2)] } 1 = true ∧
    (let c := min 8 ((blk sew32x2 5).task.regCount - 28)
     c = 4 ∧ overlap 4 2 28 c = false ∧ (blk sew32x2 5).task.groupsOk { srcs := [], dsts := [(4, 2)], loose := [(28, c)] } 1 = true) := by
  decide +kernel

/-- VRNG with a counter range that just holds its draws, and one short by one. -/
def ranged (len : Nat) : State :=
  let s := blkX sew32 5 []
  { s with task := { s.task with id := { s.task.id with ctrlen := len } } }

theorem witness_VectorMoves :
    (ranged 5).AtBlock (blockX []) ∧ (lan sew32).AtWord placedBlock ∧
    (ranged 5).task.groupsOk { srcs := [(8, 1)], dsts := [(4, 1)] } 0 = true ∧
    (ranged 5).task.groupsOk { srcs := [], dsts := [(4, 1)] } 1 = true ∧ (ranged 5).task.groupsOk { srcs := [(31, 1)], dsts := [] } 1 = true ∧
    (ranged 5).task.rngpos.toNat + (ranged 5).task.vl * (0 + 1) ≤ (ranged 5).drawRange.2 ∧
    (ranged 4).drawRange.2 < (ranged 4).task.rngpos.toNat + (ranged 4).task.vl * (0 + 1) ∧
    (Vector.replicate 15 (0 : Word)).toList.length < 16 :=
  ⟨block_of (by decide +kernel), witness_AtLane.2, by decide +kernel⟩

theorem witness_MaskCounts :
    (blkX sew32x2 5 []).AtBlock (blockX []) ∧ (blkX sew32x2 0 []).AtBlock (blockX []) ∧ 0 < (blkX sew32x2 5 []).task.vl ∧
    (blkX sew32x2 0 []).task.vl = 0 ∧ (blkX sew32x2 5 []).task.lmul = 2 ∧
    (blkX sew32x2 5 []).task.groupsOk { srcs := [(7, 1)], dsts := [(4, 2)] } 0 = true ∧ ctl.cur ≠ .vector ∧ (lan sew32).cur ≠ .vector :=
  ⟨block_of (by decide +kernel), block_of (by decide +kernel), by decide +kernel, by decide +kernel, by decide +kernel, by decide +kernel, by decide, by decide⟩

theorem witness_IntegerReductions :
    (blk sew32x2 5).task.groupsOk { srcs := [(8, 2)], dsts := [(3, 1)] } 1 = true ∧
    (blk sew32x2 5).task.groupsOk { srcs := [(7, 1)], dsts := [(4, 2)] } 0 = true ∧
    (blk sew32x2 5).task.groupsOk { srcs := [(7, 1)], dsts := [(3, 2)] } 1 = false ∧
    overlap 4 2 8 2 = false ∧ overlap 8 2 8 2 = true ∧
    (blk sew32x2 5).task.groupsOk { srcs := [(8, 2)], dsts := [(4, 2)] } 0 = true := by decide +kernel

/-- A word that rounds: under nearest even always, under mode 5 only with counters left. -/
theorem mayRound_of {s : State} (h : (s.task.rm != 5 || s.task.vl == 0 || s.drawRange.2 != 0) = true) : s.MayRound := by
  simp only [Bool.or_eq_true, bne_iff_ne, beq_iff_eq] at h
  intro h1 h2
  rcases h with (h | h) | h
  · exact absurd h1 h
  · omega
  · exact h

theorem notMayRound_of {s : State} (h : (s.task.rm == 5 && s.task.vl != 0 && s.drawRange.2 == 0) = true) : ¬s.MayRound := by
  simp only [Bool.and_eq_true, bne_iff_ne, beq_iff_eq] at h
  intro m
  exact m h.1.1 (by omega) h.2

/-- SEW 32 under rounding mode 5. -/
abbrev sew32s : Word := 0x1502

theorem witness_Rounding : (blk sew32 5).MayRound ∧ ¬(blk sew32s 1).MayRound ∧ (blk sew32s 0).MayRound ∧
    ({ ranged 1 with task := { (ranged 1).task with vcfg := sew32s } } : State).MayRound :=
  ⟨mayRound_of (by decide +kernel), notMayRound_of (by decide +kernel), mayRound_of (by decide +kernel), mayRound_of (by decide +kernel)⟩

theorem witness_Formats :
    fmtOf (blk sew32 5).task.sew (blk sew32 5).task.fk = some binary32 ∧ (lan sew32).task.groupsOk { srcs := [(8, 1)], dsts := [(4, 1)] } 1 = true ∧
    fmtOf 32 0 = some binary32 ∧ (widePartner 32 0).isSome = true ∧ fmtOf (blk 0x122 5).task.sew (blk 0x122 5).task.fk = none := by decide +kernel

theorem witness_FloatReductionsAndResizes :
    overlap 4 2 8 4 = false ∧ (blk sew32x2 5).task.lmul ≠ 8 ∧ (blk sew32x2 5).task.sew ≠ 64 ∧
    (blk sew32x2 5).task.groupsOk { srcs := [(8, 4)], dsts := [(4, 2)] } 1 = true ∧
    overlap 4 4 8 2 = false ∧ (blk sew32x2 5).task.groupsOk { srcs := [(8, 2)], dsts := [(4, 4)] } 1 = true ∧
    overlap 8 2 8 4 = true ∧ (blk sew32x8 5).task.lmul = 8 ∧ (blk sew64 5).task.sew = 64 := by decide +kernel

theorem witness_BlockScaledFour :
    (blk sew32 32).task.sew = 32 ∧ (blk sew32 32).task.fk = 0 ∧ (blk sew32 32).task.vl % 32 = 0 ∧ (blk sew32 31).task.vl % 32 ≠ 0 ∧
    (blk sew32 32).task.groupsOk { srcs := [(8, 1), (12, 1)], dsts := [(4, 1)] } 1 = true ∧ overlap 4 1 8 1 = false ∧
    (blk sew64 32).task.sew ≠ 32 := by decide +kernel

/-- Element addresses for vector memory words: base and stride in x5 and x6. -/
def memBlk (base stride : Word) : State := blkX sew64 2 [(5, base), (6, stride)]

theorem witness_VectorLoads :
    (memBlk 0x3FFFFFF0 8).Plain ∧ (memBlk 0x3FFFFFF0 8).AtBlock (blockX [(5, 0x3FFFFFF0), (6, 8)]) ∧ (memBlk 0x3FFFFFF0 8).task.sewCode = 3 ∧
    (memBlk 0x3FFFFFF0 8).task.groupsOk { srcs := [], dsts := [(4, 1)] } 1 = true ∧ (memBlk 0x3FFFFFF0 8).actives 1 = [0, 1] ∧
    (∀ e ∈ [0, 1], ((memBlk 0x3FFFFFF0 8).x 5 + BitVec.ofNat 64 (e * 8)).toNat % 8 = 0 ∧
      ((memBlk 0x3FFFFFF0 8).locateRead ((memBlk 0x3FFFFFF0 8).x 5 + BitVec.ofNat 64 (e * 8)) 8).isOk = true) ∧
    ((memBlk 0x3FFFFFF8 8).locateRead ((memBlk 0x3FFFFFF8 8).x 5 + BitVec.ofNat 64 (0 * 8)) 8).isOk = true ∧
    ((memBlk 0x3FFFFFF8 8).locateRead ((memBlk 0x3FFFFFF8 8).x 5 + BitVec.ofNat 64 (1 * 8)) 8).isOk = false ∧
    ((memBlk 0x3FFFFFF0 4).x 5 + BitVec.ofNat 64 1 * (memBlk 0x3FFFFFF0 4).x 6).toNat % 8 ≠ 0 ∧
    overlap 4 1 8 1 = false ∧ (memBlk 0x3FFFFFF0 8).task.groupsOk { srcs := [(8, 1)], dsts := [(4, 1)] } 0 = true ∧
    (2 : BitVec 3).toNat ≠ (memBlk 0x3FFFFFF0 8).task.sewCode :=
  ⟨plain_of (by decide +kernel), block_of (by decide +kernel), by decide +kernel⟩

theorem witness_VectorStores :
    (memBlk 0x3FFFFFF0 8).Plain ∧ (memBlk 0x3FFFFFF0 8).AtBlock (blockX [(5, 0x3FFFFFF0), (6, 8)]) ∧
    (memBlk 0x3FFFFFF0 8).task.groupsOk { srcs := [(4, 1), (8, 1)], dsts := [] } 1 = true ∧
    (∀ e ∈ [0, 1], ((memBlk 0x3FFFFFF0 8).locate ((memBlk 0x3FFFFFF0 8).x 5 + BitVec.ofNat 64 (e * 8)) 8 .write).isOk = true) ∧
    ((memBlk 0x3FFFFFF8 8).locate ((memBlk 0x3FFFFFF8 8).x 5 + BitVec.ofNat 64 (1 * 8)) 8 .write).isOk = false :=
  ⟨plain_of (by decide +kernel), block_of (by decide +kernel), by decide +kernel⟩

theorem witness_VectorAtomics :
    (memBlk 0x3FFFFFF8 8).Plain ∧ (memBlk 0x3FFFFFF8 8).AtBlock (blockX [(5, 0x3FFFFFF8), (6, 8)]) ∧ 32 ≤ (memBlk 0x3FFFFFF8 8).task.sew ∧
    (blk 0x101 2).task.sew < 32 ∧ overlap 4 1 8 1 = false ∧ overlap 8 1 8 1 = true ∧
    (memBlk 0x3FFFFFF8 8).task.groupsOk { srcs := [(8, 1)], dsts := [(4, 1)] } 1 = true ∧
    (∀ e ∈ (memBlk 0x3FFFFFF8 8).actives 1, ((memBlk 0x3FFFFFF8 8).x 5 +
      BitVec.ofNat 64 ((memBlk 0x3FFFFFF8 8).task.elem 64 8 e)).toNat % 8 = 0 ∧
      ((memBlk 0x3FFFFFF8 8).locateRead ((memBlk 0x3FFFFFF8 8).x 5 + BitVec.ofNat 64 ((memBlk 0x3FFFFFF8 8).task.elem 64 8 e)) 8 .atomic).isOk = true) :=
  ⟨plain_of (by decide +kernel), block_of (by decide +kernel), by decide +kernel⟩

/-- A queue descriptor at 0x50000: buffer, capacity and tail (R175). -/
def appendBlk (buf cap tail : Nat) : State := withMem (memBlk 0x50000 0) 0x50000 (layBytes [(buf, 8), (cap, 8), (tail, 8), (0, 8)])

theorem witness_AppendToQueue :
    (appendBlk 0x60000 10 8).Plain ∧ (appendBlk 0x60000 10 8).AtBlock (blockX [(5, 0x50000), (6, 0)]) ∧
    ((appendBlk 0x60000 10 8).x 5).toNat % 32 = 0 ∧ ((memBlk 0x50010 0).x 5).toNat % 32 ≠ 0 ∧
    (appendBlk 0x60000 10 8).task.heldAppend = none ∧ ((appendBlk 0x60000 10 8).actives 1).length = 2 ∧
    (∃ p, (appendBlk 0x60000 10 8).locateRead 0x50000 32 .atomic = .ok p ∧
      (let s := appendBlk 0x60000 10 8
       let field (off n : Nat) : Nat := leVal ((List.range n).map (fun j => s.readPlain p.km (p.key + off + j)))
       field 0x10 8 + 2 ≤ field 0x08 8 && field 0 8 % 8 == 0) = true) ∧
    (∃ p, (appendBlk 0x60000 10 9).locateRead 0x50000 32 .atomic = .ok p ∧
      (let s := appendBlk 0x60000 10 9
       let field (off n : Nat) : Nat := leVal ((List.range n).map (fun j => s.readPlain p.km (p.key + off + j)))
       decide (field 0x08 8 < field 0x10 8 + 2)) = true) ∧
    ((blk sew64 0).actives 1).length = 0 ∧
    (let s := appendBlk 0x60000 10 8
     let held : HeldAppend := { desc := s.x 5, base := 0x60000, t := 8, elem := 0 }
     s.task.groupsOk { srcs := [(8, s.task.lmul)], dsts := [] } 1 = true ∧
     ((s.onTask (fun x => { x with heldAppend := some held })).appendPayload 8 0x60000 8 0 64
       ((s.actives 1).mapIdx (fun j i => (i, j)))).2.2 = none) :=
  ⟨plain_of (by decide +kernel), block_of (by decide +kernel), by decide +kernel, by decide +kernel, by decide +kernel, by decide +kernel,
   ok_with (by decide +kernel), ok_with (by decide +kernel), by decide +kernel, by decide +kernel⟩

/-! ## Statements: packed words, the array, blocks, lane threads, sync objects -/

/-- A field-layout word (R209): kind, fields, width, stride, positions, d. -/
def planWord (kind k w s offs d : Nat) : Word :=
  BitVec.ofNat 64 (kind + 8 * (k - 1) + 2 ^ 6 * w + 2 ^ 13 * s + 2 ^ 19 * offs + 2 ^ 40 * d)

/-- A block word at SEW 64 with plan fl0 set and element 0 of v8 and of v12 all ones. -/
def packed (plan : Word) : State :=
  let s := blkX sew64 1 []
  let t := { s.task with fl := s.task.fl.setIfInBounds 0 plan, v := (s.task.v.setIfInBounds 8 (2 ^ 64 - 1)).setIfInBounds 12 (2 ^ 64 - 1) }
  { s with task := t }

/-- The bound of R214 of the pair of element 0. -/
def pairBound (s : State) : Nat :=
  let p := s.task.plan 0
  p.k * p.maxField (s.task.elem 64 8 0) p.sa * p.maxField (s.task.elem 64 12 0) p.sb * (p.d + 1)

/-- A dot plan of two fields of 8 bits at stride 19: one pair bounds 130,050, which d = 0 admits and d = 1 just does not (R214). -/
theorem witness_PackedProducts :
    (packed (planWord 1 2 8 19 8 0)).AtBlock (blockX []) ∧ (packed (planWord 1 2 8 19 8 0)).task.sew = 64 ∧
    (packed (planWord 1 2 8 19 8 0)).task.lmul ≠ 8 ∧ overlap 4 2 8 1 = false ∧ overlap 4 2 12 1 = false ∧
    (packed (planWord 1 2 8 19 8 0)).task.groupsOk { srcs := [(8, 1), (12, 1), (4, 2)], dsts := [(4, 2)] } 1 = true ∧
    ((packed (planWord 1 2 8 19 8 0)).task.plan 0).laneOk = true ∧ ((packed (planWord 2 2 8 19 8 0)).task.plan 0).laneOk = true ∧
    ((packed (planWord 2 2 8 19 8 0)).task.plan 0).kind = 2 ∧ (packed 0).task.sew = 64 ∧ ((packed 0).task.plan 0).laneOk = false ∧
    (packed (planWord 1 2 8 19 8 0)).actives 1 = [0] ∧ pairBound (packed (planWord 1 2 8 19 8 0)) < 2 ^ 18 ∧
    2 ^ 18 ≤ pairBound (packed (planWord 1 2 8 19 8 2)) ∧ ((packed (planWord 1 2 8 19 8 2)).task.plan 0).laneOk = true :=
  ⟨block_of (by decide +kernel), by decide +kernel⟩

theorem witness_PackingAndExtraction :
    (let t := (packed (planWord 3 2 8 19 8 0)).task
     overlap 8 1 4 1 = false ∧ t.groupOk 8 1 = true ∧ t.groupOk 4 1 = true ∧ (t.plan 0).laneOk = true ∧ 8 + (t.plan 0).k * 1 ≤ t.regCount ∧
     overlap 4 1 9 1 = false ∧ t.groupsOk { srcs := [(8, 1), (9, 1)], dsts := [(4, 1)] } 1 = true ∧
     t.groupsOk { srcs := [(4, 1)], dsts := [(8, 1), (9, 1)] } 1 = true ∧ overlap 4 1 8 2 = false ∧
     t.groupsOk { srcs := [(8, 2)], dsts := [(4, 1)] } 1 = true ∧ (t.plan 0).results = 2 ∧ ¬(31 + (t.plan 0).k * 1 ≤ t.regCount)) := by
  decide +kernel

/-- An array word with mcfg and mshape set. -/
def arr (vcfg : Word) (vl : Nat) (mshape mcfg : Word) (l : List (Nat × Word)) : State :=
  let s := blkX vcfg vl l
  { s with task := { s.task with mshape := mshape, mcfg := mcfg } }

/-- An array word that a restored task runs from its saved queue (R347), beside the values of its block. -/
def wordAgain : State :=
  let s := blkX sew32 1 [(5, 0xFFF), (6, 0x1000)]
  { s with task := { s.task with
      entrySave := some { block := some (blockX []), vl := 4, vcfg := sew32, mshape := 1, mcfg := 2, fl := Vector.replicate 4 0 } } }

theorem witness_ConfigurationWords :
    (blkX sew32 1 [(5, 0x7FFFFFFFFFFF), (6, 0x800000000000), (7, 0xFFF), (8, 0x1000), (9, 0x6FFF2A), (10, 0x800000)]).AtArray
      (blockX [(5, 0x7FFFFFFFFFFF), (6, 0x800000000000), (7, 0xFFF), (8, 0x1000), (9, 0x6FFF2A), (10, 0x800000)]) ∧
    fieldN (0x7FFFFFFFFFFF : Word) 47 17 = 0 ∧ fieldN (0x800000000000 : Word) 47 17 ≠ 0 ∧ fieldN (0xFFF : Word) 12 52 = 0 ∧
    fieldN (0x1000 : Word) 12 52 ≠ 0 ∧ (let v : Word := 0x6FFF2A
      fieldN v 23 41 = 0 ∧ fieldN v 0 2 ≠ 3 ∧ fieldN v 3 2 ≠ 3 ∧ fieldN v 6 3 ≤ 4 ∧ fieldN v 20 3 ≠ 7) ∧ fieldN (0x800000 : Word) 23 41 ≠ 0 ∧
    (let s := blkX sew32 1 []
     ({ s with task := { s.task with id := { s.task.id with kind := 1 } } } : State).AtBlock (blockX []) ∧
     ({ s.task.id with kind := 1 } : Ident).kind ≠ 2) ∧
    (wordAgain.AtArray (blockX [(5, 0xFFF), (6, 0x1000)]) ∧
      wordAgain.task.entrySave = some { block := some (blockX []), vl := 4, vcfg := sew32, mshape := 1, mcfg := 2, fl := Vector.replicate 4 0 } ∧
      fieldN (wordAgain.x 5) 12 52 = 0 ∧ mcfgOk (wordAgain.x 6) = true) :=
  ⟨array_of (block_of (by decide +kernel)) (by decide +kernel), by decide, by decide, by decide, by decide, by decide, by decide,
   ⟨block_of (by decide +kernel), by decide⟩,
   array_of (block_of (by decide +kernel)) (by decide +kernel), by decide +kernel, by decide +kernel, by decide +kernel⟩

/-- The operands of MOPA from registers, as the statement gives them. -/
def operands (s : State) (v : Values) : Compute :=
  let t := s.task
  let m := fieldN t.mshape 0 6 + 1
  let n := fieldN t.mshape 6 6 + 1
  { m := m, n := n, k := t.vl / m, metric := 0, vals := v, num := t.num, scales := none,
    a := fun q i => t.elem t.sew 12 (q * m + i), b := fun q j => t.elem t.sew 8 (q * n + j), act := fun _ _ => true }

/-- An integer word without a plan, and one with a plan whose pair 0 fails the test of R276. -/
theorem witness_ArrayCompute :
    (arr 0x100 4 1 0 [(5, 0x3FFFFFFC), (6, 0x3FFFFFFC)]).AtArray (blockX [(5, 0x3FFFFFFC), (6, 0x3FFFFFFC)]) ∧
    (arr 0x100 4 1 0 [(5, 0x3FFFFFFC), (6, 0x3FFFFFFC)]).Plain ∧
    (let s := arr 0x100 4 1 0 [(5, 0x3FFFFFFC), (6, 0x3FFFFFFC)]
     s.task.bs = false ∧ s.task.vl ≠ 0 ∧ s.task.vl % 2 = 0 ∧ s.task.metric = 0 ∧ (4 / 2) * 1 ≤ s.task.vlmax ∧
     s.task.groupsOk { srcs := [(12, 1), (8, 1)], dsts := [] } 1 = true ∧
     (∃ v, s.task.values = some v ∧ (v.planOk 0 && (operands s v).guardFailure.isNone) = true) ∧
     (∀ e ∈ [0, 1, 2, 3], (s.locateRead (s.x 5 + BitVec.ofNat 64 (e * 1)) 1 .read).isOk = true)) ∧
    (let s := packed (planWord 1 2 8 17 8 0)
     let r : State := { s with task := { s.task with mshape := 0, mcfg := 0x40 } }
     ∃ v, r.task.values = some v ∧ (v.planOk 0 && (operands r v).guardFailure.isSome) = true) ∧
    (arr 0x100 4 1 1 []).task.metric ≠ 0 ∧ (arr 0x100 4 1 1 []).task.bs = false :=
  ⟨array_of (block_of (by decide +kernel)) (by decide +kernel), plain_of (by decide +kernel),
   ⟨by decide +kernel, by decide +kernel, by decide +kernel, by decide +kernel, by decide +kernel, by decide +kernel, any_of (by decide +kernel), by decide +kernel⟩,
   any_of (by decide +kernel), by decide +kernel, by decide +kernel⟩

/-- Drains of the last row of a 2 by 2 window; x5 holds row0 = 1, x6 the address of an absmax word. -/
theorem witness_ArrayDrains :
    (arr sew32 2 0x41 0 [(5, 1), (6, 0x50000)]).AtArray (blockX [(5, 1), (6, 0x50000)]) ∧ (arr sew32 2 0x41 0 [(5, 1), (6, 0x50000)]).Plain ∧
    (let s := arr sew32 2 0x41 0 [(5, 1), (6, 0x50000)]
     s.task.groupsOk { srcs := [], dsts := [(4, 1)] } 1 = true ∧ fieldN (s.x 5) 6 26 = 0 ∧ fieldN (s.x 5) 0 6 < 2 ∧
     s.task.vl ≤ (2 - fieldN (s.x 5) 0 6) * 2 ∧ s.task.dsc = 0 ∧ s.task.sew = 32 ∧ (5 : BitVec 5) ≠ 0 ∧ (5 : BitVec 5) ≠ 31 ∧
     (s.x (5 + 1)).toNat % 4 = 0 ∧ (s.locateRead (s.x (5 + 1)) 4 .atomic).isOk = true ∧
     s.task.lmul = 1 ∧ s.task.groupsOk { srcs := [], dsts := [(4, 1), (4 + 1, 1)] } 1 = true ∧ s.task.vl ≤ 2) ∧
    (arr sew32 2 0x41 8 [(5, 1)]).task.dsc = 1 ∧ fmtOf 32 (arr sew32 2 0x41 8 [(5, 1)]).task.fk = some binary32 ∧
    (arr sew32 2 0x41 8 [(5, 1)]).MayRound ∧ (arr sew32 2 0x41 16 [(5, 1)]).task.dsc = 2 :=
  ⟨array_of (block_of (by decide +kernel)) (by decide +kernel), plain_of (by decide +kernel), by decide +kernel, by decide +kernel, by decide +kernel,
   mayRound_of (by decide +kernel), by decide +kernel⟩

theorem witness_TilesAndAccumulators :
    (arr sew32 2 0 0 [(5, 0x3FFFFFC0), (6, 65536), (7, 65537), (8, 0x3FFFFFC1)]).Plain ∧
    (arr sew32 2 0 0 [(5, 0x3FFFFFC0), (6, 65536), (7, 65537), (8, 0x3FFFFFC1)]).AtArray
      (blockX [(5, 0x3FFFFFC0), (6, 65536), (7, 65537), (8, 0x3FFFFFC1)]) ∧
    (let s := arr sew32 2 0 0 [(5, 0x3FFFFFC0), (6, 65536), (7, 65537), (8, 0x3FFFFFC1)]
     (s.x 5).toNat % 64 = 0 ∧ (s.x 6).toNat % 4 = 0 ∧ (s.x 8).toNat % 4 ≠ 0 ∧ (s.x 8).toNat % 64 ≠ 0 ∧
     (s.locateRead (s.x 5) 4 .read).isOk = true ∧ (s.locate (s.x 5) 4 .write).isOk = true ∧
     s.task.groupsOk { srcs := [(8, 1), (12, 1)], dsts := [] } 1 = true ∧ s.task.vl ≠ 0 ∧ s.task.vl % 1 = 0 ∧
     (∃ p, s.locateRead (s.x 5) 64 .atomic = .ok p ∧ p.atHome = true) ∧ fmtOf s.task.sew s.task.fk = some binary32 ∧
     sextN (s.task.elem 32 12 0) 32 ≤ 63 ∧ rangeFrom s.task.vstart (min 1 s.task.vlmax) = [0] ∧
     (s.x 6).toNat ≤ 65536 ∧ 65536 < (s.x 7).toNat) ∧
    (∃ p, (arr sew32 2 0 0 [(5, 0x3FFFFFC0)]).locateRead 0x3FFFFFC0 64 .atomic = .ok p ∧ p.atHome = true) :=
  ⟨plain_of (by decide +kernel), array_of (block_of (by decide +kernel)) (by decide +kernel),
   by and_intros <;> first | exact ok_with (by decide +kernel) | decide +kernel,
   ok_with (by decide +kernel)⟩

/-- A block that declares four counters, at a body offset, and one that declares none. -/
def blockAt (h0 : BitVec 32) (off : Nat) (lc3 : Word) : Block := { placedBlock with h0 := h0, off := off, lc := placedBlock.lc.setIfInBounds 3 lc3 }
def blkAt (h0 : BitVec 32) (off : Nat) (lc3 : Word) (vl : Nat) : State :=
  let s := blk sew32 vl
  { s with task := { s.task with block := some (blockAt h0 off lc3) } }

theorem witness_BlockControl :
    (blkAt 0xB1003CFD 5 7 4).AtBlock (blockAt 0xB1003CFD 5 7) ∧
    3 < fieldN (blockAt 0xB1003CFD 5 7).h0 8 3 ∧ (blkAt 0xB1003CFD 5 7 4).kernelRec = none ∧ ¬(3 < fieldN (blockAt 0xB10038FD 5 7).h0 8 3) ∧
    (5 : BitVec 10).toNat ≤ (blockAt 0xB1003CFD 5 7).off ∧ (blockAt 0xB1003CFD 5 7).off - (5 : BitVec 10).toNat < (blockAt 0xB1003CFD 5 7).len ∧
    (blockAt 0xB1003CFD 5 7).off < (6 : BitVec 10).toNat ∧ 253 < (254 : BitVec 10).toNat ∧
    (4 ≤ (7 : Word).toNat ∧ (7 : Word) - BitVec.ofNat 64 4 ≠ 0 ∧ (4 : Word) - BitVec.ofNat 64 4 = 0 ∧ ¬(4 ≤ (3 : Word).toNat)) ∧
    (blkAt 0xB1003CFD 5 7 4).task.groupsOk { srcs := [(8, 1)], dsts := [] } 0 = true ∧
    (List.replicate 15 (0 : Word)).length < 16 ∧ 16 ≤ (List.replicate 16 (0 : Word)).length :=
  ⟨block_of (by decide +kernel), by decide +kernel⟩

/-- The placed task with a block's header in memory, a queue of n entries, and x5 at the header. -/
def entry : QEntry :=
  { addr := 0x120000, h0 := 0xB1000001, h1 := 0, xs := Vector.replicate 32 0, foldPending := 1, serial := 0, poison := 0 }
def queued (h0 n : Nat) : State :=
  let s := withMem (ctlX [(5, 0x120000), (6, 0x120001)]) 0x120000 (bytesOf h0 4)
  { s with task := { s.task with vq := List.replicate n entry } }

/-- Whether a code word is the one expected. -/
def fetches (s : State) (a : Word) (w : BitVec 32) : Bool := match s.codeWord a with
  | .ok x => x == w
  | .error _ => false

theorem witness_BlockDispatch :
    (queued 0xB1000001 31).AtControl ∧ (queued 0xB1000001 31).task.vq.length < 32 ∧ 32 ≤ (queued 0xB1000001 32).task.vq.length ∧
    ((queued 0xB1000001 31).x 5).toNat % 4 = 0 ∧ ((queued 0xB1000001 31).x 6).toNat % 4 ≠ 0 ∧
    fetches (queued 0xB1000001 31) 0x120000 0xB1000001 = true ∧ fetches (queued 0xB1000001 31) 0x120004 0 = true ∧
    fetches (queued 0xB10000FE 0) 0x120000 0xB10000FE = true ∧
    (let h : BitVec 32 := 0xB1000001
     fieldN h 24 8 = 0xB1 ∧ 1 ≤ fieldN h 0 8 ∧ fieldN h 8 3 ≤ 4 ∧ fieldN h 14 10 = 0) ∧ ¬(fieldN (0xB10000FE : BitVec 32) 0 8 ≤ 253) ∧
    (queued 0xB1000001 1).task.vq ≠ [] ∧ (queued 0xB1000001 0).task.vq = [] ∧ (queued 0xB1000001 0).task.block = none ∧
    (queued 0xB1000001 0).task.aqueue = [] ∧ restoredCtl.task.aqueue ≠ [] ∧
    (queued 0xB1000001 0).kernelRec = none ∧ (2 : BitVec 5).toNat < 3 ∧ 3 ≤ (3 : BitVec 5).toNat ∧
    (let v : Word := 0x3403
     fieldN v 14 50 = 0 ∧ fieldN v 0 3 ≤ 3 ∧ fieldN v 5 2 ≠ 3 ∧ fieldN v 7 3 ≤ 5 ∧ fieldN v 10 3 ≤ 5) ∧ ¬(fieldN (0x104 : Word) 0 3 ≤ 3) := by
  refine ⟨control_of (by decide +kernel), ?_⟩
  decide +kernel

/-- A block whose word 4 is LJOIN and whose words before it are not. -/
def joining : State :=
  let s := withMem (blk sew32 2) 0x110000 (List.flatten [bytesOf 0xB1003CFD 4, bytesOf 0 8, bytesOf 0x13 4, bytesOf 0x13 4, bytesOf 0x13 4, bytesOf 0x13 4, bytesOf 0x6000605B 4])
  { s with task := { s.task with block := some (blockX []) } }

theorem witness_LaneThreads :
    joining.AtBlock (blockX []) ∧ (blockX []).h0.getLsbD 13 = true ∧ joining.regsAllow 2 = true ∧
    (∀ j ∈ [2, 3], fetches joining ((blockX []).wordAddr j) 0x13 = true) ∧ fetches joining ((blockX []).wordAddr 4) 0x6000605B = true ∧
    joining.actives 1 = [0, 1] ∧ (let s := blkX sew32 0 []
      s.actives 1) = [] ∧
    (0 : Int) ≤ ((blockX []).off : Int) + (2 : BitVec 10).toInt ∧ ¬((0 : Int) ≤ ((blockX []).off : Int) + (0x3FF : BitVec 10).toInt) ∧
    (lan sew32).AtLane placedBlock 0 ∧ (lan sew32).task.split = some placedSplit ∧ (lan sew32).offset = placedSplit.join ∧
    (lan sew32).task.groupsOk { srcs := [(8, 1), (12, 1)], dsts := [] } 1 = true ∧
    (let sp : Split := { placedSplit with join := 1 }
     ({ lan sew32 with task := { (lan sew32).task with split := some sp } } : State).offset ≠ sp.join) ∧
    (mapIf (fun (th : LaneThread) => th.elem == 0) (fun th => { th with joined := true }) placedSplit.threads).all (fun th => th.joined && th.wset.isEmpty) = true :=
  ⟨block_of (by decide +kernel), by and_intros <;> first | exact lane_of (by decide +kernel) | decide +kernel⟩

/-- A sync object at 0x50040: range, barrier count and arrivals, phase (R298). -/
def synced (size count arrived phase : Nat) (slots : List Arrival) : State :=
  let s := withMem (ctlX [(5, 0x50040), (6, 0x60080), (7, 0x80), (8, 0x50041)]) 0x50040
    (layBytes [(0, 16), (size, 8), (0, 8), (count, 4), (arrived, 4), (phase, 8)])
  { s with task := { s.task with slots := slots } }

/-- A field of the sync object that x5 names. -/
def syncField (s : State) (p : Place) (off n : Nat) : Nat := leVal ((List.range n).map (fun j => s.readPlain p.km (p.key + off + j)))

/-- An object in poisoned memory: the tests of its range and of its slot come first. -/
theorem witness_SyncFirst :
    (let s : State := { synced 0x80 2 0 7 [] with poison := [0x50040 / 64] }
     s.AtEither ∧ (s.x 5).toNat % 64 = 0 ∧ (s.x 5).toNat % 128 ≠ 0 ∧ (s.x 7).toNat % 128 = 0 ∧
     s.task.slots.find? (fun a => a.obj == (s.x 5).toNat) = none ∧
     ∃ q, s.locate (s.x 5) 64 .atomic = .ok q ∧ q.atHome = true) :=
  ⟨.inl (control_of (by decide +kernel)), by decide +kernel, by decide +kernel, by decide +kernel, by decide +kernel, ok_with (by decide +kernel)⟩

theorem witness_SyncWords :
    (synced 0x80 2 0 7 []).Plain ∧ (synced 0x80 2 0 7 []).AtEither ∧ (blk sew32 1).cur = .vector ∧ (5 : BitVec 3).toNat < 6 ∧
    ((synced 0x80 2 0 7 []).x 5).toNat % 64 = 0 ∧ ((synced 0x80 2 0 7 []).x 8).toNat % 64 ≠ 0 ∧
    ((synced 0x80 2 0 7 []).x 6).toNat % 128 = 0 ∧ ((synced 0x80 2 0 7 []).x 7).toNat % 128 = 0 ∧ ((synced 0x80 2 0 7 []).x 5).toNat % 128 ≠ 0 ∧
    (∃ p, (synced 0x80 2 0 7 []).locateRead 0x50040 64 .atomic = .ok p ∧
      (let s := synced 0x80 2 0 7 []
       p.atHome && s.det == false && syncField s p 0x10 8 != 0 && syncField s p 0x20 4 != 0 && decide (syncField s p 0x24 4 + 1 < syncField s p 0x20 4)
         && !s.copiesLeft (fun _ => true)) = true) ∧
    (∃ p, (synced 0 1 0 7 []).locateRead 0x50040 64 .atomic = .ok p ∧
      (let s := synced 0 1 0 7 []
       p.atHome && syncField s p 0x10 8 == 0 && decide (syncField s p 0x20 4 ≤ syncField s p 0x24 4 + 1) && s.segments.isEmpty) = true) ∧
    (∃ p, (synced 0 0 0 7 [{ obj := 0x50040, phase := 7 }]).locateRead 0x50040 64 .atomic = .ok p ∧
      (let s := synced 0 0 0 7 [{ obj := 0x50040, phase := 7 }]
       p.atHome && syncField s p 0x20 4 == 0 && syncField s p 0x28 8 == 7 && (s.task.slots.find? (fun a => a.obj == 0x50040)).isSome) = true) :=
  ⟨plain_of (by decide +kernel), .inl (control_of (by decide +kernel)), by decide +kernel, by decide, by decide +kernel, by decide +kernel,
   by decide +kernel, by decide +kernel, by decide +kernel, ok_with (by decide +kernel), ok_with (by decide +kernel), ok_with (by decide +kernel)⟩

/-! ## Statements: copies, streams, tasks, packets, events, the host -/

/-- A copy word of one element: both layouts with n0 = n (R249). -/
def copier (n : Nat) : State :=
  let s := blkX sew64 1 [(5, 0x50000), (6, 0x60000), (7, 0)]
  { s with task := { s.task with v := (s.task.v.setIfInBounds 8 (BitVec.ofNat 262144 n)).setIfInBounds 9 (BitVec.ofNat 262144 n) } }

/-- The layout words of a register (R248). -/
def layouts (s : State) (v : Nat) : List (BitVec 64) := (List.range s.task.vl).map (fun i => BitVec.ofNat 64 (s.task.elem 64 v i))

theorem end_of {x : State × Progress × CopyEnd} {e : CopyEnd} (h : (x.2.2 == e) = true) : ∃ v g, x = (v, g, e) :=
  ⟨x.1, x.2.1, by obtain ⟨v, g, e⟩ := x; simpa using h⟩

/-- A command of two bytes from 0x50000 to 0x60000, of which a number have been copied. -/
def twoBytes (done : Nat) : Copy :=
  { word := 0, off := 0, serial := 0, block := 0, op := 0, trap := false, tok := 7, src := 0x50000, dst := 0x60000, srcLay := [0x1000002],
    dstLay := [0x1000002], ctl := 0, tokIn := 0, after := none, done := done, running := 1, started := false, home := none, flip := none, status := none,
    failAt := none, handedOn := false, read := false, overwritten := false }
def copying (c : Copy) : State := { ctl with task := { ctl.task with copies := [c] } }

/-- What a step of the engine makes of it. -/
def carried (c : Copy) : State × Progress × CopyEnd :=
  let u : State := { copying c with cur := .vector }
  u.carryOn (u.jobOf 0 c) { done := c.done, running := c.running, flip := c.flip, home := c.home }

/-- The same with the host asked for a page that it waits for (R66). -/
def awaited : State :=
  { copying (twoBytes 0) with port0 := { ctl.port0 with items :=
      [{ tag := 7, posted := true, kind := 3, die := 0, ctx := 1, req := .page (1, 0, 0) 1 0x50000, payload := 0 }] } }

theorem witness_CopyWords :
    (copier 1).AtBlock (blockX [(5, 0x50000), (6, 0x60000), (7, 0)]) ∧ (7 : BitVec 5) ≠ 0 ∧
    (copier 1).task.groupsOk { srcs := [(8, 1), (9, 1)], dsts := [] } 1 = true ∧
    (layouts (copier 1) 8 ++ layouts (copier 1) 9).all (fun l => fieldN l 0 24 != 0) = true ∧ layoutTotal (layouts (copier 1) 8) = 1 ∧
    layoutTotal (layouts (copier 1) 9) = 1 ∧ (layouts (copier 0) 8).all (fun l => fieldN l 0 24 != 0) = false ∧
    fieldN (BitVec.ofNat 64 ((copier 1).task.elem 64 8 16)) 34 30 = 0 ∧ (copier 1).copySlots (copier 1).task.id.section_ ≠ 0 ∧
    (copying (twoBytes 2)).task.status = .running ∧ (copying (twoBytes 2)).task.copies[0]? = some (twoBytes 2) ∧
    ({ twoBytes 0 with op := 1, tokIn := 5 } : Copy).started = false ∧ fieldN ({ twoBytes 0 with op := 1, tokIn := 5 } : Copy).tokIn 0 8 ≠ 0 ∧
    ({ twoBytes 0 with status := some 0 } : Copy).status ≠ none ∧
    (∃ v g, carried (twoBytes 2) = (v, g, .complete)) ∧
    (copying (twoBytes 2)).pageAsked (1, 0, 0) = false ∧ awaited.pageAsked (1, 0, 0) = true ∧
    (∃ v g, carried { twoBytes 0 with src := 0x40000000 } = (v, g, .hold 0x40000000 0)) ∧
    (∃ v g, carried { twoBytes 0 with dst := 0x1000000000000 } = (v, g, .fail 0x06 0x1000000000000 true)) :=
  ⟨block_of (by decide +kernel), by and_intros <;> first | exact end_of (by decide +kernel) | decide +kernel⟩


/-- A node descriptor of a kind, with some further fields as bytes at an offset, and a graph of one node. -/
def desc (kind : Nat) (fields : List (Nat × Nat × Nat)) : BitVec 1024 :=
  BitVec.ofNat 1024 (kind + fields.foldl (fun a f => a + f.2.1 * 2 ^ (8 * f.1)) 0)
def oneNode (d : BitVec 1024) (st : NodeStatus) (ops : List (BitVec 256) := []) : State :=
  { ctl with graphs := [{ gid := 5, ctx := 1, q := 3, pid := 0, region := 0x10000, die := 0, seed := 0, pcap := 15, single := false,
                          nodes := [{ newNode 0 d ops [] with status := st }], before := [], live := true }] }

theorem witness_EngineNodes :
    ((oneNode (desc 3 []) .running).graph 5).isSome = true ∧ ((oneNode (desc 3 []) .running).node 5 0).any (fun n => n.kind == 3 && n.status == .running) = true ∧
    ((oneNode (desc 4 []) .running).node 5 0).any (fun n => n.kind == 4 && n.status == .running) = true ∧
    ((oneNode (desc 1 []) .ready).node 5 0).any (fun n => n.kind != 3 && n.kind != 4) = true ∧
    ((oneNode (desc 3 []) .running).node 5 0).any (fun n => n.image == none) = true ∧
    ({ newNode 0 (desc 3 []) [] [] with status := .running, image := some [0x13] } : Node).image = some [0x13] := by
  decide +kernel

/-- A node that is dispatched alone, with no range of its that overlaps another's. -/
def lone : State := oneNode (desc 1 [(4, 1, 1), (5, 1, 1)]) .ready

theorem witness_TaskStart :
    (lone.graph 5).any (fun g => (lone.node 5 0).any (fun n =>
      let w := lone.wantOf g n
      lone.graph w.gid == some g && lone.node w.gid w.node == some n && !n.poisoned && !w.resumed && decide (w.kind ≤ 2) &&
        (lone.lapsOf w.die g n).isEmpty)) = true := by decide +kernel


theorem witness_StashAndStreams :
    (ctlX [(5, 7), (6, 0xFFFFFFFFFF00), (7, 256), (8, 8)]).AtEither ∧
    (let s := ctlX [(5, 7), (6, 0xFFFFFFFFFF00), (7, 256), (8, 8), (9, 0x40000100), (10, 0)]
     (s.x 5).toNat ≤ 7 ∧ 7 < (s.x 8).toNat ∧ (s.x 6).toNat % 256 = 0 ∧ (s.x 7).toNat ≠ 0 ∧ (s.x 6).toNat + (s.x 7).toNat ≤ 2 ^ 48 ∧
     ¬((s.x 9).toNat ≤ 2 ^ 30) ∧ s.task.overlapsWindow (s.x 6).toNat (s.x 7).toNat = false ∧
     s.stashRoom s.task.id.ctx s.task.id.region 256 = true ∧ s.stashRoom s.task.id.ctx s.task.id.region (2 ^ 48 + 1) = false ∧
     s.task.block = none ∧ s.task.vq = [] ∧ s.task.aqueue = [] ∧ s.stash = [] ∧ s.det = false ∧ (s.x 8).toNat % 256 ≠ 0 ∧
     (s.x 6).toNat % 128 = 0 ∧ ((s.die (s.dieOf s.task)).retention[7]?).getD none = none ∧
     (s.die (s.dieOf s.task)).otherWays 7 + 8 ≤ 8 ∧ (9 : BitVec 5).toNat > 8) ∧
    (({ ctl with task := { ctl.task with windows := ctl.task.windows.setIfInBounds 7 (some { base := 0, size := 256, since := 0 }) } } : State).task.overlapsWindow
      255 1) = true :=
  ⟨.inl (control_of (by decide +kernel)), by decide +kernel, by decide +kernel⟩

/-- A mapped window whose line holds two unwritten bytes, and STUNMAP on the control core behind a block. -/
def dirtied : State :=
  { ctlX [(5, 7)] with
    stash := [{ section_ := ctl.task.id.section_, owners := [(1, 0x50000)], line := 0x50000, km := none, dirty := [(0x50000, 1), (0x500FF, 2)], writers := [], cleared := [] }]
    task := { (ctlX [(5, 7)]).task with windows := ctl.task.windows.setIfInBounds 7 (some { base := 0x50000, size := 256, since := 0 }) } }

theorem witness_Unmap :
    dirtied.AtEither ∧
    (dirtied.x 5).toNat ≤ 7 ∧ dirtied.task.block = none ∧ dirtied.task.vq = [] ∧ dirtied.task.aqueue = [] ∧
    (dirtied.task.windows[(dirtied.x 5).toNat]?).getD none = some { base := 0x50000, size := 256, since := 0 } ∧
    dirtied.stash.filter (fun l => l.section_ == dirtied.task.id.section_ &&
      l.owners.any (fun o => o.1 == dirtied.task.id.tid && (0x50000 ≤ o.2 && o.2 < 0x50000 + 256))) = dirtied.stash ∧
    (0x50000 : Nat) ≠ 0x500FF ∧
    (let s : State := { dirtied with task := { dirtied.task with block := some placedBlock } }
     s.AtEither ∧ s.cur = .control ∧ s.task.block.isSome = true) :=
  ⟨.inl (control_of (by decide +kernel)), by decide +kernel, by decide +kernel, by decide +kernel, by decide +kernel, by decide +kernel,
   by decide +kernel, by decide, .inl (control_of (by decide +kernel)), by decide +kernel, by decide +kernel⟩


/-- A stream descriptor at 0x50000 (R263) of a number of dimensions, 1 for one that SBIND admits and 0 for one that it does not. -/
def streamed (rank : Nat) : State :=
  withMem (withMem (blkX sew32 1 [(5, 0x50000), (6, 0x50001)]) 0x50000 (layBytes [(0x60000, 8), (8, 4), (1, 4), (1, 4), (1, 4), (4, 1)]))
    0x50038 (layBytes [(2, 1), (rank, 1)])

theorem witness_Streams :
    (streamed 0).AtBlock (blockX [(5, 0x50000), (6, 0x50001)]) ∧ (streamed 0).Plain ∧ placedBlock.h0.getLsbD 12 = true ∧ (streamed 0).regsAllow 1 = true ∧
    (24 : BitVec 5).toNat = 24 ∧ (streamed 0).task.fold = 1 ∧ ((streamed 0).x 5).toNat % 64 = 0 ∧ ((streamed 0).x 6).toNat % 64 ≠ 0 ∧
    (∃ p, (streamed 0).locateRead 0x50000 64 = .ok p ∧
      (!streamOk (BitVec.ofNat 512 (leVal ((List.range 64).map (fun j => (streamed 0).readPlain p.km (p.key + j)))))) = true) ∧
    (∃ p, (streamed 1).locateRead 0x50000 64 = .ok p ∧
      streamOk (BitVec.ofNat 512 (leVal ((List.range 64).map (fun j => (streamed 1).readPlain p.km (p.key + j))))) = true) ∧
    (let s := blkX sew32 1 []
     let t : Task := { s.task with streams := s.task.streams.setIfInBounds 7 (some { desc := 0, cursor := 0 }) }
     t.binding 31 = some { desc := 0, cursor := 0 }) :=
  ⟨block_of (by decide +kernel), plain_of (by decide +kernel), by decide +kernel, by decide +kernel, by decide, by decide +kernel, by decide +kernel,
   by decide +kernel, ok_with (by decide +kernel), ok_with (by decide +kernel), by decide +kernel⟩

/-- A machine on which a ready node of 16 strips could take section 0, the one that its region allows, but for the task that holds a
strip of it (R86, R363). -/
def crowded : State :=
  let s := oneNode (desc 1 [(4, 16, 1), (5, 16, 1)]) .ready
  { s with regions := [{ placedRegion with rcb := setField placedRegion.rcb 0x140 (1#128) }]
           contexts := [{ placedContext with psize := 17472 }]
           ticks := 10000
           graphs := mapIf (fun _ => true) (fun g => { g with nodes := g.nodes.map (fun n => { n with blockedSince := some 0 }) }) s.graphs }

/-- A control thread whose x5 is 0x60000, with a descriptor there (R52, R362) and operand records at 0x60100 (R53). -/
def spawner (d : List (Nat × Nat)) (rs : List Byte := []) : State :=
  withMem (withMem (ctlX [(5, 0x60000), (6, 0x60001)]) 0x60000 (layBytes d)) 0x60100 rs
def spawnDesc (kind nop nsucc smax : Nat) : List (Nat × Nat) :=
  [(kind, 1), (nop, 1), (nsucc, 1), (0, 1), (smax, 1), (16, 1), (0, 4), (0x10, 6), (0x60100, 3)]
def descRead (s : State) : Bool :=
  match s.locateRead 0x60000 128 with
  | .ok p => (BitVec.ofNat 1024 (leVal ((List.range 128).map (fun j => s.readPlain p.km (p.key + j)))) == BitVec.ofNat 1024 (leVal (s.peekBytes p.km p.key 128)))
  | .error _ => false
def spawnedDesc (s : State) : BitVec 1024 :=
  match s.locateRead 0x60000 128 with
  | .ok p => BitVec.ofNat 1024 (leVal ((List.range 128).map (fun j => s.readPlain p.km (p.key + j))))
  | .error _ => 0
def records (s : State) : Option (List (BitVec 256)) :=
  match s.readRecords ((spawnedDesc s).extractLsb' 128 64) (fieldN (spawnedDesc s) 8 8) with
  | .ok ops => some ops
  | .error _ => none
def record (mode : Nat) : List Byte := layBytes [(0x70000, 8), (mode, 1), (0, 1), (1, 1), (0, 1), (4, 2), (1, 2), (1, 1)]

theorem crowded_holds : crowded.poolHolds crowded.task = true := by decide +kernel

theorem witness_Tdone :
    ctl.AtControl ∧ ctl.task.block = none ∧ ctl.task.vq = [] ∧ ctl.task.aqueue = [] ∧ ctl.task.copies = [] ∧ ctl.det = false ∧
    (let s : State := { ctl with task := { ctl.task with block := some placedBlock } }
     s.AtControl ∧ s.task.block ≠ none) ∧
    crowded.AtControl ∧ crowded.yieldsTo = true ∧ crowded.poolHolds crowded.task = true ∧ ctl.yieldsTo = false :=
  ⟨control_of (by decide +kernel), by decide +kernel, by decide +kernel, by decide +kernel, by decide +kernel, by decide +kernel,
   ⟨control_of (by decide +kernel), by decide +kernel⟩, control_of (by decide +kernel), by decide +kernel, crowded_holds, by decide +kernel⟩

theorem witness_Tspawn :
    (spawner (spawnDesc 1 1 0 16) (record 1)).AtControl ∧ (spawner (spawnDesc 1 1 0 16) (record 1)).Plain ∧
    (let s := spawner (spawnDesc 1 1 0 16) (record 1)
     (s.x 5).toNat % 128 = 0 ∧ (s.x 6).toNat % 128 ≠ 0 ∧ s.task.spawned = false ∧ s.task.spawnCount < 4096 ∧ (s.locateRead 0x60000 128).isOk = true ∧
     descOk (spawnedDesc s) = true ∧ fieldN (spawnedDesc s) 0 8 ≤ 4 ∧ fieldN (spawnedDesc s) 16 8 = 0 ∧
     (records s).any (fun l => l.length == 1 && l.all recordOk) = true ∧ fieldN (spawnedDesc s) 32 8 ≤ s.effStrips s.task.id.ctx s.task.id.region) ∧
    (let s := spawner (spawnDesc 1 1 0 16) (record 0)
     descOk (spawnedDesc s) = true ∧ (records s).any (fun l => l.any (fun r => !recordOk r)) = true) ∧
    (records (spawner ((spawnDesc 1 1 0 16).dropLast ++ [(0x40000000, 8)])) = none) ∧
    (ctlX [(5, 0x40000000)]).AtControl ∧ ((ctlX [(5, 0x40000000)]).locateRead ((ctlX [(5, 0x40000000)]).x 5) 128).isOk = false ∧
    (let s := spawner (spawnDesc 1 0 0 0)
     descOk (spawnedDesc s) = false) ∧
    (let s := spawner (spawnDesc 1 0 0 16)
     let s : State := { s with regions := [{ placedRegion with rcb := setField placedRegion.rcb 0x70 (3#16) }] }
     descOk (spawnedDesc s) = true ∧ s.effStrips s.task.id.ctx s.task.id.region < fieldN (spawnedDesc s) 32 8) ∧
    (let s : State := { ctl with task := { ctl.task with spawned := true } }
     s.AtControl ∧ s.task.spawned = true) :=
  ⟨control_of (by decide +kernel), plain_of (by decide +kernel), by decide +kernel, by decide +kernel, by decide +kernel,
   control_of (by decide +kernel), by decide +kernel, by decide +kernel, by decide +kernel, control_of (by decide +kernel), by decide +kernel⟩

theorem witness_Tinfo :
    (ctlX [(5, 0x10000), (6, 0x1004), (7, 0x1018), (8, 0x3000)]).AtEither ∧
    (let s := ctlX [(5, 0x10000), (6, 0x1004), (7, 0x1018), (8, 0x3000)]
     fieldN (s.x 5) 16 48 ≠ 0 ∧ fieldN (s.x 6) 0 12 % 8 ≠ 0 ∧ s.info 1 0x18 = some 0 ∧ s.info 3 0 = none ∧ fieldN (s.x 7) 12 4 = 1 ∧
     fieldN (s.x 7) 0 12 = 0x18 ∧ fieldN (s.x 8) 12 4 = 3) :=
  ⟨.inl (control_of (by decide +kernel)), by decide +kernel⟩

/-- A queue of ring size 64 (log 6), with its root region, as R36 takes it. -/
def aQueue : Queue :=
  { queueOf 3 0 with lsize := 6, root := 0x10000, ctx := 1, ring := 0x70000, mutAddr := 0x71000 }
def queueing (f : Queue → Queue := id) : State := { ctl with queues := [f aQueue] }

theorem witness_Queues :
    (queueing.queue 3).any (fun x => x.enabled && x.wrsnap ≤ 64 && 64 ≤ x.rdidx + 2 ^ x.lsize && x.status == 1 && x.rdidx + 2 ^ x.lsize < 65) = true ∧
    ((queueing (fun x => { x with enabled := false })).queue 3).any (fun x => !x.enabled) = true ∧
    ((queueing (fun x => { x with status := 2, errUnstarted := true })).queue 3).any (fun x => x.enabled && x.status == 2) = true ∧
    ((queueing (fun x => { x with status := 0 })).queue 3).any (fun x => x.enabled && x.status == 0) = true := by decide +kernel

/-- A packet with fields at byte offsets (R41, R42), the machine with a second region and what stands at a node array. -/
def packet (fields : List (Nat × Nat)) : BitVec 512 := BitVec.ofNat 512 (fields.foldl (fun a f => a + f.2 * 2 ^ (8 * f.1)) 0)
def arrayed (d : List (Nat × Nat)) (f : Queue → Queue := id) : State := withMem (queueing f) 0x60000 (layBytes d)
def nodeOf (smin : Nat) : List (Nat × Nat) := [(1, 1), (0, 3), (smin, 1), (16, 1), (0, 2), (0x10, 3)]
def graphOf (s : State) (count : Nat) (single : Bool) : Option (List Node) :=
  match s.readGraph 1 0x60000 count single with
  | .ok ns => some ns
  | .error _ => none

theorem witness_Launches :
    (let s := arrayed (nodeOf 1)
     let p := packet [(0, 1), (8, 0x10000), (0x10, 0x60000), (0x18, 1)]
     (s.queue 3).any (fun x => packetClean p [(0x08, 20), (0x20, 16)] && s.addressOk x 0x10000 256 128 .read && s.addressOk x 0x60000 128 128 .read &&
       s.inQueueTree x 0x10000 && !s.closing 1 0x10000) = true ∧
     (graphOf s 1 false).any (fun ns => ns.all (fun n => decide (n.smin ≤ s.effStrips 1 0x10000))) = true ∧
     (graphOf s 1 true).any (fun ns => ns.all (fun n => decide (n.smin ≤ s.effStrips 1 0x10000))) = true ∧
     s.candidates 1 0x10000 ≠ [] ∧ s.port0.duty.getLsbD 1 = false ∧ packetClean p [(0x08, 16), (0x20, 16)] = false) ∧
    graphOf (arrayed []) 1 true = none ∧ graphOf (arrayed []) 1 false = none ∧
    (let s : State := { arrayed (nodeOf 4) with regions := [{ placedRegion with rcb := setField placedRegion.rcb 0x70 (3#16) }] }
     (graphOf s 1 true).any (fun ns => ns.any (fun n => n.kind ≤ 2 && s.effStrips 1 0x10000 < n.smin)) = true) ∧
    (let s : State := { arrayed (nodeOf 1) with regions := [{ placedRegion with rcb := setField placedRegion.rcb 0x140 (0#128) }] }
     (graphOf s 1 true).isSome = true ∧ s.candidates 1 0x10000 = []) ∧
    ({ ready with port0 := { ready.port0 with duty := 2 } } : State).port0.duty.getLsbD 1 = true ∧
    packetClean (packet [(9, 1)]) [(0x08, 1), (0x10, 8)] = false := by decide +kernel

theorem witness_ShortPackets :
    (let s := queueing
     let wait := packet [(0, 3), (8, 0x60000), (0x21, 8)]
     let write := packet [(0, 4), (8, 0x60000), (0x10, 7), (0x18, 4)]
     (s.queue 3).any (fun x => packetClean wait [(0x08, 26), (0x24, 4)] && s.addressOk x 0x60000 8 8 .read &&
       packetClean write [(0x08, 17)] && s.addressOk x 0x60000 4 4 .write && x.inBuffer.isNone && s.addressOk x 0x60000 64 64 .read) = true ∧
     ((s.startPacket 3 aQueue write).translate 1 none 0x60000 4 .write).isOk = true ∧
     packetClean (packet [(0x3F, 1)]) [(0x08, 26), (0x24, 4)] = false ∧ packetClean (packet [(0x3F, 1)]) [(0x08, 17)] = false ∧
     packetClean (packet [(8, 3)]) [(0x08, 1), (0x10, 8)] = true ∧ packetClean (packet [(8, 6)]) [(0x08, 1), (0x10, 8)] = true ∧
     packetClean (packet [(8, 0x60000), (0x10, 16384)]) [(0x08, 12)] = true ∧ fieldN (packet [(8, 0x60000), (0x10, 16385)]) 128 32 = 16385) ∧
    ((queueing (fun x => { x with inBuffer := some (1, 0x60000, 0, 2) })).queue 3).any (fun x => x.inBuffer == some (1, 0x60000, 0, 2)) = true := by
  decide +kernel

theorem witness_RegionPackets :
    (let s := queueing
     let seed := packet [(0, 8), (8, 0x10000), (0x10, 5)]
     (s.queue 3).any (fun x => packetClean seed [(0x08, 16)] && s.addressOk x 0x10000 256 128 .read && s.inQueueTree x 0x10000 && !s.closing 1 0x10000 &&
       s.addressOk x 0x12000 256 128 .read) = true ∧
     s.region 1 0x12000 = none ∧ s.region 1 0x10000 = some placedRegion ∧ (s.readRcb 1 0x12000).any (s.regionOk placedRegion 0x12000) = true ∧
     (s.startPacket 3 aQueue seed).region 1 0x10000 = some placedRegion ∧
     (s.startPacket 3 aQueue seed).readRcb 1 0x12000 = s.readRcb 1 0x12000 ∧
     (s.queue 3).any (fun x => !s.addressOk x 0x40000000 256 128 .read && x.root != 0x40000000) = true) ∧
    ((queueing (fun x => { x with root := 0x40000000 })).queue 3).any (fun x =>
      !(queueing (fun x => { x with root := 0x40000000 })).addressOk x 0x40000000 256 128 .read && x.root == 0x40000000) = true ∧
    (let s : State := { queueing with regions := [placedRegion, newRegion 1 0x12000 0x10000 2 false 0] }
     packetClean (packet [(8, 0x12000)]) [(0x08, 8)] = true ∧ s.region 1 0x12000 = some (newRegion 1 0x12000 0x10000 2 false 0) ∧
     (s.queue 3).any (fun x => s.addressOk x 0x12000 256 128 .read && s.inQueueTree x 0x12000 && !s.closing 1 0x12000) = true) := by
  decide +kernel

/-- A packet in flight. -/
def flying (b : BitVec 512) : Packet := { pid := 9, q := 3, index := 0, parent := none, bytes := b, complete := false, since := 0 }
def inFlight (b : BitVec 512) : State := { queueing with packets := [flying b], ticks := 100000 }

theorem witness_PacketsInFlight :
    (let p := packet [(0, 3), (8, 0x60000), (0x18, 0xFF), (0x21, 8)]
     let s := inFlight p
     s.packets.find? (fun o => o.pid == 9) = some (flying p) ∧ (flying p).kind = 3 ∧ s.waitHolds (flying p) = true) ∧
    (let p := packet [(0, 3), (8, 0x60000), (0x18, 0xFF), (0x20, 1), (0x21, 8), (0x24, 1000)]
     let s := inFlight p
     s.waitHolds (flying p) = false ∧ s.waitExpired (flying p) = true) ∧
    (let p := packet [(0, 7), (8, 0x12000)]
     let s := inFlight (packet [(0, 8), (8, 0x12000)])
     (flying (packet [(0, 8), (8, 0x12000)])).kind = 8 ∧ s.queue 3 = some aQueue ∧ s.subtreeBusy 1 0x12000 = false ∧
     ({ oneNode (desc 1 []) .ready with queues := [aQueue] } : State).subtreeBusy 1 (0x10000) = true ∧ (flying p).kind ≠ 8) := by
  decide +kernel

/-- A graph of one ready COND or LOOP whose word stands at 0x60000 with a value (R58, R59), poisoned or not. -/
def predicated (kind cval cop maxit v : Nat) (bad : Bool) : State :=
  let s := oneNode (BitVec.ofNat 1024 (kind + 0x60000 * 256 ^ 8 + cval * 256 ^ 0x70 + cop * 256 ^ 0x78 + maxit * 256 ^ 0x74)) .ready
  let s := if bad then { s with poison := [0x60000 / 64] } else s
  withMem s 0x60000 [BitVec.ofNat 8 v]
/-- What NodeAndPageEvents asks of a node and its word. -/
def wordOf (s : State) : Option (Node × Nat × Bool) :=
  match s.graph 5, s.node 5 0 with
  | some g, some n =>
    match s.translate g.ctx (s.physDie g.die) n.code 8 .read with
    | .ok p => if n.status == .ready then some (n, leVal (s.peekBytes p.km p.key 8), s.poisoned p.key 8) else none
    | .error _ => none
  | _, _ => none

theorem witness_Predicates :
    (wordOf (predicated 5 7 0 0 7 false)).any (fun r => r.1.kind == 5 && r.1.cop == 0 && r.2.1 == r.1.cval && !r.2.2) = true ∧
    (wordOf (predicated 5 7 1 0 6 false)).any (fun r => r.1.kind == 5 && r.1.cop == 1 && r.2.1 != r.1.cval && !r.2.2) = true ∧
    (wordOf (predicated 5 7 2 0 7 false)).any (fun r => r.1.kind == 5 && r.1.cop == 2 && r.1.cval ≤ r.2.1 && !r.2.2) = true ∧
    (wordOf (predicated 5 7 3 0 7 false)).any (fun r => r.1.kind == 5 && r.1.cop == 3 && r.2.1 == r.1.cval && !r.2.2) = true ∧
    (wordOf (predicated 6 0 0 2 1 false)).any (fun r => r.1.kind == 6 && r.2.1 != 0 && r.1.loops < r.1.maxit && !r.2.2) = true ∧
    (wordOf (predicated 6 0 0 2 0 false)).any (fun r => r.1.kind == 6 && r.2.1 == 0 && !r.2.2) = true ∧
    (wordOf (predicated 5 7 0 0 7 true)).any (fun r => r.1.kind == 5 && r.2.2) = true ∧
    (wordOf (predicated 6 7 0 0 7 true)).any (fun r => r.1.kind == 6 && r.2.2) = true ∧
    (predicated 5 7 0 0 7 false).halted 1 0x10000 = false ∧
    (let s := predicated 6 0 0 2 1 false
     let h : State := { s with contexts := [{ placedContext with halted := [0] }] }
     h.halted 1 0x10000 = true ∧ (h.node 5 0).any (fun n => n.kind == 6 && n.loops == 0) = true ∧
     ({ newNode 0 (desc 6 []) [] [] with loops := 1 } : Node).loops ≠ 0) := by decide +kernel

/-- A predicate at an address that no page maps, or that none can, and one for whose page the host has been asked (R66, R417). -/
def elsewhere (a : Nat) : State := oneNode (BitVec.ofNat 1024 (5 + a * 256 ^ 8)) .ready
def comes (s : State) : Option Bool :=
  match s.graph 5, s.node 5 0 with
  | some g, some n =>
    match s.translate g.ctx (s.physDie g.die) n.code 8 .read with
    | .error t => if n.status == .ready then some (s.pageComes (0, 5, 0) g.ctx t) else none
    | .ok _ => none
  | _, _ => none

theorem witness_PredicatePages :
    comes (elsewhere 0x40000000) = some true ∧ comes (elsewhere 0x1000000000000) = some false ∧
    (elsewhere 0x40000000).pageAsked (0, 5, 0) = false ∧
    ({ ctl with port0 := { ctl.port0 with items :=
      [{ tag := 7, posted := true, kind := 3, die := 0, ctx := 1, req := .page (0, 5, 0) 1 0x40000000, payload := 0 }] } } : State).pageAsked
        (0, 5, 0) = true ∧
    (let w : PageWait := { who := (0, 5, 0), ctx := 1, page := 0x40000, refused := false }
     w ∉ ctl.pageWaits ∧ w ∈ ({ ctl with pageWaits := [w] } : State).pageWaits) ∧
    ctl.port0.duty.getLsbD 2 = false ∧ ({ ctl with port0 := { ctl.port0 with duty := 4 } } : State).port0.duty.getLsbD 2 = true := by
  decide +kernel

theorem witness_PreemptAndPages :
    (crowded.graph 5).any (fun g => (crowded.node 5 0).any (fun n => crowded.mayPreempt g n)) = true ∧
    (let s := oneNode (desc 1 [(4, 1, 1), (5, 1, 1)]) .ready
     (s.graph 5).any (fun g => (s.node 5 0).any (fun n => !s.mayPreempt g n && n.kind != 5 && n.kind != 6)) = true) ∧
    (ctl.context 1 = some placedContext ∧ ctl.absentEntry 0x40000000 3 0 = some 0x2010 ∧ ctl.absentEntry 0x10000000000 3 0 = some 0x20 ∧
     ctl.absentEntry 0 3 0 = none ∧ (0x1F : BitVec 64).getLsbD 0 = true ∧ (0 : BitVec 64).getLsbD 0 = false) := by decide +kernel

/-- The placed task with a split in its block, at a time in µs, its partition's run limit set. -/
def timed (us : Nat) : State :=
  { ready.placeAs .lOnly 0 with ticks := 100 * us, limits := ready.limits.setIfInBounds 0 [(0, { Limits.reset with run := 1000000 })] }

theorem witness_Watchdogs :
    ((timed 1000000).findTask 1).any (fun t => (timed 1000000).waitDue t && (timed 1000000).runDue t && (timed 1000000).splitDue t) = true ∧
    ((timed 999).findTask 1).any (fun t => !(timed 999).waitDue t && !(timed 999).runDue t && !(timed 999).splitDue t) = true ∧
    (((timed 1000000).onStage 1).enterBlock.task.block = some placedBlock ∧ ((timed 1000000).onStage 1).enterBlock.task.split = some placedSplit) := by
  decide +kernel

/-- An error record. -/
def recordOne : ErrorRecord := { kind := 1, unit_ := 5, pdie := 0, psect := 0xFF, count := 1, loc := 0, region := 0, node := 0, time := 0 }

theorem witness_PartEvents :
    (0 < 8 * 0x40000000 ∧ (ready.homeDie 0).isSome = true) ∧
    (ready.carries (.port 17) = true ∧ ({ ready with ports := Vector.replicate 18 { trained := false, failed := false, replays := 0 } } : State).carries
      (.port 17) = false ∧ ready.carries (.link 9) = true ∧ (ready.injectFlit (.link 9) .crcFailed).2 = .crcFailed ∧ (ready.replays (.link 9)) < 7 ∧
      ({ ready with ports := Vector.replicate 18 { trained := true, failed := false, replays := 7 } } : State).replays (.port 17) = 7) ∧
    (let i : Item := { tag := 1, posted := false, kind := 5, die := 0, ctx := 0, req := .triage recordOne, payload := 0 }
     let on : Ring := { Ring.reset with en := true, lsize := 4, base := 0x80000 }
     let s (r : Ring) : State := { ready with port0 := { ready.port0 with items := [i], srq := r } }
     ((s on).port0.items.find? (fun i => !i.posted && i.kind == 5)) = some i ∧ (s on).port0.srq.hasRoom = true ∧
     (s { on with wr := 16 }).port0.srq.hasRoom = false ∧ ((s on).port0.items.find? (fun i => !i.posted && i.kind == 6)) = none) := by decide +kernel

/-- A command entry with fields at byte offsets. -/
def commandOf (fields : List (Nat × Nat)) : BitVec 1024 := BitVec.ofNat 1024 (fields.foldl (fun a f => a + f.2 * 2 ^ (8 * f.1)) 0)

/-- The placed task held for its host, after its first record. -/
def heldOne : State := { ctl with task := { ctl.task with status := .held 0x10, fseq := 1 } }
def asked (r : Request) : State :=
  { ready with port0 := { ready.port0 with items := [{ tag := 7, posted := true, kind := 1, die := 0, ctx := 1, req := r, payload := 0 }] } }
def answers (r : Request) : Bool := ((asked r).port0.items.find? (fun i => i.posted && i.tag == fieldN (commandOf [(4, 7)]) 32 32)).any (fun i => i.req == r)
/-- The same with its image in the first kilobyte of a save pool at 0x80000, which a granule of poison may have struck. -/
def saved (struck : Bool) : State :=
  { ctl with contexts := [{ placedContext with pool := 0x80000, psize := 1024 }]
             poison := if struck then [0x80000 / 64] else []
             task := { ctl.task with status := .held 0x10, fseq := 1, image := some (0, 1024) } }
/-- The header of an image without segments (R345), of a grant, at 0x70000, and a save pool that it fits in. -/
def imaged (grant : Nat) : State :=
  withMem { ctl with contexts := [{ placedContext with pool := 0x80000, psize := 256 }] } 0x70000 (layBytes [(0x49584341, 4), (1, 2), (0, 2), (256, 8), (0, 10), (grant, 1), (0x11, 1), (2, 1), (1, 1)])

theorem witness_TrapAnswers :
    (heldOne.heldTask (commandOf [(4, 1)])).any (fun r => r.2 == 0x10 && decide (r.1 ∈ heldOne.tasks)) = true ∧ heldOne.hostRejects = [] ∧
    ctl.heldTask (commandOf [(4, 1)]) = none ∧ ctl.haltedEntry (commandOf [(4, 1)]) = none ∧
    ({ ctl with contexts := [{ placedContext with halted := [0] }] } : State).haltedEntry (commandOf [(4, 1)]) = some ({ placedContext with halted := [0] }, 0) ∧
    answers (.triage recordOne) = true ∧ answers (.fltsvc 1 0) = true ∧ answers (.page (1, 0, 0) 1 0x40000000) = true ∧ answers (.splice 0 5 0 1) = true ∧
    (let t : Machine.Task := { ctl.task with status := .waitPage 9, servicing := none }
     ({ ctl with task := t } : State).findTask 1 = some t ∧ t.status = .waitPage 9 ∧ t.status ≠ .waitPage 8 ∧ t.servicing ≠ some 8) ∧
    answers (.ctrovl 5 0 0) = true ∧ fieldN (commandOf [(4, 7), (8, 1)]) 64 64 = 1 ∧ fieldN (commandOf [(4, 7)]) 64 64 ≠ 1 := by decide +kernel

theorem witness_Import :
    (let v := (imaged 1).recallRaw 0x70000 256
     v.candidates 1 0x10000 ≠ [] ∧
     ((imaged 1).context (fieldN (commandOf [(4, 1)]) 32 32)).any (fun c => poolOffset c.psize 256 ((imaged 1).poolTaken c.id (imaged 1).nextTid) == some 0 &&
       v.poolPages c (c.pool.toNat + 0) 256 && poolOffset c.psize 257 [] == none) = true) ∧
    (imaged 1).region (fieldN (commandOf [(4, 1)]) 32 32) 0x10000 = some placedRegion ∧
    ((imaged 1).readImage 0x70000).any (fun i => imageShapeOk i && i.length == 256) = true ∧
    ((imaged 17).readImage 0x70000).any (fun i => !imageShapeOk i) = true := by decide +kernel

theorem witness_ServiceActions :
    (let a (c : Nat) : Action := { cmd := commandOf [(1, c)], step := 1, deadline := 0, asked := false, approved := false }
     (a 1).code = 1 ∧ (a 2).code = 2 ∧ (a 3).code = 3 ∧ (a 4).code = 4 ∧ ({ ready with action := some (a 1) } : State).action = some (a 1) ∧
     (a 1).deadline ≤ ready.micros) ∧
    (let a (c : Nat) : Action := { cmd := commandOf [(1, c), (8, ctl.task.id.section_)], step := 2, deadline := 0, asked := false, approved := true }
     let s : State := { ctl with action := some (a 1) }
     s.action = some (a 1) ∧ (a 1).code = 1 ∧ fieldN (a 1).cmd 96 32 = 0 ∧ 
     (let m : Action := { cmd := commandOf [(1, 2), (24, 1)], step := 2, deadline := 0, asked := false, approved := true }
      m.code = 2 ∧ fieldN m.cmd 96 32 = 0 ∧ ctl.task ∈ s.actionTasks m) ∧
     fieldN (commandOf [(12, 1)]) 96 32 ≠ 0 ∧ (a 1).deadline ≤ s.micros ∧ ctl.task ∈ s.actionTasks (a 1) ∧ s.movable ctl.task = false ∧
     ready.actionTasks (a 1) = [] ∧ ready.actionEngines (a 1) = false ∧
     ({ ready with action := some (a 5) } : State).switching ctl.task.id.section_ = true ∧ s.switching ctl.task.id.section_ = false) ∧
    (ready.logicalLink 0).isSome = true ∧ (ready.sect 127).isSome = true ∧ ready.action = none ∧ fieldN (commandOf [(24, 1)]) 192 1 = 1 ∧
    (ready.boot.updates.find? (fun u => u.1 == 3)) = none ∧
    (({ ready with boot := { ready.boot with updates := [(3, Image.plain 1)] } } : State).boot.updates.find? (fun u => u.1 == 3)) =
      some (3, Image.plain 1) ∧ (Image.plain 1).kind < 4 := by decide +kernel

theorem witness_Export :
    (let v := (saved false).recallImage (saved false).task
     (v.savedImage (saved false).task).any (fun img => decide (fieldN (commandOf [(4, 1)]) 192 64 + img.length ≤ 2 ^ 52)) = true ∧ v.hostRejects = []) ∧
    ((saved true).recallImage (saved true).task).savedImage (saved true).task = none ∧
    ((saved true).heldTask (commandOf [(4, 1)])).isSome = true ∧ ((saved false).heldTask (commandOf [(4, 1)])).isSome = true := by decide +kernel

/-- A context record (R383) and a queue-table entry (R36) at 0x70000, with the root RCB that the entry names. -/
def contextAt : State := withMem ctl 0x70000 (layBytes [(2, 4), (0, 4), (0, 8), (0x20000, 8), (1, 8), (0x40000, 8), (0x1000, 8)])
def enabling : State :=
  let s := withMem (withMem ctl 0x70000 (layBytes [(0x80000, 8), (6, 1), (0, 2), (1, 1), (0, 4), (0x10000, 8), (0x100000, 8), (0x90000, 8), (1, 4)]))
    0x10000 (layBytes [(0, 8), (0xFF, 1), (0, 7), (1, 1), (0, 23), (1, 1)])
  { s with port0 := { s.port0 with qtbase := 0x70000 } }

theorem witness_HostCommands :
    cmdClean (commandOf [(4, 1)]) [(0x04, 4), (0x40, 64)] = true ∧ fieldN (commandOf [(4, 4096)]) 32 32 = 4096 ∧
    cmdClean (commandOf [(4, 1)]) [(0x04, 4)] = true ∧ (ctl.context 1).isSome = true ∧ ctl.contextIdle 1 = false ∧
    ({ ready with contexts := [placedContext] } : State).contextIdle 1 = true ∧
    cmdClean (commandOf [(1, 1), (4, 1), (0x10, 4096)]) [(0x01, 1), (0x04, 4), (0x08, 8), (0x10, 8)] = true ∧
    fieldN (commandOf [(1, 1), (4, 1), (0x10, 4096)]) 128 64 % 4096 = 0 ∧ (commandOf [(1, 1), (4, 1), (0x10, 4096)]).extractLsb' 128 64 ≠ 0 ∧
    fieldN (commandOf [(1, 1), (4, 1), (0x10, 4096)]) 128 64 ≤ 65536 ∧
    (let e := commandOf [(0x40, 1000), (0x48, 1000000), (0x50, 0), (0x58, 1000)]
     cmdClean e [(0x04, 4), (0x40, 32)] = true ∧
     ({ preempt := fieldN e 512 64, wait := fieldN e 576 64, run := fieldN e 640 64, split := fieldN e 704 64 } : Limits).inRange = true) ∧
    (let e := commandOf [(4, 2), (8, 0x70000)]
     fieldN e 64 64 % 128 = 0 ∧ (contextAt.rawRead 0x70000 128).any (fun v => fieldN (BitVec.ofNat 1024 v) 0 32 == 2 && contextAt.contextOk (BitVec.ofNat 1024 v)) =
       true ∧ cmdClean e [(0x04, 4), (0x08, 8)] = true ∧ contextAt.context 2 = none ∧ contextAt.context 1 ≠ none) ∧
    fieldN (commandOf [(8, 1)]) 64 64 % 128 ≠ 0 ∧ cmdClean (commandOf [(2, 1)]) [(0x01, 1), (0x04, 4)] = false := by decide +kernel

theorem witness_QueueCommands :
    cmdClean (commandOf [(1, 1), (4, 3)]) [(0x01, 1), (0x04, 4)] = true ∧ (queueing.queue 3).any (fun x => x.enabled) = true ∧
    (let u := enabling
     u.queue 3 = none ∧ (u.rawRead (u.port0.qtbase + 384) 128).isSome = true ∧
     (let u := { u with port0 := { u.port0 with qtbase := 0x6FE80 } }
      (u.rawRead (u.port0.qtbase + 384) 128).any (fun v => u.enableOk (queueOf 3 (BitVec.ofNat 1024 v)) (BitVec.ofNat 1024 v) &&
        (let linked := ({ u with queues := u.queues ++ [queueOf 3 (BitVec.ofNat 1024 v)] } : State).linkRoot (queueOf 3 (BitVec.ofNat 1024 v))
         (linked.translate 1 none 0x90000 128 .write).isOk)) = true)) ∧
    ((queueing (fun x => { x with draining := true })).queue 3).any (fun x => x.draining) = true ∧ queueing.packets = [] ∧
    ((queueing (fun x => { x with draining := false })).queue 3).any (fun x => !x.draining) = true ∧ (inFlight 0).packets.any (fun p => p.q == 3) = true := by
  decide +kernel

/-- A part with BAR2 windows 0 and 1 enabled, onto physical 0 and onto no memory, an inbound window for every peer, and a CXL port. -/
def windowed (coh : Bool) : State :=
  { ready with port0 := { ready.port0 with
      bar2 := (ready.port0.bar2.setIfInBounds 0 { en := true, pbase := 0, keyid := 0 }).setIfInBounds 1 { en := true, pbase := 2, keyid := 0 }
      inbound := ready.port0.inbound.setIfInBounds 0 { en := true, rd := true, wr := true, pbase := 0, pages := 1, keyid := 0, src := 0xFFFF }
      cxl := true, coh := coh } }

theorem witness_OutsideAccesses :
    State.reset.boot.stage ≠ 4 ∧ ready.boot.stage = 4 ∧ ready.queues = [] ∧ queueing.queues ≠ [] ∧ (windowed true).contexts = [] ∧
    (windowed false).port0.cxl = true ∧ ready.port0.cxl = false ∧ (windowed false).inMutable (memKey 0 0x100) = false ∧
    (windowed true).port0.coh = true ∧ (windowed false).port0.coh = false ∧ (windowed true).serves westExits 0x100 8 = true ∧
    (windowed true).homeDie 0x100 = some 0 ∧ (windowed true).homeDie (0x100 + 8 - 1) = some 0 ∧ (windowed true).exitCause 0 westExits = none ∧
    (windowed true).serves westExits 0x3FFFFFFF 2 = false := by decide +kernel

/-- The same part with every die link down: no I/O die reaches die 1, and each reaches the dies that it attaches to. -/
def cutOff : State := { windowed true with links := (windowed true).links.map (fun l => { l with state := 1 }) }

theorem witness_UnreachableHomes :
    cutOff.homeDie 0x40000000 = some 1 ∧ cutOff.exitCause 1 westExits = some 0x06 ∧ cutOff.exitCause 1 eastExits = some 0x06 ∧
    cutOff.serves westExits 0x40000000 8 = false ∧ cutOff.exitCause 0 westExits = none ∧ cutOff.exitCause 3 eastExits = none ∧
    cutOff.boot.stage = 4 := by decide +kernel

/-- Window k of BAR2: whether it is enabled, and whether 8 bytes at an offset in it lie in memory. -/
def windowHits (s : State) (k off : Nat) : Option Bool :=
  (s.port0.bar2[k]?).bind (fun w => if w.en then some (s.serves westExits (w.pbase * 2 ^ 32 + off) 8) else none)
def admitted (s : State) (r : Transfer) : Bool := s.port0.inbound.toList.any (fun w => w.admits 7 0x100 r)

theorem witness_Windows :
    windowHits (windowed false) 0 0x100 = some true ∧ windowHits (windowed false) 1 0 = some false ∧ windowHits ready 1 0 = none ∧
    admitted (windowed false) (.read 8) = true ∧ admitted (windowed false) (.write [1]) = true ∧ admitted ready (.read 8) = false ∧
    admitted ready (.write [1]) = false := by decide +kernel

/-- The SHA3-256 of no bytes, as FIPS 202 gives it (R396, R398). -/
theorem test_sha3_of_nothing : sha3 [] = BitVec.ofNat 256 (leVal
    [0xA7, 0xFF, 0xC6, 0xF8, 0xBF, 0x1E, 0xD7, 0x66, 0x51, 0xC1, 0x47, 0x56, 0xA0, 0x61, 0xD6, 0x62,
     0xF5, 0x80, 0xFF, 0x4D, 0xE4, 0x3B, 0x49, 0xFA, 0x82, 0xD8, 0x0A, 0x4B, 0x80, 0xF8, 0x43, 0x4A]) := by decide +kernel

/-- A part whose ROM holds an empty key, which its fuses know or do not. -/
def keyed (known : Bool) : Boot := { Boot.reset with romKey := [], keyFuse := if known then sha3 [] else 0 }

/-- A part in boot stage 2, whose flash has failed at image 1, with a buffer of 4 KiB in host memory (R400). -/
def recovering (f : Boot → Boot) : State :=
  { State.reset with boot := f { Boot.reset with stage := 2, busy := true, mblen := 0x1000, mbaddr := 0x1000, failedAt := 1 } }

theorem witness_Boot :
    ({ Image.plain 1 with readable := false } : Image).readable = false ∧
    Boot.reset.check { Image.plain 1 with readable := false } = some 5 ∧ (keyed false).check (Image.plain 1) = some 2 ∧
    (keyed true).check { Image.plain 0 with signature := [] } = some 1 ∧
    Boot.reset.busy = false ∧ ready.boot.busy = false ∧ ready.boot.stage ≠ 1 ∧ State.reset.boot.stage = 0 ∧ ready.boot.stage = 4 ∧
    (let b := (recovering id).boot
     b.stage = 2 ∧ b.busy = true ∧ 1 ≤ b.mblen.toNat ∧ b.mblen.toNat ≤ 16 * 2 ^ 20 ∧ b.mbaddr.toNat % 4096 = 0 ∧
     b.mbaddr.toNat + b.mblen.toNat ≤ 2 ^ 52 ∧ (recovering id).hostRejects = []) ∧
    (recovering (fun b => { b with mbaddr := 8 })).boot.mbaddr.toNat % 4096 ≠ 0 ∧
    (let b := (recovering (fun b => { b with mbaddr := 0x10000000000000 })).boot
     b.mbaddr.toNat % 4096 = 0 ∧ ¬(b.mbaddr.toNat + b.mblen.toNat ≤ 2 ^ 52)) ∧
    (recovering (fun b => { b with stage := 3 })).boot.gradeRecord.valid = true ∧
    ({ (recovering (fun b => { b with stage := 3 })).boot.gradeRecord with live := [1] } : Grade).valid = false ∧
    (Boot.reset.flash.find? (fun i => i.kind == 0)).isSome = true ∧ Boot.reset.gradeRecord.live = [0, 1, 2, 3, 4, 5, 6, 7] ∧
    0xFFFFFFFFFFFFF + ([1] : List Byte).length ≤ 2 ^ 52 ∧
    ({ ready with boot := { ready.boot with busy := true } } : State).boot.busy = true := by decide +kernel

theorem witness_Thermal :
    let hot (j : Nat) (t : Bool) : State := { ready with boot := { ready.boot with junction := j, throttled := t } }
    95 < (hot 96 false).boot.junction ∧ ((hot 93 true).boot.throttled = true ∧ 93 ≤ (hot 93 true).boot.junction) ∧
    ((hot 92 true).boot.junction < 93 ∧ (hot 92 true).boot.throttled = true) ∧ ((hot 95 false).boot.junction ≤ 95 ∧ (hot 95 false).boot.throttled = false) ∧
    110 ≤ (hot 110 false).boot.junction ∧ (hot 109 false).boot.junction < 110 ∧
    (hot 110 false).sched = [] ∧ (hot 110 false).boot.tripped = false ∧ (hot 109 true).boot.tripped = false ∧
    (let s : State := { hot 93 true with ticks := 100000 }
     s.boot.throttled = true ∧ s.boot.throttleAt + 1000 ≤ s.micros ∧ s.sched = []) := by decide +kernel

theorem witness_FaultRecord :
    let tr : Trap := { cause := 0x06, info := 1, addr := some 0x40000000 }
    tr.inBlock = none ∧ tr.ofControl = false ∧ tr.pc = none ∧ tr.fromCopy = false ∧ tr.cause < 256 := by decide +kernel

/-! ## Single steps, on the manual's worked cases and on values worked out by hand -/

/-- A register after an instruction of the control thread, or the address of the next word. -/
def xAfter (i : Instr) (s : State) (n : Nat) : Option Word :=
  match exec i s with
  | .next t => t.task.x[n]?
  | _ => none
def pcAfter (i : Instr) (s : State) : Option Word :=
  match exec i s with
  | .next t => some t.task.pc
  | _ => none
def bytesAfter (i : Instr) (s : State) (a n : Nat) : Option Nat :=
  match exec i s with
  | .next t => some (leVal (t.peekBytes none a n))
  | _ => none
/-- Elements of a register, or the cause of the fault, after a block word. -/
def elemsAfter (i : Instr) (s : State) (w n : Nat) (es : List Nat) : Option (List Nat) :=
  match exec i s with
  | .next t => some (es.map (fun e => t.task.elem w n e))
  | _ => none
def reg (w : Nat) (vs : List Nat) : VReg := BitVec.ofNat 262144 (vs.reverse.foldl (fun a v => a * 2 ^ w + v) 0)

theorem test_scalar_arithmetic :
    xAfter (.add 7 5 6) (ctlX [(5, 0xFFFFFFFFFFFFFFFF), (6, 3)]) 7 = some 2 ∧
    xAfter (.sub 0 5 6) (ctlX [(5, 9), (6, 3)]) 0 = some 0 ∧
    xAfter (.div 7 5 6) (ctlX [(5, 7)]) 7 = some 0xFFFFFFFFFFFFFFFF ∧
    xAfter (.rem 7 5 6) (ctlX [(5, 0x8000000000000000), (6, 0xFFFFFFFFFFFFFFFF)]) 7 = some 0 ∧
    xAfter (.divw 7 5 6) (ctlX [(5, 0xFFFFFFF9), (6, 2)]) 7 = some 0xFFFFFFFFFFFFFFFD ∧
    xAfter (.mulhsu 7 5 6) (ctlX [(5, 0xFFFFFFFFFFFFFFFF), (6, 0xFFFFFFFFFFFFFFFF)]) 7 = some 0xFFFFFFFFFFFFFFFF ∧
    xAfter (.sraw 7 5 6) (ctlX [(5, 0x80000000), (6, 36)]) 7 = some 0xFFFFFFFFF8000000 ∧
    xAfter (.lui 7 0x80000) ctl 7 = some 0xFFFFFFFF80000000 := by decide +kernel
theorem test_scalar_memory_and_jumps :
    xAfter (.lb 7 5 0xFFF) (withMem (ctlX [(5, 0x60001)]) 0x60000 [0x80]) 7 = some 0xFFFFFFFFFFFFFF80 ∧
    bytesAfter (.sh 5 6 0) (ctlX [(5, 0x60000), (6, 0xAABBCC)]) 0x60000 4 = some 0xBBCC ∧
    pcAfter (.jalr 5 5 0) (ctlX [(5, 0x200001)]) = some 0x200000 ∧ xAfter (.jalr 5 5 0) (ctlX [(5, 0x200001)]) 5 = some 0x100004 ∧
    pcAfter (.blt 5 6 0x7FC) (ctlX [(5, 0xFFFFFFFFFFFFFFFF), (6, 0)]) = some 0x100FF8 ∧
    pcAfter (.bltu 5 6 0x7FC) (ctlX [(5, 0xFFFFFFFFFFFFFFFF), (6, 0)]) = some 0x100004 := by decide +kernel
theorem test_scalar_atomics :
    bytesAfter (.amominW 7 5 6 0 0) (withMem (ctlX [(5, 0x60000), (6, 1)]) 0x60000 [0xFF, 0xFF, 0xFF, 0xFF]) 0x60000 4 = some 0xFFFFFFFF ∧
    xAfter (.amominW 7 5 6 0 0) (withMem (ctlX [(5, 0x60000), (6, 1)]) 0x60000 [0xFF, 0xFF, 0xFF, 0xFF]) 7 = some 0xFFFFFFFFFFFFFFFF ∧
    bytesAfter (.scW 7 5 6 0 0) (ctlX [(5, 0x60000), (6, 1)]) 0x60000 4 = some 0 ∧ xAfter (.scW 7 5 6 0 0) (ctlX [(5, 0x60000), (6, 1)]) 7 = some 1 := by decide +kernel

/-- R70, R364: generation 3, stepping B0 (2), 8 dies, 10 links, 128 sections, 256 bytes of die records. -/
theorem test_tinfo_table : xAfter (.tinfo 7 5) (ctlX [(5, 8)]) 7 = some 0x010000800A080203 := by decide +kernel

/-- R186: ties go to the even significand. R202, R203: 256 + 1 + 1 + 1 in bfloat16 gives 258 by the tree and 256 in order. -/
theorem test_float_rounding :
    elemsAfter (.vfaddFVX 4 8 5 0 1) (withV (blkX sew32 2 [(5, 0x33800000)]) 8 (reg 32 [0x3F800000, 0x3F800001])) 32 4 [0, 1] =
      some [0x3F800000, 0x3F800002] ∧
    elemsAfter (.vfredsum 4 8 0 1) (withV (blk 0x121 4) 8 (reg 16 [0x4380, 0x3F80, 0x3F80, 0x3F80])) 16 4 [0] = some [0x4381] ∧
    elemsAfter (.vfredosum 4 8 0 1) (withV (blk 0x121 4) 8 (reg 16 [0x4380, 0x3F80, 0x3F80, 0x3F80])) 16 4 [0] = some [0x4380] := by decide +kernel
/-- R207, R208: 5.0, −0.7, 0.3 and 7.5 have the scale 0x7F and the bytes 0x96 and 0x71. -/
theorem test_block_scaled_four :
    elemsAfter (.vbscale 4 8 0 1) (withV (blk sew32 32) 8 (reg 32 [0x40A00000, 0xBF333333, 0x3E99999A, 0x40F00000])) 8 4 [0, 1] =
    some [0x7F, 0] ∧
    elemsAfter (.vcvtq4 4 8 12 0 0 1) (withV (withV (blk sew32 32) 8 (reg 32 [0x40A00000, 0xBF333333, 0x3E99999A, 0x40F00000])) 12 (reg 8 [0x7F])) 8 4
      [0, 1, 2] = some [0x96, 0x71, 0] := by decide +kernel

/-- The hash of the empty message, as FIPS 202's published examples give it. -/
theorem test_sha3 : bytesOf (sha3 []).toNat 8 = [0xA7, 0xFF, 0xC6, 0xF8, 0xBF, 0x1E, 0xD7, 0x66] := by decide +kernel

/-- R165: the first word of philox4x32_10 under key 0 and counter 0, as the published test vectors of that function give it. -/
theorem test_vrng : elemsAfter (.vrng 4 1) (ranged 5) 32 4 [0] = some [0x6627E8D5] := by decide +kernel
theorem test_integer_vectors :
    elemsAfter (.vid 4 1) (blk sew32 3) 32 4 [0, 1, 2, 3] = some [0, 1, 2, 0] ∧
    elemsAfter (.vaddVV 4 8 12 0 0 1) (withV (withV (blk sew32 3) 8 (reg 32 [0xFFFFFFFF, 1, 2, 7])) 12 (reg 32 [2, 3, 4, 9])) 32 4 [0, 1, 2, 3] =
      some [1, 4, 6, 0] ∧
    elemsAfter (.vsraVX 4 8 5 0 1) (withV (blkX sew32 2 [(5, 33)]) 8 (reg 32 [0x80000000, 6])) 32 4 [0, 1] = some [0xC0000000, 3] ∧
    elemsAfter (.vgatherVX 4 8 5 0 1) (withV (blkX sew32 2 [(5, 1)]) 8 (reg 32 [11, 12])) 32 4 [0, 1] = some [12, 12] ∧
    elemsAfter (.vcompress 4 8 0) (withV (withV (blk sew32 4) 0 (reg 32 [0xA])) 8 (reg 32 [1, 2, 3, 4])) 32 4 [0, 1, 2] = some [2, 4, 0] ∧
    bytesAfter (.vse 4 5 0 2 0 1) (withV (blkX sew32 2 [(5, 0x60000)]) 4 (reg 32 [1, 0x80000000, 7])) 0x60000 12 = some 0x8000000000000001 := by decide +kernel

/-- The packed worked case: a = (−3, 5) and b = (−6, 7) under the dot and the bundle plan. -/
def planned (p : Word) : State :=
  let s := withV (withV (blk sew64 1) 8 (reg 64 [0x050D])) 12 (reg 64 [0x070A])
  { s with task := { s.task with fl := s.task.fl.setIfInBounds 1 p } }
/-- The products of the worked case of a = (−3, 5) and b = (−6, 7), and two of its extractions. -/
theorem test_packed :
    elemsAfter (.vpmul 4 1 8 12 0 0 1) (planned 0x411909) 64 4 [0, 1] = some [0xFFFFFFFFFFE234EB, 0xFFFFFFFFFFFFFFFF] ∧
    elemsAfter (.vpmul 4 1 8 12 0 0 1) (planned 0x41190B) 64 4 [0, 1] = some [0x22CD12, 0] ∧
    elemsAfter (.vpext 4 1 8 0 0 1) (withV (planned 0x411909) 8 (reg 64 [0xFFFFFFFFFFE234EB, 0xFFFFFFFFFFFFFFFF])) 64 4 [0] = some [53] ∧
    elemsAfter (.vpext 4 1 8 1 0 1) (withV (planned 0x41190B) 8 (reg 64 [0x22CD12])) 64 4 [0] = some [35] := by decide +kernel

/-- AES-256 on the example of FIPS 197, which AES-XTS rests on (R230). -/
theorem test_aes_256 :
    let raw (n k : Nat) : List Byte := (List.range n).map (fun i => BitVec.ofNat 8 (k * i))
    aesEncipher (aesRoundKeys (raw 32 1)) (raw 16 17) =
      [0x8E, 0xA2, 0xB7, 0xCA, 0x51, 0x67, 0x45, 0xBF, 0xEA, 0xFC, 0x49, 0x90, 0x4B, 0x49, 0x60, 0x89] := by decide +kernel

/-! ## Statements: tokens, stream registers, the stash -/

/-- A machine that issues a copy word or another word of its block, with the copies given. -/
def tokened (cs : List Copy) : State := let s := copier 1; { s with task := { s.task with copies := cs } }
def failed : Copy := { twoBytes 0 with trap := true, status := some 0x06, failAt := some (0x60000, true) }
/-- A chained command behind a first one that has ended with a status, with no check that it was found (ctl bit 32 clear). -/
def chained (st : Word) : State :=
  { ctl with task := { ctl.task with copies := [{ twoBytes 2 with status := some st }, { twoBytes 2 with op := 1, after := some 0 }] } }

/-- What a step of the engine makes of the second command. -/
def carriedOn : State × Progress × CopyEnd :=
  let s : State := { chained 0x100000100 with cur := .vector }
  let u := s.onTask (fun t => { t with copies := t.copies.mapIdx (fun n o => if n = 0 then { o with handedOn := true } else o) })
  u.carryOn (u.jobOf 1 { twoBytes 2 with op := 1, after := some 0 })
    { done := 2, running := fieldN (0x100000100#64) 32 32, flip := none, home := none }

theorem witness_PendingTokens :
    let b := blockX [(5, 0x50000), (6, 0x60000), (7, 0)]
    (∀ c ∈ [twoBytes 0, failed, { failed with status := some 0 }], (tokened [c]).cur = .vector ∧ (tokened [c]).task.block = some b ∧ b.poison = 0 ∧
      (tokened [c]).task.copies[0]? = some c ∧ c.serial = b.serial ∧ c.tok = (7 : BitVec 5).toNat ∧ c.overwritten = false ∧
      c.tok ≠ (5 : BitVec 5).toNat ∧ c.tok ≠ (6 : BitVec 5).toNat) ∧
    (twoBytes 0).status = none ∧ failed.status = some 0x06 ∧ failed.read = false ∧ failed.trap = true ∧ failed.handedOn = false ∧ fieldN (0x06#64) 0 8 ≠ 0 ∧
    ({ failed with status := some 0 } : Copy).status = some ((tokened [failed]).x 7) ∧ failed.status ≠ some ((tokened [failed]).x 7) := by decide +kernel

theorem witness_ChainedIssue :
    (tokened [failed]).task.replies.length < 16 ∧ (tokened [failed]).task.vPoison = [] ∧ (tokened [failed]).det = false ∧
    (tokened [failed]).task.groupsOk { srcs := [(8, 1), (9, 1)], dsts := [] } 1 = true ∧ (tokened [failed]).task.vl ≤ 16 ∧
    layoutsOk ((tokened [failed]).task.layout 8 1) ((tokened [failed]).task.layout 9 1) = true ∧
    fieldN (BitVec.ofNat 64 ((tokened [failed]).task.elem 64 8 16)) 34 30 = 0 ∧ (tokened [failed]).copySlots (tokened [failed]).task.id.section_ ≠ 0 := by
  decide +kernel

theorem witness_ChainedCompletion :
    (∀ n ∈ [0x06, 0, 0x100000100], let st := BitVec.ofNat 64 n
      (chained st).task.status = .running ∧ (chained st).pageAsked (1, 1, 0) = false ∧
      ((chained st).task.copies[1]?).bind (·.after) = some 0 ∧ ((chained st).task.copies[0]?).bind (·.status) = some st) ∧
    fieldN (0x100000100#64) 0 8 = 0 ∧ (0x100000100#64).getLsbD 8 = true ∧ (0#64).getLsbD 8 = false ∧
    ∃ v g, carriedOn = (v, g, .complete) :=
  ⟨by decide +kernel, by decide, by decide, by decide, end_of (by decide +kernel)⟩

theorem witness_TdoneStatuses :
    (copying failed).AtControl ∧ (∀ c ∈ (copying failed).task.copies, c.status ≠ none) ∧ ((copying (twoBytes 0)).task.copies.any (·.status.isNone)) = true ∧
    (copying failed).task.block = none ∧ (copying failed).task.vq = [] ∧ (copying failed).task.aqueue = [] :=
  ⟨control_of (by decide +kernel), by decide +kernel⟩

/-- v24 bound to a stream of eight words from 0x60000 or from another base, of which a number have been read (R263, R265). -/
def drawing (base cursor : Nat) : Stream :=
  { desc := BitVec.ofNat 512 (leVal (layBytes [(base, 8), (8, 4), (1, 4), (1, 4), (1, 4), (4, 1), (0, 31), (2, 1), (1, 1)])), cursor := cursor }
def boundAt (s : State) (d : Stream) : State := { s with task := { s.task with streams := s.task.streams.setIfInBounds 0 (some d) } }

theorem witness_StreamRegisters :
    (let s := boundAt (blkX sew32 3 []) (drawing 0x60000 6)
     s.cur = .vector ∧ s.task.block = some (blockX []) ∧ s.task.copies = [] ∧ (blockX []).poison = 0 ∧ s.task.vPoison = [] ∧ s.task.fold = 1 ∧
     s.task.binding (24 : BitVec 5).toNat = some (drawing 0x60000 6) ∧ s.task.binding (4 : BitVec 5).toNat = none ∧
     s.task.groupsOk { srcs := [(24, s.task.lmul)], dsts := [(4, s.task.lmul)] } 1 = true ∧ (blockX []).h0.getLsbD 12 = true ∧ s.regsAllow 1 = true ∧
     s.task.sew = 8 * 2 ^ streamEew (drawing 0x60000 6).desc ∧ s.task.lmul = 1 ∧ s.task.vl ≤ s.task.vlmax ∧ plainHere { s with task := { s.task with streams := (blk 0 0).task.streams } } = true ∧
     streamLength (drawing 0x60000 6).desc = 8 ∧ (∀ k ∈ [0, 1], (streamAddr (drawing 0x60000 6).desc (6 + k)).toNat % 4 = 0 ∧
       (s.locateRead (streamAddr (drawing 0x60000 6).desc (6 + k)) 4).isOk = true)) ∧
    (streamAddr (drawing 0x60001 0).desc 0).toNat % 4 ≠ 0 ∧ (streamAddr (drawing 0x40000000 0).desc 0).toNat % 4 = 0 ∧
    ((boundAt (blkX sew32 3 []) (drawing 0x40000000 0)).locateRead (streamAddr (drawing 0x40000000 0).desc 0) 4).isOk = false ∧
    ({ placedBlock with h0 := 0xB1002CFD } : Block).h0.getLsbD 12 = false ∧ (boundAt (blkX sew64 3 []) (drawing 0x60000 6)).task.sew ≠ 32 ∧
    (let s := boundAt (lan sew32) (drawing 0x60000 6)
     s.cur = .lane 0 ∧ s.task.binding 24 = some (drawing 0x60000 6) ∧
     s.task.groupsOk { srcs := [(24, s.task.lmul)], dsts := [(4, s.task.lmul)] } 1 = true) := by decide +kernel

/-- A line of the stash at 0x50000 with an unwritten byte, its owners and its writers; a block with a window there, and a stash. -/
def lineOf (owners : List (Nat × Nat)) (writers : List Nat) : StashLine :=
  { section_ := ctl.task.id.section_, owners := owners, line := 0x50000, km := none, dirty := [(0x50000, 1)], writers := writers, cleared := [] }
def stashed (ls : List StashLine) : State :=
  let s := blkX sew64 1 [(5, 0x50000)]
  { s with stash := ls, task := { s.task with windows := s.task.windows.setIfInBounds 0 (some { base := 0x50000, size := 256, since := 0 }) } }

theorem witness_StashAccesses :
    (∀ ls ∈ [[], [lineOf [(1, 0x50000)] [0]], [lineOf [(1, 0x50000)] [3]], [lineOf [(2, 0x50000)] []]],
      (stashed ls).AtBlock (blockX [(5, 0x50000)]) ∧ (stashed ls).det = false ∧ (stashed ls).poison = [] ∧ (stashed ls).actives 1 = [0] ∧
      (∃ p, (stashed ls).locateRead 0x50000 8 = .ok p ∧ ((stashed ls).stashServed p 3 && p.page.home == 0) = true) ∧
      (∃ p, (stashed ls).locate 0x50000 8 .write = .ok p ∧ ((stashed ls).stashServed p 3 && decide (p.key % 256 + 8 ≤ 256) && p.key == 0x50000) = true) ∧
      ls.length ≤ 1) ∧
    (stashed []).task.sew = 8 * 2 ^ (3 : BitVec 3).toNat ∧ (stashed []).task.groupsOk { srcs := [(4, 1)], dsts := [(4, 1)] } 1 = true ∧
    (∀ va ∈ [0x50000, 0x500FF], (stashed []).inWindow va = true) ∧ (∀ va ∈ [0x4FFFF, 0x50100], (stashed []).inWindow va = false) ∧
    (lineOf [(1, 0x50000)] [0]).holds 0x500FF 1 = true ∧ (lineOf [(1, 0x50000)] [0]).holds 0x50100 1 = false ∧
    ({ ctlX [(5, 0x50000)] with stash := [lineOf [(2, 0x50000)] []] } : State).AtControl ∧
    (ctlX [(5, 0x50000)]).det = false ∧ ((ctlX [(5, 0x50000)]).locateRead 0x50000 8).isOk = true ∧
    overlayGet (lineOf [] []).dirty 0x50000 = some 1 ∧ overlayGet (lineOf [] []).dirty 0x50001 = none := by
  refine ⟨?_, by decide +kernel, by decide +kernel, by decide +kernel, by decide +kernel, by decide +kernel, by decide +kernel,
    control_of (by decide +kernel), by decide +kernel, by decide +kernel, by decide +kernel, by decide +kernel⟩
  intro ls h
  simp only [List.mem_cons, List.not_mem_nil, or_false] at h
  rcases h with rfl | rfl | rfl | rfl <;>
    exact ⟨block_of (by decide +kernel), by decide +kernel, by decide +kernel, by decide +kernel, ok_with (by decide +kernel), ok_with (by decide +kernel),
      by decide⟩

/-- A section whose stash is full (R237, R239): a fill takes the place of the last line. -/
theorem witness_FullStash :
    let ls := List.replicate 7936 (lineOf [(1, 0x50000)] [])
    7936 ≤ (ls.filter (fun l => l.section_ == ctl.task.id.section_)).length ∧
    (ls.filter (fun l => l.section_ == ctl.task.id.section_)).getLast? = some (lineOf [(1, 0x50000)] []) ∧
    ∀ l ∈ ls, l.holds (0x60000 / 256 * 256) 256 = false := by
  have mine : ((lineOf [(1, 0x50000)] []).section_ == ctl.task.id.section_) = true := by decide +kernel
  simp only [List.filter_replicate, mine, if_true, List.length_replicate, List.getLast?_replicate]
  exact ⟨Nat.le_refl _, rfl, fun l h => by rw [(List.mem_replicate.1 h).2]; decide +kernel⟩

/-! ## Statements: deterministic regions, melds, images -/

/-- A byte of a write set at 0x60000 + i. -/
def written (i : Nat) (v : Byte) (direct : Bool := false) : SetByte :=
  { ofC := false, key := 0x60000 + i, km := none, va := 0x60000 + i, byte := v, direct := direct }

/-- A merged segment of a node of the region, that has written bytes and replaced 9 at 0x60000. -/
def segmentOf (sid node : Nat) (ws : List SetByte) (before : List Nat := []) : Segment :=
  { sid := sid, ctx := 1, region := 0x10000, gid := 0, it := 0, node := node, kernel := 0, endPc := 0, endBlock := none, origin := 0, writes := ws,
    replaced := [(0x60000, 9)], before := before, bara := none, merged := true, fseq := 0 }

/-- The control thread of a task of a deterministic region with a stash budget, its write set, the segments before its own and the merged
ones; x5 is 0x60000 and x6 is 7, and the byte at 0x60000 is 3. -/
def ordered (budget : BitVec 64) (ws : List SetByte) (before : List Nat) (gs : List Segment) : State :=
  let s := withMem (ctlX [(5, 0x60000), (6, 7)]) 0x60000 [3]
  { s with regions := [{ placedRegion with rcb := setField (setField placedRegion.rcb 0x58 (1#8)) 0xC0 budget }], segments := gs, nextSegment := 90
           task := { s.task with wset := ws, before := before, segment := 80 } }

/-- The lane thread of element 0 at the join of a split of two threads, of which the other has written a byte and stands there too. -/
def joinedLanes (mine other : List SetByte) : State :=
  let s := lan sew32
  { s with task := { s.task with split := some { placedSplit with threads :=
      [{ elem := 0, off := 0, draws := 0, rounds := 0, joined := false, wset := mine }, { elem := 1, off := 0, draws := 0, rounds := 0, joined := true, wset := other }] } } }

theorem witness_DeterministicRegions :
    (∀ b ∈ [0, 127, 128], let s := ordered (BitVec.ofNat 64 b) [] [] []
      (controlHere s && s.det) = true ∧ (s.x 5).toNat % 8 = 0 ∧ (s.locateRead (s.x 5) 8).isOk = true ∧ s.stash = [] ∧
      (match s.locate (s.x 5) 8 .write with
        | .ok p => s.stashRoom s.task.id.ctx s.task.id.region (128 * s.newSetLines p.key 8) == decide (128 ≤ b)
        | .error _ => false) = true) ∧
    (let s := ordered 4096 [written 0 5] [] []
     s.task.block = none ∧ s.task.vq = [] ∧ s.task.aqueue = [] ∧ s.task.copies = [] ∧ s.task.second = none ∧ s.poison = [] ∧ s.meldOf s.task = none ∧
     (s.endedSegment false none).conflict (s.unordered (s.endedSegment false none)) = none) ∧
    (let s := ordered 4096 [written 0 5] [] [segmentOf 1 7 [written 0 6]]
     ((s.endedSegment false none).conflict (s.unordered (s.endedSegment false none))).any (fun x => x.addr == 0x60000 && x.hi.node == 7 && x.lo.sid == 80)) =
       true ∧
    (let s := ordered 4096 [written 0 5] [1] [segmentOf 1 7 [written 0 6]]
     (s.endedSegment false none).conflict (s.unordered (s.endedSegment false none)) = none) ∧
    (let s := joinedLanes [] []
     (s.cur == .lane 0 && runsHere s.task placedBlock) = true ∧ s.offset = placedSplit.join) ∧
    (setGet [written 0 5] (written 0 6).key).isSome = true ∧ (segmentOf 1 7 []).above (segmentOf 2 6 []) = true ∧
    (segmentOf 1 7 []).above (segmentOf 2 7 []) = false := by decide +kernel

/-- R317, R319, R321: a task reads its own byte, else that of the segment before it, of two ordered ones the later's, of two unordered ones that of
the higher task; else memory as no unordered segment has changed it. A direct update sends it to memory. -/
theorem test_deterministic_views :
    (ordered 0 [written 0 5] [1] [segmentOf 1 7 [written 0 6]]).viewByte none 0x60000 = 5 ∧
    (ordered 0 [] [1] [segmentOf 1 7 [written 0 6]]).viewByte none 0x60000 = 6 ∧
    (ordered 0 [] [1, 2] [segmentOf 2 6 [written 0 8], segmentOf 1 7 [written 0 6]]).viewByte none 0x60000 = 6 ∧
    (ordered 0 [] [1, 2] [segmentOf 2 6 [written 0 8] [1], segmentOf 1 7 [written 0 6]]).viewByte none 0x60000 = 8 ∧
    (ordered 0 [] [] [segmentOf 1 7 [written 0 6]]).viewByte none 0x60000 = 9 ∧
    (ordered 0 [] [] []).viewByte none 0x60000 = 3 ∧
    (ordered 0 [written 0 5 true] [] []).viewByte none 0x60000 = 3 := by decide +kernel

/-- R318, R319: a store leaves memory as it is until the merge; the segment of the higher task keeps its byte. -/
theorem test_deterministic_stores :
    bytesAfter (.sd 5 6 0) (ordered 4096 [] [] []) 0x60000 1 = some 3 ∧
    (let s := ordered 4096 [written 0 5, written 1 4] [] [segmentOf 1 7 [written 0 6]]
     (leVal ((s.mergeSegment (s.endedSegment false none)).peekBytes none 0x60000 2)) = 0x403) ∧
    (let s := ordered 4096 [written 0 5] [1] [segmentOf 1 7 [written 0 6]]
     (leVal ((s.mergeSegment (s.endedSegment false none)).peekBytes none 0x60000 2)) = 5) := by decide +kernel

/-! ### The worked case "A meld, word by word" -/

noncomputable def codeOf (is : List Instr) : List (BitVec 32) := is.map (fun i => (encode i).getD 0)

/-- T at 0x70000: write or read, rank 1, 32 bits, 40 elements, stride 4; for C with the transient bit. -/
def tileOf (mode transient : Nat) : BitVec 256 :=
  BitVec.ofNat 256 (leVal (layBytes [(0x70000, 8), (mode, 1), (transient, 1), (1, 1), (2, 1), (40, 2), (1, 2), (1, 2), (0, 2), (4, 4)]))

/-- A node of the example with its slots, and the shape of its kernel. -/
noncomputable def shapeWith (index mark : Nat) (op : BitVec 256) (slots : List (Nat × Nat × Nat)) (h2 : BitVec 32) (body : List Instr) : Shape :=
  let vblk := 0x90000 + 0x1000 * index
  let n := { newNode index (desc 1 ([(4, 1, 1), (5, 4, 1), (0x38, vblk, 8)] ++ slots)) [op] [] with status := .ready }
  let m : SpliceMark := { block := BitVec.ofNat 64 vblk, role := index + 1, operand := 0, word := mark, eligible := true, inner := 1 }
  { node := n, mark := m, kernel := { ctx := 1, entry := 0, hasRegs := true, vdecl := 0, lcmask := 0xF, flmask := 0, uses := 0, xmask := 0, marks := [m] }
    control := codeOf [.vsetcfgi 0 0x102, .vblk 12, .vdrainq, .tdone], decl := none, cfg := (encode (.vsetcfgi 0 0x102)).getD 0, vblk := 12, h1 := 0x6C00,
    h2 := h2, body := codeOf body, loop := 0, strip := 1, back := body.length - 1 }

noncomputable def producer : Shape :=
  shapeWith 0 4 (tileOf 2 0) [(0x30, 40, 8), (0x48, 0x70000, 8)] 0x6
    [.vloop 0 11, .vstrip 0, .vle 1 10 0 2 1, .vmulVX 2 1 13 1 1, .vse 2 14 0 2 1 1, .baddvl 10 2, .baddvl 14 2, .vlbnz 0 6]
noncomputable def consumer : Shape :=
  shapeWith 1 2 (tileOf 1 1) [(0x28, 0x70000, 8), (0x30, 40, 8), (0x40, 0x80000, 8), (0x48, 0xA0000, 8)] 0xE
    [.vloop 0 11, .vstrip 0, .vle 1 10 0 2 1, .vle 2 13 0 2 1, .vaddVV 3 1 2 0 1 1, .vse 3 14 0 2 1 1, .baddvl 10 2, .baddvl 13 2, .baddvl 14 2,
     .vlbnz 0 8]
noncomputable def exampleGraph : Graph :=
  { gid := 5, ctx := 1, q := 3, pid := 0, region := 0x10000, die := 0, seed := 0, pcap := 15, single := false, nodes := [producer.node, consumer.node],
    before := [], live := true }
noncomputable def exampleDraft (det : Bool) : Option Draft := match buildMeld exampleGraph det producer consumer (tileOf 2 0) (tileOf 1 1) with
  | .ok d => some d
  | .error _ => none

theorem test_meld_word_by_word :
    matchFailure producer consumer (tileOf 2 0) (tileOf 1 1) = none ∧
    (exampleDraft false).any (fun d => d.elided && d.meld.body == codeOf
      [.vloop 0 11, .vstrip 0, .vle 1 10 0 2 1, .vmulVX 2 1 13 1 1, .baddvl 10 2, .baddvl 14 2, .vle 3 1 0 2 1, .vaddVV 4 2 3 0 1 1, .vse 4 2 0 2 1 1,
       .baddvl 1 2, .baddvl 2 2, .vlbnz 0 10]) = true ∧
    (exampleDraft false).any (fun d => d.meld.bodyOrigin.map (fun o => (o.who, (o.pc - 12).toNat % 0x1000 / 4)) ==
      [(1, 0), (1, 1), (1, 2), (1, 3), (1, 5), (1, 6), (2, 3), (2, 4), (2, 5), (2, 7), (2, 8), (1, 7)]) = true ∧
    (exampleDraft false).any (fun d => d.meld.h0 == 0xB100010C && d.meld.h1 == 0x6C06 && d.meld.h2 == 0x1E) = true ∧
    (exampleDraft false).any (fun d => d.meld.starts.toList.take 3 == [0, 0x80000, 0xA0000] && d.meld.starts[11] == 40) = true ∧
    (exampleDraft true).any (fun d => !d.elided && d.meld.body.length == 13) = true := by decide +kernel

/-- Pairs that fail, and a machine that holds a meld. -/
theorem witness_Melds :
    matchFailure producer consumer (tileOf 2 0) (setField (tileOf 1 1) 96 (41#16)) = some 0x03 ∧
    matchFailure producer { consumer with node := { consumer.node with desc := setField consumer.node.desc 384 (41#64) } } (tileOf 2 0) (tileOf 1 1) = some 0x04 ∧
    matchFailure producer { consumer with cfg := 0 } (tileOf 2 0) (tileOf 1 1) = some 0x05 ∧
    matchFailure producer { consumer with node := { consumer.node with desc := setField consumer.node.desc 32 (5#8) } } (tileOf 2 0) (tileOf 1 1) =
      some 0x09 ∧
    (exampleDraft false).any (fun d => decide (d.meld.vblk < 32) && d.meld.p == 0 && d.meld.c == 1) = true ∧
    (let s : State := { ctl with graphs := [exampleGraph] }
     s.graph 5 = some exampleGraph ∧ (s.node 5 0).isSome = true ∧ (s.node 5 1).isSome = true ∧ s.lapsOf 0 exampleGraph producer.node = [] ∧
     s.lapsOf 0 exampleGraph consumer.node = [] ∧ (s.dies[(s.physDie 0).getD 0]?).isSome = true ∧ s.effPrio 1 0x10000 = 0 ∧ s.meldOf s.task = none) :=
  by decide +kernel

/-- The code of both kernels in memory: the dealer finds the producer's shape, and none in a kernel without a record. -/
theorem witness_Shapes :
    (let laid (ws : List (BitVec 32)) : List Byte := ws.flatMap (fun w => bytesOf w.toNat 4)
     let n := { producer.node with desc := setField producer.node.desc 64 (0x80000#64) }
     let s := withMem (withMem ctl 0x80000 (laid producer.control)) 0x90000 (laid ([0xB1000108, 0x6C00, 0x6] ++ producer.body))
     (match s.shapeOf exampleGraph 0 n producer.kernel producer.mark with
       | .ok x => x == { producer with node := n }
       | .error _ => false) = true ∧
     (match s.shapeOf exampleGraph 0 n { producer.kernel with hasRegs := false } producer.mark with
       | .ok _ => none
       | .error c => some c) = some 0x02) := by decide +kernel

/-- An image of a header alone (R345), for a reason of its stop, with the SHA3-256 of its bytes; a machine whose save pool, at 0x40000, holds just
that, with a byte of it changed, and the task that it is of, saved on a generation. -/
def headerOnly (reason : Nat) : List Byte :=
  layBytes [(0x49584341, 4), (1, 2), (0, 2), (256, 8), (0, 12), (reason, 1), (0, 67), (if reason = 2 then 0x10 else 0, 1), (0, 63),
    (if reason = 2 then 0x38DBE5ED8820B257BB6505D33C80713316E98A475CDA55AE9B51A6BAF081948A
     else 0xE8D2CAB31A2C8B3F15688053E3ED875274504440E9EDD31CA4119907D3B2B491, 32), (0, 64)]
def stopped (gen reason o : Nat) (b : Byte) : State :=
  withMem { ctl with contexts := [{ placedContext with pool := 0x40000, psize := 256 }]
                     task := { ctl.task with status := .stopped 5, image := some (0, 256), id := { ctl.task.id with gen := gen } } }
    0x40000 ((headerOnly reason).set o b)
def restoredOf (s : State) : Option Machine.Task := match s.restored s.task 0 with
  | .ok t => some t
  | .error _ => none
def refusedOf (s : State) (miss : BitVec 64) : Option (Nat × BitVec 32) := match s.restored s.task miss with
  | .ok _ => none
  | .error e => some e

/-- A restore that goes on behind a trap, and the refusals. -/
theorem witness_Images :
    (restoredOf (stopped 3 2 0 0x41)).map (fun t => (t.pc, t.image)) = some (4, none) ∧ (trapRecord (headerOnly 2)).map (·.getLsbD 8) = some false ∧
    (stopped 3 5 0 0x41).missingFeatures (stopped 3 5 0 0x41).task = 0 ∧ refusedOf (stopped 3 5 0 0x41) 0x80 = some (0x0F, 0x80) ∧
    refusedOf (stopped 200 5 0 0x41) 0 = some (0x0F, 0) ∧
    refusedOf { stopped 3 5 0 0x41 with contexts := [{ placedContext with pool := 0x40000000, psize := 256 }] } 0 = some (0x08, 0) ∧
    poolOffset 17472 64 [(0, 17408)] = some 17408 ∧ poolOffset 17471 64 [(0, 17408)] = none ∧
    (stopped 3 5 0 0x41).poison = [] ∧ (stopped 3 5 0 0x41).findTask 1 = some (stopped 3 5 0 0x41).task := by decide +kernel

/-- The digest that the image of another stop holds, and one that has been changed. -/
theorem witness_ImageDigest :
    leVal (((headerOnly 5).drop 0xA0).take 32) = (imageDigest (headerOnly 5) []).toNat ∧ trapRecord (headerOnly 5) = none ∧
    leVal ((((headerOnly 5).set 0x20 9).drop 0xA0).take 32) ≠ (imageDigest ((headerOnly 5).set 0x20 9) []).toNat ∧
    getSegments (headerOnly 5) = [] ∧
    ((ctl.loadEdits placedContext ctl.task (headerOnly 5)).rulesHold none && laneFlagOk 0 false) = true := by decide +kernel

/-! ## Statements: poisoned registers, dirty lines, mutable halves -/

def spoiled (s : State) (scalars : BitVec 32) (vs ms : List (Nat × Nat × BitVec 8)) (latent : List (Nat × Nat)) : State :=
  let b : Block := { blockX [] with poison := scalars }
  { s with task := { s.task with block := some b, vPoison := vs, mPoison := ms, latent := latent } }

theorem witness_PoisonedRegisters :
    (let s : State := { ctl with task := { ctl.task with xPoison := 0x20 } }
     s.cur = .control ∧ (5 : BitVec 5) ≠ 0 ∧ s.task.xPoison.getLsbD (5 : BitVec 5).toNat = true) ∧
    (let s := spoiled (blkX sew32 1 []) 0x20 [] [] []
     s.cur = .vector ∧ s.task.copies = [] ∧ s.task.block.any (fun b => b.poison.getLsbD (5 : BitVec 5).toNat) = true) ∧
    (∀ k ∈ [0, 5], let s := spoiled (blkX sew32 1 []) 0 [(8, k, 1)] [] [(72, 5)]
      s.cur = .vector ∧ s.task.lmul = 1 ∧ s.task.vPoison = [((8 : BitVec 5).toNat, k, 1)] ∧ (1 : BitVec 8) ≠ 0 ∧
      s.task.groupsOk { srcs := [(8, 1)], dsts := [(4, 1)] } 1 = true ∧ s.actives 1 = [0] ∧ decide (64 * k < 0 * s.task.sew + s.task.sew) = (k == 0) ∧
      (64 + (8 : BitVec 5).toNat, 5) ∈ s.task.latent) ∧
    (let s := spoiled (blkX sew32 4 []) 0 [] [(2, 1, 1)] []
     s.cur = .vector ∧ s.task.block.any (fun b => b.poison == 0 && b.h0.getLsbD 11) = true ∧ s.task.mPoison = [((2 : BitVec 3).toNat, 1, 1)] ∧
     s.task.id.kind = 2 ∧ s.regsAllow 0 = true ∧ s.task.dsc = 0 ∧ s.task.sew = 32 ∧ s.task.groupsOk { srcs := [], dsts := [(4, s.task.lmul)] } 1 = true ∧
     fieldN (s.x 5) 6 26 = 0 ∧ fieldN (s.x 5) 0 6 < fieldN s.task.mshape 0 6 + 1 ∧
     s.task.vl ≤ (fieldN s.task.mshape 0 6 + 1 - fieldN (s.x 5) 0 6) * (fieldN s.task.mshape 6 6 + 1) ∧
     2 < s.task.vl ∧ 2 < s.task.vlmax ∧ (64 * (0 + 2 / 64) + 2 % 64) / 2 = 1) := by decide +kernel

theorem unbound_spoiled (n : Nat) : (spoiled (blkX sew32 1 []) 0 [(8, 0, 1)] [] []).task.binding n = none := unbound (by decide +kernel) n

/-- The range of STWB and STDROP that takes in a dirty line of the task, and one that ends before it. -/
theorem witness_DirtyRanges :
    (let s := ctlX [(5, 0x50000), (6, 256), (7, 0x4FF00)]
     let t : State := { s with stash := dirtied.stash }
     let mine (a z : Nat) (l : StashLine) : Bool :=
       l.section_ == t.task.id.section_ && l.owners.any (fun o => o.1 == t.task.id.tid && (a ≤ o.2 && o.2 < a + z))
     controlHere t = true ∧ t.det = false ∧ (t.x 5).toNat % 256 = 0 ∧ (t.x 6).toNat % 256 = 0 ∧
     t.stash.filter (mine (t.x 5).toNat (t.x 6).toNat) = t.stash ∧ t.stash.filter (mine (t.x 7).toNat (t.x 6).toNat) = [] ∧
     t.stash.any (fun l => l.dirty.length == 2) = true) := by decide +kernel

/-- The mutable half of a queue over which a coherent write of the host runs, and the byte before it (R37). -/
theorem witness_MutableHalf :
    (let s : State := { queueing with port0 := (windowed true).port0 }
     s.boot.stage = 4 ∧ s.port0.cxl = true ∧ s.port0.coh = true ∧ s.inMutable (memKey 0 0x71000) = true ∧ s.inMutable (memKey 0 0x70FFF) = false ∧
     s.serves westExits 0x70FFF 2 = true) ∧
    (copying (twoBytes 0)).copyHolds = false ∧
    (({ ordered 4096 [] [] [] with task := { (ordered 4096 [] [] []).task with copies := [twoBytes 0] } } : State).copyHolds) = true := by decide +kernel

end Sys2Proof.Tests
end

section
/-! SUPPORT. Memory read back, and the base loads and stores of the control core: what they leave and where they fault. -/

namespace Sys2Proof.Machine

/-- Settles O22, from what a run of written bytes reads as, leaves and keeps. -/
theorem memoryReadAfterWrite : Obligations.MemoryReadAfterWrite :=
  ⟨fun s km k bs => ⟨s.readPlain_writePlainMany km k bs, s.writePlainMany_others km k bs, s.wf_writePlainMany km k bs,
    s.writePlainMany_rest km k bs⟩, Memory.wf_reset⟩

/-! ## Loads -/

/-- A load that finds its place reads the bytes there, and memory and caches stay (R113). -/
theorem State.AtControl.load_place {s : State} (h : s.AtControl) (m : s.Plain) {rd rs1 : BitVec 5} {imm : BitVec 12} {n : Nat}
    (ext : Nat → Word) {p : Place} (hn : (s.baseAddr rs1 imm).toNat % n = 0)
    (hp : s.locateRead (s.baseAddr rs1 imm) n = .ok p) :
    s.load rd rs1 imm n ext =
      .go (s.setX rd (ext (leVal ((List.range n).map (fun i => s.readPlain p.km (p.key + i)))))) := by
  simp [State.load, orTrap, h.notBad, hn, hp, m.afterRead, m.viewNat]

/-- A load at an address that is not a multiple of its size makes no access (R114). -/
theorem State.AtControl.load_misaligned {s : State} (h : s.AtControl) (rd : BitVec 5) {rs1 : BitVec 5} {imm : BitVec 12} {n : Nat}
    (ext : Nat → Word) (hn : (s.baseAddr rs1 imm).toNat % n ≠ 0) :
    s.load rd rs1 imm n ext = .trap s { cause := 0x03, addr := some (s.baseAddr rs1 imm) } := by
  simp [State.load, h.notBad, hn]

/-- A load raises what its translation found (R114). -/
theorem State.AtControl.load_lost {s : State} (h : s.AtControl) (rd : BitVec 5) {rs1 : BitVec 5} {imm : BitVec 12} {n : Nat}
    (ext : Nat → Word) {t : Trap} (hn : (s.baseAddr rs1 imm).toNat % n = 0)
    (ht : s.locateRead (s.baseAddr rs1 imm) n = .error t) : s.load rd rs1 imm n ext = .trap s t := by
  simp [State.load, orTrap, h.notBad, hn, ht]

/-- A word whose meaning is a load of n bytes: its value and frame, and its faults. -/
theorem State.AtControl.exec_load {s : State} (h : s.AtControl) {i : Instr} {rd rs1 : BitVec 5} {imm : BitVec 12} {n : Nat}
    {ext : Nat → Word} (e : exec i s = s.issue .c true (fun s => s.load rd rs1 imm n ext)) :
    let a := s.x rs1 + imm.signExtend 64
    (∀ p, s.Plain → a.toNat % n = 0 → s.locateRead a n = .ok p →
      exec i s = .next (s.setX rd (ext (leVal ((List.range n).map (fun i => s.readPlain p.km (p.key + i)))))).advance) ∧
    (a.toNat % n ≠ 0 → exec i s = .next (s.takeFault { cause := 0x03, addr := some a })) ∧
    (∀ t, a.toNat % n = 0 → s.locateRead a n = .error t → exec i s = .next (s.takeFault t)) := by
  rw [e, h.issue]
  refine ⟨fun p m hn hp => ?_, fun hn => ?_, fun t hn ht => ?_⟩
  · rw [h.load_place m ext hn hp]; rfl
  · rw [h.load_misaligned rd ext hn]; rfl
  · rw [h.load_lost rd ext hn ht]; rfl

/-! ## Stores -/

/-- A store that finds its place stores there the low bytes of its register (R113). -/
theorem State.AtControl.store_place {s : State} (h : s.AtControl) (m : s.Plain) {rs1 rs2 : BitVec 5} {imm : BitVec 12} {n : Nat} {p : Place}
    (hn : (s.baseAddr rs1 imm).toNat % n = 0) (hp : s.locate (s.baseAddr rs1 imm) n .write = .ok p) :
    ∃ t, s.store rs1 rs2 imm n = .go t ∧ s.Stored t p (bytesOf (s.x rs2).toNat n) := by
  obtain ⟨t, ht, st⟩ := m.storeAt p (bytesOf (s.x rs2).toNat n) 0
  exact ⟨t, by simp [State.store, orTrap, h.notBad, hn, hp, ht], st⟩

/-- A store at an address that is not a multiple of its size makes no access (R114). -/
theorem State.AtControl.store_misaligned {s : State} (h : s.AtControl) {rs1 : BitVec 5} (rs2 : BitVec 5) {imm : BitVec 12} {n : Nat}
    (hn : (s.baseAddr rs1 imm).toNat % n ≠ 0) :
    s.store rs1 rs2 imm n = .trap s { cause := 0x03, addr := some (s.baseAddr rs1 imm) } := by
  simp [State.store, h.notBad, hn]

/-- A store raises what its translation found (R114). -/
theorem State.AtControl.store_lost {s : State} (h : s.AtControl) {rs1 : BitVec 5} (rs2 : BitVec 5) {imm : BitVec 12} {n : Nat} {t : Trap}
    (hn : (s.baseAddr rs1 imm).toNat % n = 0) (ht : s.locate (s.baseAddr rs1 imm) n .write = .error t) :
    s.store rs1 rs2 imm n = .trap s t := by
  simp [State.store, orTrap, h.notBad, hn, ht]

/-- A word whose meaning is a store of n bytes: what it stores, its frame, and its faults. -/
theorem State.AtControl.exec_store {s : State} (h : s.AtControl) {i : Instr} {rs1 rs2 : BitVec 5} {imm : BitVec 12} {n : Nat}
    (e : exec i s = s.issue .c true (fun s => s.store rs1 rs2 imm n)) :
    let a := s.x rs1 + imm.signExtend 64
    (∀ p, s.Plain → a.toNat % n = 0 → s.locate a n .write = .ok p →
      ∃ t, exec i s = .next t.advance ∧ s.Stored t p (bytesOf (s.x rs2).toNat n)) ∧
    (a.toNat % n ≠ 0 → exec i s = .next (s.takeFault { cause := 0x03, addr := some a })) ∧
    (∀ t, a.toNat % n = 0 → s.locate a n .write = .error t → exec i s = .next (s.takeFault t)) := by
  rw [e, h.issue]
  refine ⟨fun p m hn hp => ?_, fun hn => ?_, fun t hn ht => ?_⟩
  · obtain ⟨t, ht, st⟩ := h.store_place m hn hp
    exact ⟨t, by rw [ht]; rfl, st⟩
  · rw [h.store_misaligned rs2 hn]; rfl
  · rw [h.store_lost rs2 hn ht]; rfl

/-- Settles O13: each load and store is one of the shared load or store at its size and widening. -/
theorem loadsAndStores : Obligations.LoadsAndStores := by
  refine ⟨fun s rd rs1 imm h => ?_, fun s rs1 rs2 imm h => ?_⟩
  · exact ⟨(h.exec_load (exec_lb rd rs1 imm s) :), (h.exec_load (exec_lh rd rs1 imm s) :), (h.exec_load (exec_lw rd rs1 imm s) :),
      (h.exec_load (exec_ld rd rs1 imm s) :), (h.exec_load (exec_lbu rd rs1 imm s) :), (h.exec_load (exec_lhu rd rs1 imm s) :),
      (h.exec_load (exec_lwu rd rs1 imm s) :)⟩
  · exact ⟨(h.exec_store (exec_sb rs1 rs2 imm s) :), (h.exec_store (exec_sh rs1 rs2 imm s) :), (h.exec_store (exec_sw rs1 rs2 imm s) :),
      (h.exec_store (exec_sd rs1 rs2 imm s) :)⟩

end Sys2Proof.Machine
end

section
/-! SUPPORT. The canonical form of memory over the operations of the model (R5): one lemma for each operation that gives a state, in
the order of the definitions. Only `writePlain` and a reset of the module write memory; every other operation is made of them, so that
each proof has the shape of the definition. What an operation changes outside memory is no part of these proofs: there the state's
memory is the old one by definition. -/

namespace Sys2Proof.Machine.State.memoryOk

variable {s : State}

/-! ## Choices and repetitions -/

theorem ite {c : Prop} [Decidable c] {s t : State} (h : s.memoryOk) (g : t.memoryOk) : (if c then s else t).memoryOk := by
  split
  · exact h
  · exact g

theorem fstIte {α : Type} {c : Prop} [Decidable c] {p q : State × α} (h : p.1.memoryOk) (g : q.1.memoryOk) :
    (if c then p else q).1.memoryOk := by
  split
  · exact h
  · exact g

theorem foldl {α : Type} {f : State → α → State} (l : List α) (h : s.memoryOk) (hf : ∀ s a, s.memoryOk → (f s a).memoryOk) :
    (l.foldl f s).memoryOk := by
  induction l generalizing s with
  | nil => exact h
  | cons a l ih => exact ih (hf s a h)

/-! ## Memory and the stash (R230, R236 to R241) -/

theorem writePlain {km k b} (h : s.memoryOk) : (s.writePlain km k b).memoryOk := s.wf_writePlain km k b h

theorem writePlainMany {km k bs} (h : s.memoryOk) : (s.writePlainMany km k bs).memoryOk := s.wf_writePlainMany km k bs h

theorem writeBackLine {l} (h : s.memoryOk) : (s.writeBackLine l).memoryOk := foldl l.dirty h fun _ _ h => writePlain h

theorem cleanLines {p} (h : s.memoryOk) : (s.cleanLines p).memoryOk := foldl (s.stash.filter p) h fun _ _ h => writeBackLine h

theorem flushLines {p} (h : s.memoryOk) : (s.flushLines p).memoryOk := cleanLines (p := p) h

theorem recallForRead {k n} (h : s.memoryOk) : (s.recallForRead k n).memoryOk := ite (cleanLines h) h

theorem recallForWrite {k n} (h : s.memoryOk) : (s.recallForWrite k n).memoryOk := ite (flushLines h) h

theorem fillLine {sec owner km k} (h : s.memoryOk) : (s.fillLine sec owner km k).memoryOk := by
  have hr : (s.recallForRead (k / 256 * 256) 256).memoryOk := recallForRead h
  unfold State.fillLine
  dsimp only
  split
  · exact ite (s := State.recallForRead ..) hr (flushLines hr)
  · exact hr

theorem touchLine {sec tid va km k wr e} (h : s.memoryOk) : (s.touchLine sec tid va km k wr e).memoryOk := by
  unfold State.touchLine
  dsimp only
  split
  · exact fillLine h
  · split
    · exact fillLine (flushLines h)
    · exact ite h (cleanLines h)

theorem curePoison {sec covered} (h : s.memoryOk) : (s.curePoison sec covered).memoryOk := ite h h

theorem writeCoherent {km k bs} (h : s.memoryOk) : (s.writeCoherent km k bs).memoryOk :=
  curePoison (writePlainMany (recallForWrite h))

/-! ## Accesses of a task (R229, R315) -/

theorem afterRead {p n pol e} (h : s.memoryOk) : (s.afterRead p n pol e).memoryOk :=
  ite (ite h (recallForRead h)) (ite (touchLine h) (recallForRead h))

theorem breakOwn {k n} (h : s.memoryOk) : (s.breakOwn k n).memoryOk := ite h h

theorem agentWrite {km k bs} (h : s.memoryOk) : (s.agentWrite km k bs).memoryOk := writeCoherent h

theorem onSet {f} (h : s.memoryOk) : (s.onSet f).memoryOk := by
  unfold State.onSet
  split <;> exact h

theorem writeSetMany {p i bs} (h : s.memoryOk) : (s.writeSetMany p i bs).memoryOk := by
  induction bs generalizing s i with
  | nil => exact h
  | cons b bs ih => exact ih (onSet h)

theorem storeAt {t : State} {p bs pol e} (h : s.memoryOk) (ok : s.storeAt p bs pol e = .ok t) : t.memoryOk := by
  unfold State.storeAt at ok
  dsimp only at ok
  split at ok
  · split at ok
    · cases ok
      exact writeSetMany (breakOwn h)
    · cases ok
  · split at ok
    · cases ok
      exact foldl _ (touchLine (flushLines h)) fun _ _ h => h
    · cases ok
      exact writeCoherent h

theorem cleanStored {keys} (h : s.memoryOk) : (s.cleanStored keys).memoryOk := ite h (curePoison h)

theorem writeDirect {p bs} (h : s.memoryOk) : (s.writeDirect p bs).memoryOk :=
  ite (onSet (writeCoherent h)) (writeCoherent h)

theorem afterFetch {va} (h : s.memoryOk) : (s.afterFetch va).memoryOk := by
  unfold State.afterFetch
  split
  · exact h
  · split
    · exact recallForRead h
    · exact h

theorem recallAt {ctx a n} (h : s.memoryOk) : (s.recallAt ctx a n).memoryOk := by
  unfold State.recallAt
  split
  · exact h
  · split
    · exact recallForRead h
    · exact h

theorem recallObject {c va n} (h : s.memoryOk) : (s.recallObject c va n).memoryOk := by
  refine ite h (foldl _ h fun s i h => ?_)
  split
  · exact recallForRead h
  · exact h

/-! ## Rings of the host port (R65, R66, R379, R380) -/

theorem fireMsix {v} (h : s.memoryOk) : (s.fireMsix v).memoryOk := h

theorem writeHost {a bs} (h : s.memoryOk) : (s.writeHost a bs).memoryOk := agentWrite h

theorem postEvent {source pdie record} (h : s.memoryOk) : (s.postEvent source pdie record).memoryOk := by
  unfold State.postEvent
  dsimp only
  split
  · simp only [State.memoryOk, State.fireMsix_mem]
    exact writeHost h
  · exact h

theorem reject {reason index} (h : s.memoryOk) : (s.reject reason index).memoryOk := postEvent h

theorem actionStatus {code status seq} (h : s.memoryOk) : (s.actionStatus code status seq).memoryOk := postEvent h

theorem postItem {i} (h : s.memoryOk) : (s.postItem i).memoryOk := by
  simp only [State.memoryOk, State.postItem, State.fireMsix_mem]
  exact writeHost h

theorem drainRequests {n} (h : s.memoryOk) : (s.drainRequests n).memoryOk := by
  induction n generalizing s with
  | zero => exact h
  | succ n ih =>
    unfold State.drainRequests
    split
    · split
      · exact h
      · exact ih (postItem h)
    · exact h

theorem postRequest {kind die ctx req payload} (h : s.memoryOk) : (s.postRequest kind die ctx req payload).memoryOk :=
  drainRequests h

theorem fileError {r} (h : s.memoryOk) : (s.fileError r).memoryOk := postEvent h

theorem logError {kind unit pdie psect loc region node} (h : s.memoryOk) :
    (s.logError kind unit pdie psect loc region node).memoryOk :=
  ite (postRequest h) (fileError h)

/-! ## Queues, packets and graphs (R36 to R62) -/

theorem syncQueue {q} (h : s.memoryOk) : (s.syncQueue q).memoryOk := by
  unfold State.syncQueue
  split
  · exact h
  · dsimp only
    split
    · exact ite (agentWrite h) (ite h (reject h))
    · exact ite h (reject h)

theorem queueError {q code idx tag unstarted} (h : s.memoryOk) : (s.queueError q code idx tag unstarted).memoryOk := by
  unfold State.queueError
  split
  · exact h
  · exact syncQueue h

theorem endPacket {p} (h : s.memoryOk) : (s.endPacket p).memoryOk := by
  unfold State.endPacket
  dsimp only
  split
  · split <;> exact h
  · exact h

theorem sweepQueue {q} (h : s.memoryOk) : (s.sweepQueue q).memoryOk :=
  foldl _ h fun _ _ h => ite (ite h (endPacket h)) (ite (ite h (endPacket h)) h)

theorem settleQueue {q} (h : s.memoryOk) : (s.settleQueue q).memoryOk :=
  syncQueue (foldl s.packets h fun _ _ h => sweepQueue h)

theorem completePacket {pid} (h : s.memoryOk) : (s.completePacket pid).memoryOk := by
  unfold State.completePacket
  split
  · exact h
  · exact settleQueue (endPacket h)

theorem loseEdge {gid m} (h : s.memoryOk) : (s.loseEdge gid m).memoryOk := by
  unfold State.loseEdge
  split
  · exact h
  · exact ite h h

theorem nodeInterrupt {g n} (h : s.memoryOk) : (s.nodeInterrupt g n).memoryOk := by
  unfold State.nodeInterrupt
  split
  · split <;> exact h
  · exact h

theorem skipAll {gid idx} (h : s.memoryOk) : (s.skipAll gid idx).memoryOk := by
  refine foldl _ h fun s i h => ?_
  split
  · exact ite (nodeInterrupt h) h
  · exact h

theorem retireNode {gid n st} (h : s.memoryOk) : (s.retireNode gid n st).memoryOk := by
  unfold State.retireNode
  split
  · refine ite h (ite (foldl _ ?_ fun _ _ h => h) (skipAll ?_)) <;>
      exact skipAll (foldl _ (ite (skipAll (nodeInterrupt h)) (nodeInterrupt h)) fun _ _ h => loseEdge h)
  · exact h

theorem checkLoop {gid n} (h : s.memoryOk) : (s.checkLoop gid n).memoryOk := by
  unfold State.checkLoop
  split
  · split
    · exact h
    · exact ite (ite (retireNode (skipAll h)) h) h
  · exact h

theorem writeRecord {p g} (h : s.memoryOk) : (s.writeRecord p g).memoryOk := by
  unfold State.writeRecord
  dsimp only
  split
  · exact h
  · split
    · exact ite (queueError h) (agentWrite h)
    · exact queueError h

theorem checkGraph {gid} (h : s.memoryOk) : (s.checkGraph gid).memoryOk := by
  unfold State.checkGraph
  split
  · exact h
  · dsimp only
    split
    · split
      · exact h
      · exact completePacket (writeRecord h)
    · exact h

theorem retire {gid n st} (h : s.memoryOk) : (s.retire gid n st).memoryOk := checkGraph (checkLoop (retireNode h))

/-! ## Records of faults (R123, R333, R334) -/

theorem recallFlags {ctx fdom} (h : s.memoryOk) : (s.recallFlags ctx fdom).memoryOk := by
  unfold State.recallFlags
  split
  · exact h
  · exact recallAt h

theorem deliverRecord {ctx fdom record} (h : s.memoryOk) : (s.deliverRecord ctx fdom record).1.memoryOk := by
  unfold State.deliverRecord
  split
  · exact h
  · dsimp only
    split
    · split
      · split
        · exact reject (recallAt h)
        · exact fireMsix (agentWrite (agentWrite (recallAt h)))
      · dsimp only
        exact agentWrite (recallAt h)
    · exact reject (recallAt h)

theorem countMeld {gid record} (h : s.memoryOk) : (s.countMeld gid record).memoryOk := ite h h

theorem deliverCounted {gid ctx fdom record} (h : s.memoryOk) : (s.deliverCounted gid ctx fdom record).memoryOk :=
  ite (countMeld (deliverRecord h)) (deliverRecord h)

theorem faultNode {gid n flags kernel cause addr info} (h : s.memoryOk) :
    (s.faultNode gid n flags kernel cause addr info).memoryOk := by
  unfold State.faultNode
  split
  · exact h
  · exact retire (ite (deliverRecord h) (deliverRecord h))

theorem refusePair {g n r} (h : s.memoryOk) : (s.refusePair g n r).memoryOk := ite (postEvent h) h

theorem setField {p off n v} (h : s.memoryOk) : (s.setField p off n v).memoryOk := writeDirect h

/-! ## The save pool (R343 to R346) -/

theorem writePool {c n va bs} (h : s.memoryOk) : (s.writePool c n va bs).memoryOk := by
  induction n generalizing s va bs with
  | zero => exact h
  | succ n ih =>
    unfold State.writePool
    dsimp only
    have hp : (match s.poolPlace c va with
        | some (key, km) => s.agentWrite km key (bs.take (4096 - va % 4096))
        | none => s).memoryOk := by
      split
      · exact agentWrite h
      · exact h
    exact ite hp (ih hp)

theorem recallImage {t} (h : s.memoryOk) : (s.recallImage t).memoryOk := by
  unfold State.recallImage
  split
  · exact recallObject h
  · exact h

theorem savePoison {t c va img} (h : s.memoryOk) : (s.savePoison t c va img).memoryOk := ite h h

theorem saveImage {tid} (h : s.memoryOk) : (s.saveImage tid).memoryOk := by
  unfold State.saveImage
  split
  · exact h
  · split
    · exact h
    · exact savePoison (writePool h)

theorem recallHeaders {c a} (h : s.memoryOk) : (s.recallHeaders c a).memoryOk := ite h (recallObject h)

theorem recallRestore {t} (h : s.memoryOk) : (s.recallRestore t).memoryOk := by
  unfold State.recallRestore
  split
  · split
    · exact h
    · exact ite h (recallHeaders h)
  · exact h

/-! ## Stopping and ending a task (R336, R341 to R344) -/

theorem leaveCore {t} (h : s.memoryOk) : (s.leaveCore t).memoryOk := ite h h

theorem unmapAll {t} (h : s.memoryOk) : (s.unmapAll t).memoryOk := flushLines h

theorem retireNodes {t st} (h : s.memoryOk) : (s.retireNodes t st).memoryOk := by
  unfold State.retireNodes
  split
  · exact retire h
  · exact retire (retire h)

theorem endTask {t} (h : s.memoryOk) : (s.endTask t).memoryOk := retireNodes (leaveCore (unmapAll h))

theorem stopTask {tid st} (h : s.memoryOk) : (s.stopTask tid st).memoryOk := by
  unfold State.stopTask
  split
  · exact h
  · exact saveImage (leaveCore (unmapAll h))

theorem deliverCore {t c record} (h : s.memoryOk) : (s.deliverCore t c record).memoryOk := by
  have hd : (if (s.deliverRecord t.id.ctx (s.effFdom t.id.ctx t.id.region) record).2 && !t.offered record
      then (s.deliverRecord t.id.ctx (s.effFdom t.id.ctx t.id.region) record).1.countMeld t.id.gid record
      else (s.deliverRecord t.id.ctx (s.effFdom t.id.ctx t.id.region) record).1).memoryOk :=
    ite (countMeld (deliverRecord h)) (deliverRecord h)
  exact ite hd (ite (stopTask hd) (endTask (ite hd hd)))

theorem logMemory {kind key region node} (h : s.memoryOk) : (s.logMemory kind key region node).memoryOk := logError h

theorem logConsumed {t tr} (h : s.memoryOk) : (s.logConsumed t tr).memoryOk := by
  unfold State.logConsumed
  split
  · exact h
  · split
    · exact logError h
    · split
      · exact logMemory h
      · exact h
    · exact h

/-! ## The dealer (R75 to R91, R126 to R141) -/

theorem reserveAll {die} (h : s.memoryOk) : (s.reserveAll die).memoryOk := by
  refine foldl _ h fun s w h => ?_
  split
  · exact h
  · split
    · split <;> exact h
    · exact h

theorem countBypasses {blocked w n} (h : s.memoryOk) : (s.countBypasses blocked w n).memoryOk :=
  foldl _ h fun _ _ h => ite h h

theorem markBlocked {die} (h : s.memoryOk) : (s.markBlocked die).memoryOk := foldl _ h fun _ _ h => ite h h

theorem loadEngine {g kind sec} (h : s.memoryOk) : (s.loadEngine g kind sec).memoryOk := by
  unfold State.loadEngine
  dsimp only
  split
  · exact h
  · split
    · exact h
    · exact recallObject h

theorem countOverlaps {die strict host region node es} (h : s.memoryOk) :
    (s.countOverlaps die strict host region node es).memoryOk := by
  refine ite ?_ ?_ <;> exact foldl es h fun _ _ h => postEvent h

theorem askOverlap {pdie g node sec es} (h : s.memoryOk) : (s.askOverlap pdie g node sec es).memoryOk := postRequest h

theorem faultStopped {t c info} (h : s.memoryOk) : (s.faultStopped t c info).memoryOk := deliverCore h

theorem resumeTask {w sec} (h : s.memoryOk) : (s.resumeTask w sec).memoryOk := by
  unfold State.resumeTask
  split
  · exact h
  · dsimp only
    split
    · exact faultStopped (recallRestore (recallImage h))
    · exact recallRestore (recallImage h)

theorem onTask {f} (h : s.memoryOk) : (s.onTask f).memoryOk := h

theorem modNode {gid n f} (h : s.memoryOk) : (s.modNode gid n f).memoryOk := h

theorem modDie {p f} (h : s.memoryOk) : (s.modDie p f).memoryOk := h

theorem modSect {n f} (h : s.memoryOk) : (s.modSect n f).memoryOk := h

theorem endReservation {gid n} (h : s.memoryOk) : (s.endReservation gid n).memoryOk := h

theorem addTask {t} (h : s.memoryOk) : (s.addTask t).memoryOk := h

theorem dispatchNode {w sec} (h : s.memoryOk) : (s.dispatchNode w sec).memoryOk := by
  unfold State.dispatchNode
  split
  · refine ite ?_ (ite (reserveAll (countBypasses (endReservation (resumeTask h))))
      (ite (reserveAll (countBypasses (endReservation (modNode (loadEngine h))))) (ite (askOverlap (modNode h))
      (ite (faultNode (endReservation (countOverlaps h)))
        (reserveAll (countBypasses (endReservation (modNode (addTask (countOverlaps h))))))))))
    split
    · exact faultStopped h
    · exact faultNode h
  · exact h

theorem dispatchMeld {w m elided sec} (h : s.memoryOk) : (s.dispatchMeld w m elided sec).memoryOk := by
  unfold State.dispatchMeld
  split
  · refine reserveAll (countBypasses (endReservation (modNode (modNode (addTask ?_)))))
    simp only [State.memoryOk, State.modDie_mem]
    exact countOverlaps (countOverlaps h)
  · exact h

theorem dispatchAlone {w} (h : s.memoryOk) : (s.dispatchAlone w).memoryOk := by
  unfold State.dispatchAlone
  split
  · exact h
  · exact dispatchNode h

theorem dispatchSingle {w} (h : s.memoryOk) : (s.dispatchSingle w).memoryOk := dispatchAlone h

theorem dispatchPair {w g n d} (h : s.memoryOk) : (s.dispatchPair w g n d).memoryOk := by
  unfold State.dispatchPair
  dsimp only
  split
  · exact dispatchSingle h
  · split
    · exact dispatchSingle (refusePair h)
    · exact dispatchSingle (refusePair h)
    · exact ite (askOverlap h) (ite (dispatchSingle (refusePair h)) (ite (postRequest h) (dispatchMeld h)))

theorem tryDispatch {w} (h : s.memoryOk) : (s.tryDispatch w).memoryOk := by
  unfold State.tryDispatch
  split
  · refine ite h (ite (dispatchAlone h) ?_)
    split
    · exact dispatchPair h
    · refine ite (dispatchAlone h) ?_
      split
      · exact dispatchSingle (foldl _ h fun _ _ h => refusePair h)
      · exact dispatchPair (foldl _ h fun _ _ h => refusePair h)
  · exact h

theorem visitRegion {die prio r} (h : s.memoryOk) : (s.visitRegion die prio r).memoryOk := by
  refine ite ?_ ?_ <;>
  · refine foldl _ h fun s w h => ?_
    split
    · exact h
    · exact ite (ite (tryDispatch h) (tryDispatch h)) h

theorem sweepDie {die} (h : s.memoryOk) : (s.sweepDie die).memoryOk :=
  foldl _ h fun _ _ h => ite h (foldl _ h fun _ _ h => visitRegion h)

theorem passDie {die k} (h : s.memoryOk) : (s.passDie die k).memoryOk := by
  induction k generalizing s with
  | zero => exact h
  | succ k ih =>
    unfold State.passDie
    exact ite (ih (sweepDie h)) (sweepDie h)

theorem settle (h : s.memoryOk) : s.settle.memoryOk := by
  refine foldl _ h fun s die h => ?_
  split
  · exact h
  · exact markBlocked (passDie (reserveAll h))

/-! ## Taking a fault (R123, R333 to R343) -/

theorem setX {r v} (h : s.memoryOk) : (s.setX r v).memoryOk := by
  rw [State.memoryOk, State.setX_mem]
  exact h

theorem advance (h : s.memoryOk) : s.advance.memoryOk := by
  rw [State.memoryOk, State.advance_mem]
  exact h

theorem askService {t record} (h : s.memoryOk) : (s.askService t record).memoryOk :=
  ite (postRequest (countMeld h)) (countMeld h)

theorem swapOut {t record} (h : s.memoryOk) : (s.swapOut t record).memoryOk :=
  settle (ite (stopTask h) (askService (stopTask h)))

theorem waitInPlace {t record} (h : s.memoryOk) : (s.waitInPlace t record).memoryOk := ite h (askService h)

theorem deliverFault {t c record} (h : s.memoryOk) : (s.deliverFault t c record).memoryOk := settle (deliverCore h)

theorem takeFault {tr} (h : s.memoryOk) : (s.takeFault tr).memoryOk :=
  ite (ite (swapOut h) (waitInPlace h)) (deliverFault (logConsumed h))

theorem resumeHeld {t} (h : s.memoryOk) : (s.resumeHeld t).memoryOk := settle h

/-! ## Boot, and memory that others write (R5, R393 to R401) -/

theorem loadPart (h : s.memoryOk) : s.loadPart.memoryOk := ite h h

theorem checkPushed (h : s.memoryOk) : s.checkPushed.memoryOk := ite h (ite h h)

theorem bootStep (h : s.memoryOk) : s.bootStep.memoryOk := by
  unfold State.bootStep
  split
  · exact h
  · exact checkPushed h
  · exact loadPart h
  · exact ite h h
  · exact h

/-- A reset drops cells, which keeps the form of those left. -/
theorem moduleReset (h : s.memoryOk) : s.moduleReset.memoryOk :=
  ⟨h.1.filter _, fun c hc => h.2 c (List.mem_filter.mp hc).1⟩

theorem hostStores {a bs} (h : s.memoryOk) : (s.hostStores a bs).memoryOk := ite (writeHost h) h

theorem peerStores {fab a bs} (h : s.memoryOk) : (s.peerStores fab a bs).memoryOk := ite (agentWrite h) h

/-! ## Fetch and the schedule (R16, R64, R95) -/

theorem onStage {tid} (h : s.memoryOk) : (s.onStage tid).memoryOk := by
  unfold State.onStage
  split
  · exact h
  · split <;> exact h

theorem enterBlock (h : s.memoryOk) : s.enterBlock.memoryOk := by
  unfold State.enterBlock
  split <;> exact h

theorem readH2 {t : State} (h : s.memoryOk) (ok : s.readH2 = .ok t) : t.memoryOk := by
  unfold State.readH2 at ok
  split at ok
  · cases ok
    exact h
  · split at ok
    · cases ok
      exact h
    · split at ok
      · cases ok
      · cases ok
        exact afterFetch h

theorem recallVisit {q} (h : s.memoryOk) : (s.recallVisit q).memoryOk := by
  unfold State.recallVisit
  split
  · exact h
  · split
    · exact h
    · exact recallAt h

theorem passQueue {q} (h : s.memoryOk) : (s.passQueue q).memoryOk := ite h h

theorem loseQueue {q} (h : s.memoryOk) : (s.loseQueue q).memoryOk := reject (syncQueue h)

theorem askParse {q p} (h : s.memoryOk) : (s.askParse q p).memoryOk := by
  unfold State.askParse
  split
  · exact h
  · exact postRequest h

theorem takeCommand (h : s.memoryOk) : s.takeCommand.memoryOk :=
  recallForRead (k := hostKey (s.port0.cmd.slot s.port0.cmd.rd 128)) (n := 128) h

/-! ## Operands (R96, R251, R264, R352) -/

theorem reportLatent (h : s.memoryOk) : s.reportLatent.memoryOk := ite (deliverRecord (recallFlags h)) (recallFlags h)

theorem noteWords {ws} (h : s.memoryOk) : (s.noteWords ws).memoryOk := foldl _ h fun _ _ h => reportLatent (logError h)

theorem noteLatent {gs} (h : s.memoryOk) : (s.noteLatent gs).memoryOk := ite h (noteWords h)

theorem popReg {t : State} {n} (h : s.memoryOk) (ok : s.popReg n = .ok t) : t.memoryOk := by
  unfold State.popReg at ok
  split at ok
  · cases ok
    exact h
  · split at ok
    · cases ok
    · cases ok
      refine foldl (f := fun s p => _) _ h fun s p h => ?_
      split
      · exact afterRead h
      · exact h

theorem popRegs {t : State} {ns} (h : s.memoryOk) (ok : s.popRegs ns = .ok t) : t.memoryOk := by
  induction ns generalizing s with
  | nil =>
    cases ok
    exact h
  | cons n ns ih =>
    unfold State.popRegs at ok
    split at ok
    · cases ok
    · exact ih (popReg h ‹_›) ok

end Sys2Proof.Machine.State.memoryOk
end

section
/-! SUPPORT. The canonical form of memory in what a word does: the operations that take the rest of the word as a function keep it
where the rest does. -/

namespace Sys2Proof.Machine

/-- The state that a word leaves, however it ends, has its memory in the canonical form. -/
inductive Act.MemoryOk : Act → Prop where
  | go {s : State} (h : s.memoryOk) : MemoryOk (.go s)
  | jump {s : State} (h : s.memoryOk) : MemoryOk (.jump s)
  | wait {s : State} (h : s.memoryOk) : MemoryOk (.wait s)
  | trap {s : State} {t : Trap} (h : s.memoryOk) : MemoryOk (.trap s t)

/-- An outcome whose next state, if it gives one, has its memory in the canonical form. -/
inductive KeepsForm : Host.Outcome State Fault Refusal → Prop where
  | next {s : State} (h : s.memoryOk) : KeepsForm (.next s)
  | fault {r : Fault} : KeepsForm (.fault r)
  | refused {r : Refusal} : KeepsForm (.refused r)

theorem Act.MemoryOk.outcome {a : Act} (h : a.MemoryOk) : KeepsForm a.outcome := by
  cases h with
  | go h => exact .next (State.memoryOk.advance h)
  | jump h => exact .next h
  | wait h => exact .next h
  | trap h => exact .next (State.memoryOk.takeFault h)

theorem KeepsForm.ite {c : Prop} [Decidable c] {o p : Host.Outcome State Fault Refusal} (h : KeepsForm o) (g : KeepsForm p) :
    KeepsForm (if c then o else p) := by
  split
  · exact h
  · exact g

/-- The rest of a word changed where the word completes. -/
theorem Act.MemoryOk.onGo {a : Act} {f : State → State} (h : a.MemoryOk) (hf : ∀ t, t.memoryOk → (f t).memoryOk) :
    (match a with
      | .go s => .go (f s)
      | a => a : Act).MemoryOk := by
  cases h with
  | go h => exact .go (hf _ h)
  | jump h => exact .jump h
  | wait h => exact .wait h
  | trap h => exact .trap h

theorem Act.MemoryOk.ite {c : Prop} [Decidable c] {a b : Act} (h : a.MemoryOk) (g : b.MemoryOk) : (if c then a else b).MemoryOk := by
  split
  · exact h
  · exact g

/-- A check that traps, and the rest of the word behind it. -/
theorem Act.MemoryOk.check {c : Prop} [Decidable c] {s : State} {t : Trap} {b : Act} (h : s.memoryOk) (g : b.MemoryOk) :
    (if c then .trap s t else b : Act).MemoryOk := .ite (.trap h) g

namespace State.memoryOk

variable {s : State}

theorem issue {a wf} {k : State → Act} (h : s.memoryOk) (hk : (k s).MemoryOk) : KeepsForm (s.issue a wf k) :=
  Act.MemoryOk.outcome (.ite hk (.trap h))

theorem orTrap {α : Type} {c : Except Trap α} {k : α → Act} (h : s.memoryOk) (hk : ∀ a, c = .ok a → (k a).MemoryOk) :
    (orTrap s c k).MemoryOk := by
  cases c with
  | error t => exact .trap h
  | ok a => exact hk a rfl

/-! ## Operands -/

theorem needFlag {x y k} (h : s.memoryOk) (hk : k.MemoryOk) : (s.needFlag x y k).MemoryOk := by
  unfold State.needFlag
  split
  · exact .trap h
  · exact .ite hk (.trap h)

theorem needCounter {lc k} (h : s.memoryOk) (hk : k.MemoryOk) : (s.needCounter lc k).MemoryOk := by
  unfold State.needCounter
  dsimp only
  split
  · exact .trap h
  · exact .ite hk (.trap h)

theorem needX {rs ws} {k : State → Act} (h : s.memoryOk) (hk : ∀ t : State, t.memoryOk → (k t).MemoryOk) :
    (s.needX rs ws k).MemoryOk := by
  unfold State.needX
  split
  · exact .check h (hk s h)
  · refine .ite (.wait h) (.check h ?_)
    split
    · exact .trap h
    · exact hk _ h

theorem needClean {rs k} (h : s.memoryOk) (hk : k.MemoryOk) : (s.needClean rs k).MemoryOk := by
  unfold State.needClean
  split
  · exact .trap h
  · exact hk

theorem needRoom {k} (h : s.memoryOk) (hk : k.MemoryOk) : (s.needRoom k).MemoryOk := .ite hk (.wait h)

theorem withStreams {srcs dsts} {k : State → Act} {planOk} (h : s.memoryOk) (hk : ∀ t : State, t.memoryOk → (k t).MemoryOk) :
    (s.withStreams srcs dsts k planOk).MemoryOk := by
  refine .ite (.ite (hk s h) (.trap h)) (needFlag h (.check h (.check h ?_)))
  split
  · exact .trap h
  · exact (hk _ (popRegs h ‹_›)).onGo fun _ h => h

theorem vectorForm {g vm} {k : State → Act} {planOk} (h : s.memoryOk) (hk : ∀ t : State, t.memoryOk → (k t).MemoryOk) :
    (s.vectorForm g vm k planOk).MemoryOk := .check h (withStreams h hk)

theorem vectorWord {g vm rs} {k : State → Act} {planOk} (h : s.memoryOk) (hk : ∀ t : State, t.memoryOk → (k t).MemoryOk) :
    (s.vectorWord g vm rs k planOk).MemoryOk := vectorForm h fun _ h => needClean h (hk _ (noteLatent h))

/-! ## The control thread and its blocks (R116 to R120, R147) -/

theorem execVblk_keeps {xs} (h : s.memoryOk) : KeepsForm (execVblk xs s) := by
  refine issue h (needX h fun s h => .check h (orTrap h fun h0 _ => orTrap h fun h1 _ => ?_))
  have hf {a b} : ((s.afterFetch a).afterFetch b).memoryOk := afterFetch (afterFetch h)
  exact .check hf (.check hf (.ite (.wait hf) (.go hf)))

theorem execVreply_keeps {xd} (h : s.memoryOk) : KeepsForm (execVreply xd s) := by
  refine issue h ?_
  split
  · exact .go (setX (onTask h))
  · exact .ite (.wait h) (.trap h)

theorem setCfg {rd v} (h : s.memoryOk) : (s.setCfg rd v).MemoryOk := by
  refine .check h ?_
  split
  · exact .ite (.wait h) (.go (setX (s := { s with task := _ }) h))
  · exact .go (setX (s := { s with task := _ }) h)
  · exact .wait h

/-! ## Merges of write sets (R315 to R321) -/

theorem mergeSegment {g} (h : s.memoryOk) : (s.mergeSegment g).memoryOk := by
  simp only [State.memoryOk, State.mergeSegment, State.clearPoison]
  exact curePoison (foldl _ h fun _ _ h => writeCoherent h)

theorem mergeAll {gs} (h : s.memoryOk) : (s.mergeAll gs).1.memoryOk := by
  induction gs generalizing s with
  | nil => exact h
  | cons g gs ih =>
    unfold State.mergeAll
    dsimp only
    split <;> exact ih (mergeSegment h)

theorem mergeNow {k : State → Act} (h : s.memoryOk) (hk : ∀ t : State, t.memoryOk → (k t).MemoryOk) : (s.mergeNow k).MemoryOk := by
  refine .ite (hk s h) ?_
  dsimp only
  split
  · exact .trap (mergeAll h)
  · exact hk _ (mergeAll h)

theorem reportConflict {p} (h : s.memoryOk) : (s.reportConflict p).memoryOk := ite (deliverCounted h) (deliverCounted h)

theorem endConflicting {cs} (h : s.memoryOk) : (s.endConflicting cs).memoryOk := by
  refine foldl _ h fun s p h => ?_
  split
  · exact reportConflict h
  · exact ite h (deliverFault h)

theorem mergePhase {key phase} {k : State → Act} (h : s.memoryOk) (hk : ∀ t : State, t.memoryOk → (k t).MemoryOk) :
    (s.mergePhase key phase k).MemoryOk := by
  unfold State.mergePhase
  dsimp only
  split
  · exact .trap (endConflicting (mergeAll h))
  · exact hk _ (endConflicting (mergeAll h))

/-! ## Sync objects (R298 to R304) -/

theorem bumpRelseq {p} (h : s.memoryOk) : (s.bumpRelseq p).memoryOk := setField h

theorem onObject {rs1 more first} {k : State → Place → Act} (h : s.memoryOk) (hk : ∀ (t : State) p, t.memoryOk → (k t p).MemoryOk) :
    (s.onObject rs1 more k first).MemoryOk := by
  refine needX h fun s h => orTrap h fun p _ => ?_
  split
  · exact .trap h
  · exact orTrap h fun p _ => hk _ p (recallForRead h)

theorem bindRange {o p b z} (h : s.memoryOk) : (s.bindRange o p b z).memoryOk := by
  simp only [State.memoryOk, State.bindRange]
  exact setField (setField (ite h (bumpRelseq h)))

theorem arrive {p} (h : s.memoryOk) : (s.arrive p).1.memoryOk := by
  unfold State.arrive
  dsimp only
  split
  · exact setField (setField h)
  · exact setField h

theorem execBara_keeps {rs1 scope} (h : s.memoryOk) : KeepsForm (execBara rs1 scope s) := by
  refine issue h (onObject h fun s p h => .check h (.check h (.ite (.wait h) ?_)))
  have ha : (s.arrive p).1.memoryOk := arrive h
  generalize s.arrive p = r at ha
  exact .ite (.ite (mergePhase ha fun _ h => .go h) (.go ha)) (.ite (mergePhase ha fun _ h => .go h) (.go ha))

theorem orderAfterPhase {key ph} (h : s.memoryOk) : (s.orderAfterPhase key ph).memoryOk := ite h h

theorem execBarw_keeps {rs1 scope} (h : s.memoryOk) : KeepsForm (execBarw rs1 scope s) := by
  refine issue h (onObject h fun s p h => ?_)
  dsimp only
  split
  · exact .trap h
  · exact .ite (.wait h) (.go (orderAfterPhase (onTask h)))

end State.memoryOk

end Sys2Proof.Machine
end

section
/-! SUPPORT. The canonical form of memory over copies, the commands of engines and the words on tasks. -/

namespace Sys2Proof.Machine.State.memoryOk

variable {s : State}

/-! ## Copies (R246 to R262) -/

theorem askPage {who ctx die gid va record} (h : s.memoryOk) : (s.askPage who ctx die gid va record).memoryOk := by
  unfold State.askPage
  dsimp only
  exact ite h (ite (postRequest (countMeld h)) (countMeld (s := { s with pageWaits := _ }) h))

theorem endWait {who} (h : s.memoryOk) : (s.endWait who).memoryOk := h

theorem injectCopy {total} (h : s.memoryOk) : (s.injectCopy total).1.memoryOk := by
  unfold State.injectCopy
  dsimp only
  split <;> exact h

theorem fireInjector {mark lo n} (h : s.memoryOk) : (s.fireInjector mark lo n).1.memoryOk := by
  unfold State.fireInjector
  dsimp only
  split <;> exact h

theorem writeRun {g val ps r} (h : s.memoryOk) (ok : s.writeRun g val ps = .ok r) : r.1.memoryOk := by
  induction ps generalizing s g with
  | nil =>
    cases ok
    exact h
  | cons p ps ih =>
    unfold State.writeRun at ok
    dsimp only at ok
    split at ok
    · cases ok
    · exact ih (storeAt (afterRead h) ‹_›) ok

theorem runCopy {s0 j n g r} (h : s.memoryOk) (e : s.runCopy s0 j n g = r) : r.1.memoryOk := by
  subst e
  induction n generalizing s g with
  | zero => exact h
  | succ n ih =>
    unfold State.runCopy
    split
    · exact h
    · split
      · exact h
      · dsimp only
        split
        · exact h
        · refine ih (ite ?_ (curePoison ?_)) <;>
          · refine writeRun (fireInjector ?_) ‹_›
            split
            · exact injectCopy h
            · exact h

theorem carryOn {j g r} (h : s.memoryOk) (e : s.carryOn j g = r) : r.1.memoryOk := by
  subst e
  unfold State.carryOn
  dsimp only
  split
  · split
    · exact logMemory (runCopy h rfl)
    · exact runCopy h rfl
  · exact runCopy h rfl

theorem stepCopy {k c} (h : s.memoryOk) : (s.stepCopy k c).memoryOk := by
  unfold State.stepCopy
  dsimp only
  split
  · exact h
  · split
    · exact carryOn (onTask h) ‹_›
    · exact carryOn (onTask h) ‹_›
    · have hc := carryOn (onTask h) ‹_›
      exact askPage (ite hc hc)

theorem takeUp {t : State} {k} (h : s.memoryOk) (e : s.takeUp k = some t) : t.memoryOk := by
  unfold State.takeUp at e
  split at e
  · cases e
  · dsimp only at e
    obtain ⟨-, e⟩ := Option.ite_none_left_eq_some.mp e
    cases e
    exact stepCopy h

theorem takeUp_getD {k} (h : s.memoryOk) : ((s.takeUp k).getD s).memoryOk := by
  cases e : s.takeUp k with
  | none => exact h
  | some t => exact takeUp h e

theorem execCopyComplete_keeps {tid k} (h : s.memoryOk) : KeepsForm (execCopyComplete tid k s) := by
  have h1 : ({ s.onStage tid with cur := .vector } : State).memoryOk := onStage (tid := tid) h
  unfold execCopyComplete
  dsimp only
  split
  · exact .next h
  · split
    · exact .next h
    · exact .next (settle (takeUp h1 ‹_›))

theorem copyWord {op rd pair rs1 rs2 trap} (h : s.memoryOk) : (s.copyWord op rd pair rs1 rs2 trap).MemoryOk := by
  refine vectorWord h fun s h => needX h fun s h => ?_
  dsimp only
  exact .check h (.check h (.ite (.wait h) (.go (ite (takeUp_getD (onTask h)) h))))

/-! ## Commands of engines (R26, R247, R257 to R262) -/

theorem asEngine {α : Type} {g n} {f : State → State × α} (h : s.memoryOk) (hf : ∀ t : State, t.memoryOk → (f t).1.memoryOk) :
    (s.asEngine g n f).1.memoryOk := by
  unfold State.asEngine
  dsimp only
  split <;> exact hf _ h

theorem retireCommand {g n t fault} (h : s.memoryOk) : (s.retireCommand g n t fault).memoryOk := by
  unfold State.retireCommand
  dsimp only
  split
  · exact faultNode h
  · refine ite (retire h) ?_
    split
    · exact retire (mergeSegment h)
    · exact retire (ite (deliverCounted (mergeSegment h)) (deliverCounted (mergeSegment h)))

theorem engineBytes {admits k a n r} (h : s.memoryOk) (ok : s.engineBytes admits k a n = .ok r) : r.1.memoryOk := by
  induction k generalizing s a n r with
  | zero =>
    cases ok
    exact h
  | succ k ih =>
    unfold State.engineBytes at ok
    split at ok
    · cases ok
      exact h
    · split at ok
      · cases ok
      · dsimp only at ok
        split at ok
        · cases ok
        · split at ok
          · cases ok
          · split at ok
            · cases ok
            · cases ok
              dsimp only
              exact ih (afterRead h) ‹_›

theorem engineRead {a n r} (h : s.memoryOk) (ok : s.engineRead a n = .ok r) : r.1.memoryOk := by
  unfold State.engineRead at ok
  split at ok
  · cases ok
    exact engineBytes h ‹_›
  · cases ok

theorem writeStatus {t : State} {tok st} (h : s.memoryOk) (ok : s.writeStatus tok st = .ok t) : t.memoryOk := by
  unfold State.writeStatus at ok
  split at ok
  · cases ok
  · exact storeAt h ok

/-- What both kinds of command report: a status stored, or the end that its token cannot be stored. -/
theorem commandReport {tok st f} (h : s.memoryOk) :
    (if tok.toNat % 8 ≠ 0 then (s, CommandEnd.lost 0x08 none)
      else match s.writeStatus tok st with
        | .error t => (s, if s.pageComes s.task.engineWho s.task.id.ctx t then .hold tok t.info else .lost t.cause t.addr)
        | .ok s1 => (s1, .status st f)).1.memoryOk := by
  split
  · exact h
  · split
    · exact h
    · exact writeStatus h ‹_›

/-- What both kinds of command leave where a part of them ends: they hold, or report it. -/
theorem commandEnded {e : CopyEnd} {fail : Nat → Word → Bool → State × CommandEnd} {done : State × CommandEnd} (h : s.memoryOk)
    (hf : ∀ c a d, (fail c a d).1.memoryOk) (hd : done.1.memoryOk) :
    (match e with
      | .hold va info => (s, CommandEnd.hold va info)
      | .fail c a d => fail c a d
      | .complete => done).1.memoryOk := by
  split
  · exact h
  · exact hf _ _ _
  · exact hd

theorem copyCommand {c} (h : s.memoryOk) : (s.copyCommand c).1.memoryOk := by
  unfold State.copyCommand
  dsimp only
  split
  · exact commandReport h
  · split
    · exact commandEnded h (fun _ _ _ => commandReport h) (commandReport h)
    · have h1 := engineRead h ‹_›
      split
      · exact commandReport h1
      · split
        · split
          · exact commandReport (carryOn h1 ‹_›)
          · have h2 := carryOn h1 ‹_›
            exact commandEnded h2 (fun _ _ _ => commandReport h2) (commandReport h2)
        · split
          · exact commandEnded h1 (fun _ _ _ => commandReport h1) (commandReport h1)
          · have h2 := engineRead h1 ‹_›
            split
            · exact commandReport h2
            · split
              · exact commandReport (carryOn h2 ‹_›)
              · have h3 := carryOn h2 ‹_›
                exact commandEnded h3 (fun _ _ _ => commandReport h3) (commandReport h3)

theorem endCommand {g n t trap e} (h : s.memoryOk) : (s.endCommand g n t trap e).memoryOk := by
  unfold State.endCommand
  split
  · exact h
  · exact h
  · exact retireCommand h
  · exact retireCommand h
  · exact ite (retireCommand h) (retireCommand h)

theorem writeLimit {tok} (h : s.memoryOk) : (s.writeLimit tok).memoryOk := by
  unfold State.writeLimit
  split
  · exact writeDirect h
  · exact h

theorem leaveCommand {g n} {r : State × Task × Bool × CommandEnd} (h : s.memoryOk) (hr : r.1.memoryOk) :
    (s.leaveCommand g n r).memoryOk := by
  obtain ⟨u, t, tr, e⟩ := r
  unfold State.leaveCommand
  cases e with
  | hold va info => exact askPage h
  | partners => exact h
  | lost c a => exact endCommand (s := u) hr
  | limit => exact endCommand (s := u) hr
  | status st f => exact endCommand (s := u) hr

theorem runCommand {g n tokAt trap} {f : BitVec 512 → State → State × CommandEnd} (h : s.memoryOk)
    (hf : ∀ c (t : State), t.memoryOk → (f c t).1.memoryOk) : (s.runCommand g n tokAt f trap).memoryOk := by
  refine ite (leaveCommand h (asEngine h fun s h => ?_)) (ite h (leaveCommand h (asEngine h fun s h => ?_)))
  · split
    · exact h
    · exact writeLimit (engineRead h ‹_›)
  · split
    · exact h
    · exact h
    · exact h
    · exact hf _ _ (engineRead h ‹_›)

theorem imageStores {bs r} (h : s.memoryOk) (e : s.imageStores bs = r) : r.1.memoryOk := by
  subst e
  induction bs generalizing s with
  | nil => exact h
  | cons b bs ih =>
    unfold State.imageStores
    split
    · exact h
    · split
      · exact h
      · exact ih (storeAt h ‹_›)

theorem imageCommand {code n} (h : s.memoryOk) : (s.imageCommand code n).1.memoryOk := by
  unfold State.imageCommand
  dsimp only
  split
  · exact writeStatus (imageStores h rfl) ‹_›
  · exact imageStores h rfl

theorem runImage {g n code} (h : s.memoryOk) : (s.runImage g n code).memoryOk := by
  refine leaveCommand h (asEngine h fun s h => ?_)
  split
  · exact writeLimit h
  · exact imageCommand h

theorem execCopyNodeComplete_keeps {gid i} (h : s.memoryOk) : KeepsForm (execCopyNodeComplete gid i s) := by
  unfold execCopyNodeComplete
  split
  · split
    · exact .next h
    · split
      · exact .next (settle (runImage h))
      · exact .next (settle (runCommand h fun _ _ h => copyCommand h))
  · exact .next h

/-! ## Words on tasks (R39, R361 to R364) -/

theorem finishTask (h : s.memoryOk) : s.finishTask.memoryOk := retireNodes (leaveCore (unmapAll h))

theorem execTdone_keeps (h : s.memoryOk) : KeepsForm (execTdone s) := by
  refine issue h (.ite (.wait h) ?_)
  split
  · exact .trap h
  · exact mergeNow h fun _ h => .jump (settle (finishTask h))

theorem afterRecords {a n} (h : s.memoryOk) : (s.afterRecords a n).memoryOk := by
  induction n generalizing s a with
  | zero => exact h
  | succ n ih =>
    unfold State.afterRecords
    split
    · exact h
    · exact ih (afterRead h)

theorem execTspawn_keeps {rs1} (h : s.memoryOk) : KeepsForm (execTspawn rs1 s) := by
  refine issue h (needX h fun s h => .check h (.check h (orTrap h fun p _ => orTrap (afterRead h) fun ops _ => ?_)))
  have hr {p a n} : ((s.afterRead p 128 0).afterRecords a n).memoryOk := afterRecords (afterRead h)
  exact .check hr (.check hr (.go hr))

theorem execTinfo_keeps {rd rs1} (h : s.memoryOk) : KeepsForm (execTinfo rd rs1 s) := by
  refine issue h (needX h fun s h => .check h (.check h ?_))
  split
  · exact .go (setX h)
  · exact .trap h

end Sys2Proof.Machine.State.memoryOk
end

section
/-! SUPPORT. The canonical form of memory over packets, events, the commands of the host and its answers. -/

namespace Sys2Proof.Machine.State.memoryOk

variable {s : State}

/-! ## Doorbells and packets (R36 to R50, R418) -/

theorem execWridx_keeps {q v} (h : s.memoryOk) : KeepsForm (execWridx q v s) := by
  unfold execWridx
  split
  · exact .next h
  · split
    · exact .next h
    · split
      · exact .next (syncQueue h)
      · exact .next (queueError h)

theorem qctl {q status f} (h : s.memoryOk) : (s.qctl q status f).memoryOk := by
  unfold State.qctl
  split
  · exact h
  · exact ite (settle (settleQueue h)) h

theorem packetError {q p code} (h : s.memoryOk) : (s.packetError q p code).memoryOk := by
  unfold State.packetError
  split
  · exact h
  · exact queueError h

theorem failPacket {q p code} (h : s.memoryOk) : (s.failPacket q p code).memoryOk := ite (loseQueue h) (packetError h)

theorem startPacket {q x p} (h : s.memoryOk) : (s.startPacket q x p).memoryOk := h

theorem packet {q p used checks} {k : Queue → State → Nat → State} (h : s.memoryOk)
    (hk : ∀ x (t : State) pid, t.memoryOk → (k x t pid).memoryOk) : (s.packet q p used checks k).memoryOk := by
  unfold State.packet
  split
  · exact h
  · split
    · exact failPacket h
    · exact settle (settleQueue (hk _ _ _ (startPacket h)))

theorem writeRcb {ctx a bs} (h : s.memoryOk) : (s.writeRcb ctx a bs).memoryOk := by
  unfold State.writeRcb
  split
  · exact h
  · exact agentWrite h

theorem linkRegion {x up a pid} (h : s.memoryOk) : (s.linkRegion x up a pid).memoryOk := by
  unfold State.linkRegion
  split
  · exact completePacket (writeRcb h)
  · exact completePacket h

theorem execRegionCreate_keeps {q p} (h : s.memoryOk) : KeepsForm (execRegionCreate q p s) := by
  unfold execRegionCreate
  dsimp only
  split
  · exact .next h
  · split
    · exact .next (failPacket h)
    · split
      · exact .next (failPacket (recallAt h))
      · exact .next (settle (settleQueue (linkRegion (startPacket (recallAt h)))))

theorem execRegionDestroyComplete_keeps {pid} (h : s.memoryOk) : KeepsForm (execRegionDestroyComplete pid s) := by
  unfold execRegionDestroyComplete
  split
  · exact .next h
  · split
    · exact .next h
    · exact .next (settle (completePacket h))

theorem waitRead {p} (h : s.memoryOk) : (s.waitRead p).memoryOk := by
  unfold State.waitRead
  split
  · exact h
  · exact recallForRead h

theorem execWaitValueMet_keeps {pid} (h : s.memoryOk) : KeepsForm (execWaitValueMet pid s) := by
  unfold execWaitValueMet
  split
  · exact .next (ite h (ite (settle (completePacket (waitRead h))) (waitRead h)))
  · exact .next h

theorem execWaitValueTimeout_keeps {pid} (h : s.memoryOk) : KeepsForm (execWaitValueTimeout pid s) := by
  unfold execWaitValueTimeout
  split
  · exact .next (ite h (ite (settle (queueError (completePacket (waitRead h)))) (waitRead h)))
  · exact .next h

theorem execWriteValue_keeps {q p} (h : s.memoryOk) : KeepsForm (execWriteValue q p s) := by
  refine .next (packet h fun x s pid h => ?_)
  split
  · exact completePacket (agentWrite h)
  · exact completePacket h

theorem execIndirect_keeps {q p} (h : s.memoryOk) : KeepsForm (execIndirect q p s) := by
  unfold execIndirect
  dsimp only
  split
  · exact .next (packetError h)
  · exact .next (packet h fun _ _ _ h => h)

theorem recallLaunch {ctx a count single} (h : s.memoryOk) : (s.recallLaunch ctx a count single).memoryOk :=
  ite h (foldl _ h fun _ _ h => recallAt h)

theorem launch {x pid region single ns die} (h : s.memoryOk) : (s.launch x pid region single ns die).memoryOk :=
  foldl _ (s := { s with graphs := _, nextGid := _ }) h fun _ _ h => h

theorem launchPacket {q p single named} (h : s.memoryOk) : (s.launchPacket q p single named).memoryOk := by
  unfold State.launchPacket
  split
  · exact h
  · dsimp only
    split
    · exact failPacket h
    · have hl {x : Queue} {a count} : (s.recallLaunch x.ctx a count single).memoryOk := recallLaunch h
      split
      · exact packetError hl
      · refine ite (packetError hl) (ite (packetError hl) ?_)
        split
        · exact ite (settle (settleQueue (launch (startPacket hl)))) (packetError hl)
        · exact ite (postRequest hl) (settle (settleQueue (launch (startPacket hl))))

/-! ## Events of the machine (R58, R59, R83, R335, R351 to R358, R417) -/

theorem displace {t reason} (h : s.memoryOk) : (s.displace t reason).memoryOk := ite (stopTask h) (stopTask h)

theorem askVictims {vs} (h : s.memoryOk) : (s.askVictims vs).memoryOk := foldl _ h fun _ _ h => h

theorem beginPreempt {w p} (h : s.memoryOk) : (s.beginPreempt w p).memoryOk := by
  unfold State.beginPreempt
  split
  · exact h
  · exact settle (modDie (modSect (endReservation (askVictims h))))

theorem furtherVictims {w p} (h : s.memoryOk) : (s.furtherVictims w p).memoryOk := by
  unfold State.furtherVictims
  split
  · exact beginPreempt h
  · refine ite h ?_
    split
    · exact askVictims h
    · exact h

theorem preemptFor {w} (h : s.memoryOk) : (s.preemptFor w).memoryOk := by
  unfold State.preemptFor
  split
  · exact h
  · split
    · exact beginPreempt h
    · exact ite (furtherVictims h) h

theorem reachStop {tid} (h : s.memoryOk) : (s.reachStop tid).memoryOk := by
  unfold State.reachStop
  split
  · exact h
  · split
    · exact h
    · exact settle (displace h)
    · exact h

theorem execPreempt_keeps {gid i} (h : s.memoryOk) : KeepsForm (execPreempt gid i s) := by
  unfold execPreempt
  split
  · exact .next (ite (preemptFor h) h)
  · exact .next h

theorem predicate {g n} {k : State → Nat → State} (h : s.memoryOk) (hk : ∀ (t : State) p, t.memoryOk → (k t p).memoryOk) :
    (s.predicate g n k).memoryOk := by
  refine ite h ?_
  dsimp only
  split
  · exact ite (askPage h) (settle (faultNode h))
  · exact ite (settle (faultNode (logMemory (endWait h)))) (settle (hk _ _ (recallForRead h)))

theorem condBranch {g n holds} (h : s.memoryOk) : (s.condBranch g n holds).memoryOk :=
  retire (foldl _ h fun _ _ h => retireNode h)

theorem execCondEval_keeps {gid i} (h : s.memoryOk) : KeepsForm (execCondEval gid i s) := by
  unfold execCondEval
  split
  · split
    · exact .next h
    · exact .next (predicate h fun _ _ h => condBranch h)
  · exact .next h

theorem rearm {g l} (h : s.memoryOk) : (s.rearm g l).memoryOk := foldl _ (s := { s with graphs := _ }) h fun _ _ h => h

theorem execLoopEval_keeps {gid i} (h : s.memoryOk) : KeepsForm (execLoopEval gid i s) := by
  unfold execLoopEval
  split
  · split
    · exact .next h
    · exact .next (predicate h fun _ _ h => ite (rearm h) (retire h))
  · exact .next h

theorem wakeTask {t} (h : s.memoryOk) : (s.wakeTask t).memoryOk := by
  unfold State.wakeTask
  split <;> exact h

theorem refuseTask {t r} (h : s.memoryOk) : (s.refuseTask t r).memoryOk := deliverFault h

theorem wake {ctx hit} (h : s.memoryOk) : (s.wake ctx hit).memoryOk := by
  refine foldl _ (s := { s with pageWaits := _ }) h fun u t h => ?_
  split
  · exact ite (wakeTask h) h
  · exact h

theorem refusePage {ctx page} (h : s.memoryOk) : (s.refusePage ctx page).memoryOk := by
  refine foldl _ (s := { s with unservable := _ }) h fun u t h => ?_
  split
  · exact ite (refuseTask h) h
  · exact h

theorem execPageArrived_keeps {ctx va dw0 dw1} (h : s.memoryOk) : KeepsForm (execPageArrived ctx va dw0 dw1 s) := by
  unfold execPageArrived
  split
  · exact .next h
  · split
    · exact .next (refusePage h)
    · refine .next (settle (wake ?_))
      split
      · exact agentWrite h
      · exact h

theorem bite {tid due p trap} (h : s.memoryOk) : (s.bite tid due p trap).memoryOk := by
  unfold State.bite
  split
  · exact h
  · exact ite h (takeFault (enterBlock (onStage h)))

theorem strikeRegister {tid x number byte correctable} (h : s.memoryOk) : (s.strikeRegister tid x number byte correctable).memoryOk := by
  unfold State.strikeRegister
  split
  · exact h
  · exact ite h (ite (logError h) h)

theorem strikeCode {tid p ahead} (h : s.memoryOk) : (s.strikeCode tid p ahead).memoryOk := by
  unfold State.strikeCode
  split
  · exact h
  · exact ite (logError h) h

theorem strikeGranule {a} (h : s.memoryOk) : (s.strikeGranule a).memoryOk := h

theorem strikeMemory {unit a correctable} (h : s.memoryOk) : (s.strikeMemory unit a correctable).memoryOk := by
  unfold State.strikeMemory
  split
  · exact h
  · exact ite (logError h) h

theorem execPatrolScrub_keeps {a found} (h : s.memoryOk) : KeepsForm (execPatrolScrub a found s) := by
  unfold execPatrolScrub
  split
  · exact .next h
  · split
    · exact .next h
    · split
      · exact .next h
      · exact .next (logError h)
      · exact .next (logError (strikeGranule h))

theorem logPath {kind lane} (h : s.memoryOk) : (s.logPath kind lane).memoryOk := by
  cases lane with
  | port n => exact logError h
  | link n => exact logError h

theorem failPath {lane} (h : s.memoryOk) : (s.failPath lane).memoryOk := by
  cases lane with
  | port n => exact logPath h
  | link n => exact logPath h

theorem logEntry {kind site} (h : s.memoryOk) : (s.logEntry kind site).memoryOk := by
  cases site with
  | directoryLine line => exact logError h
  | poolEntry g n => exact logError h
  | meldSlot d k => exact logError h
  | path lane => exact logPath h

theorem strikeEntry {site} (h : s.memoryOk) : (s.strikeEntry site).memoryOk := by
  cases site with
  | directoryLine line => exact logEntry h
  | poolEntry g n => exact logEntry h
  | meldSlot d k => exact logEntry h
  | path lane => exact failPath h

theorem storageError {site correctable} (h : s.memoryOk) : (s.storageError site correctable).memoryOk := by
  cases site with
  | scalar tid r => exact strikeRegister h
  | blockScalar tid r => exact strikeRegister h
  | vector tid r d => exact strikeRegister h
  | tile tid r d => exact strikeRegister h
  | code tid p ahead => exact strikeCode h
  | cached a => exact strikeMemory h
  | gddr a => exact ite (strikeMemory h) h
  | entry x => exact ite (logEntry h) (strikeEntry h)
  | dealer d => exact logError h

theorem injectFlit {lane q} (h : s.memoryOk) : (s.injectFlit lane q).1.memoryOk := by
  unfold State.injectFlit
  dsimp only
  split
  · exact h
  · exact fstIte h h

theorem setReplays {lane k} (h : s.memoryOk) : (s.setReplays lane k).memoryOk := by
  cases lane with
  | port n => exact h
  | link n => exact h

theorem execFlitReceive_keeps {lane quality} (h : s.memoryOk) : KeepsForm (execFlitReceive lane quality s) := by
  unfold execFlitReceive
  split
  · exact .next h
  · dsimp only
    split
    · exact .next (setReplays (injectFlit h))
    · exact .next (logPath (setReplays (injectFlit h)))
    · exact .next (ite (failPath (injectFlit h)) (setReplays (injectFlit h)))

theorem execServiceRequest_keeps {kind} (h : s.memoryOk) : KeepsForm (execServiceRequest kind s) := by
  unfold execServiceRequest
  split
  · exact .next (ite (postItem h) h)
  · exact .next h

end Sys2Proof.Machine.State.memoryOk
end

section
/-! SUPPORT. The canonical form of memory over the commands of the host and its answers. -/

namespace Sys2Proof.Machine

/-- A step of a service action that leaves a state leaves its memory in the canonical form. -/
inductive StepEnd.MemoryOk : StepEnd → Prop where
  | wait {s : State} (h : s.memoryOk) : MemoryOk (.wait s)
  | more {s : State} (h : s.memoryOk) : MemoryOk (.more s)
  | done {s : State} (h : s.memoryOk) : MemoryOk (.done s)
  | refused : MemoryOk .refused

namespace State.memoryOk

variable {s : State}

/-! ## Commands (R381, R382) -/

theorem report {e done} (h : s.memoryOk) : (s.report e done).memoryOk := actionStatus h

theorem command {e ok} {f : State → State} (h : s.memoryOk) (hf : (f s).memoryOk) : KeepsForm (s.command e ok f) :=
  .next (ite (report hf) (report h))

theorem recallRaw {a n} (h : s.memoryOk) : (s.recallRaw a n).memoryOk := recallForRead h

theorem recallBind {a} (h : s.memoryOk) : (s.recallBind a).memoryOk := by
  unfold State.recallBind
  split
  · exact h
  · split
    · exact h
    · exact recallObject (recallRaw h)

theorem execBindContext_keeps {e} (h : s.memoryOk) : KeepsForm (execBindContext e s) := by
  have hb : (s.recallBind (cmdA e).toNat).memoryOk := recallBind h
  unfold execBindContext
  dsimp only
  split
  · exact .next (report hb)
  · exact command hb hb

theorem linkRoot {x} (h : s.memoryOk) : (s.linkRoot x).memoryOk := by
  unfold State.linkRoot
  split
  · exact writeRcb h
  · exact h

theorem recallEnable {q} (h : s.memoryOk) : (s.recallEnable q).memoryOk := by
  unfold State.recallEnable
  split
  · exact h
  · split
    · exact h
    · exact recallAt (recallRaw h)

theorem execQueueEnable_keeps {e} (h : s.memoryOk) : KeepsForm (execQueueEnable e s) := by
  unfold execQueueEnable
  dsimp only
  split
  · exact .next (report h)
  · have hq : (s.recallEnable (cmdId e)).memoryOk := recallEnable h
    split
    · exact .next (report hq)
    · split
      · refine .next (report (syncQueue ?_))
        split
        · exact agentWrite (linkRoot hq)
        · exact linkRoot hq
      · exact .next (report (ite hq (reject hq)))

theorem execQueueDisableComplete_keeps {q} (h : s.memoryOk) : KeepsForm (execQueueDisableComplete q s) := by
  unfold execQueueDisableComplete
  split
  · exact .next h
  · split
    · exact .next (actionStatus h)
    · exact .next h

/-! ## Trap answers (R339) -/

theorem execResume_keeps {e} (h : s.memoryOk) : KeepsForm (execResume e s) := by
  unfold execResume
  split
  · exact .next (resumeHeld h)
  · exact .next h

theorem execEndTask_keeps {e} (h : s.memoryOk) : KeepsForm (execEndTask e s) := by
  unfold execEndTask
  split
  · exact .next (settle (endTask h))
  · exact .next h

theorem execReleaseDomain_keeps {e} (h : s.memoryOk) : KeepsForm (execReleaseDomain e s) := by
  unfold execReleaseDomain
  split
  · exact .next (settle h)
  · exact .next h

theorem abortGraph {gid} (h : s.memoryOk) : (s.abortGraph gid).memoryOk := by
  unfold State.abortGraph
  split
  · exact h
  · exact checkGraph (foldl _ (foldl _ (foldl _ (skipAll h) fun _ _ h => nodeInterrupt (modNode h)) fun _ _ h => endTask h)
      fun _ _ h => retireNode h)

theorem liftHalt {ctx k} (h : s.memoryOk) : (s.liftHalt ctx k).memoryOk := h

theorem execAbortDomain_keeps {e} (h : s.memoryOk) : KeepsForm (execAbortDomain e s) := by
  unfold execAbortDomain
  split
  · exact .next (settle (liftHalt (foldl _ h fun _ _ h => abortGraph h)))
  · exact .next h

/-! ## Service actions (R366 to R373) -/

theorem reserveAnew {k} (h : s.memoryOk) : (s.reserveAnew k).memoryOk := by
  unfold State.reserveAnew
  split
  · split <;> exact h
  · exact h

theorem closeSections {a} (h : s.memoryOk) : (s.closeSections a).memoryOk :=
  foldl _ (foldl _ h fun _ _ h => h) fun s k h => reserveAnew (s := s.cancelReservation k.1 k.2) h

theorem openSections {a} (h : s.memoryOk) : (s.openSections a).memoryOk := foldl _ h fun _ _ h => h

theorem dropAction {a} (h : s.memoryOk) : (s.dropAction a).memoryOk := ite h h

theorem endAction {status} (h : s.memoryOk) : (s.endAction status).memoryOk := by
  unfold State.endAction
  split
  · exact h
  · have hd {a c} [Decidable c] : (if c then s else s.dropAction a).memoryOk := ite h (dropAction h)
    exact settle (actionStatus (ite (openSections hd) hd))

theorem recallUpdate {a} (h : s.memoryOk) : (s.recallUpdate a).memoryOk := by
  unfold State.recallUpdate
  split
  · exact h
  · dsimp only
    split
    · exact h
    · exact recallRaw h

theorem startSwitch {a} (h : s.memoryOk) : (s.startSwitch a).MemoryOk := by
  unfold State.startSwitch
  split
  · exact .more h
  · exact .refused

theorem updateTable {f : State → State} (h : (f s).memoryOk) : (s.updateTable f).memoryOk := h

theorem actionStep {a k} (h : s.memoryOk) : (s.actionStep a k).MemoryOk := by
  unfold State.actionStep
  dsimp only
  split
  · refine .done ?_
    split <;> exact h
  · refine .done ?_
    split <;> exact h
  · exact startSwitch h
  · split
    · exact .done h
    · exact .wait h
  · exact .more (closeSections h)
  · split
    · exact .refused
    · have hs {ts : List Task} {f : Task → Task → Task} : (ts.foldl (fun s t => s.modTask t.id.tid (f t)) s).memoryOk :=
        foldl ts h fun _ _ h => h
      split
      · exact .more hs
      · exact .wait hs
  · exact .done (foldl _ h fun _ _ h => h)
  · exact .more (flushLines h)
  · refine .done (updateTable ?_)
    split <;> exact h

theorem driveAction {fuel} (h : s.memoryOk) : (s.driveAction fuel).memoryOk := by
  induction fuel generalizing s with
  | zero => exact h
  | succ fuel ih =>
    unfold State.driveAction
    split
    · split
      · exact h
      · exact ite (ih (endAction (recallUpdate h))) (ih (recallUpdate h))
    · refine ite h (ite (postRequest h) ?_)
      rename_i a _
      have ha : ((s.recallUpdate a).actionStep a a.step).MemoryOk := actionStep (recallUpdate h)
      generalize (s.recallUpdate a).actionStep a a.step = r at ha
      cases ha with
      | wait ha => exact settle ha
      | more ha => exact ih ha
      | done ha => exact ih (endAction ha)
      | refused => exact ih (endAction h)

theorem continueActions (h : s.memoryOk) : s.continueActions.memoryOk := driveAction h

theorem startAction {e} (h : s.memoryOk) : (s.startAction e).memoryOk := continueActions h

theorem execFirmwareSwitchComplete_keeps {target} (h : s.memoryOk) : KeepsForm (execFirmwareSwitchComplete target s) := by
  unfold execFirmwareSwitchComplete
  split
  · exact .next (continueActions h)
  · exact .next h

/-! ## Answers to service requests (R380, R381) -/

theorem runPacket {q p} (h : s.memoryOk) : KeepsForm (runPacket q p s) := by
  unfold Machine.runPacket
  split
  · exact .next (launchPacket h)
  · exact .next (launchPacket h)
  · exact .next (packet h fun _ _ _ h => h)
  · exact execWriteValue_keeps h
  · exact execIndirect_keeps h
  · exact .next (packet h fun _ _ _ h => completePacket (writeRcb (writeRcb h)))
  · exact execRegionCreate_keeps h
  · exact .next (packet h fun _ _ _ h => h)
  · exact .next (packet h fun _ _ _ h => h)
  · exact .next (packetError h)

theorem startParsed {q p} (h : s.memoryOk) : KeepsForm (startParsed q p s) := by
  unfold Machine.startParsed
  split
  · exact .next h
  · split
    · exact runPacket h
    · exact .next h

theorem answerPacket {q tag} {k : State → Host.Outcome State Fault Refusal} (h : s.memoryOk)
    (hk : ∀ t : State, t.memoryOk → KeepsForm (k t)) : KeepsForm (s.answerPacket q tag k) := by
  unfold State.answerPacket
  split
  · exact .next h
  · split
    · dsimp only
      split
      · exact hk _ h
      · exact .next h
    · exact .next h

theorem refuseDraft {g p d code} (h : s.memoryOk) : (s.refuseDraft g p d code).memoryOk := settle (modNode (refusePair h))

theorem answerPair {gid p c ok} (h : s.memoryOk) : (s.answerPair gid p c ok).memoryOk := by
  unfold State.answerPair
  split
  · split
    · exact ite (ite (settle h) (refuseDraft h)) h
    · exact h
  · exact h

theorem answerOverlap {gid node ok} (h : s.memoryOk) : (s.answerOverlap gid node ok).memoryOk := by
  unfold State.answerOverlap
  split
  · refine ite (settle h) ?_
    split
    · exact refuseDraft h
    · exact settle (faultNode (endReservation (countOverlaps h)))
  · exact h

theorem answerFault {tid record ok} (h : s.memoryOk) : (s.answerFault tid record ok).memoryOk := by
  unfold State.answerFault
  split
  · exact h
  · exact ite (ite (settle (wakeTask h)) (refuseTask h)) h

theorem answerItem {e i} (h : s.memoryOk) : KeepsForm (s.answerItem e i) := by
  unfold State.answerItem
  dsimp only
  split
  · refine answerPacket h fun s h => ?_
    split
    · exact startParsed h
    · exact .next (packetError h)
  · exact answerPacket h fun _ h => .next (launchPacket h)
  · exact .next (answerFault h)
  · exact .next (ite h h)
  · exact .next (answerPair h)
  · exact .next (fileError h)
  · exact .next (answerOverlap h)
  · refine .next ?_
    split
    · exact ite (ite (continueActions h) (continueActions (endAction h))) h
    · exact h

theorem execAnswer_keeps {e} (h : s.memoryOk) : KeepsForm (execAnswer e s) := by
  unfold execAnswer
  split
  · exact .next (reject h)
  · exact answerItem (s := { s with port0 := _ }) h

end State.memoryOk

end Sys2Proof.Machine
end

section
/-! SUPPORT. The canonical form of memory over the words of the vector unit: their shapes, then the words that have no shape in common. -/

namespace Sys2Proof.Machine.State.memoryOk

variable {s : State}

/-! ## Shapes of integer and floating words (R154 to R164, R187 to R206) -/

theorem binaryWord {vs2 src vm dst} {k : State → Act} (h : s.memoryOk) (hk : ∀ t : State, t.memoryOk → (k t).MemoryOk) :
    (s.binaryWord vs2 src vm dst k).MemoryOk := vectorWord h fun _ h => needX h hk

theorem intWord {vd vs2 src vm f} (h : s.memoryOk) : (s.intWord vd vs2 src vm f).MemoryOk := binaryWord h fun _ h => .go h

theorem cmpWord {vd vs2 src vm f} (h : s.memoryOk) : (s.cmpWord vd vs2 src vm f).MemoryOk :=
  .check h (binaryWord h fun _ h => .go h)

theorem gatherWord {vd vs2 src vm} (h : s.memoryOk) : (s.gatherWord vd vs2 src vm).MemoryOk :=
  .check h (vectorWord h fun _ h => needX h fun _ h => needClean h (.go h))

theorem longGatherWord {vd vs2 src vm} (h : s.memoryOk) : (s.longGatherWord vd vs2 src vm).MemoryOk :=
  .check h (vectorWord h fun _ h => needX h fun _ h => needClean h (.go h))

theorem unaryWord {vs2 len vm dst} {k : State → Act} (h : s.memoryOk) (hk : ∀ t : State, t.memoryOk → (k t).MemoryOk) :
    (s.unaryWord vs2 len vm dst k).MemoryOk := vectorWord h hk

theorem reduceWord {vd vs2 vm op} (h : s.memoryOk) : (s.reduceWord vd vs2 vm op).MemoryOk :=
  vectorWord h fun _ h => .ite (.go h) (.go h)

theorem countWord {vd vs2 vm f} (h : s.memoryOk) : (s.countWord vd vs2 vm f).MemoryOk :=
  vectorWord h fun _ h => .ite (.go h) (.go h)

theorem onThread {f} (h : s.memoryOk) : (s.onThread f).memoryOk := by
  unfold State.onThread
  split <;> exact h

theorem rounding {k : State → Act} (h : s.memoryOk) (hk : (k s).MemoryOk) : (s.rounding k).MemoryOk := by
  refine .ite (.check h ?_) hk
  split
  · rename_i u e
    rw [e] at hk
    cases hk with
    | go hu =>
      split
      · exact .go (onThread hu)
      · exact .go hu
  · exact hk

theorem withFmt {k} (h : s.memoryOk) (hk : ∀ f, (k f).MemoryOk) : (s.withFmt k).MemoryOk := by
  unfold State.withFmt
  split
  · exact .trap h
  · exact hk _

theorem floatWord {vd vs2 src vm fused op} (h : s.memoryOk) : (s.floatWord vd vs2 src vm fused op).MemoryOk :=
  withFmt h fun _ => binaryWord h fun _ h => needClean h (rounding h (.go h))

theorem floatPick {vd vs2 src vm op} (h : s.memoryOk) : (s.floatPick vd vs2 src vm op).MemoryOk :=
  withFmt h fun _ => binaryWord h fun _ h => .go h

theorem floatCmp {vd vs2 src vm op} (h : s.memoryOk) : (s.floatCmp vd vs2 src vm op).MemoryOk :=
  withFmt h fun _ => .check h (binaryWord h fun _ h => .go h)

theorem floatMap {vd vs2 vm rounds op} (h : s.memoryOk) : (s.floatMap vd vs2 vm rounds op).MemoryOk :=
  withFmt h fun _ => unaryWord h fun _ h => .ite (rounding h (.go h)) (.go h)

theorem floatReduce {vd vs2 vm rounds res} (h : s.memoryOk) : (s.floatReduce vd vs2 vm rounds res).MemoryOk :=
  withFmt h fun _ => vectorWord h fun _ h => .ite (rounding h (.ite (.go h) (.go h))) (.ite (.go h) (.go h))

theorem resizeWord {vd vs2 vm narrowing rounds op} (h : s.memoryOk) : (s.resizeWord vd vs2 vm narrowing rounds op).MemoryOk :=
  .check h (vectorWord h fun _ h => .ite (rounding h (.go h)) (.go h))

theorem withPartner {k} (h : s.memoryOk) (hk : ∀ n w, (k n w).MemoryOk) : (s.withPartner k).MemoryOk := by
  unfold State.withPartner
  split
  · exact hk _ _
  · exact .trap h

theorem mxWord {k} (h : s.memoryOk) (hk : k.MemoryOk) : (s.mxWord k).MemoryOk := .check h (.check h hk)

/-! ## Moves, draws, conversions to packed numbers (R161, R164, R165, R208) -/

theorem execVrng_keeps {vd vm} (h : s.memoryOk) : KeepsForm (execVrng vd vm s) := by
  refine issue h (vectorWord h fun s h => .check h ?_)
  dsimp only
  split
  · exact .go (onThread (onTask h))
  · exact .go h

/-! ## FX accumulators (R324 to R329) -/

theorem fxAddAt {p u} (h : s.memoryOk) : (s.fxAddAt p u).memoryOk := writeDirect h

theorem execFxrd_keeps {vd rs1 fmt} (h : s.memoryOk) : KeepsForm (execFxrd vd rs1 fmt s) := by
  refine issue h ?_
  dsimp only
  split
  · exact .trap h
  · exact vectorWord h fun _ h => needX h fun _ h => .check h (orTrap h fun _ _ => rounding h
      (.go (foldl _ h fun _ _ h => recallForRead h)))

/-! ## Packed arithmetic (R209 to R223) -/

theorem packedProduct {vd fl vs2 vs1 c vm adds} (h : s.memoryOk) : (s.packedProduct vd fl vs2 vs1 c vm adds).MemoryOk := by
  refine .check h (vectorWord h fun s h => ?_)
  split
  · exact .trap h
  · exact .go h

theorem packWord {first words vm dst k} (h : s.memoryOk) (hk : k.MemoryOk) : (s.packWord first words vm dst k).MemoryOk := .check h hk

/-! ## Atomics and counters of the control core (R114, R115, R297, R306) -/

theorem atomicPlace {rs rs1 n acc} {k : Place → Act} (h : s.memoryOk) (hk : ∀ p, (k p).MemoryOk) :
    (s.atomicPlace rs rs1 n acc k).MemoryOk := .check h (.check h (orTrap h fun p _ => hk p))

theorem loadReserved {rd rs1 n} (h : s.memoryOk) : (s.loadReserved rd rs1 n).MemoryOk :=
  atomicPlace h fun _ => .go (setX (onTask (afterRead h)))

theorem storeConditional {rd rs1 rs2 n} (h : s.memoryOk) : (s.storeConditional rd rs1 rs2 n).MemoryOk :=
  atomicPlace h fun _ => .ite (orTrap h fun _ e => .go (setX (onTask (storeAt h e)))) (.go (setX (onTask h)))

theorem amo {rd rs1 rs2 n op} (h : s.memoryOk) : (s.amo rd rs1 rs2 n op).MemoryOk :=
  atomicPlace h fun _ => orTrap h fun _ e => .go (setX (storeAt (afterRead h) e))

theorem readCsr {rd c writes} (h : s.memoryOk) : (s.readCsr rd c writes).MemoryOk := by
  unfold State.readCsr
  split
  · exact .trap h
  · exact .check h (.go (setX h))

/-! ## Vector memory (R175 to R177, R242 to R245, R305) -/

theorem endMemory {bad} (h : s.memoryOk) : (s.endMemory bad).MemoryOk := by
  unfold State.endMemory
  split
  · exact .go h
  · split <;> exact .trap h

theorem memoryWord {eew g vm xs} {k : State → Act} (h : s.memoryOk) (hk : ∀ t : State, t.memoryOk → (k t).MemoryOk) :
    (s.memoryWord eew g vm xs k).MemoryOk :=
  .check h (withStreams h fun _ h => needX h fun _ h => (hk _ h).onGo fun _ h => ite h (noteLatent h))

theorem afterReads {n pol ps} (h : s.memoryOk) : (s.afterReads n pol ps).memoryOk := foldl _ h fun _ _ h => afterRead h

theorem loadWord {vd pol vm rs addr} (h : s.memoryOk) : (s.loadWord vd pol vm rs addr).MemoryOk :=
  endMemory (s := State.commitLoad ..) (afterReads h)

theorem commitStore {t : State} {n pol ps v} (h : s.memoryOk) (ok : s.commitStore n pol ps v = .ok t) : t.memoryOk := by
  induction ps generalizing s with
  | nil =>
    cases ok
    exact h
  | cons p ps ih =>
    unfold State.commitStore at ok
    split at ok
    · cases ok
    · exact ih (storeAt h ‹_›) ok

theorem storeWord {vs3 pol vm rs addr} (h : s.memoryOk) : (s.storeWord vs3 pol vm rs addr).MemoryOk :=
  orTrap h fun _ e => endMemory (cleanStored (commitStore h e))

theorem commitAmo {t : State} {vd n op ps} (h : s.memoryOk) (ok : s.commitAmo vd n op ps = .ok t) : t.memoryOk := by
  induction ps generalizing s with
  | nil =>
    cases ok
    exact h
  | cons p ps ih =>
    unfold State.commitAmo at ok
    dsimp only at ok
    split at ok
    · cases ok
    · exact ih (onTask (storeAt (afterRead h) ‹_›)) ok

theorem vamo {vd vs2 rs1 eew vm op} (h : s.memoryOk) : (s.vamo vd vs2 rs1 eew vm op).MemoryOk :=
  .check h (memoryWord h fun _ h => orTrap h fun _ e => endMemory (commitAmo h e))

theorem appendPayload {vs3 base t pol w es r} (h : s.memoryOk) (e : s.appendPayload vs3 base t pol w es = r) : r.1.memoryOk := by
  subst e
  induction es generalizing s with
  | nil => exact h
  | cons x es ih =>
    unfold State.appendPayload
    dsimp only
    split
    · exact h
    · split
      · exact h
      · exact ih (onTask (storeAt h ‹_›))

theorem endAppend {v} (h : s.memoryOk) : (s.endAppend v).MemoryOk := .ite (.go h) (.wait h)

theorem finishAppend {vs3 pol vm a} (h : s.memoryOk) : (s.finishAppend vs3 pol vm a).MemoryOk := by
  refine .ite (endAppend h) (.check h ?_)
  split
  have hp := appendPayload h ‹_›
  dsimp only
  split
  · exact .trap (cleanStored hp)
  · exact endAppend (cleanStored hp)

theorem advanceTail {vs3 pol vm d p} (h : s.memoryOk) : (s.advanceTail vs3 pol vm d p).MemoryOk :=
  .ite (endAppend (onTask h)) (.ite (orTrap h fun _ e => finishAppend (onTask (storeAt h e)))
    (orTrap h fun _ e => endAppend (onTask (storeAt h e))))

theorem execVappend_keeps {vs3 rs1 pol eew c vm} (h : s.memoryOk) : KeepsForm (execVappend vs3 rs1 pol eew c vm s) := by
  refine issue h (memoryWord h fun s h => ?_)
  dsimp only
  split
  · exact needClean h (finishAppend h)
  · exact .check h (needClean h (orTrap h fun _ _ => advanceTail (afterRead h)))

/-! ## Block control and lane threads (R155, R166 to R173) -/

theorem afterScan {b off n} (h : s.memoryOk) : (s.afterScan b off n).memoryOk := by
  induction n generalizing s off with
  | zero => exact h
  | succ n ih =>
    unfold State.afterScan
    split
    · exact h
    · exact ite (afterFetch h) (ih (afterFetch h))

theorem laneBranch {vs2 vs1 off taken} (h : s.memoryOk) : (s.laneBranch vs2 vs1 off taken).MemoryOk := by
  unfold State.laneBranch
  dsimp only
  exact vectorWord h fun _ h => .check h (.ite (.jump h) (.go h))

theorem execLjoin_keeps (h : s.memoryOk) : KeepsForm (execLjoin s) := by
  refine issue h ?_
  split
  · exact .trap h
  · refine .check h (.ite ?_ (.jump h))
    split
    · exact .trap h
    · exact .jump h

end Sys2Proof.Machine.State.memoryOk
end

section
/-! SUPPORT. The canonical form of memory over the matrix and difference array, lane threads, COLL nodes, images, accesses from outside
and the control core. -/

namespace Sys2Proof.Machine.State.memoryOk

variable {s : State}

/-! ## The array (R268 to R292) -/

theorem needTile {md rs} {k : State → Act} (h : s.memoryOk) (hk : ∀ t : State, t.memoryOk → (k t).MemoryOk) :
    (s.needTile md rs k).MemoryOk := by
  refine .ite (hk s h) ?_
  dsimp only
  split
  · exact hk _ (noteWords h)
  · exact .trap h

theorem arrayWord {k} (h : s.memoryOk) (hk : k.MemoryOk) : (s.arrayWord k).MemoryOk := .check h (needFlag h hk)

theorem withShape {metric distance} {k : Nat → Values → Act} (h : s.memoryOk) (hk : ∀ a v, (k a v).MemoryOk) :
    (s.withShape metric distance k).MemoryOk := by
  unfold State.withShape
  split
  · exact .trap h
  · exact hk _ _

theorem runCompute {md c} (h : s.memoryOk) : (s.runCompute md c).MemoryOk := by
  unfold State.runCompute
  split
  · exact .trap h
  · exact needClean h (needTile (ite (noteLatent h) h) fun _ h => .go h)

theorem outerWord {md vs2 vs1 vm distance} (h : s.memoryOk) : (s.outerWord md vs2 vs1 vm distance).MemoryOk :=
  arrayWord h (vectorForm h fun _ h => needClean h (withShape (noteLatent h) fun _ _ => runCompute (noteLatent h)))

theorem needSound {n ps k} (h : s.memoryOk) (hk : k.MemoryOk) : (s.needSound n ps k).MemoryOk := by
  unfold State.needSound
  split
  · exact .trap h
  · exact hk

theorem fetchAll {n ps} (h : s.memoryOk) : (s.fetchAll n ps).2.memoryOk := foldl ps h fun _ _ h => afterRead h

theorem execMfetch_keeps {md xb xa} (h : s.memoryOk) : KeepsForm (execMfetch md xb xa s) := by
  refine issue h (arrayWord h (needX h fun s h => vectorForm h fun s h => withShape h fun k v => ?_))
  dsimp only
  split
  · exact .trap h
  · exact orTrap h fun _ _ => orTrap h fun _ _ => needSound h (runCompute (fetchAll (fetchAll h)))

theorem drainWord {vd md xs vm} {k : State → Act} (h : s.memoryOk) (hk : ∀ t : State, t.memoryOk → (k t).MemoryOk) :
    (s.drainWord vd md xs vm k).MemoryOk := by
  refine vectorForm h fun s h => ?_
  dsimp only
  split
  · exact .trap h
  · exact needClean h (needTile h fun _ h => .ite (hk _ h) (rounding h (hk _ h)))

theorem execMdrainq_keeps {vd md xs vm} (h : s.memoryOk) : KeepsForm (execMdrainq vd md xs vm s) := by
  refine issue h (arrayWord h (.check h (needX h fun s h => .check h (orTrap h fun p _ => drainWord h fun t ht => ?_))))
  split
  · exact .go ht
  · exact orTrap h fun _ _ => .go (writeDirect ht)

theorem tileWord {xa xs acc k} (h : s.memoryOk) (hk : ∀ ps, (k ps).MemoryOk) : (s.tileWord xa xs acc k).MemoryOk :=
  .check h (orTrap h fun _ _ => hk _)

theorem execVsplit_keeps {off vm} (h : s.memoryOk) : KeepsForm (execVsplit off vm s) := by
  refine issue h (needFlag h ?_)
  dsimp only
  split
  · exact .trap h
  · refine .check h (orTrap (afterScan h) fun join _ => ?_)
    split
    · exact .trap (afterScan h)
    · exact needClean (afterScan h) (.ite (.jump (afterScan h)) (.jump (afterScan h)))

/-! ## COLL nodes (R388, R389) -/

theorem engineWrite {first n a bs done} (h : s.memoryOk) : (s.engineWrite first n a bs done).1.memoryOk := by
  induction n generalizing s first a bs done with
  | zero => exact h
  | succ n ih =>
    unfold State.engineWrite
    split
    · exact h
    · split
      · exact h
      · dsimp only
        split
        · exact h
        · refine fstIte h ?_
          split
          · exact h
          · exact ih (storeAt h ‹_›)

theorem addFx {c parts first n} (h : s.memoryOk) : (s.addFx c parts first n).1.memoryOk := by
  induction n with
  | zero => exact h
  | succ n ih =>
    unfold State.addFx
    dsimp only
    split
    · exact ih
    · exact writeDirect ih

theorem recallFx {c} (h : s.memoryOk) : (s.recallFx c).memoryOk := by
  refine foldl _ h fun s i h => ?_
  split
  · exact recallForRead h
  · exact h

theorem collResult {c parts home} (h : s.memoryOk) : (s.collResult c parts home).1.memoryOk := by
  unfold State.collResult
  dsimp only
  split
  · exact h
  · exact h
  · exact fstIte (fstIte (addFx h) (recallFx h)) h

theorem collCommand {c zero parts} (h : s.memoryOk) : (s.collCommand c zero parts).1.memoryOk := by
  unfold State.collCommand
  dsimp only
  split
  · exact commandReport h
  · split
    · exact commandEnded h (fun _ _ _ => commandReport h) (commandReport h)
    · have h1 := engineRead h ‹_›
      split
      · exact commandReport h1
      · refine fstIte h1 (fstIte (commandReport h1) ?_)
        split
        · exact commandEnded h1 (fun _ _ _ => commandReport h1) (commandReport h1)
        · have h2 := engineBytes h1 ‹_›
          split
          · exact commandReport h2
          · exact commandEnded h2 (fun _ _ _ => commandReport h2) (commandReport h2)
          · refine fstIte h2 ?_
            have h3 {all home first n a bs done} := engineWrite (first := first) (n := n) (a := a) (bs := bs) (done := done)
              (collResult (c := c) (parts := all) (home := home) h2)
            exact commandEnded h3 (fun _ _ _ => commandReport h3) (commandReport h3)

theorem execCollNodeComplete_keeps {gid i parts rank0} (h : s.memoryOk) : KeepsForm (execCollNodeComplete gid i parts rank0 s) := by
  unfold execCollNodeComplete
  split
  · split
    · exact .next h
    · split
      · exact .next (settle (runImage h))
      · exact .next (settle (runCommand h fun _ _ h => collCommand h))
  · exact .next h

/-! ## Context images (R345 to R350, R381) -/

theorem execExportImage_keeps {e} (h : s.memoryOk) : KeepsForm (execExportImage e s) := by
  unfold execExportImage
  split
  · exact .next h
  · dsimp only
    split
    · exact .next (reject (recallImage h))
    · exact .ite (.next (reject (recallImage h))) (.next (settle (endTask (writeHost (recallImage h)))))

theorem recallSources {c img} (h : s.memoryOk) : (s.recallSources c img).memoryOk := by
  have h1 := recallHeaders (c := c) (a := getN (getSegment img 3) 0 8) h
  unfold State.recallSources
  refine ite ?_ (recallObject ?_) <;>
  · split
    · exact h1
    · exact recallObject (recallObject h1)

theorem execImportImage_keeps {e} (h : s.memoryOk) : KeepsForm (execImportImage e s) := by
  unfold execImportImage
  dsimp only
  split
  · split
    · exact .ite (.next (writePool (recallSources (recallRaw h)))) (.next (reject (recallSources (recallRaw h))))
    · exact .next (reject h)
  · exact .next (reject h)

/-! ## Accesses from outside (R375 to R378, R385, R395) -/

theorem onPort {f} (h : s.memoryOk) : (s.onPort f).memoryOk := ite h h

theorem writeQtbase {v} (h : s.memoryOk) : (s.writeQtbase v).memoryOk := ite (onPort h) h

theorem writePortcfg {v} (h : s.memoryOk) : (s.writePortcfg v).memoryOk := ite (onPort h) h

theorem firmwareWrite {off v} (h : s.memoryOk) : (s.firmwareWrite off v).memoryOk := by
  unfold State.firmwareWrite
  dsimp only
  refine ite (onPort h) (ite ?_ (ite ?_ (ite ?_ (ite (writeQtbase h) (ite (writePortcfg h)
    (ite (onPort h) (ite (onPort h) (ite (onPort h) h))))))))
  all_goals
    split
    · exact onPort h
    · exact onPort h
    · exact ite h (onPort h)
    · exact ite (onPort h) h
    · exact h

theorem injectionWrite {off v} (h : s.memoryOk) : (s.injectionWrite off v).memoryOk :=
  ite (onPort h) (ite (onPort h) (ite (onPort h) h))

theorem doorbellWrite {off v} (h : s.memoryOk) : KeepsForm (s.doorbellWrite off v) := by
  unfold State.doorbellWrite
  split
  · exact .next h
  · split
    · exact execWridx_keeps h
    · split
      · exact .next (qctl h)
      · exact .next (qctl h)
      · exact .next (qctl h)
      · exact .next (qctl h)
      · exact .next h
    · exact .next h

theorem bar0Write {off n v} (h : s.memoryOk) : KeepsForm (s.bar0Write off n v) :=
  .ite (.next h) (.ite (.next (onPort h)) (.ite (.next h) (.ite (.next (firmwareWrite h)) (.ite (.next (injectionWrite h))
    (.ite (doorbellWrite h) (.next h))))))

theorem mailboxWrite {off v} (h : s.memoryOk) : KeepsForm (s.mailboxWrite off v) := by
  refine .ite ?_ (.ite (.next h) (.ite (.next h) (.ite (.next h) (.next h))))
  split
  · exact .next (ite h (ite h h))
  · exact .next (ite h (ite h h))
  · exact .next (ite h h)

theorem execRegisterWrite_keeps {bar off size v} (h : s.memoryOk) : KeepsForm (execRegisterWrite bar off size v s) := by
  unfold execRegisterWrite
  split
  · exact bar0Write h
  · exact .ite (mailboxWrite h) (.next h)

theorem answer {bs refused} (h : s.memoryOk) : (s.answer bs refused).memoryOk := h

theorem missAccess {n index} (h : s.memoryOk) : (s.missAccess n index).memoryOk := answer (reject h)

theorem sliceRead {exits keyid pa n index} (h : s.memoryOk) : (s.sliceRead exits keyid pa n index).memoryOk :=
  ite (answer h) (missAccess h)

theorem logAttempts {hits} (h : s.memoryOk) : (s.logAttempts hits).memoryOk := h

theorem sliceWrite {exits keyid pa bs index} (h : s.memoryOk) : (s.sliceWrite exits keyid pa bs index).memoryOk :=
  ite (missAccess h) (ite (answer (logAttempts (foldl _ h fun _ _ h => agentWrite h))) (answer (agentWrite h)))

theorem execBar2Read_keeps {off n} (h : s.memoryOk) : KeepsForm (execBar2Read off n s) := by
  refine .ite (.next h) ?_
  split
  · exact .next (sliceRead h)
  · exact .next (missAccess h)

theorem execBar2Write_keeps {off bytes} (h : s.memoryOk) : KeepsForm (execBar2Write off bytes s) := by
  refine .ite (.next h) ?_
  split
  · exact .next (sliceWrite h)
  · exact .next (missAccess h)

theorem sliceAccess {exits keyid pa req index} (h : s.memoryOk) : (s.sliceAccess exits keyid pa req index).memoryOk := by
  cases req with
  | read n => exact sliceRead h
  | write bs => exact sliceWrite h

theorem execPeerInboundRequest_keeps {src a req} (h : s.memoryOk) : KeepsForm (execPeerInboundRequest src a req s) := by
  unfold execPeerInboundRequest
  split
  · split
    · exact .next h
    · exact .next (sliceAccess h)
  · exact .next h

theorem execCxlMemRequest_keeps {a req} (h : s.memoryOk) : KeepsForm (execCxlMemRequest a req s) := by
  refine .ite (.next h) (.ite (.next (sliceAccess h)) ?_)
  split
  · exact .ite (.next (answer (recallForRead h))) (.next (missAccess h))
  · exact .next (sliceWrite h)

/-! ## The control core, windows and streams (R92, R113, R114, R239 to R241, R263, R264) -/

theorem alu {rs rd v} (h : s.memoryOk) : (s.alu rs rd v).MemoryOk := .check h (.go (setX h))

theorem jumpTo {rd target} (h : s.memoryOk) : (s.jumpTo rd target).MemoryOk :=
  .check h (.jump (State.memoryOk.advance (setX h)))

theorem branch {rs1 rs2 taken imm} (h : s.memoryOk) : (s.branch rs1 rs2 taken imm).MemoryOk :=
  .check h (.ite (jumpTo h) (.go h))

theorem load {rd rs1 imm n ext} (h : s.memoryOk) : (s.load rd rs1 imm n ext).MemoryOk :=
  .check h (.check h (orTrap h fun _ _ => .go (setX (afterRead h))))

theorem store {rs1 rs2 imm n} (h : s.memoryOk) : (s.store rs1 rs2 imm n).MemoryOk :=
  .check h (.check h (orTrap h fun _ _ => orTrap h fun _ e => .go (storeAt h e)))

theorem unmapWindow {w} (h : s.memoryOk) : (s.unmapWindow w).memoryOk := by
  unfold State.unmapWindow
  split
  · exact h
  · exact flushLines h

/-! ## Records of the loader (R20 to R22) -/

theorem loadRecords {ctx text code splice regs} (h : s.memoryOk) : (s.loadRecords ctx text code splice regs).memoryOk := by
  refine ite h ?_
  split
  · exact h
  · exact h

end Sys2Proof.Machine.State.memoryOk
end

section
/-! SUPPORT. Every instruction keeps the canonical form of memory, and so does every turn of the machine (R5). -/

namespace Sys2Proof.Machine.State.memoryOk

variable {s : State}

theorem execSetKey_keeps {e} (h : s.memoryOk) : KeepsForm (execSetKey e s) := by
  unfold execSetKey
  dsimp only
  exact command h h

theorem execSetEngineImage_keeps {e} (h : s.memoryOk) : KeepsForm (execSetEngineImage e s) := by
  unfold execSetEngineImage
  dsimp only
  exact command h h

theorem exec_keeps (i : Instr) (h : s.memoryOk) : KeepsForm (exec i s) := by
  unfold exec
  cases i with
  | lui | auipc | addi | slti | sltiu | xori | ori | andi | slli | srli | srai | add | sub | sll | slt | sltu | xor | srl | sra
  | or | and | addiw | slliw | srliw | sraiw | addw | subw | sllw | srlw | sraw | mul | mulh | mulhsu | mulhu | div | divu
  | rem | remu | mulw | divw | divuw | remw | remuw => exact issue h (alu h)
  | jal => exact issue h (jumpTo h)
  | jalr => exact issue h (.check h (jumpTo h))
  | beq | bne | blt | bge | bltu | bgeu => exact issue h (branch h)
  | lb | lh | lw | ld | lbu | lhu | lwu => exact issue h (load h)
  | sb | sh | sw | sd => exact issue h (store h)
  | fence | mclrstat | fencev => exact issue h (.go h)
  | ecall | ebreak => exact issue h (.trap h)
  | lrW | lrD => exact issue h (loadReserved h)
  | scW | scD => exact issue h (storeConditional h)
  | amoswapW | amoswapD | amoaddW | amoaddD | amoxorW | amoxorD | amoandW | amoandD | amoorW | amoorD | amominW | amominD
  | amomaxW | amomaxD | amominuW | amominuD | amomaxuW | amomaxuD => exact issue h (amo h)
  | csrrw | csrrs | csrrc | csrrwi | csrrsi | csrrci => exact issue h (readCsr h)
  | vaddVV | vaddVX | vaddVI | vaddVR | vsubVV | vsubVX | vsubVI | vsubVR | vmulVV | vmulVX | vmulVI | vmulVR | vandVV | vandVX
  | vandVI | vandVR | vorVV | vorVX | vorVI | vorVR | vxorVV | vxorVX | vxorVI | vxorVR | vsllVV | vsllVX | vsllVI | vsllVR
  | vsrlVV | vsrlVX | vsrlVI | vsrlVR | vsraVV | vsraVX | vsraVI | vsraVR | vminVV | vminVX | vminVI | vminVR | vmaxVV | vmaxVX
  | vmaxVI | vmaxVR => exact issue h (intWord h)
  | vgathergVV | vgathergVX | vgathergVI | vgathergVR => exact issue h (longGatherWord h)
  | vmseqVV | vmseqVX | vmseqVI | vmseqVR | vmsltVV | vmsltVX | vmsltVI | vmsltVR | vmsltuVV | vmsltuVX | vmsltuVI | vmsltuVR =>
    exact issue h (cmpWord h)
  | vgatherVV | vgatherVX | vgatherVI | vgatherVR => exact issue h (gatherWord h)
  | vfaddFVV | vfaddFVX | vfaddFVR | vfsubFVV | vfsubFVX | vfsubFVR | vfmulFVV | vfmulFVX | vfmulFVR | vfdivFVV | vfdivFVX
  | vfdivFVR | vfmaccFVV | vfmaccFVX | vfmaccFVR | vfnmsacFVV | vfnmsacFVX | vfnmsacFVR | vfscaleFVV | vfscaleFVX | vfscaleFVR =>
    exact issue h (floatWord h)
  | vfminFVV | vfminFVX | vfminFVR | vfmaxFVV | vfmaxFVX | vfmaxFVR | vfsgnjFVV | vfsgnjFVX | vfsgnjFVR | vfsgnjnFVV
  | vfsgnjnFVX | vfsgnjnFVR | vfsgnjxFVV | vfsgnjxFVX | vfsgnjxFVR => exact issue h (floatPick h)
  | vfmfeqFVV | vfmfeqFVX | vfmfeqFVR | vfmfltFVV | vfmfltFVX | vfmfltFVR | vfmfleFVV | vfmfleFVX | vfmfleFVR =>
    exact issue h (floatCmp h)
  | vcvtq4 => exact issue h (mxWord h (.check h (vectorWord h fun _ h => rounding h (.go h))))
  | vmv => exact issue h (unaryWord h fun _ h => .go h)
  | vsplat => exact issue h (vectorWord h fun _ h => needX h fun _ h => .go h)
  | vmvsx => exact issue h (vectorWord h fun _ h => needX h fun _ h => .ite (.go h) (.go h))
  | vmvxs => exact issue h (vectorWord h fun _ h => needX h fun _ h => needRoom h (.go (setX h)))
  | vid => exact issue h (vectorWord h fun _ h => .go h)
  | vredsum | vredmin | vredmax | vredand | vredor | vredxor => exact issue h (reduceWord h)
  | vmpopc | vmfirst => exact issue h (countWord h)
  | vcompress | vpguard | vpext => exact issue h (.check h (vectorWord h fun _ h => .go h))
  | vrng => exact execVrng_keeps h
  | vfrecip | vfrsqrt | vfexp2 | vflog2 | vfsqrt | vfclass | vcvtif | vcvtfi => exact issue h (floatMap h)
  | vfredsum | vfredosum | vfredmin | vfredmax => exact issue h (floatReduce h)
  | vncvt | vwcvt => exact issue h (withPartner h fun _ _ => resizeWord h)
  | vncvti | vwcvti | vwcvtn => exact issue h (resizeWord h)
  | vbscale => exact issue h (mxWord h (unaryWord h fun _ h => .go h))
  | vle | vlse => exact issue h (memoryWord h fun _ h => loadWord h)
  | vlxe => exact issue h (.check h (memoryWord h fun _ h => loadWord h))
  | vse | vsse | vsxe => exact issue h (memoryWord h fun _ h => storeWord h)
  | vappend => exact execVappend_keeps h
  | vamoadd | vamomin | vamomax | vamoswap | vamoxor => exact issue h (vamo h)
  | mopa | mopd => exact issue h (outerWord h)
  | mzero => exact issue h (arrayWord h (.go h))
  | mcupd => exact issue h (arrayWord h (vectorForm h fun _ h => needX h fun _ h => .check h (.check h (.check h
      (needClean h (.check h (orTrap h fun _ _ => needClean h (.go (foldl _ (noteLatent h) fun _ _ h => fxAddAt h)))))))))
  | mdrain => exact issue h (arrayWord h (needX h fun _ h => drainWord h fun _ h => .go h))
  | mdrainq => exact execMdrainq_keeps h
  | mbest =>
    exact issue h (arrayWord h (.check h (.check h (withStreams h fun _ h => .check h (needClean h (needTile h fun _ h => .go h))))))
  | mld => exact issue h (arrayWord h (needX h fun _ h => tileWord h fun _ => needSound h (.go (onTask (afterReads h)))))
  | mst => exact issue h (arrayWord h (needX h fun _ h => tileWord h fun _ => needTile h fun _ h => orTrap h fun _ e =>
      .go (cleanStored (commitStore h e))))
  | mfetch => exact execMfetch_keeps h
  | vpmul | vpmacc | vpconv => exact issue h (packedProduct h)
  | vpack | vunpack => exact issue h (packWord h (vectorWord h fun _ h => .go h))
  | flset => exact issue h (needX h fun _ h => .check h (.go h))
  | flget | baddi | baddvl => exact issue h (needX h fun _ h => .go (setX h))
  | msetshape | msetcfg => exact issue h (arrayWord h (needX h fun _ h => .check h (.go h)))
  | mgetstat => exact issue h (needX h fun _ h => .go (onTask (setX h)))
  | vblk => exact execVblk_keeps h
  | vreply => exact execVreply_keeps h
  | vdrainq => exact issue h (.ite (.wait h) (.go h))
  | vstrip => exact issue h (needCounter h (.go h))
  | vloop => exact issue h (needCounter h (needX h fun _ h => .go h))
  | vlbnz => exact issue h (needCounter h (.check h (.ite (.go h) (.jump h))))
  | vcond => exact issue h (vectorWord h fun _ h => needRoom h (.go h))
  | vpost => exact issue h (needX h fun _ h => needRoom h (.go h))
  | vsplit => exact execVsplit_keeps h
  | lbeq | lbne | lblt | lbge => exact issue h (laneBranch h)
  | ljmp => exact issue h (.check h (.jump h))
  | ljoin => exact execLjoin_keeps h
  | vsetcfgi | vsetcfg => exact issue h (needX h fun _ h => setCfg h)
  | vdecl | l2unpin => exact issue h (.check h (.go h))
  | sybind => exact issue h (onObject h fun _ _ h => .go (bindRange h))
  | acq => exact issue h (onObject h fun _ _ h => .go h)
  | rel => exact issue h (onObject h fun _ _ h => .ite (.wait h) (mergeNow h fun _ h => .go (bumpRelseq h)))
  | bara => exact execBara_keeps h
  | barw => exact execBarw_keeps h
  | publish => exact issue h (onObject h fun _ _ h => .check h (.ite (.wait h) (.go (bumpRelseq (setField h)))))
  | cpy | cpyc | cpyx => exact issue h (copyWord h)
  | stmap => exact issue h (needX h fun _ h => .check h (.check h (.check h (.check h (.go h)))))
  | stunmap => exact issue h (needX h fun _ h => .check h (.ite (.wait h) (.go (unmapWindow h))))
  | stwb => exact issue h (needX h fun _ h => .check h (.go (cleanLines h)))
  | stdrop => exact issue h (needX h fun _ h => .check h (.check h (.go h)))
  | l2pin => exact issue h (needX h fun _ h => .check h (.check h (.check h (.go h))))
  | sbind =>
    exact issue h (needFlag h (.check h (needX h fun _ h => .check h (orTrap h fun _ _ => .check h (.go (onTask (afterRead h)))))))
  | sunbind => exact issue h (needFlag h (.check h (.ite (.go h) (.go h))))
  | vfxadd => exact issue h (withFmt h fun _ => vectorWord h fun _ h => needX h fun _ h => .check h
    (orTrap h fun _ _ => .go (foldl _ h fun _ _ h => fxAddAt h)))
  | fxrd => exact execFxrd_keeps h
  | fxclr => exact issue h (needX h fun _ h => .check h (.check h (orTrap h fun _ _ => .go (foldl _ h fun _ _ h => writeDirect h))))
  | tdone => exact execTdone_keeps h
  | tspawn => exact execTspawn_keeps h
  | tyield => exact issue h (.ite (.jump (settle (stopTask (State.memoryOk.advance h)))) (.go h))
  | tinfo => exact execTinfo_keeps h
  | trapc => exact issue h (needX h fun _ h => .trap h)
  | wridx => exact execWridx_keeps h
  | qctlSkip | qctlDiscard | qctlStop | qctlResume => exact .next (qctl h)
  | launchGraph | launchNode => exact .next (launchPacket h)
  | waitValue | regionDestroy | fencePacket => exact .next (packet h fun _ _ _ h => h)
  | waitValueMet => exact execWaitValueMet_keeps h
  | waitValueTimeout => exact execWaitValueTimeout_keeps h
  | writeValue => exact execWriteValue_keeps h
  | indirect => exact execIndirect_keeps h
  | setSeed => exact .next (packet h fun _ _ _ h => completePacket (writeRcb (writeRcb h)))
  | regionCreate => exact execRegionCreate_keeps h
  | regionDestroyComplete => exact execRegionDestroyComplete_keeps h
  | unknownKindPacket => exact .next (packetError h)
  | preempt => exact execPreempt_keeps h
  | condEval => exact execCondEval_keeps h
  | loopEval => exact execLoopEval_keeps h
  | pageArrived => exact execPageArrived_keeps h
  | copyComplete => exact execCopyComplete_keeps h
  | copyNodeComplete => exact execCopyNodeComplete_keeps h
  | collNodeComplete => exact execCollNodeComplete_keeps h
  | streamRefill | portTrainingLost | portTrained | fabricAddressAssigned => exact .next h
  | waitWatchdog | runWatchdog | splitWatchdog => exact .next (bite h)
  | patrolScrub => exact execPatrolScrub_keeps h
  | uncontainedError => exact .next (strikeEntry h)
  | flitReceive => exact execFlitReceive_keeps h
  | linkFailed => exact .next (ite (failPath h) h)
  | serviceRequest => exact execServiceRequest_keeps h
  | answer => exact execAnswer_keeps h
  | resume => exact execResume_keeps h
  | endTask => exact execEndTask_keeps h
  | releaseDomain => exact execReleaseDomain_keeps h
  | abortDomain => exact execAbortDomain_keeps h
  | removeSection | moveSections | linkDown | linkUp | firmwareUpdate => exact .next (startAction h)
  | firmwareSwitchComplete => exact execFirmwareSwitchComplete_keeps h
  | serviceActionTimeout => exact .next (ite (continueActions (endAction h)) h)
  | exportImage => exact execExportImage_keeps h
  | importImage => exact execImportImage_keeps h
  | bindContext => exact execBindContext_keeps h
  | setKey => exact execSetKey_keeps h
  | setEngineImage => exact execSetEngineImage_keeps h
  | unbindContext | invalidateTranslations | partitionLimits => exact command h h
  | queueEnable => exact execQueueEnable_keeps h
  | queueDisable => exact .ite (.next (syncQueue h)) (.next (report h))
  | queueDisableComplete => exact execQueueDisableComplete_keeps h
  | unlistedCommand => exact .next (reject h)
  | dutyWrite | ringControlWrite => exact .next (onPort h)
  | qtbaseWrite => exact .next (writeQtbase h)
  | portcfgWrite => exact .next (writePortcfg h)
  | registerWrite => exact execRegisterWrite_keeps h
  | bar2Read => exact execBar2Read_keeps h
  | bar2Write => exact execBar2Write_keeps h
  | peerInboundRequest => exact execPeerInboundRequest_keeps h
  | pushRecoveryImage | attest => exact .next (ite h (ite h h))
  | moduleReset => exact .next (ite h (moduleReset h))
  | throttleStep => exact .ite (.next h) (.ite (.next h) (.next h))
  | thermalTrip => exact .ite (.next h) (.next h)
  | wordNotAnInstruction | fetchFault => exact Act.MemoryOk.outcome (.trap h)
  | cxlMemRequest => exact execCxlMemRequest_keeps h

/-! ## Words (R92 to R94) -/

/-- A fetch leaves the memory of the state it answers in the canonical form. -/
inductive FetchedOk : Fetched → Prop where
  | idle : FetchedOk .idle
  | word {s : State} {w : BitVec 32} (h : s.memoryOk) : FetchedOk (.word s w)
  | bad {s : State} {t : Trap} (h : s.memoryOk) : FetchedOk (.bad s t)

theorem fetchBody {b off} (h : s.memoryOk) : FetchedOk (s.fetchBody b off) := by
  unfold State.fetchBody
  split
  · split
    · exact .word (afterFetch h)
    · exact .bad h
  · exact .bad h

/-- The fetch of a party that is neither stopped nor held, for each party. -/
theorem fetch {p} (h : s.memoryOk) : FetchedOk (s.fetch p) := by
  have hs : State.memoryOk { s with cur := p } := h
  unfold State.fetch
  dsimp only
  split
  · exact .idle
  cases p with
  | control =>
    dsimp only
    split
    · exact .word (afterFetch hs)
    · exact .bad hs
  | vector =>
    dsimp only
    split
    · exact .word (onTask hs)
    · exact .idle
    · split
      · exact .idle
      · split
        · exact .bad (enterBlock hs)
        · exact fetchBody (readH2 (enterBlock hs) ‹_›)
  | lane j =>
    dsimp only
    split
    · split
      · exact .idle
      · exact fetchBody hs
    · exact .idle

theorem runFetched {f : Fetched} (hf : FetchedOk f) (h : s.memoryOk) : KeepsForm (runFetched f s) := by
  cases hf with
  | idle => exact .next h
  | word h =>
    simp only [Machine.runFetched]
    split
    · exact exec_keeps _ h
    · exact exec_keeps _ h
  | bad h =>
    simp only [Machine.runFetched]
    split
    · exact exec_keeps _ h
    · exact .next (takeFault h)

theorem closeEntry {o} (h : KeepsForm o) : KeepsForm (closeEntry o) := by
  cases h with
  | next h => exact .next (onTask h)
  | fault => exact .fault
  | refused => exact .refused

theorem runParty {tid p} (h : s.memoryOk) : KeepsForm (runParty tid p s) :=
  .ite (closeEntry (runFetched (fetch (onStage h)) (onStage h))) (.next h)

/-! ## Turns (R5, R50) -/

theorem modQueue {q f} (h : s.memoryOk) : (s.modQueue q f).memoryOk := h

theorem countPacket {q} (h : s.memoryOk) : (s.countPacket q).memoryOk := h

theorem runQueue {q} (h : s.memoryOk) : KeepsForm (runQueue q s) := by
  unfold Machine.runQueue
  split
  · exact .next (passQueue h)
  · exact .next (loseQueue h)
  · exact exec_keeps _ (modQueue h)
  · exact .ite (.next (askParse (countPacket h))) (exec_keeps _ (countPacket h))

theorem runYarrow (h : s.memoryOk) : KeepsForm (runYarrow s) := by
  unfold Machine.runYarrow
  split
  · exact .next h
  · exact exec_keeps _ (takeCommand h)

theorem runTurn {t} (h : s.memoryOk) : KeepsForm (runTurn t s) := by
  unfold Machine.runTurn
  cases t with
  | party => exact runParty h
  | clover => exact runQueue (recallVisit h)
  | yarrow => exact runYarrow h
  | inject i => exact exec_keeps i h
  | action => exact .next (continueActions h)
  | reach => exact .next (reachStop h)
  | boot => exact .next (bootStep h)
  | hostRead => exact .next (answer h)
  | storage => exact .next (storageError h)
  | powerCycle => exact .next (moduleReset h)
  | temperature | admits | unloadRecords => exact .next h
  | hostMemory => exact .next (hostStores h)
  | peerMemory => exact .next (peerStores h)
  | loadRecords => exact .next (loadRecords h)

theorem pick (h : s.memoryOk) : s.pick.2.memoryOk := by
  unfold State.pick
  split
  · exact h
  · split
    · exact h
    · split
      · split <;> exact h
      · dsimp only
        split <;> exact h

theorem step (h : s.memoryOk) : KeepsForm (step s) := by
  unfold Machine.step
  dsimp only
  split
  · exact .ite .fault (runTurn (pick h))
  · exact .ite .fault (.next (pick h))

end Sys2Proof.Machine.State.memoryOk

namespace Sys2Proof.Machine

theorem KeepsForm.next_memoryOk {t : State} (h : KeepsForm (.next t)) : t.memoryOk := by
  cases h with
  | next h => exact h

/-- Settles O4: whatever the turn, the state it answers comes from the one before by operations that each keep the form. -/
theorem stepKeepsMemoryForm : Obligations.StepKeepsMemoryForm := by
  unfold Obligations.StepKeepsMemoryForm
  intro s t h e
  exact KeepsForm.next_memoryOk (e ▸ State.memoryOk.step h)

end Sys2Proof.Machine
end

section
/-! SUPPORT. In-block control (R119, R122, R155): loop counters, block scalars and posted replies. -/

namespace Sys2Proof.Machine

/-- The task on stage changed in two ways that agree on it. -/
theorem State.onTask_congr {s : State} {f g : Task → Task} (h : f s.task = g s.task) : s.onTask f = s.onTask g := by
  simp only [State.onTask, h]

/-! ## Loop counters (R23, R116) -/

/-- A loop counter that a word of block b may use: below the header's nlc, and kept by the kernel's REGS record where there is one. -/
def State.CounterDeclared (s : State) (b : Block) (lc : Nat) : Prop :=
  lc < fieldN b.h0 8 3 ∧ ∀ k, s.kernelRec = some k → k.hasRegs = true → k.lcmask.getLsbD lc = true

theorem State.needCounter_declared {s : State} {b : Block} (hb : s.task.block = some b) {lc : Nat} (d : s.CounterDeclared b lc) (k : Act) :
    s.needCounter lc k = k := by
  obtain ⟨below, kept⟩ := d
  cases hr : s.kernelRec with
  | none => simp [State.needCounter, hb, hr, below]
  | some r =>
    have : r.hasRegs = false ∨ r.lcmask.getLsbD lc = true := by
      cases e : r.hasRegs with
      | false => exact .inl rfl
      | true => exact .inr (kept r hr e)
    simp [State.needCounter, hb, hr, below, this]

theorem State.needCounter_undeclared {s : State} {b : Block} (hb : s.task.block = some b) {lc : Nat} (d : ¬s.CounterDeclared b lc) (k : Act) :
    s.needCounter lc k = .trap s (cause 0x08) := by
  by_cases below : lc < fieldN b.h0 8 3
  · have omitted : ∃ r, s.kernelRec = some r ∧ r.hasRegs = true ∧ r.lcmask.getLsbD lc = false := by
      simpa [State.CounterDeclared, below] using d
    obtain ⟨r, hr, regs, clear⟩ := omitted
    simp [State.needCounter, hb, hr, regs, clear]
  · simp [State.needCounter, hb, below]

theorem Task.counter_of {t : Task} {b : Block} (hb : t.block = some b) (lc : Nat) : t.counter lc = (b.lc[lc]?).getD 0 := by
  simp [Task.counter, hb]

theorem Task.setCounter_of {t : Task} {b : Block} (hb : t.block = some b) (lc : Nat) (v : Word) :
    t.setCounter lc v = { t with block := some { b with lc := b.lc.setIfInBounds lc v } } := by
  simp [Task.setCounter, hb]

theorem State.AtBlock.offset {s : State} {b : Block} (h : s.AtBlock b) : s.offset = b.off := by
  simp [State.offset, h.party, h.runs.block]

/-- The target of a branch back lies in the body where it does not lie before it (R122). -/
theorem State.AtBlock.inBody_back {s : State} {b : Block} (h : s.AtBlock b) {d : Nat} (hd : d ≤ b.off) (hl : b.off - d < b.len) :
    s.inBody ((s.offset : Int) - d) = true := by
  simp only [State.inBody, h.runs.block, h.offset, Bool.and_eq_true, decide_eq_true_eq]
  omega

theorem State.AtBlock.before_body {s : State} {b : Block} (h : s.AtBlock b) {d : Nat} (hd : b.off < d) :
    s.inBody ((s.offset : Int) - d) = false := by
  simp only [State.inBody, h.runs.block, h.offset, Bool.and_eq_false_iff, decide_eq_false_iff_not]
  omega

/-- A branch taken after a change of the task moves the changed task. -/
theorem State.onTask_branchTo (s : State) (f : Task → Task) (off : Int) :
    (s.onTask f).branchTo off = s.onTask (fun t => { (f t).moveVector off.toNat with progressAt := s.micros }) := rfl

/-! ## The words of loops -/

section
variable {s : State} {b : Block} {lc : BitVec 2} {dist : BitVec 10}

theorem State.AtBlock.vstrip_declared (h : s.AtBlock b) (d : s.CounterDeclared b lc.toNat) :
    exec (.vstrip lc) s = .next (s.onTask (fun t => { t with vl := min ((b.lc[lc.toNat]?).getD 0).toNat t.vlmax, vstart := 0 })).advance := by
  rw [exec_vstrip, execVstrip, h.issue, State.needCounter_declared h.runs.block d]
  refine congrArg (fun u : State => Host.Outcome.next u.advance) (State.onTask_congr ?_)
  rw [Task.counter_of h.runs.block]

theorem State.AtBlock.vloop_declared (h : s.AtBlock b) (d : s.CounterDeclared b lc.toNat) (xs : BitVec 5) :
    exec (.vloop lc xs) s =
      .next (s.onTask (fun t => { t with block := some { b with lc := b.lc.setIfInBounds lc.toNat (s.x xs) } })).advance := by
  rw [exec_vloop, execVloop, h.issue, State.needCounter_declared h.runs.block d, h.word.needX]
  exact congrArg (fun u : State => Host.Outcome.next u.advance) (State.onTask_congr (Task.setCounter_of h.runs.block _ _))

/-- VLBNZ with a distance that it may have, under the check of its counter (R155). -/
theorem State.AtBlock.vlbnz_of (h : s.AtBlock b) (h1 : 1 ≤ dist.toNat) (h2 : dist.toNat ≤ 253) :
    exec (.vlbnz lc dist) s = (s.needCounter lc.toNat (
      let target : Int := (s.offset : Int) - dist.toNat
      if !s.inBody target then .trap s (cause 0x08)
      else
        let v := stepCounter (s.task.counter lc.toNat) s.task.vl
        let s1 := s.onTask (fun t => t.setCounter lc.toNat v)
        if v = 0 then .go s1 else .jump (s1.branchTo target))).outcome := by
  rw [exec_vlbnz, execVlbnz, decide_eq_true h1, decide_eq_true h2]
  exact h.issue _

theorem State.AtBlock.vlbnz_last (h : s.AtBlock b) (d : s.CounterDeclared b lc.toNat) (h1 : 1 ≤ dist.toNat) (h2 : dist.toNat ≤ 253)
    (hd : dist.toNat ≤ b.off) (hl : b.off - dist.toNat < b.len) (hv : stepCounter ((b.lc[lc.toNat]?).getD 0) s.task.vl = 0) :
    exec (.vlbnz lc dist) s = .next (s.onTask (fun t => { t with block := some { b with lc := b.lc.setIfInBounds lc.toNat 0 } })).advance := by
  rw [h.vlbnz_of h1 h2, State.needCounter_declared h.runs.block d]
  simp only [h.inBody_back hd hl, Task.counter_of h.runs.block, hv]
  exact congrArg (fun u : State => Host.Outcome.next u.advance) (State.onTask_congr (Task.setCounter_of h.runs.block _ _))

theorem State.AtBlock.vlbnz_round (h : s.AtBlock b) (d : s.CounterDeclared b lc.toNat) (h1 : 1 ≤ dist.toNat) (h2 : dist.toNat ≤ 253)
    (hd : dist.toNat ≤ b.off) (hl : b.off - dist.toNat < b.len) (hv : stepCounter ((b.lc[lc.toNat]?).getD 0) s.task.vl ≠ 0) :
    exec (.vlbnz lc dist) s = .next (s.onTask (fun t =>
      { t with block := some { b with lc := b.lc.setIfInBounds lc.toNat (stepCounter ((b.lc[lc.toNat]?).getD 0) s.task.vl)
                                      off := b.off - dist.toNat }
               vstart := 0, progressAt := s.micros })) := by
  have target : ((s.offset : Int) - dist.toNat).toNat = b.off - dist.toNat := by rw [h.offset]; omega
  rw [h.vlbnz_of h1 h2, State.needCounter_declared h.runs.block d]
  simp only [h.inBody_back hd hl, Task.counter_of h.runs.block, hv, State.onTask_branchTo, target]
  refine congrArg Host.Outcome.next (State.onTask_congr ?_)
  rw [Task.setCounter_of h.runs.block, Task.moveVector_on rfl]
  exact hl

/-- A target before the body raises 0x08 whether or not the branch is taken (R122). -/
theorem State.AtBlock.vlbnz_outside (h : s.AtBlock b) (d : s.CounterDeclared b lc.toNat) (h1 : 1 ≤ dist.toNat)
    (h2 : dist.toNat ≤ 253) (hd : b.off < dist.toNat) : exec (.vlbnz lc dist) s = .next (s.takeFault { cause := 0x08 }) := by
  rw [h.vlbnz_of h1 h2, State.needCounter_declared h.runs.block d]
  simp only [h.before_body hd]
  rfl

theorem exec_vlbnz_illFormed (s : State) (h : dist.toNat = 0 ∨ 253 < dist.toNat) :
    exec (.vlbnz lc dist) s = .next (s.takeFault { cause := 0x01 }) := by
  have bad : (decide (1 ≤ dist.toNat) && decide (dist.toNat ≤ 253)) = false := by
    simp only [Bool.and_eq_false_iff, decide_eq_false_iff_not]
    omega
  rw [exec_vlbnz, execVlbnz, bad]
  exact s.issue_illFormed .b _

/-- An undeclared counter raises 0x08 in each of the three words (R23, R116). -/
theorem State.AtBlock.undeclared_counter (h : s.AtBlock b) (d : ¬s.CounterDeclared b lc.toNat) (xs : BitVec 5) :
    exec (.vstrip lc) s = .next (s.takeFault { cause := 0x08 }) ∧ exec (.vloop lc xs) s = .next (s.takeFault { cause := 0x08 }) ∧
    (1 ≤ dist.toNat → dist.toNat ≤ 253 → exec (.vlbnz lc dist) s = .next (s.takeFault { cause := 0x08 })) := by
  refine ⟨?_, ?_, fun h1 h2 => ?_⟩
  · rw [exec_vstrip, execVstrip, h.issue, State.needCounter_undeclared h.runs.block d]; rfl
  · rw [exec_vloop, execVloop, h.issue, State.needCounter_undeclared h.runs.block d]; rfl
  · rw [h.vlbnz_of h1 h2, State.needCounter_undeclared h.runs.block d]; rfl

end

/-! ## Block scalars and posted replies (R119, R155) -/

section
variable {s : State} {b : Block}

theorem State.AtBlock.baddi (h : s.AtBlock b) (xd : BitVec 5) (simm : BitVec 10) :
    exec (.baddi xd simm) s = .next (s.setX xd (s.x xd + simm.signExtend 64)).advance := by
  rw [exec_baddi, execBaddi, h.issue, h.word.needX]; rfl

theorem State.AtBlock.baddvl (h : s.AtBlock b) (xd : BitVec 5) (sh : BitVec 3) :
    exec (.baddvl xd sh) s = .next (s.setX xd (s.x xd + BitVec.ofNat 64 (s.task.vl * 2 ^ sh.toNat))).advance := by
  rw [exec_baddvl, execBaddvl, h.issue, h.word.needX]; rfl

theorem State.needRoom_free (hr : s.task.replies.length < 16) (k : Act) : s.needRoom k = k := if_pos hr

theorem State.needRoom_full (hr : 16 ≤ s.task.replies.length) (k : Act) : s.needRoom k = .wait s := if_neg (Nat.not_lt.mpr hr)

/-- VCOND on a legal group pushes whether some active element's mask bit is 1, once there is room (R155). -/
theorem State.AtBlock.vcond (h : s.AtBlock b) {vs2 : BitVec 5} {vm : BitVec 1} (c2 : BitVec 1)
    (hg : s.task.groupsOk { srcs := [(vs2.toNat, 1)], dsts := [] } vm = true) :
    exec (.vcond vs2 c2 vm) s = (s.needRoom (.go (s.pushReply
      (if ∃ i ∈ s.actives vm, s.task.maskBit vs2.toNat i = true then 1 else 0)))).outcome := by
  rw [exec_vcond, execVcond, h.issue, State.vectorWord_of h.runs hg]
  simp only [List.any_eq_true]

theorem State.AtBlock.vpost (h : s.AtBlock b) (xs : BitVec 5) :
    exec (.vpost xs) s = (s.needRoom (.go (s.pushReply (s.x xs)))).outcome := by
  rw [exec_vpost, execVpost, h.issue, h.word.needX]

end

/-- Settles O45: each word of in-block control issues undisturbed, so that its own checks decide what it does. -/
theorem blockControl : Obligations.BlockControl := by
  unfold Obligations.BlockControl
  intro s b lc dist simm sh xd vs2 c2 vm h counter declared bad counts left pushed
  refine ⟨fun d => ⟨h.vstrip_declared d, h.vloop_declared d xd, fun h1 h2 => ⟨fun hd hl => ⟨?_, ?_⟩, h.vlbnz_outside d h1 h2⟩⟩,
    fun d => h.undeclared_counter d xd, exec_vlbnz_illFormed s, h.baddi xd simm, h.baddvl xd sh,
    fun room => ⟨fun hg => ?_, ?_⟩, fun full => ⟨fun hg => ?_, ?_⟩⟩
  · exact h.vlbnz_last d h1 h2 hd hl
  · exact h.vlbnz_round d h1 h2 hd hl
  · rw [h.vcond c2 hg, State.needRoom_free room]; rfl
  · rw [h.vpost, State.needRoom_free room]; rfl
  · rw [h.vcond c2 hg, State.needRoom_full full]; rfl
  · rw [h.vpost, State.needRoom_full full]; rfl

end Sys2Proof.Machine
end

section
/-! SUPPORT. Copy words, the engine at a command of a block, and the engine's commands of nodes (R248 to R262). -/

namespace Sys2Proof.Machine

/-! ## Layouts (R248, R250) -/

theorem layoutsOk_iff (a b : List (BitVec 64)) :
    layoutsOk a b = true ↔ 1 ≤ a.length ∧ a.length ≤ 16 ∧ (∀ l ∈ a ++ b, fieldN l 0 24 ≠ 0) ∧ layoutTotal a = layoutTotal b ∧
      layoutTotal a < 2 ^ 40 := by
  simp only [layoutsOk, Bool.and_eq_true, bne_iff_ne, ne_eq, beq_iff_eq, decide_eq_true_eq, List.all_eq_true, Nat.one_le_iff_ne_zero,
    and_assoc]

/-- The checks of the layouts of a copy word, in the terms of R250. -/
theorem Task.layoutsOk_iff (t : Task) (v w n : Nat) :
    layoutsOk (t.layout v n) (t.layout w n) = true ↔ 1 ≤ n ∧ n ≤ 16 ∧ (∀ l ∈ t.layout v n ++ t.layout w n, fieldN l 0 24 ≠ 0) ∧
      layoutTotal (t.layout v n) = layoutTotal (t.layout w n) ∧ layoutTotal (t.layout v n) < 2 ^ 40 := by
  have len : (t.layout v n).length = n := by simp [Task.layout]
  rw [Machine.layoutsOk_iff, len]

/-! ## The copy words (R249 to R252) -/

/-- The control word of a copy word: CPY has none (R249). -/
def State.copyCtl (s : State) (op : Nat) (pair : BitVec 4) : Word :=
  if op = 0 then 0 else BitVec.ofNat 64 (s.task.elem 64 (2 * pair.toNat) 16)

/-- The checks of a copy word: its two layouts, and no reserved bit of its control word (R250). -/
def State.copyLegal (s : State) (pair : BitVec 4) (ctl : Word) : Bool :=
  layoutsOk (s.task.layout (2 * pair.toNat) s.task.vl) (s.task.layout (2 * pair.toNat + 1) s.task.vl) && decide (fieldN ctl 34 30 = 0)

theorem State.copyLegal_iff (s : State) (pair : BitVec 4) (ctl : Word) :
    let lay (v : Nat) : List (BitVec 64) := s.task.layout v s.task.vl
    let a := 2 * pair.toNat
    s.copyLegal pair ctl = true ↔ (1 ≤ s.task.vl ∧ s.task.vl ≤ 16 ∧ (∀ l ∈ lay a ++ lay (a + 1), fieldN l 0 24 ≠ 0) ∧
      layoutTotal (lay a) = layoutTotal (lay (a + 1)) ∧ layoutTotal (lay a) < 2 ^ 40) ∧ fieldN ctl 34 30 = 0 := by
  intro lay a
  rw [State.copyLegal, Bool.and_eq_true, Task.layoutsOk_iff, decide_eq_true_eq]

/-- The command that a copy word queues where no copy of its task is left: it meets its token's value, with nothing done. -/
def State.firstCopy (s : State) (op : Nat) (rd : BitVec 5) (pair : BitVec 4) (r1 r2 : BitVec 5) (trap : Bool) : Copy :=
  s.newCopy (copyEncoding op rd pair r1 r2 trap) op rd (s.x r1) (s.x r2) (s.task.layout (2 * pair.toNat) s.task.vl)
    (s.task.layout (2 * pair.toNat + 1) s.task.vl) (s.copyCtl op pair) trap

/-- A command just queued at place k, which in a deterministic region the engine takes up at once (R317, log 19). -/
def State.queued (s : State) (k : Nat) : State := if s.det = true then (s.takeUp k).getD s else s

/-- Layouts that keep their checks are short enough for the first test of a copy word, so that the test is that the word is not legal. -/
theorem State.copyTest_eq (s : State) (pair : BitVec 4) (ctl : Word) :
    (decide (16 < s.task.vl) || !layoutsOk (s.task.layout (2 * pair.toNat) s.task.vl) (s.task.layout (2 * pair.toNat + 1) s.task.vl) ||
      decide (fieldN ctl 34 30 ≠ 0)) = !s.copyLegal pair ctl := by
  cases ok : layoutsOk (s.task.layout (2 * pair.toNat) s.task.vl) (s.task.layout (2 * pair.toNat + 1) s.task.vl) with
  | false => simp [State.copyLegal, ok]
  | true =>
    have short : ¬16 < s.task.vl := Nat.not_lt.mpr ((s.task.layoutsOk_iff _ _ _).mp ok).2.1
    simp [State.copyLegal, ok, short]

section
variable {s : State} {b : Block} {op : Nat} {rd : BitVec 5} {pair : BitVec 4} {r1 r2 : BitVec 5} {trap : Bool}

/-- A copy word with legal groups, where no copy of its task is left, as its remaining tests decide it. -/
theorem State.AtBlock.copyWord (h : s.AtBlock b)
    (hg : s.task.groupsOk { srcs := [(2 * pair.toNat, 1), (2 * pair.toNat + 1, 1)], dsts := [] } 1 = true) :
    s.copyWord op rd pair r1 r2 trap =
      if !s.copyLegal pair (s.copyCtl op pair) then .trap s (cause 0x08)
      else if s.copySlots s.task.id.section_ = 0 then .wait s
      else .go ((s.onTask (fun t => { t with copies := [s.firstCopy op rd pair r1 r2 trap] })).queued 0) := by
  have queue : ∀ c, s.onTask (fun t => { t with copies := t.copies ++ [c] }) = s.onTask (fun t => { t with copies := [c] }) :=
    fun c => State.onTask_congr (by rw [h.runs.copies, List.nil_append])
  unfold State.copyWord
  dsimp only
  rw [State.vectorWord_of h.runs hg, h.word.needX, State.copyTest_eq]
  simp only [h.word.notBad, Bool.and_false, Bool.false_eq_true, if_false, queue, h.runs.copies, List.length_nil]
  rfl

/-- A word whose meaning is a copy word with legal groups: it queues its command, waits for a slot, or raises 0x08 (R250). -/
theorem State.AtBlock.exec_copy (h : s.AtBlock b)
    (hg : s.task.groupsOk { srcs := [(2 * pair.toNat, 1), (2 * pair.toNat + 1, 1)], dsts := [] } 1 = true) {i : Instr}
    (e : exec i s = (s.copyWord op rd pair r1 r2 trap).outcome) :
    (s.copyLegal pair (s.copyCtl op pair) = true → s.copySlots s.task.id.section_ ≠ 0 →
      exec i s = .next ((s.onTask (fun t => { t with copies := [s.firstCopy op rd pair r1 r2 trap] })).queued 0).advance) ∧
    (s.copyLegal pair (s.copyCtl op pair) = true → s.copySlots s.task.id.section_ = 0 → exec i s = .next s) ∧
    (s.copyLegal pair (s.copyCtl op pair) = false → exec i s = .next (s.takeFault { cause := 0x08 })) := by
  rw [e, h.copyWord hg]
  refine ⟨fun legal slot => ?_, fun legal full => ?_, fun bad => ?_⟩
  · rw [legal, if_neg slot]; rfl
  · rw [legal, if_pos full]; rfl
  · rw [bad]; rfl

/-- The first command on a token stands in no chain (R252). -/
theorem State.AtBlock.firstCopy_after (h : s.AtBlock b) : (s.firstCopy op rd pair r1 r2 trap).after = none := by
  simp [State.firstCopy, State.newCopy, h.runs.onToken]

end

/-! ## Where the engine takes a command up (R66, R251, R252) -/

section
variable {s : State} {k : Nat} {c : Copy}

theorem State.takeUp_ended (hc : s.task.copies[k]? = some c) (he : c.status ≠ none) : s.takeUp k = none := by
  simp [State.takeUp, hc, Option.isSome_iff_ne_none.mpr he]

theorem State.takeUp_asked (hc : s.task.copies[k]? = some c) (ha : s.pageAsked (s.task.id.tid, k, 0) = true) : s.takeUp k = none := by
  simp [State.takeUp, hc, ha]

/-- A command waits for the one before it in its chain. -/
theorem State.takeUp_behind (hc : s.task.copies[k]? = some c) {j : Nat} {p : Copy} (hj : c.after = some j) (hp : s.task.copies[j]? = some p)
    (hs : p.status = none) : s.takeUp k = none := by
  simp [State.takeUp, hc, hj, hp, hs]

theorem State.takeUp_first (hc : s.task.copies[k]? = some c) (he : c.status = none) (hf : c.after = none)
    (ha : s.pageAsked (s.task.id.tid, k, 0) = false) : s.takeUp k = some (s.stepCopy k c) := by
  simp [State.takeUp, hc, he, hf, ha]

/-! ## A step of the engine at a command (R252, R256) -/

/-- The first command of a chain is handed no status. -/
theorem State.handOn_first (s : State) (hf : c.after = none) : s.onTask (fun t => t.handOn c) = s := by
  have same : s.task.copies.mapIdx (fun _ p => p) = s.task.copies := by
    rw [List.mapIdx_eq_iff]
    exact fun i => Option.map_id'.symm
  simp [State.onTask, Task.handOn, hf, same]

/-- A checked command that starts on a failure hands it on (R252). -/
theorem Task.copyStart_failed (t : Task) (hs : c.started = false) (hop : c.op ≠ 0) (hc : c.ctl.getLsbD 32 = false) (hf : c.after = none)
    (ht : fieldN c.tokIn 0 8 ≠ 0) : t.copyStart c = .inl (c.tokIn, none) := by
  have first : c.ctl[32] = false := by simpa using hc
  simp [Task.copyStart, metStatus, hs, hop, first, hf, ht]

theorem Task.copyStart_stands (t : Task) (h : c.started = true ∨ c.op = 0 ∨ c.ctl.getLsbD 32 = true) : t.copyStart c = .inr c.stands := by
  rcases h with h | h | h <;> simp [Task.copyStart, h]

/-- A command that starts on a status ends with it, its chain as it was. -/
theorem State.stepCopy_handsOn (s : State) (hf : c.after = none) {st : Word} {f : Option (Word × Bool)} (hs : s.task.copyStart c = .inl (st, f)) :
    s.stepCopy k c = (s.onTask (fun t => t.endCopy k st f)).progress := by
  simp only [State.stepCopy, s.handOn_first hf, hs]

variable {v : State} {g g1 : Progress}

theorem State.stepCopy_complete (s : State) (hf : c.after = none) (hs : s.task.copyStart c = .inr g)
    (hr : s.carryOn (s.jobOf k c) g = (v, g1, .complete)) :
    s.stepCopy k c = ((v.onTask (fun t => (t.noteCopy k g1).endCopy k
      (doneStatus c.op g1 (c.ctl.getLsbD 33) (fieldN c.ctl 0 32)) none)).progress).endWait (s.task.id.tid, k, 0) := by
  simp only [State.stepCopy, s.handOn_first hf, hs, hr]
  rfl

theorem State.stepCopy_fail (s : State) (hf : c.after = none) (hs : s.task.copyStart c = .inr g) {code : Nat} {a : Word} {d : Bool}
    (hr : s.carryOn (s.jobOf k c) g = (v, g1, .fail code a d)) :
    s.stepCopy k c = ((v.onTask (fun t => (t.noteCopy k g1).endCopy k (failStatus code g1.done) (some (a, d)))).progress).endWait
      (s.task.id.tid, k, 0) := by
  simp only [State.stepCopy, s.handOn_first hf, hs, hr]
  rfl

/-- A run that holds for a page is progress where a run before it was completed (R255, R357). -/
theorem State.stepCopy_hold (s : State) (hf : c.after = none) (hs : s.task.copyStart c = .inr g) {va : Word} {info : BitVec 32}
    (hr : s.carryOn (s.jobOf k c) g = (v, g1, .hold va info)) :
    s.stepCopy k c = ((v.onTask (fun t => t.noteCopy k g1)).onTask (fun t =>
        { t with progressAt := if g.done < g1.done then v.micros else t.progressAt })).askPage
      (s.task.id.tid, k, 0) s.task.id.ctx (s.dieOf s.task) s.task.id.gid va ((v.onTask (fun t => t.noteCopy k g1)).copyMiss c va info) := by
  simp only [State.stepCopy, s.handOn_first hf, hs, hr]
  by_cases moved : g.done < g1.done
  · simp only [if_pos moved]; rfl
  · simp only [if_neg moved]; rfl

/-! ## COPY_COMPLETE -/

theorem State.onStage_self (h : s.task.status = .running) : s.onStage s.task.id.tid = s := by
  simp [State.onStage, h]

theorem exec_copyComplete_idle (hr : s.task.status = .running) (h : ({ s with cur := .vector } : State).takeUp k = none) :
    exec (.copyComplete s.task.id.tid k) s = .next s := by
  simp only [exec_copyComplete, execCopyComplete, State.onStage_self hr, hr, h]
  simp

theorem exec_copyComplete_takesUp (hr : s.task.status = .running) {t : State} (h : ({ s with cur := .vector } : State).takeUp k = some t) :
    exec (.copyComplete s.task.id.tid k) s = .next t.settle := by
  simp only [exec_copyComplete, execCopyComplete, State.onStage_self hr, hr, h]
  simp

/-- The engine at the first command of a chain, of which nothing is asked of the host (R66, R251). -/
theorem exec_copyComplete_first (hr : s.task.status = .running) (hc : s.task.copies[k]? = some c) (he : c.status = none) (hf : c.after = none)
    (ha : s.pageAsked (s.task.id.tid, k, 0) = false) :
    exec (.copyComplete s.task.id.tid k) s = .next (({ s with cur := .vector } : State).stepCopy k c).settle :=
  exec_copyComplete_takesUp hr (State.takeUp_first hc he hf ha)

end

/-! ## COPY and COLL nodes (R27, R262, R389) -/

section
variable {s : State} {gid i : Nat} {g : Graph} {n : Node}

theorem exec_copyNodeComplete_idle (hg : s.graph gid = some g) (hn : s.node gid i = some n) (h : n.kind ≠ 3 ∨ n.status ≠ .running) :
    exec (.copyNodeComplete gid i) s = .next s := by
  simp [execCopyNodeComplete, hg, hn, h]

theorem exec_copyNodeComplete_default (hg : s.graph gid = some g) (hn : s.node gid i = some n) (hk : n.kind = 3) (hr : n.status = .running)
    (hi : n.image = none) : exec (.copyNodeComplete gid i) s =
      .next (s.runCommand g n 256 (fun c s => s.copyCommand (CopyCommand.of c)) (fun c => (CopyCommand.of c).trap)).settle := by
  simp [execCopyNodeComplete, hg, hn, hk, hr, hi]

theorem exec_copyNodeComplete_image (hg : s.graph gid = some g) (hn : s.node gid i = some n) (hk : n.kind = 3) (hr : n.status = .running)
    {im : List Byte} (hi : n.image = some im) : exec (.copyNodeComplete gid i) s = .next (s.runImage g n im).settle := by
  simp [execCopyNodeComplete, hg, hn, hk, hr, hi]

variable (parts : List (List (BitVec 8))) (zero : BitVec 512)

theorem exec_collNodeComplete_idle (hg : s.graph gid = some g) (hn : s.node gid i = some n) (h : n.kind ≠ 4 ∨ n.status ≠ .running) :
    exec (.collNodeComplete gid i parts zero) s = .next s := by
  simp [execCollNodeComplete, hg, hn, h]

theorem exec_collNodeComplete_default (hg : s.graph gid = some g) (hn : s.node gid i = some n) (hk : n.kind = 4) (hr : n.status = .running)
    (hi : n.image = none) : exec (.collNodeComplete gid i parts zero) s =
      .next (s.runCommand g n 320 (fun c s => s.collCommand (CollCommand.of c) (CollCommand.of zero) parts) (fun _ => false)).settle := by
  simp [execCollNodeComplete, hg, hn, hk, hr, hi]

theorem exec_collNodeComplete_image (hg : s.graph gid = some g) (hn : s.node gid i = some n) (hk : n.kind = 4) (hr : n.status = .running)
    {im : List Byte} (hi : n.image = some im) : exec (.collNodeComplete gid i parts zero) s = .next (s.runImage g n im).settle := by
  simp [execCollNodeComplete, hg, hn, hk, hr, hi]

end

/-- Settles O49: a copy word comes to its own tests, the engine to where a command starts and what its runs come to, a node to its image. -/
theorem copyWords : Obligations.CopyWords := by
  unfold Obligations.CopyWords
  refine ⟨?_, ?_, ?_⟩
  · intro s b rd r1 r2 pair trap h named a n lay total ctl legal taken queues hg
    have legal_iff : ∀ ctl, s.copyLegal pair ctl = true ↔ legal ∧ fieldN ctl 34 30 = 0 := s.copyLegal_iff pair
    have queues_of : ∀ i op w tr, s.copyCtl op pair = w → exec i s = (s.copyWord op rd pair r1 r2 tr).outcome → queues i op w tr := by
      rintro i op w tr rfl e
      obtain ⟨free, full, bad⟩ := h.exec_copy hg e
      refine ⟨fun ok reserved slot => ?_, fun ok reserved taken => ?_, fun broken => ?_⟩
      · exact ⟨_, free ((legal_iff _).mpr ⟨ok, reserved⟩) slot, rfl, rfl, rfl, rfl, rfl, rfl, rfl, rfl, rfl, h.firstCopy_after, rfl, rfl, rfl,
          rfl, rfl⟩
      · exact full ((legal_iff _).mpr ⟨ok, reserved⟩) taken
      · refine bad (Bool.eq_false_iff.mpr (fun ok => ?_))
        obtain ⟨layouts, reserved⟩ := (legal_iff _).mp ok
        exact broken.elim (fun no => no layouts) (fun no => no reserved)
    have place : (rd != 0) = true := by simpa using named
    refine ⟨queues_of _ _ _ _ rfl ?_, queues_of _ _ _ _ rfl ?_, queues_of _ _ _ _ rfl ?_⟩
    · rw [exec_cpy, execCpy, place, h.issue]
    · rw [exec_cpyc, execCpyc, place, h.issue]
    · rw [exec_cpyx, execCpyx, place, h.issue]
  · intro s k c hr hc i u who from_ stands ends
    refine ⟨fun he => ?_, fun ha => ?_, fun j p hj hp hs => ?_,
      fun he hf ha hs hop hc32 ht => ?_, fun he hf ha hgo v g => ⟨fun run => ?_, ?_, ?_⟩⟩
    · exact exec_copyComplete_idle hr (State.takeUp_ended (s := u) hc he)
    · exact exec_copyComplete_idle hr (State.takeUp_asked (s := u) hc ha)
    · exact exec_copyComplete_idle hr (State.takeUp_behind (s := u) hc hj hp hs)
    · rw [exec_copyComplete_first hr hc he hf ha, State.stepCopy_handsOn u hf (u.task.copyStart_failed hs hop hc32 hf ht)]
      rfl
    · rw [exec_copyComplete_first hr hc he hf ha, State.stepCopy_complete u hf (u.task.copyStart_stands hgo) run]
      simp only [doneStatus, Bool.and_eq_true, bne_iff_ne]
      rfl
    · intro code a d run
      rw [exec_copyComplete_first hr hc he hf ha, State.stepCopy_fail u hf (u.task.copyStart_stands hgo) run]
      rfl
    · intro va info run
      rw [exec_copyComplete_first hr hc he hf ha, State.stepCopy_hold u hf (u.task.copyStart_stands hgo) run]
      rfl
  · intro s gid i g n parts zero hg hn
    exact ⟨fun hk hr => ⟨exec_copyNodeComplete_default hg hn hk hr, fun _ => exec_copyNodeComplete_image hg hn hk hr⟩,
      fun hk hr => ⟨exec_collNodeComplete_default parts zero hg hn hk hr, fun _ => exec_collNodeComplete_image parts zero hg hn hk hr⟩,
      exec_copyNodeComplete_idle hg hn, exec_collNodeComplete_idle parts zero hg hn⟩

end Sys2Proof.Machine
end

section
/-! SUPPORT. The start of a task and its dispatch (R54, R145, R272). -/

namespace Sys2Proof.Machine

/-! ## What a task starts with -/

theorem Task.binding_vacant (n : Nat) : Task.vacant.binding n = none := by
  unfold Task.binding
  split
  · simp only [Task.vacant, Vector.getElem?_replicate]
    split <;> rfl
  · rfl

section
variable (s : State) (g : Graph) (n : Node) (w : Want) (sec grant : Nat)

theorem State.startTask_slot (i : Fin 6) : (s.startTask g n w sec grant).x[10 + i.val] = n.slot i := by
  fin_cases i <;> rfl

/-- Every other x register starts at zero (R54). -/
theorem State.startTask_otherX (r : Fin 32) (h : r.val < 10 ∨ 15 < r.val) : (s.startTask g n w sec grant).x[r] = 0 := by
  have set_others : ∀ (l : List Nat) (x : Vector Word 32), (∀ i ∈ l, 10 + i ≠ r.val) →
      (l.foldl (fun (x : Vector Word 32) i => x.set! (10 + i) (n.slot i)) x)[r] = x[r] := by
    intro l
    induction l with
    | nil => exact fun _ _ => rfl
    | cons i l ih =>
      intro x apart
      rw [List.foldl_cons, ih _ (fun j hj => apart j (List.mem_cons_of_mem _ hj))]
      simp [apart i List.mem_cons_self]
  have start := set_others (List.range 6) (Vector.replicate 32 0) (fun i hi => by have := List.mem_range.mp hi; omega)
  exact start.trans (by simp)

theorem State.startTask_vlmax : (s.startTask g n w sec grant).vlmax = grant * 16 * 32 := by
  have sew : (s.startTask g n w sec grant).sew = 8 := by
    show 8 * 2 ^ fieldN (0 : Word) 0 3 = 8
    decide
  have lmul : (s.startTask g n w sec grant).lmul = 1 := by
    show 2 ^ fieldN (0 : Word) 3 2 = 1
    decide
  rw [Task.vlmax, sew, lmul]
  show grant * 512 * 1 * 8 / 8 * 1 = grant * 16 * 32
  omega

end

/-! ## The dispatch of a node by itself -/

section
variable (s : State)

theorem State.foldl_parked {α : Type} (f : State → α → State) (l : List α) (h : ∀ s a, (f s a).parked = s.parked) :
    (l.foldl f s).parked = s.parked := by
  induction l generalizing s with
  | nil => rfl
  | cons a l ih => rw [List.foldl_cons, ih, h]

@[simp] theorem State.endReservation_parked (gid n : Nat) : (s.endReservation gid n).parked = s.parked := rfl

@[simp] theorem State.countBypasses_parked (blocked : List Want) (w : Want) (n : Nat) :
    (s.countBypasses blocked w n).parked = s.parked := by
  refine State.foldl_parked s _ _ fun u b => ?_
  split <;> rfl

@[simp] theorem State.reserveAll_parked (die : Nat) : (s.reserveAll die).parked = s.parked := by
  refine State.foldl_parked s _ _ fun u w => ?_
  split
  · rfl
  · split
    · split <;> rfl
    · rfl

/-- No overlap is no event (R331). -/
theorem State.countOverlaps_nil (die : Nat) (strict host : Bool) (region : Word) (node : Nat) :
    s.countOverlaps die strict host region node [] = s := by
  simp [State.countOverlaps]

/-- A VECTOR or ARRAY node without an overlap, dispatched by itself: its task stands among the others (R54, R330). -/
theorem State.dispatchNode_parked {g : Graph} {n : Node} {w : Want} {sec : Nat} (hg : s.graph w.gid = some g) (hn : s.node w.gid w.node = some n)
    (sound : n.poisoned = false) (fresh : w.resumed = false) (kind : w.kind ≤ 2) (apart : s.lapsOf w.die g n = []) :
    (s.dispatchNode w sec).parked = s.parked ++ [s.startTask g n w sec (s.grantIn w sec)] := by
  have onSection : ¬2 < w.kind := Nat.not_lt.mpr kind
  simp [State.dispatchNode, hg, hn, sound, fresh, onSection, apart, State.countOverlaps_nil, State.addTask]

end

/-- Settles O7: the values of `Task.vacant`, what a start makes of them, and the dispatch that puts the task among the others. -/
theorem taskStart : Obligations.TaskStart := by
  unfold Obligations.TaskStart
  have noX : ∀ r : BitVec 5, Task.vacant.x[r.toNat] = 0 := fun r => by simp [Task.vacant]
  have noV : ∀ r : Fin 32, Task.vacant.v[r] = 0 := fun r => by simp [Task.vacant]
  have noPlan : ∀ k : Fin 4, Task.vacant.fl[k] = 0 := fun k => by simp [Task.vacant]
  have noTile : ∀ k : Fin 8, Task.vacant.m[k] = 0 := fun k => by simp [Task.vacant]
  have rows : Task.vacant.rows = 64 := rfl
  have cols : Task.vacant.cols = 64 := rfl
  refine ⟨noX, rfl, rfl, rfl, rfl, noV, rfl, rfl, noPlan, noTile, rows, cols, rfl, rfl, rfl, rfl, rfl, rfl, Task.binding_vacant, rfl, ?_, ?_⟩
  · intro s g n w sec grant
    exact ⟨rfl, rfl, rfl, rfl, rfl, rfl, rfl, rfl, rfl, rfl, s.startTask_slot g n w sec grant, s.startTask_otherX g n w sec grant, noV,
      rfl, rfl, rfl, rfl, rfl, s.startTask_vlmax g n w sec grant, rfl, rfl, noPlan, noTile, rows, cols, rfl, rfl, rfl, rfl, rfl, rfl, rfl,
      Task.binding_vacant, rfl⟩
  · intro s g n w sec hg hn sound fresh kind apart
    rw [s.dispatchNode_parked hg hn sound fresh kind apart]
    exact List.mem_append_right _ List.mem_cons_self

end Sys2Proof.Machine
end

section
/-! SUPPORT. Fault records: their delivery, the fault service, and the faults that hold or end their task (R123, R333 to R344). -/

namespace Sys2Proof.Machine

/-! ## A record and the entry of its domain (R333, R334) -/

/-- A field of a fault-domain entry (R333). -/
def State.entryField (s : State) (p : Place) (off n : Nat) : Nat := leVal (s.peekBytes p.km (p.key + off) n)

/-- The ring slot of an entry's write index (R334). -/
def State.ringSlot (s : State) (p : Place) : Word :=
  BitVec.ofNat 64 (s.entryField p 0 8 + s.entryField p 0x10 8 % 2 ^ s.entryField p 8 1 * 64)

section
variable {s b : State} {ctx fdom : Nat} {c : Context} {p w q : Place} {record : BitVec 512}

/-- A ring with room takes the record at the slot of its write index. -/
theorem State.deliverRecord_written (hc : s.context ctx = some c) (hb : s.recallAt ctx (c.entryAddr fdom) 64 = b)
    (hr : b.yarrowPlace ctx (c.entryAddr fdom) 64 .read = some p) (hw : b.yarrowPlace ctx (c.entryAddr fdom) 64 .write = some w)
    (room : b.entryField p 0x10 8 - b.entryField p 0x18 8 < 2 ^ b.entryField p 8 1)
    (hq : b.yarrowPlace ctx (b.ringSlot p) 64 .write = some q) :
    s.deliverRecord ctx fdom record = (((b.agentWrite q.km q.key (bytesOf record.toNat 64)).agentWrite p.km (p.key + 0x10)
      (bytesOf (b.entryField p 0x10 8 + 1) 8)).fireMsix (b.entryField p 0x0A 2), true) := by
  simp only [State.ringSlot, State.entryField] at room hq ⊢
  simp only [State.deliverRecord, hc, hb, hr, hw, if_pos room, hq]

/-- A ring with room whose slot cannot be written takes no record. -/
theorem State.deliverRecord_slotLost (hc : s.context ctx = some c) (hb : s.recallAt ctx (c.entryAddr fdom) 64 = b)
    (hr : b.yarrowPlace ctx (c.entryAddr fdom) 64 .read = some p) (hw : b.yarrowPlace ctx (c.entryAddr fdom) 64 .write = some w)
    (room : b.entryField p 0x10 8 - b.entryField p 0x18 8 < 2 ^ b.entryField p 8 1)
    (hq : b.yarrowPlace ctx (b.ringSlot p) 64 .write = none) : s.deliverRecord ctx fdom record = (b.reject 5 fdom, false) := by
  simp only [State.ringSlot, State.entryField] at room hq
  simp only [State.deliverRecord, hc, hb, hr, hw, if_pos room, hq]

/-- A full ring counts the record as lost. -/
theorem State.deliverRecord_full (hc : s.context ctx = some c) (hb : s.recallAt ctx (c.entryAddr fdom) 64 = b)
    (hr : b.yarrowPlace ctx (c.entryAddr fdom) 64 .read = some p) (hw : b.yarrowPlace ctx (c.entryAddr fdom) 64 .write = some w)
    (full : 2 ^ b.entryField p 8 1 ≤ b.entryField p 0x10 8 - b.entryField p 0x18 8) :
    s.deliverRecord ctx fdom record = (b.agentWrite p.km (p.key + 0x20) (bytesOf (b.entryField p 0x20 8 + 1) 8), false) := by
  simp only [State.entryField] at full ⊢
  simp only [State.deliverRecord, hc, hb, hr, hw, if_neg (Nat.not_lt.mpr full)]

/-- An entry that cannot be read or written takes no record. -/
theorem State.deliverRecord_unusable (hc : s.context ctx = some c) (hb : s.recallAt ctx (c.entryAddr fdom) 64 = b)
    (h : b.yarrowPlace ctx (c.entryAddr fdom) 64 .read = none ∨ b.yarrowPlace ctx (c.entryAddr fdom) 64 .write = none) :
    s.deliverRecord ctx fdom record = (b.reject 5 fdom, false) := by
  simp only [State.deliverRecord, hc, hb]
  split
  · rename_i hr hw
    exact (h.elim (fun n => nomatch n.symm.trans hr) (fun n => nomatch n.symm.trans hw))
  · rfl

theorem State.domainHalts_read (hc : s.context ctx = some c) (hp : s.yarrowPlace ctx (c.entryAddr fdom + 9) 1 .read = some p) :
    s.domainHalts ctx fdom = true ↔ s.peekByte p.km p.key = 1 := by
  simp only [State.domainHalts, hc, hp, beq_iff_eq]

theorem State.domainHalts_unread (hc : s.context ctx = some c) (hp : s.yarrowPlace ctx (c.entryAddr fdom + 9) 1 .read = none) :
    s.domainHalts ctx fdom = c.halts.contains (c.entry fdom) := by
  simp only [State.domainHalts, hc, hp]

end

/-! ## A fault delivered: held, or at its end (R334, R336, R339, R344) -/

section
variable (s : State) (t : Task) (c : Nat) (record : BitVec 512)

/-- A fault's record delivered, counted for its meld where it is written and the service has not had it, and kept with its task. -/
def State.recorded : State :=
  let d := s.deliverRecord t.id.ctx (s.effFdom t.id.ctx t.id.region) record
  (if d.2 = true ∧ t.offered record = false then d.1.countMeld t.id.gid record else d.1).modTask t.id.tid
    (fun x => { x with fseq := x.fseq + 1, frec := record })

/-- Whether a fault may hold its task: its cause is 0x0F to 0x12, and its record was written. -/
def State.mayHold : Bool :=
  (c == 0x0F || c == 0x10 || c == 0x11 || c == 0x12) && (s.deliverRecord t.id.ctx (s.effFdom t.id.ctx t.id.region) record).2

theorem State.mayHold_iff : s.mayHold t c record = true ↔
    (c = 0x0F ∨ c = 0x10 ∨ c = 0x11 ∨ c = 0x12) ∧ (s.deliverRecord t.id.ctx (s.effFdom t.id.ctx t.id.region) record).2 = true := by
  simp only [State.mayHold, Bool.and_eq_true, Bool.or_eq_true, beq_iff_eq, or_assoc]

/-- The ends of a delivered fault: its task held where it stands, or with its image, or ended. -/
theorem State.deliverFault_eq :
    s.deliverFault t c record = State.settle
      (if s.mayHold t c record && t.status != .running then (s.recorded t record).modTask t.id.tid (fun x => { x with status := .held c })
      else if s.mayHold t c record && s.poolHolds t then (s.recorded t record).stopTask t.id.tid (.held c)
      else (if s.domainHalts t.id.ctx (s.effFdom t.id.ctx t.id.region)
        then (s.recorded t record).haltDomain t.id.ctx (s.effFdom t.id.ctx t.id.region) else s.recorded t record).endTask t) := by
  have counted : ∀ d : State × Bool, (if d.2 && !t.offered record then d.1.countMeld t.id.gid record else d.1) =
      if d.2 = true ∧ t.offered record = false then d.1.countMeld t.id.gid record else d.1 := fun d => by
    simp only [Bool.and_eq_true, Bool.not_eq_true']
  rw [State.deliverFault, State.deliverCore]
  dsimp only
  rw [counted]
  rfl

variable {s t c record}

theorem State.deliverFault_heldThere (asks : s.mayHold t c record = true) (away : t.status ≠ .running) :
    s.deliverFault t c record = ((s.recorded t record).modTask t.id.tid (fun x => { x with status := .held c })).settle := by
  rw [State.deliverFault_eq, if_pos (by rw [asks]; simpa using away)]

theorem State.deliverFault_stopped (asks : s.mayHold t c record = true) (runs : t.status = .running) (room : s.poolHolds t = true) :
    s.deliverFault t c record = ((s.recorded t record).stopTask t.id.tid (.held c)).settle := by
  rw [State.deliverFault_eq, if_neg (by simp [runs]), if_pos (by rw [asks, room]; rfl)]

/-- A fault that does not hold its task ends it. -/
theorem State.deliverFault_ends (h : ¬(s.mayHold t c record = true ∧ (t.status ≠ .running ∨ s.poolHolds t = true))) :
    s.deliverFault t c record = State.settle ((if s.domainHalts t.id.ctx (s.effFdom t.id.ctx t.id.region)
        then (s.recorded t record).haltDomain t.id.ctx (s.effFdom t.id.ctx t.id.region) else s.recorded t record).endTask t) := by
  rw [State.deliverFault_eq, if_neg, if_neg]
  · intro stops
    rw [Bool.and_eq_true] at stops
    exact h ⟨stops.1, .inr stops.2⟩
  · intro stays
    rw [Bool.and_eq_true, bne_iff_ne] at stays
    exact h ⟨stays.1, .inl stays.2⟩

end

/-! ## The fault service (R66, R140, R335, R358) -/

section
variable {s : State} {t : Task} {record : BitVec 512}

theorem State.countMeld_meld (gid : Nat) (h : record.getLsbD 10 = true) :
    s.countMeld gid record = s.modDie (s.graphDie gid) (fun x => { x with mfaults := x.mfaults + 1 }) := by
  simp only [State.countMeld, h, if_true]

theorem State.countMeld_plain (gid : Nat) (h : record.getLsbD 10 = false) : s.countMeld gid record = s := by
  simp only [State.countMeld, h, Bool.false_eq_true, if_false]

/-- A task that waits for a page has given the record of that page. -/
theorem Task.offered_waiting {q : BitVec 512} (h : t.status = .waitPage q) :
    t.offered record = true ↔ q ||| 4#512 <<< 448 = record ||| 4#512 <<< 448 := by
  simp only [Task.offered, h, Option.any_some, beq_iff_eq]

/-- Any other task has given the record that it is being served for. -/
theorem Task.offered_inPlace (h : ∀ q, t.status ≠ .waitPage q) :
    t.offered record = true ↔ ∃ q, t.servicing = some q ∧ q ||| 4#512 <<< 448 = record ||| 4#512 <<< 448 := by
  have given : t.offered record = t.servicing.any (fun r => (r ||| (4#512 <<< 448)) == (record ||| (4#512 <<< 448))) := by
    unfold Task.offered
    split
    · exact absurd ‹_› (h _)
    · rfl
  rw [given, Option.any_eq_true]
  simp only [beq_iff_eq]

theorem State.askService_own (h : s.port0.duty.getLsbD 2 = false) : s.askService t record = s.countMeld t.id.gid record := by
  simp only [State.askService, h, Bool.false_eq_true, if_false]

theorem State.askService_host (h : s.port0.duty.getLsbD 2 = true) : s.askService t record =
    (s.countMeld t.id.gid record).postRequest 3 (s.dieOf t) t.id.ctx (.fltsvc t.id.tid record) (record.setWidth 896) := by
  simp only [State.askService, h, if_true]

end

/-! ## A fault taken (R335, R344, R355) -/

section
variable {s : State} {tr : Trap}

theorem State.serviceable_iff (t : Task) : s.serviceable t tr = true ↔
    (tr.cause = 0x04 ∨ tr.cause = 0x05) ∧ tr.info.getLsbD 1 = false ∧ tr.fromCopy = false ∧
      ∃ a, tr.addr = some a ∧ a.toNat < 2 ^ 48 ∧ (t.id.ctx, a.toNat / 4096) ∉ s.unservable := by
  cases ha : tr.addr <;>
    simp [State.serviceable, ha, and_assoc]

/-- A fault with no record of its own, of a task that has put no array word aside, is served where the service can map its page, else
delivered. -/
theorem State.takeFault_eq (whole : tr.whole = none) (own : s.task.entrySave = none) :
    s.takeFault tr =
      if s.serviceable s.task tr then
        if s.poolHolds s.task then s.swapOut s.task (s.recordOf s.task s.cur tr) else s.waitInPlace s.task (s.recordOf s.task s.cur tr)
      else (s.logConsumed s.task tr).deliverFault s.task tr.cause (s.recordOf s.task s.cur tr) := by
  have stays : s.onTask Task.leaveEntry = s := by
    simp only [State.onTask, Task.leaveEntry_own own]
  simp only [State.takeFault, whole, Option.getD_none, stays]

theorem State.logConsumed_other (t : Task) (h : tr.cause ≠ 0x0E) : s.logConsumed t tr = s := by
  simp [State.logConsumed, h]

end

/-- Settles O19: the cases of a delivery, of a delivered fault, of the service's record and of a fault taken, by name. -/
theorem faultDelivery : Obligations.FaultDelivery := by
  unfold Obligations.FaultDelivery
  refine ⟨?_, ?_, ?_, ?_⟩
  · intro s ctx fdom r c hc entry b
    exact ⟨fun p w hr hw => ⟨fun room => ⟨fun q => State.deliverRecord_written hc rfl hr hw room,
        State.deliverRecord_slotLost hc rfl hr hw room⟩, State.deliverRecord_full hc rfl hr hw⟩,
      State.deliverRecord_unusable hc rfl, fun p => State.domainHalts_read hc, State.domainHalts_unread hc⟩
  · intro s t c r fdom d counted u asks holds
    have hold : s.mayHold t c r = true ↔ asks := s.mayHold_iff t c r
    refine ⟨fun a away => State.deliverFault_heldThere (hold.mpr a) away, fun a => State.deliverFault_stopped (hold.mpr a),
      fun no halts => ?_, fun no halts => ?_⟩ <;>
      rw [State.deliverFault_ends (by rwa [hold])]
    · rw [if_pos halts]; rfl
    · rw [if_neg (by rw [halts]; exact Bool.false_ne_true)]; rfl
  · intro s t r
    refine ⟨State.countMeld_meld _, State.countMeld_plain _, fun q => Task.offered_waiting, Task.offered_inPlace, State.askService_own,
      State.askService_host, fun new => ?_, fun had => ?_⟩
    · simp only [State.swapOut, new, Bool.false_eq_true, if_false]
    · simp only [State.swapOut, had, if_true]
  · intro s tr whole own record served
    have serves : s.serviceable s.task tr = true ↔ served := State.serviceable_iff s.task
    refine ⟨fun h room => ?_, fun h full => ⟨fun had => ?_, fun new => ?_⟩, fun h other => ?_, fun consumed => ?_⟩ <;>
      rw [State.takeFault_eq whole own]
    · rw [if_pos (serves.mpr h), if_pos room]
    · rw [if_pos (serves.mpr h), if_neg (by simp [full]), State.waitInPlace, if_pos (by simpa using had)]
    · rw [if_pos (serves.mpr h), if_neg (by simp [full]), State.waitInPlace, if_neg (by simpa using new)]
    · rw [if_neg (fun y => h (serves.mp y)), State.logConsumed_other _ other]
    · have unserved : ¬s.serviceable s.task tr = true := fun y => by
        obtain ⟨page, _⟩ := serves.mp y
        omega
      rw [if_neg unserved, consumed]

end Sys2Proof.Machine
end

section
/-! SUPPORT. Packets: their checks in the terms of R418, launches (R42, R55, R56, R81), and packets in flight (R42, R44, R50). -/

namespace Sys2Proof.Machine

/-! ## Checks that decide (R418) -/

/-- The rest of a decision put in other words. -/
theorem State.decides_mono {s : State} {o : Host.Outcome State Fault Refusal} {q : Nat} {p : BitVec 512} {cs : List (Prop × Option Nat)}
    {rest rest' : Prop} (hr : rest → rest') (h : s.Decides o q p cs rest) : s.Decides o q p cs rest' := by
  induction cs with
  | nil => exact hr h
  | cons c cs ih => exact ⟨h.1, fun holds => ih (h.2 holds)⟩

/-- A check of the model and one of a statement: one condition and one code, none for code 0 (R36). -/
def SameCheck (a : Bool × Nat) (b : Prop × Option Nat) : Prop := (a.1 = true ↔ b.1) ∧ (if a.2 = 0 then none else some a.2) = b.2

/-- A check whose failure has a code. -/
theorem SameCheck.coded {ok : Bool} {holds : Prop} (code : Nat) (h : ok = true ↔ holds) (coded : code ≠ 0 := by decide) :
    SameCheck (ok, code) (holds, some code) :=
  ⟨h, if_neg coded⟩

/-- The address check of a region, whose failure has no code where the region is the queue's root. -/
theorem SameCheck.region (s : State) (x : Queue) (a : Word) :
    SameCheck (s.rcbCheck x a) (s.addressOk x a 256 128 .read = true, if a = x.root then none else some 0x03) := by
  refine ⟨Iff.rfl, ?_⟩
  show (if (if a = x.root then 0 else 0x03) = 0 then none else some (if a = x.root then 0 else 0x03)) = _
  split <;> rfl

theorem SameCheck.notClosing (s : State) (ctx : Nat) (a : Word) : SameCheck (!s.closing ctx a, 0x09) (s.closing ctx a = false, some 0x09) :=
  .coded 0x09 (by rw [Bool.not_eq_true'])

/-- The sizes of a waited or written value (R42). -/
theorem sized_iff (n : Nat) : (n == 4 || n == 8) = true ↔ n = 4 ∨ n = 8 := by
  simp only [Bool.or_eq_true, beq_iff_eq]

theorem inLimits_iff (a b n : Nat) : (decide (a ≤ n) && decide (n ≤ b)) = true ↔ a ≤ n ∧ n ≤ b := by
  simp only [Bool.and_eq_true, decide_eq_true_iff]

section
variable {s : State} {o : Host.Outcome State Fault Refusal} {q : Nat} {p : BitVec 512} {x : Queue}

/-- Checks that `firstFailure` goes through decide in the words of a statement. -/
theorem State.decides_of_same {cs : List (Bool × Nat)} {ds : List (Prop × Option Nat)} {rest : Prop} (same : List.Forall₂ SameCheck cs ds)
    (hf : ∀ code, firstFailure cs = some code → o = .next (s.failPacket q p code)) (hr : firstFailure cs = none → rest) :
    s.Decides o q p ds rest := by
  have checked := State.decides_of_firstFailure cs hf hr
  clear hf hr
  induction same with
  | nil => exact checked
  | @cons a b cs ds same _ ih =>
    obtain ⟨holds, code⟩ := b
    obtain ⟨iff, rfl⟩ := same
    exact State.decides_cons iff ih checked

/-- A packet of a queue, as `State.packet` runs it, in the words of a statement. -/
theorem State.packet_decides_same {used : List (Nat × Nat)} {checks : Queue → List (Bool × Nat)} {k : Queue → State → Nat → State}
    {ds : List (Prop × Option Nat)} {rest : Prop} (run : o = .next (s.packet q p used checks k)) (hq : s.queue q = some x)
    (same : List.Forall₂ SameCheck (checks x) ds) (hr : o = .next ((k x (s.startPacket q x p) s.nextPid).settleQueue q).settle → rest) :
    s.Decides o q p ((packetClean p used = true, some 0x02) :: ds) rest := by
  refine State.decides_of_same (.cons (.coded 0x02 Iff.rfl) same) (fun code h => ?_) (fun h => hr ?_) <;> rw [run] <;> simp only [State.packet, hq, h]

/-! ## WAIT_VALUE, WRITE_VALUE, FENCE, INDIRECT (R42, R44, R45) -/

theorem exec_waitValue_decides (hq : s.queue q = some x) :
    let n := if fieldN p 264 8 = 4 ∨ fieldN p 264 8 = 8 then fieldN p 264 8 else 1
    s.Decides (exec (.waitValue q p) s) q p [(packetClean p [(0x08, 26), (0x24, 4)] = true, some 0x02),
        (s.addressOk x (p.extractLsb' 64 64) n n .read = true, some 0x03), (fieldN p 256 8 < 4, some 0x04),
        (fieldN p 264 8 = 4 ∨ fieldN p 264 8 = 8, some 0x04)]
      (exec (.waitValue q p) s = .next ((s.startPacket q x p).settleQueue q).settle) := by
  have run : exec (.waitValue q p) s = .next (s.packet q p _ _ _) := rfl
  refine State.packet_decides_same run hq ?_ id
  simp only [sized_iff]
  exact .cons (.coded 0x03 Iff.rfl) (.cons (.coded 0x04 decide_eq_true_iff) (.cons (.coded 0x04 (sized_iff _)) .nil))

theorem exec_writeValue_decides (hq : s.queue q = some x) :
    let a : Word := p.extractLsb' 64 64
    let n := if fieldN p 192 8 = 4 ∨ fieldN p 192 8 = 8 then fieldN p 192 8 else 1
    s.Decides (exec (.writeValue q p) s) q p [(packetClean p [(0x08, 17)] = true, some 0x02), (s.addressOk x a n n .write = true, some 0x03),
        (fieldN p 192 8 = 4 ∨ fieldN p 192 8 = 8, some 0x04)]
      (∀ pl, (s.startPacket q x p).translate x.ctx none a (fieldN p 192 8) .write = .ok pl →
        exec (.writeValue q p) s = .next (((((s.startPacket q x p).agentWrite pl.km pl.key
          (bytesOf (fieldN p 128 64) (fieldN p 192 8))).completePacket s.nextPid).settleQueue q).settle)) := by
  have run : exec (.writeValue q p) s = .next (s.packet q p _ _ _) := rfl
  refine State.packet_decides_same run hq ?_ fun done pl place => ?_
  · simp only [sized_iff]
    exact .cons (.coded 0x03 Iff.rfl) (.cons (.coded 0x04 (sized_iff _)) .nil)
  · rw [done, place]

theorem exec_fencePacket_decides (hq : s.queue q = some x) :
    s.Decides (exec (.fencePacket q p) s) q p [(packetClean p [(0x08, 1), (0x10, 8)] = true, some 0x02),
        (3 ≤ fieldN p 64 8 ∧ fieldN p 64 8 ≤ 5, some 0x04)]
      (exec (.fencePacket q p) s = .next ((s.startPacket q x p).settleQueue q).settle) := by
  have run : exec (.fencePacket q p) s = .next (s.packet q p _ _ _) := rfl
  exact State.packet_decides_same run hq (.cons (.coded 0x04 (inLimits_iff _ _ _)) .nil) id

/-- A packet that would nest a buffer in one (R45). -/
theorem exec_indirect_nested (hq : s.queue q = some x) {buf : Nat × Word × Nat × Nat} (h : x.inBuffer = some buf) :
    exec (.indirect q p) s = .next (s.packetError q p 0x07) := by
  simp only [exec_indirect, execIndirect, hq, Option.bind_some, h]

theorem exec_indirect_decides (hq : s.queue q = some x) (h : x.inBuffer = none) :
    s.Decides (exec (.indirect q p) s) q p [(packetClean p [(0x08, 12)] = true, some 0x02),
        (s.addressOk x (p.extractLsb' 64 64) 64 64 .read = true, some 0x03), (1 ≤ fieldN p 128 32 ∧ fieldN p 128 32 ≤ 16384, some 0x04)]
      (exec (.indirect q p) s = .next ((((s.startPacket q x p).modQueue q
        (fun x => { x with inBuffer := some (s.nextPid, p.extractLsb' 64 64, 0, fieldN p 128 32) })).settleQueue q).settle)) := by
  have run : exec (.indirect q p) s = .next (s.packet q p [(0x08, 12)]
      (fun x => [(s.addressOk x (p.extractLsb' 64 64) 64 64 .read, 0x03), (1 ≤ fieldN p 128 32 && fieldN p 128 32 ≤ 16384, 0x04)])
      (fun _ u pid => u.modQueue q (fun x => { x with inBuffer := some (pid, p.extractLsb' 64 64, 0, fieldN p 128 32) }))) := by
    simp only [exec_indirect, execIndirect, hq, Option.bind_some, h]
  exact State.packet_decides_same run hq (.cons (.coded 0x03 Iff.rfl) (.cons (.coded 0x04 (inLimits_iff _ _ _)) .nil)) id

/-! ## Regions (R48 to R51) -/

theorem exec_setSeed_decides (hq : s.queue q = some x) :
    let a : Word := p.extractLsb' 64 64
    let seed : Word := p.extractLsb' 128 64
    s.Decides (exec (.setSeed q p) s) q p [(packetClean p [(0x08, 16)] = true, some 0x02),
        (s.addressOk x a 256 128 .read = true, if a = x.root then none else some 0x03), (s.inQueueTree x a = true, some 0x05),
        (s.closing x.ctx a = false, some 0x09)]
      (let u := s.startPacket q x p
       let rs := mapIf (fun (r : Region) => r.ctx == x.ctx && r.addr == a) (fun r => { r with rcb := setField (setField r.rcb 256 seed) 70 (1#1) })
         u.regions
       let seeded : State := { u with regions := rs }
       exec (.setSeed q p) s = .next (((((seeded.writeRcb x.ctx (a + 8)
         (bytesOf (((seeded.region x.ctx a).map (fun r => fieldN r.rcb 64 16)).getD 0) 2)).writeRcb x.ctx (a + 0x20)
         (bytesOf seed.toNat 8)).completePacket s.nextPid).settleQueue q).settle)) := by
  have run : exec (.setSeed q p) s = .next (s.packet q p _ _ _) := rfl
  exact State.packet_decides_same run hq (.cons (.region s x _) (.cons (.coded 0x05 Iff.rfl) (.cons (.notClosing s _ _) .nil))) id

/-- A region of a context that is no root (R51). -/
theorem notRoot_iff (r : Option Region) : (r.map (fun r => !r.root)).getD false = true ↔ ∃ t, r = some t ∧ t.root = false := by
  cases r <;> simp

theorem exec_regionDestroy_decides (hq : s.queue q = some x) :
    let a : Word := p.extractLsb' 64 64
    s.Decides (exec (.regionDestroy q p) s) q p [(packetClean p [(0x08, 8)] = true, some 0x02),
        (s.addressOk x a 256 128 .read = true, if a = x.root then none else some 0x03), (s.inQueueTree x a = true, some 0x05),
        (∃ r, s.region x.ctx a = some r ∧ r.root = false, some 0x05), (s.closing x.ctx a = false, some 0x09)]
      (let u := s.startPacket q x p
       let rs := u.regions.map (fun r => if r.ctx == x.ctx && u.inSubtree x.ctx a r.addr then { r with closed := true } else r)
       exec (.regionDestroy q p) s = .next ((({ u with regions := rs } : State).settleQueue q).settle)) := by
  have run : exec (.regionDestroy q p) s = .next (s.packet q p _ _ _) := rfl
  exact State.packet_decides_same run hq
    (.cons (.region s x _) (.cons (.coded 0x05 Iff.rfl) (.cons (.coded 0x05 (notRoot_iff _)) (.cons (.notClosing s _ _) .nil)))) id

/-- A region is linkable where its parent and its RCB are there and keep the rules (R47, R48). -/
theorem State.linkable_iff (s : State) (x : Queue) (up a : Word) :
    s.linkable x up a = true ↔ ∃ r b, s.region x.ctx up = some r ∧ s.readRcb x.ctx a = some b ∧ s.regionOk r a b = true := by
  unfold State.linkable
  split
  · rename_i r b hr hb
    simp [hr, hb]
  · rename_i missing
    exact ⟨fun no => absurd no Bool.false_ne_true, fun ⟨r, b, hr, hb, _⟩ => (missing r b hr hb).elim⟩

theorem exec_regionCreate_decides (hq : s.queue q = some x) {up a2 : Word}
    (hu : (if p.extractLsb' 64 64 = 0#64 then x.root else p.extractLsb' 64 64) = up) (ha : p.extractLsb' 128 64 = a2) :
    s.Decides (exec (.regionCreate q p) s) q p [(packetClean p [(0x08, 16)] = true, some 0x02),
        (s.addressOk x up 256 128 .read = true, if up = x.root then none else some 0x03),
        (s.addressOk x a2 256 128 .read = true, if a2 = x.root then none else some 0x03), (s.inQueueTree x up = true, some 0x05),
        (s.region x.ctx a2 = none, some 0x05)]
      (let c := s.recallAt x.ctx a2 128
       c.Decides (exec (.regionCreate q p) s) q p
         [(∃ r b, c.region x.ctx up = some r ∧ c.readRcb x.ctx a2 = some b ∧ c.regionOk r a2 b = true, some 0x05),
          (c.closing x.ctx up = false, some 0x09)]
         (let v := c.startPacket q x p
          ∀ r b, v.region x.ctx up = some r → v.readRcb x.ctx a2 = some b →
            exec (.regionCreate q p) s = .next ((((({ v with regions := v.regions ++ [newRegion x.ctx a2 r.addr (r.depth + 1) false b] } : State).writeRcb
              x.ctx a2 (bytesOf r.addr.toNat 8)).completePacket c.nextPid).settleQueue q).settle))) := by
  refine State.decides_of_same (.cons (.coded 0x02 Iff.rfl) (.cons (.region s x up) (.cons (.region s x a2) (.cons (.coded 0x05 Iff.rfl)
    (.cons (.coded 0x05 Option.isNone_iff_eq_none) .nil))))) (fun code bad => ?_) (fun sound => ?_)
  · simp only [exec_regionCreate, execRegionCreate, hq, hu, ha]
    rw [bad]
  · refine State.decides_of_same (.cons (.coded 0x05 (State.linkable_iff _ _ _ _)) (.cons (.notClosing _ _ _) .nil)) (fun code bad => ?_)
      (fun fit r b hr hb => ?_) <;>
      simp only [exec_regionCreate, execRegionCreate, hq, hu, ha, sound]
    · rw [bad]
    · rw [fit]
      simp only [State.linkRegion, hr, hb]

/-! ## Launches (R42, R55, R56, R66, R81) -/

/-- The packets that launch: the bytes of their payload, and their count of nodes (R42). -/
abbrev launchBytes (single : Bool) : List (Nat × Nat) := if single then [(0x08, 16), (0x20, 16)] else [(0x08, 20), (0x20, 16)]
abbrev launchCount (p : BitVec 512) (single : Bool) : Nat := if single then 1 else fieldN p 192 32

/-- The checks of a launch up to its region (R418). -/
def State.launchChecks (s : State) (x : Queue) (p : BitVec 512) (single : Bool) : List (Bool × Nat) :=
  let record : Word := p.extractLsb' 256 64
  [(packetClean p (launchBytes single), 0x02), s.rcbCheck x (p.extractLsb' 64 64), (s.addressOk x (p.extractLsb' 128 64) 128 128 .read, 0x03),
    (1 ≤ launchCount p single && launchCount p single ≤ 65535, 0x04),
    (record == 0 || s.addressOk x record 16 16 .write, 0x03)] ++ s.regionChecks x (p.extractLsb' 64 64)

/-- The host asked for a die, under PLACE (R66, R81). -/
def State.askPlace (s : State) (q : Nat) (p : BitVec 512) (x : Queue) (ds : List Nat) : State :=
  (s.modQueue q (fun x => { x with waiting := some s.port0.nextTag })).postRequest 2 0xFF x.ctx (.place q (s.packetIndex x) p)
    (BitVec.ofNat 896 (leVal (layBytes [(q, 2), (0, 6), (s.packetIndex x, 8), ((p.extractLsb' 64 64).toNat, 8), (sumBy (fun l => 2 ^ l) ds, 1)])))

/-- A launch past those checks, in the state that the reads of its node array leave. -/
def State.launchChecked (s : State) (q : Nat) (p : BitVec 512) (x : Queue) (single : Bool) : State :=
  match s.readGraph x.ctx (p.extractLsb' 128 64) (launchCount p single) single with
  | .error code => s.packetError q p code
  | .ok ns =>
    let ds := s.candidates x.ctx (p.extractLsb' 64 64)
    if ns.any (fun n => n.kind ≤ 2 && s.effStrips x.ctx (p.extractLsb' 64 64) < n.smin) then s.packetError q p 0x0A
    else if ds.isEmpty then s.packetError q p 0x0C
    else if s.port0.duty.getLsbD 1 then s.askPlace q p x ds
    else (((s.startPacket q x p).launch x s.nextPid (p.extractLsb' 64 64) single ns (s.chooseDie ds)).settleQueue q).settle

section
variable {single : Bool}

theorem State.launchPacket_fails (hq : s.queue q = some x) {code : Nat} (bad : firstFailure (s.launchChecks x p single) = some code) :
    s.launchPacket q p single none = s.failPacket q p code := by
  simp only [State.launchChecks, launchBytes, launchCount] at bad
  simp only [State.launchPacket, hq, bad]

theorem State.launchPacket_passes (hq : s.queue q = some x) (sound : firstFailure (s.launchChecks x p single) = none) :
    s.launchPacket q p single none =
      (s.recallLaunch x.ctx (p.extractLsb' 128 64) (launchCount p single) single).launchChecked q p x single := by
  simp only [State.launchChecks, launchBytes, launchCount] at sound
  simp only [State.launchPacket, hq, sound]
  rfl

theorem launch_decides (run : o = .next (s.launchPacket q p single none)) (hq : s.queue q = some x) :
    s.Decides o q p [(packetClean p (launchBytes single) = true, some 0x02),
        (s.addressOk x (p.extractLsb' 64 64) 256 128 .read = true, if p.extractLsb' 64 64 = x.root then none else some 0x03),
        (s.addressOk x (p.extractLsb' 128 64) 128 128 .read = true, some 0x03), (1 ≤ launchCount p single ∧ launchCount p single ≤ 65535, some 0x04),
        (p.extractLsb' 256 64 = 0 ∨ s.addressOk x (p.extractLsb' 256 64) 16 16 .write = true, some 0x03),
        (s.inQueueTree x (p.extractLsb' 64 64) = true, some 0x05), (s.closing x.ctx (p.extractLsb' 64 64) = false, some 0x09)]
      (o = .next ((s.recallLaunch x.ctx (p.extractLsb' 128 64) (launchCount p single) single).launchChecked q p x single)) := by
  have recordOk : (p.extractLsb' 256 64 == (0 : Word) || s.addressOk x (p.extractLsb' 256 64) 16 16 .write) = true ↔
      p.extractLsb' 256 64 = 0 ∨ s.addressOk x (p.extractLsb' 256 64) 16 16 .write = true := by
    rw [Bool.or_eq_true, beq_iff_eq]
  refine State.decides_of_same (cs := s.launchChecks x p single) (.cons (.coded 0x02 Iff.rfl) (.cons (.region s x _) (.cons (.coded 0x03 Iff.rfl)
    (.cons (.coded 0x04 (inLimits_iff _ _ _)) (.cons (.coded 0x03 recordOk) (.cons (.coded 0x05 Iff.rfl) (.cons (.notClosing s _ _) .nil)))))))
    (fun code bad => ?_) (fun sound => ?_)
  · rw [run, State.launchPacket_fails hq bad]
  · rw [run, State.launchPacket_passes hq sound]

theorem State.launchChecked_unread {code : Nat} (h : s.readGraph x.ctx (p.extractLsb' 128 64) (launchCount p single) single = .error code) :
    s.launchChecked q p x single = s.packetError q p code := by
  simp only [State.launchChecked, h]

variable {ns : List Node} (h : s.readGraph x.ctx (p.extractLsb' 128 64) (launchCount p single) single = .ok ns)
include h

theorem State.launchChecked_overBudget (large : ∃ n ∈ ns, n.kind ≤ 2 ∧ s.effStrips x.ctx (p.extractLsb' 64 64) < n.smin) :
    s.launchChecked q p x single = s.packetError q p 0x0A := by
  simp only [State.launchChecked, h]
  rw [if_pos (by simpa using large)]

/-- Nodes inside their region's budget, by the dies that the region may be placed on. -/
theorem State.launchChecked_inBudget (fits : ∀ n ∈ ns, n.kind ≤ 2 → n.smin ≤ s.effStrips x.ctx (p.extractLsb' 64 64)) :
    s.launchChecked q p x single =
      let ds := s.candidates x.ctx (p.extractLsb' 64 64)
      if ds = [] then s.packetError q p 0x0C
      else if s.port0.duty.getLsbD 1 = true then s.askPlace q p x ds
      else (((s.startPacket q x p).launch x s.nextPid (p.extractLsb' 64 64) single ns (s.chooseDie ds)).settleQueue q).settle := by
  simp only [State.launchChecked, h, List.isEmpty_iff]
  rw [if_neg (by simpa using fits)]

end

/-! ## Packets in flight (R42, R44, R50) -/

variable {k : Nat} {f : Packet}

/-- A WAIT_VALUE whose condition holds completes at its poll. -/
theorem exec_waitValueMet_holds (hf : s.packets.find? (fun p => p.pid == k) = some f) (kind : f.kind = 3) (met : s.waitHolds f = true) :
    exec (.waitValueMet k) s = .next ((s.waitRead f).completePacket k).settle := by
  simp [execWaitValueMet, hf, kind, met]

theorem exec_waitValueMet_waits (hf : s.packets.find? (fun p => p.pid == k) = some f) (kind : f.kind = 3) (met : s.waitHolds f = false) :
    exec (.waitValueMet k) s = .next (s.waitRead f) := by
  simp [execWaitValueMet, hf, kind, met]

/-- A timeout does nothing to a WAIT_VALUE whose condition holds, or whose time is not up. -/
theorem exec_waitValueTimeout_early (hf : s.packets.find? (fun p => p.pid == k) = some f) (kind : f.kind = 3)
    (h : s.waitHolds f = true ∨ s.waitExpired f = false) : exec (.waitValueTimeout k) s = .next (s.waitRead f) := by
  rcases h with h | h <;> simp [execWaitValueTimeout, hf, kind, h]

theorem exec_waitValueTimeout_expired (hf : s.packets.find? (fun p => p.pid == k) = some f) (kind : f.kind = 3) (met : s.waitHolds f = false)
    (late : s.waitExpired f = true) :
    exec (.waitValueTimeout k) s = .next (((s.waitRead f).completePacket k).queueError f.q 0x0B f.index f.tag false).settle := by
  simp [execWaitValueTimeout, hf, kind, met, late]

theorem exec_regionDestroyComplete_empty (hf : s.packets.find? (fun p => p.pid == k) = some f) (kind : f.kind = 8) (hq : s.queue f.q = some x)
    (idle : s.subtreeBusy x.ctx (f.bytes.extractLsb' 64 64) = false) :
    exec (.regionDestroyComplete k) s = .next ((({ s with regions := s.regions.filter (fun r =>
      !(r.ctx == x.ctx && s.inSubtree x.ctx (f.bytes.extractLsb' 64 64) r.addr)) } : State).completePacket k).settle) := by
  simp [execRegionDestroyComplete, State.destroyDone, hf, kind, hq, idle]

theorem exec_regionDestroyComplete_busy (hf : s.packets.find? (fun p => p.pid == k) = some f) (hq : s.queue f.q = some x)
    (busy : s.subtreeBusy x.ctx (f.bytes.extractLsb' 64 64) = true) : exec (.regionDestroyComplete k) s = .next s := by
  simp [execRegionDestroyComplete, State.destroyDone, hf, hq, busy]

end

/-- Settles O52: every kind's checks in the words of R418, what a launch comes to once its node array is read, and the ends of packets in flight. -/
theorem packets : Obligations.Packets := by
  unfold Obligations.Packets
  refine ⟨?_, ?_⟩
  · intro s q p x hq u a a2 ends fails ok root inTree opened sized size clean checks launches
    have launch : ∀ i single, exec i s = .next (s.launchPacket q p single none) →
        launches i single (launchCount p single) (launchBytes single) := by
      intro i single run
      refine State.decides_mono (fun checked => ?_) (launch_decides run hq)
      intro r bad
      refine ⟨fun code hc => checked.trans (congrArg _ (State.launchChecked_unread hc)), fun ns hn =>
        ⟨fun large => checked.trans (congrArg _ (State.launchChecked_overBudget hn large)), fun fits => ?_⟩⟩
      have placed := checked.trans (congrArg _ (State.launchChecked_inBudget hn fits))
      exact ⟨fun nowhere => placed.trans (congrArg _ (if_pos nowhere)),
        fun found own => placed.trans (congrArg _ ((if_neg found).trans (if_neg (by rw [own]; exact Bool.false_ne_true)))),
        fun found asks => placed.trans (congrArg _ ((if_neg found).trans (if_pos asks)))⟩
    exact ⟨launch _ false rfl, launch _ true rfl, exec_waitValue_decides hq, exec_writeValue_decides hq, exec_fencePacket_decides hq,
      fun _ => exec_indirect_nested hq, exec_indirect_decides hq, rfl, exec_setSeed_decides hq, exec_regionDestroy_decides hq,
      exec_regionCreate_decides hq rfl rfl⟩
  · intro s k f hf
    exact ⟨fun kind met => ⟨exec_waitValueMet_holds hf kind met, exec_waitValueTimeout_early hf kind (.inl met)⟩,
      fun kind met => ⟨exec_waitValueMet_waits hf kind met, fun early => exec_waitValueTimeout_early hf kind (.inr early),
        exec_waitValueTimeout_expired hf kind met⟩,
      fun x kind hq => ⟨exec_regionDestroyComplete_empty hf kind hq, exec_regionDestroyComplete_busy hf hq⟩⟩

end Sys2Proof.Machine
end

section
/-! SUPPORT. The doorbell and QUEUE_DISABLE at a queue that holds a parsed packet (R40, R64, R382): where the statements about them fail. -/

namespace Sys2Proof.Machine

/-- A part whose one queue, in a status, holds a packet that the host has parsed and that may not start yet, as `startParsed` leaves it (R43, R66). -/
def parsedReady (status : Nat) : State :=
  { State.reset with queues := [{ queueOf 0 0 with status := status, parsed := some 0 }] }

/-- The packets that the queues hold parsed in the state that an outcome gives. -/
def parsedAfter : Host.Outcome State Fault Refusal → List (Option (BitVec 512))
  | .next s => s.queues.map (·.parsed)
  | _ => []

/-- Refutes O51: QCTL_DISCARD also drops the packet that the host has parsed for its queue, which the statement's queue keeps. -/
theorem not_tasksAndQueues : ¬ Obligations.TasksAndQueues := by
  unfold Obligations.TasksAndQueues
  intro ⟨_, _, queues⟩
  obtain ⟨_, _, _, _, ⟨discards, _⟩, _⟩ := queues (parsedReady 2) 0 0 _ rfl
  have same := congrArg parsedAfter (discards rfl rfl)
  have dropped : parsedAfter (exec (.qctlDiscard 0) (parsedReady 2)) = [none] := by decide +kernel
  rw [dropped] at same
  revert same
  decide +kernel

/-- Refutes O57: QUEUE_DISABLE also drops the packet that the host has parsed for its queue, which the statement's queue keeps. -/
theorem not_hostCommands : ¬ Obligations.HostCommands := by
  unfold Obligations.HostCommands
  intro ⟨commands, _, _⟩
  obtain ⟨_, _, _, _, _, _, _, _, ⟨disables, _⟩, _⟩ := commands (parsedReady 1) 0
  have same := congrArg parsedAfter (disables (by decide +kernel) ⟨{ queueOf 0 0 with parsed := some 0 }, by decide +kernel, rfl⟩)
  have dropped : parsedAfter (exec (.queueDisable 0) (parsedReady 1)) = [none] := by decide +kernel
  rw [dropped] at same
  revert same
  decide +kernel

end Sys2Proof.Machine
end

section
/-! SUPPORT. Events of nodes and tasks: pre-emption, predicates, pages and watchdogs (R58, R59, R89, R245, R335, R357, R417). -/

namespace Sys2Proof.Machine

/-! ## Pre-emption and predicates (R58, R59, R89, R417) -/

/-- A comparison in the words of R42 and R57. -/
theorem compareOp_iff (op a v : Nat) :
    compareOp op a v = true ↔ (op = 0 ∧ a = v) ∨ (op = 1 ∧ a ≠ v) ∨ (op = 2 ∧ v ≤ a) ∨ (3 ≤ op ∧ a < v) := by
  match op with
  | 0 => simp [compareOp]
  | 1 => simp [compareOp]
  | 2 => simp [compareOp]
  | _ + 3 => simp [compareOp]

section
variable {s : State} {gid i : Nat} {g : Graph} {n : Node}

theorem exec_preempt_eq (hg : s.graph gid = some g) (hn : s.node gid i = some n) :
    exec (.preempt gid i) s = .next (if s.mayPreempt g n then s.preemptFor (s.wantOf g n) else s) := by
  simp only [exec_preempt, execPreempt, hg, hn]

theorem exec_condEval_idle (hg : s.graph gid = some g) (hn : s.node gid i = some n)
    (h : n.kind ≠ 5 ∨ n.status ≠ .ready ∨ s.halted g.ctx g.region = true) : exec (.condEval gid i) s = .next s := by
  rcases h with h | h | h <;> simp [execCondEval, hg, hn, h]

theorem exec_loopEval_idle (hg : s.graph gid = some g) (hn : s.node gid i = some n)
    (h : n.kind ≠ 6 ∨ n.status ≠ .ready ∨ (n.loops = 0 ∧ s.halted g.ctx g.region = true)) : exec (.loopEval gid i) s = .next s := by
  rcases h with h | h | h <;> simp [execLoopEval, hg, hn, h]

/-- A node that is to be evaluated: a COND, or a LOOP that has not begun, whose domain is not halted, or a LOOP that has begun (log 25). -/
def State.Evaluates (s : State) (g : Graph) (n : Node) : Prop :=
  n.status = .ready ∧ ((n.kind = 6 ∧ n.loops ≠ 0) ∨ s.halted g.ctx g.region = false)

theorem exec_condEval_ready (hg : s.graph gid = some g) (hn : s.node gid i = some n) (go : s.Evaluates g n) (kind : n.kind = 5) :
    exec (.condEval gid i) s = .next (s.predicate g n (fun s v => s.condBranch g n (compareOp n.cop v n.cval))) := by
  obtain ⟨ready, begun | open_⟩ := go
  · omega
  · simp [execCondEval, hg, hn, kind, ready, open_]

theorem exec_loopEval_ready (hg : s.graph gid = some g) (hn : s.node gid i = some n) (go : s.Evaluates g n) (kind : n.kind = 6) :
    exec (.loopEval gid i) s = .next (s.predicate g n (fun s v => if v ≠ 0 ∧ n.loops < n.maxit then s.rearm g n else s.retire gid i .retired)) := by
  obtain ⟨ready, begun | open_⟩ := go
  · simp [execLoopEval, hg, hn, kind, ready, begun.2]
  · simp [execLoopEval, hg, hn, kind, ready, open_]

variable {k : State → Nat → State}

theorem State.predicate_asked (h : s.pageAsked (0, g.gid, n.index) = true) : s.predicate g n k = s := by
  simp only [State.predicate, h, if_true]

variable (free : s.pageAsked (0, g.gid, n.index) = false)
include free

section
variable {tr : Trap} (miss : s.translate g.ctx (s.physDie g.die) n.code 8 .read = .error tr)
include miss

theorem State.predicate_waits (comes : s.pageComes (0, g.gid, n.index) g.ctx tr = true) :
    s.predicate g n k = s.askPage (0, g.gid, n.index) g.ctx ((s.physDie g.die).getD 0) g.gid n.code
      (s.missRecord g n.index 0 n.code tr.info) := by
  simp only [State.predicate, free, Bool.false_eq_true, if_false, miss, comes, if_true]

theorem State.predicate_fails (comes : s.pageComes (0, g.gid, n.index) g.ctx tr = false) :
    s.predicate g n k = ((s.endWait (0, g.gid, n.index)).faultNode g.gid n.index 0x10 0 tr.cause n.code tr.info.toNat).settle := by
  simp only [State.predicate, free, Bool.false_eq_true, if_false, miss, comes]

end

section
variable {p : Place} (place : s.translate g.ctx (s.physDie g.die) n.code 8 .read = .ok p)
include place

theorem State.predicate_poisoned (bad : s.poisoned p.key 8 = true) :
    s.predicate g n k = (((s.endWait (0, g.gid, n.index)).logMemory 3 p.key g.region n.index).faultNode g.gid n.index 0x10 0 0x0E n.code 0).settle := by
  simp only [State.predicate, free, Bool.false_eq_true, if_false, place, bad, if_true]

theorem State.predicate_reads (sound : s.poisoned p.key 8 = false) :
    s.predicate g n k =
      (k ((s.endWait (0, g.gid, n.index)).recallForRead p.key 8) (leVal (s.peekBytes p.km p.key 8))).settle := by
  simp only [State.predicate, free, Bool.false_eq_true, if_false, place, sound]

end
end

/-! ## Pages (R66, R245, R335, R358) -/

section
variable {s : State} {who : Nat × Nat × Nat} {ctx die gid : Nat} {va : Word} {r : BitVec 512}

/-- The wait of one that waits for the page of an address. -/
def pageWait (who : Nat × Nat × Nat) (ctx : Nat) (va : Word) : PageWait := { who := who, ctx := ctx, page := va.toNat / 4096, refused := false }

theorem State.askPage_stands (h : s.pageAsked who = true ∨ pageWait who ctx va ∈ s.pageWaits) : s.askPage who ctx die gid va r = s := by
  have stands : (s.pageAsked who || s.pageWaits.contains (pageWait who ctx va)) = true := by
    simpa using h
  exact if_pos stands

/-- A wait begun, in place of earlier ones that are not refused. -/
theorem State.askPage_new (free : s.pageAsked who = false) (new : pageWait who ctx va ∉ s.pageWaits) :
    s.askPage who ctx die gid va r =
      let u := ({ s with pageWaits := s.pageWaits.filter (fun o => o.who != who || o.refused) } : State).countMeld gid r
      if s.port0.duty.getLsbD 2 then u.postRequest 3 die ctx (.page who ctx (4096 * (va.toNat / 4096))) (r.setWidth 896)
      else { u with pageWaits := pageWait who ctx va :: u.pageWaits } := by
  have fresh : ¬(s.pageAsked who || s.pageWaits.contains (pageWait who ctx va)) = true := by
    simpa [free] using new
  exact if_neg fresh

variable {c : Context} {id : BitVec 32} {dw0 dw1 : BitVec 64}

theorem exec_pageArrived_refused (hc : s.context id.toNat = some c) (v : dw0.getLsbD 0 = false) :
    exec (.pageArrived id va dw0 dw1) s = .next (s.refusePage id.toNat (va.toNat / 4096)) := by
  simp only [exec_pageArrived, execPageArrived, hc, v, Bool.not_false, if_true]

theorem exec_pageArrived_written (hc : s.context id.toNat = some c) (v : dw0.getLsbD 0 = true) {a : Nat}
    (ha : s.absentEntry va.toNat 3 c.ptroot = some a) :
    exec (.pageArrived id va dw0 dw1) s =
      let t := s.agentWrite none (memKey 0 a) (bytesOf (dw0.toNat + 2 ^ 64 * dw1.toNat) 16)
      .next (t.wake id.toNat (t.mapped id.toNat)).settle := by
  simp only [exec_pageArrived, execPageArrived, hc, v, Bool.not_true, Bool.false_eq_true, if_false, ha]

theorem exec_pageArrived_mapped (hc : s.context id.toNat = some c) (v : dw0.getLsbD 0 = true) (ha : s.absentEntry va.toNat 3 c.ptroot = none) :
    exec (.pageArrived id va dw0 dw1) s = .next (s.wake id.toNat (s.mapped id.toNat)).settle := by
  simp only [exec_pageArrived, execPageArrived, hc, v, Bool.not_true, Bool.false_eq_true, if_false, ha]

end

/-! ## Watchdogs (R357) -/

section
variable {s : State} {tid : Nat} {t : Task} {due : State → Task → Bool} {p : Task → Party} {trap : Task → Trap}

theorem State.bite_due (ht : s.findTask tid = some t) (h : due s t = true) :
    s.bite tid due p trap =
      ({ (s.onStage tid).enterBlock with cur := p (s.onStage tid).enterBlock.task } : State).takeFault (trap (s.onStage tid).enterBlock.task) := by
  simp only [State.bite, ht, h, Bool.not_true, Bool.false_eq_true, if_false]

theorem State.bite_early (ht : s.findTask tid = some t) (h : due s t = false) : s.bite tid due p trap = s := by
  simp only [State.bite, ht, h, Bool.not_false, if_true]

theorem sumBy_eq {α : Type} (f : α → Nat) (l : List α) : sumBy f l = (l.map f).sum := by
  rw [sumBy, ← List.foldl_map, ← List.sum_eq_foldl]

/-- The time that a task has held a section leaves out its times away since then. -/
theorem Task.heldSince_eq (t : Task) (since now : Nat) : t.heldSince since now =
    now - since - ((t.away.filter (fun p => decide (since ≤ p.1))).map (fun p => p.2 - p.1)).sum := by
  rw [Task.heldSince, sumBy_eq, List.sum_map_ite]
  simp

theorem State.waitDue_iff (s : State) (t : Task) : s.waitDue t = true ↔
    t.status = .running ∧ (s.limitsOf t t.progressAt).wait ≤ t.heldSince t.progressAt s.micros * 1000 := by
  simp only [State.waitDue, reached, Bool.and_eq_true, beq_iff_eq, decide_eq_true_eq]

theorem State.splitDue_iff (s : State) (t : Task) : s.splitDue t = true ↔
    t.status = .running ∧ ∃ sp, t.split = some sp ∧ (s.limitsOf t sp.since).split ≤ t.heldSince sp.since s.micros * 1000 := by
  simp only [State.splitDue, reached, Bool.and_eq_true, beq_iff_eq]
  cases t.split <;> simp

theorem State.runDue_iff (s : State) (t : Task) : s.runDue t = true ↔ t.status = .running ∧ (s.limitsOf t t.startAt).run ≠ 0 ∧
    (s.limitsOf t t.startAt).run ≤ (t.runTime + (s.micros - t.runSince)) * 1000 := by
  simp only [State.runDue, reached, Bool.and_eq_true, beq_iff_eq, bne_iff_ne, ne_eq, decide_eq_true_eq, and_assoc]

end

/-- Settles O53: a node evaluated as its predicate's word is found, a page wait begun or standing, a page that arrives, and a watchdog that
bites where its limit has passed. -/
theorem nodeAndPageEvents : Obligations.NodeAndPageEvents := by
  unfold Obligations.NodeAndPageEvents
  refine ⟨?_, ?_, ?_, ?_, ?_⟩
  · intro s gid i g n hg hn
    have cond := fun go kind => exec_condEval_ready hg hn go kind
    have loop := fun go kind => exec_loopEval_ready hg hn go kind
    have both_of : ∀ {t : State}, s.Evaluates g n → (∀ k, s.predicate g n k = t) →
        (n.kind = 5 → exec (.condEval gid i) s = .next t) ∧ (n.kind = 6 → exec (.loopEval gid i) s = .next t) :=
      fun go same => ⟨fun kind => by rw [cond go kind, same], fun kind => by rw [loop go kind, same]⟩
    refine ⟨fun may => ?_, fun mayNot => ?_, exec_condEval_idle hg hn, exec_loopEval_idle hg hn, ?_⟩
    · rw [exec_preempt_eq hg hn, if_pos may]
    · rw [exec_preempt_eq hg hn, if_neg (by rw [mayNot]; exact Bool.false_ne_true)]
    · intro who go u both
      refine ⟨fun ready asked => both_of ready fun k => State.predicate_asked asked,
        fun ready free tr miss => ⟨fun comes => both_of ready fun k => State.predicate_waits free miss comes,
          fun comes => both_of ready fun k => State.predicate_fails free miss comes⟩,
        fun ready free p place => ?_⟩
      intro v u1 holds
      have compares : compareOp n.cop v n.cval = true ↔ holds := compareOp_iff _ _ _
      refine ⟨fun sound => ⟨fun kind yes => ?_, fun kind no => ?_, fun kind more left => ?_, fun kind done => ?_⟩,
        fun bad => both_of ready fun k => State.predicate_poisoned free place bad⟩
      · rw [cond ready kind, State.predicate_reads free place sound, compares.mpr yes]
      · rw [cond ready kind, State.predicate_reads free place sound, Bool.eq_false_iff.mpr (fun y => no (compares.mp y))]
      · rw [loop ready kind, State.predicate_reads free place sound, if_pos ⟨more, left⟩]
      · rw [loop ready kind, State.predicate_reads free place sound, if_neg (fun y => done.elim y.1 (Nat.not_le.mpr y.2))]
  · intro s who ctx die gid va r w u
    refine ⟨State.askPage_stands, fun free new => ⟨fun host => ?_, fun own => ?_⟩⟩ <;> rw [State.askPage_new free new]
    · exact if_pos host
    · exact if_neg (by rw [own]; exact Bool.false_ne_true)
  · intro s ctx va dw0 dw1 c hc
    exact ⟨exec_pageArrived_refused hc, fun v a => exec_pageArrived_written hc v, exec_pageArrived_mapped hc⟩
  · intro s tid t ht u
    refine ⟨fun due => ?_, fun early => ?_, fun due => ?_, fun early => ?_, fun due b sp hb hs => ?_, fun early => ?_⟩
    · rw [exec_waitWatchdog, execWaitWatchdog, State.bite_due ht due]
    · rw [exec_waitWatchdog, execWaitWatchdog, State.bite_early ht early]
    · rw [exec_runWatchdog, execRunWatchdog, State.bite_due ht due]
    · rw [exec_runWatchdog, execRunWatchdog, State.bite_early ht early]
    · rw [exec_splitWatchdog, execSplitWatchdog, State.bite_due ht due, hb, hs]
    · rw [exec_splitWatchdog, execSplitWatchdog, State.bite_early ht early]
  · intro s t
    exact ⟨t.heldSince_eq, s.waitDue_iff t, s.splitDue_iff t, s.runDue_iff t⟩

end Sys2Proof.Machine
end

section
/-! SUPPORT. Accesses from outside: registers of BAR0 and BAR4, BAR2 windows, peers and CXL.mem (R65, R375 to R378, R385, R394, R395). -/

namespace Sys2Proof.Machine

/-! ## Registers (R65, R375, R376, R378, R394) -/

section
variable {s : State} {v : BitVec 64}

/-- Until stage 4 BAR0 ignores writes (R394). -/
theorem State.onPort_early (h : s.boot.stage ≠ 4) (f : Port0 → Port0) : s.onPort f = s := if_neg h

theorem State.onPort_ready (h : s.boot.stage = 4) (f : Port0 → Port0) : s.onPort f = { s with port0 := f s.port0 } := if_pos h

theorem State.writeQtbase_early (h : s.boot.stage ≠ 4) : s.writeQtbase v = s := by
  rw [State.writeQtbase, State.onPort_early h, ite_self]

theorem State.writePortcfg_early (h : s.boot.stage ≠ 4) : s.writePortcfg v = s := by
  rw [State.writePortcfg, State.onPort_early h, ite_self]

theorem State.writeQtbase_free (h : s.boot.stage = 4) (free : s.queues = []) :
    s.writeQtbase v = { s with port0 := { s.port0 with qtbase := v.toNat } } := by
  rw [State.writeQtbase, if_pos (by rw [free]; rfl), State.onPort_ready h]

theorem State.writeQtbase_held (held : s.queues ≠ []) : s.writeQtbase v = s := by
  rw [State.writeQtbase, if_neg (by simpa using held)]

theorem State.writePortcfg_free (h : s.boot.stage = 4) (cxl : s.port0.cxl = true) (free : s.contexts = []) :
    s.writePortcfg v = { s with port0 := { s.port0 with coh := v.getLsbD 1 } } := by
  rw [State.writePortcfg, if_pos (by rw [cxl, free]; rfl), State.onPort_ready h]

theorem State.writePortcfg_held (h : s.port0.cxl = false ∨ s.contexts ≠ []) : s.writePortcfg v = s := by
  rw [State.writePortcfg, if_neg]
  rcases h with h | h <;> simp [h]

/-- A write to a ring's control by its en bit (R376). -/
theorem Ring.control_eq (r : Ring) (v : BitVec 64) : r.control v =
    if r.en then { r with en := v.getLsbD 0 }
    else { r with en := v.getLsbD 0 && decide (4 ≤ fieldN v 1 5 ∧ fieldN v 1 5 ≤ 16), lsize := fieldN v 1 5, msix := fieldN v 16 11 } := by
  obtain ⟨base, en, lsize, msix, wr, rd⟩ := r
  cases en
  · simp [Ring.control, Bool.and_assoc]
  · cases h : v.getLsbD 0 <;> simp only [Ring.control, h, if_true, Bool.false_eq_true, if_false]

/-- A write to BAR0 before stage 4. -/
theorem exec_registerWrite_early (h : s.boot.stage ≠ 4) (off n : Nat) : exec (.registerWrite .bar0 off n v) s = .next s := if_pos h

/-- An aligned 8-byte write to a register of the firmware page. -/
theorem exec_registerWrite_firmware (h : s.boot.stage = 4) {off : Nat} (page : off < 0x1000) (whole : off % 8 = 0) :
    exec (.registerWrite .bar0 off 8 v) s = .next (s.firmwareWrite off v) := by
  have noVector : ¬(0x20000 ≤ off ∧ off + 8 ≤ 0x28000) := by omega
  simp only [exec_registerWrite, execRegisterWrite, State.bar0Write, h, ne_eq, not_true_eq_false, if_false, if_neg noVector, whole, page, if_true,
    beq_self_eq_true, Bool.and_self, Bool.not_true, Bool.false_eq_true]

/-- A write outside the vectors that is no aligned 8-byte access, or outside the layout of BAR0. -/
theorem exec_registerWrite_outside {off n : Nat}
    (h : (n ≠ 8 ∨ off % 8 ≠ 0) ∨ ¬(off < 0x1000 ∨ (0x12000 ≤ off ∧ off < 0x13000) ∨ (0x100000 ≤ off ∧ off < 0x1100000)))
    (noVector : ¬(0x20000 ≤ off ∧ off + n ≤ 0x28000)) : exec (.registerWrite .bar0 off n v) s = .next s := by
  simp only [exec_registerWrite, execRegisterWrite, State.bar0Write, if_neg noVector]
  split
  · rfl
  · split
    · rfl
    · rename_i whole
      have aligned : n = 8 ∧ off % 8 = 0 := by simpa using whole
      rw [if_neg (by omega), if_neg (by omega), if_neg (by omega)]

theorem exec_registerWrite_mailbox {off n : Nat} (h : n ≠ 8 ∨ off % 8 ≠ 0 ∨ off < 0x08 ∨ 0x40 ≤ off) :
    exec (.registerWrite .bar4 off n v) s = .next s := by
  simp only [exec_registerWrite, execRegisterWrite, State.mailboxWrite]
  split
  · rw [if_neg (by omega), if_neg (by omega), if_neg (by omega), if_neg (by omega)]
  · rfl

end

/-! ## Reads of BAR0 and BAR4 (R375, R395) -/

theorem readDwords_aligned (dword : Nat → Nat) {off : Nat} (h : off % 8 = 0) : readDwords dword off 8 = bytesOf (dword off) 8 := by
  have last : ceilDiv (off + 8) 8 = off / 8 + 1 := by
    rw [ceilDiv]
    omega
  have one : rangeFrom (off / 8) (off / 8 + 1) = [off / 8] := by
    simp [rangeFrom]
  have start : 8 * (off / 8) = off := by omega
  rw [readDwords, last, one, h]
  simp [start, List.take_of_length_le]

section
variable {s : State} {off : Nat}

theorem State.hostRead_early (h : s.boot.stage ≠ 4) : s.hostRead 0 off 8 = s.answer (bytesOf 0 8) none := by
  simp [State.hostRead, h]
  rfl

theorem State.hostRead_bar0 (h : s.boot.stage = 4) (whole : off % 8 = 0) :
    s.hostRead 0 off 8 = s.answer (bytesOf (s.bar0Dword off) 8) none := by
  simp [State.hostRead, h, whole, readDwords_aligned s.bar0Dword whole]

theorem State.hostRead_bar4 (whole : off % 8 = 0) : s.hostRead 4 off 8 = s.answer (bytesOf (s.mailboxDword off) 8) none := by
  simp [State.hostRead, whole, readDwords_aligned s.mailboxDword whole]

variable (s) {k : Nat}

theorem State.bar0Dword_table (h : k < 512) : s.bar0Dword (0x10000 + 8 * k) = leVal ((s.enumTable.drop (8 * k)).take 8) := by
  rw [State.bar0Dword, if_neg (by omega), if_pos (by omega), Nat.add_sub_cancel_left]

theorem State.bar0Dword_formed (h : k < 8) : s.bar0Dword (0x11000 + 0x100 * k) = (s.die k).formed.toNat := by
  have die : (0x11000 + 0x100 * k - 0x11000) / 0x100 = k := by omega
  have first : (0x11000 + 0x100 * k) % 0x100 = 0 := by omega
  rw [State.bar0Dword, if_neg (by omega), if_neg (by omega), if_pos (by omega), die, first]
  rfl

theorem State.bar0Dword_overlaps (h : k < 8) : s.bar0Dword (0x11800 + 16 * k) = (s.die k).overlaps.toNat := by
  have die : (0x11800 + 16 * k - 0x11800) / 16 = k := by omega
  rw [State.bar0Dword, if_neg (by omega), if_neg (by omega), if_neg (by omega), if_pos (by omega), die]
  exact if_pos (by omega)

theorem State.bar0Dword_strictFaults (h : k < 8) : s.bar0Dword (0x11808 + 16 * k) = (s.die k).strictFaults.toNat := by
  have die : (0x11808 + 16 * k - 0x11800) / 16 = k := by omega
  rw [State.bar0Dword, if_neg (by omega), if_neg (by omega), if_neg (by omega), if_pos (by omega), die]
  exact if_neg (by omega)

theorem State.mailboxDword_report (h : k < 512) : s.mailboxDword (0x1000 + 8 * k) = leVal ((s.boot.mbreport.drop (8 * k)).take 8) := by
  simp only [State.mailboxDword]
  rw [if_neg (by omega), if_neg (by omega), if_neg (by omega), if_neg (by omega), if_neg (by omega), if_pos (by omega), Nat.add_sub_cancel_left]

end

/-! ## Accesses at the home slices (R37, R371, R377) -/

section
variable {s : State} {exits : List Nat} {keyid pa n index : Nat} {bs : List Byte}

theorem State.serves_iff (s : State) (exits : List Nat) (pa n : Nat) : s.serves exits pa n = true ↔
    ∃ d, s.homeDie pa = some d ∧ (n = 0 ∨ s.homeDie (pa + n - 1) = some d) ∧ s.exitCause d exits = none := by
  cases home : s.homeDie pa <;> simp [State.serves, State.inRange, State.wayIn, home]

theorem State.sliceRead_served (h : s.serves exits pa n = true) : s.sliceRead exits keyid pa n index =
    s.answer ((List.range n).map (fun i => s.readPlain (s.keyMaterial keyid) (memKey 0 (pa + i)))) none := if_pos h

theorem State.sliceRead_missed (h : s.serves exits pa n = false) : s.sliceRead exits keyid pa n index = s.missAccess n index := by
  rw [State.sliceRead, if_neg (by rw [h]; exact Bool.false_ne_true)]

/-- Whether a write meets a mutable half. -/
theorem State.anyInMutable_iff (s : State) (pa : Nat) (bs : List Byte) :
    (bs.mapIdx (fun i b => (memKey 0 (pa + i), b))).any (fun c => s.inMutable c.1) = true ↔
      ∃ i, i < bs.length ∧ s.inMutable (memKey 0 (pa + i)) = true := by
  simp only [List.any_eq_true, List.mem_mapIdx]
  constructor
  · rintro ⟨_, ⟨i, len, rfl⟩, hit⟩
    exact ⟨i, len, hit⟩
  · rintro ⟨i, len, hit⟩
    exact ⟨_, ⟨i, len, rfl⟩, hit⟩

theorem State.sliceWrite_plain (h : s.serves exits pa bs.length = true) (clear : ∀ i, i < bs.length → s.inMutable (memKey 0 (pa + i)) = false) :
    s.sliceWrite exits keyid pa bs index = (s.agentWrite (s.keyMaterial keyid) (memKey 0 pa) bs).answer [] none := by
  have noHalf : ¬(bs.mapIdx (fun i b => (memKey 0 (pa + i), b))).any (fun c => s.inMutable c.1) = true := by
    rw [State.anyInMutable_iff]
    exact fun ⟨i, len, hit⟩ => Bool.false_ne_true ((clear i len).symm.trans hit)
  simp only [State.sliceWrite, h, Bool.not_true, Bool.false_eq_true, if_false]
  rw [if_neg noHalf]

/-- A write that meets a mutable half: the other bytes are stored, and the attempt is logged (R37). -/
theorem State.sliceWrite_mutable (h : s.serves exits pa bs.length = true) (hit : ∃ i, i < bs.length ∧ s.inMutable (memKey 0 (pa + i)) = true) :
    s.sliceWrite exits keyid pa bs index =
      let cells := bs.mapIdx (fun i b => (memKey 0 (pa + i), b))
      let others := (cells.filter (fun c => !s.inMutable c.1)).foldl (fun u c => u.agentWrite (s.keyMaterial keyid) c.1 [c.2]) s
      (others.logAttempts (cells.filterMap (fun c => s.mutableAt c.1))).answer [] none := by
  simp only [State.sliceWrite, h, Bool.not_true, Bool.false_eq_true, if_false]
  rw [if_pos ((s.anyInMutable_iff pa bs).mpr hit)]

end

/-! ## BAR2 (R377) -/

section
variable {s : State} {off n : Nat} {bs : List Byte}

theorem exec_bar2_early (h : s.boot.stage ≠ 4) : exec (.bar2Write off bs) s = .next s ∧
    exec (.bar2Read off n) s = .next (s.answer (List.replicate n 0xFF) none) := ⟨if_pos h, if_pos h⟩

theorem State.bar2Window_enabled {w : BarWindow} (hw : s.port0.bar2[off / 2 ^ 32]? = some w) (en : w.en = true) :
    s.bar2Window off = some (w, w.pbase * 2 ^ 32 + off % 2 ^ 32) := by
  simp only [State.bar2Window, hw, en, if_true]

theorem State.bar2Window_disabled (h : ∀ w, s.port0.bar2[off / 2 ^ 32]? = some w → w.en = false) : s.bar2Window off = none := by
  unfold State.bar2Window
  split
  · rw [if_neg (by rw [h _ ‹_›]; exact Bool.false_ne_true)]
  · rfl

variable (h : s.boot.stage = 4)
include h

theorem exec_bar2Read_hit {w : BarWindow} {pa : Nat} (hit : s.bar2Window off = some (w, pa)) :
    exec (.bar2Read off n) s = .next (s.sliceRead westExits w.keyid pa n off) := by
  simp only [exec_bar2Read, execBar2Read, h, hit, ne_eq, not_true_eq_false, if_false]

theorem exec_bar2Write_hit {w : BarWindow} {pa : Nat} (hit : s.bar2Window off = some (w, pa)) :
    exec (.bar2Write off bs) s = .next (s.sliceWrite westExits w.keyid pa bs off) := by
  simp only [exec_bar2Write, execBar2Write, h, hit, ne_eq, not_true_eq_false, if_false]

theorem exec_bar2Read_miss (miss : s.bar2Window off = none) : exec (.bar2Read off n) s = .next (s.missAccess n off) := by
  simp only [exec_bar2Read, execBar2Read, h, miss, ne_eq, not_true_eq_false, if_false]

theorem exec_bar2Write_miss (miss : s.bar2Window off = none) : exec (.bar2Write off bs) s = .next (s.missAccess 0 off) := by
  simp only [exec_bar2Write, execBar2Write, h, miss, ne_eq, not_true_eq_false, if_false]

end

/-! ## Peers and CXL.mem (R378, R385) -/

section
variable {s : State} {src : BitVec 16} {a : Nat} {req : Transfer}

theorem exec_peerInboundRequest_refused (h : s.boot.stage ≠ 4 ∨ ∀ w ∈ s.port0.inbound.toList, w.admits src a req = false) :
    exec (.peerInboundRequest src a req) s = .next (s.answer [] (some 0x06)) := by
  have no : (if s.boot.stage = 4 then s.port0.inbound.toList.find? (fun w => w.admits src a req) else none) = none := by
    rcases h with early | closed
    · exact if_neg early
    · rw [List.find?_eq_none.mpr (fun w hw => by rw [closed w hw]; exact Bool.false_ne_true), ite_self]
  simp only [exec_peerInboundRequest, execPeerInboundRequest, no]

section
variable (h : s.boot.stage = 4) {w : InboundWindow} (hw : s.port0.inbound.toList.find? (fun w => w.admits src a req) = some w)
include h hw

/-- A request whose home die cannot be reached from the I/O die that brings it (R354, R371). -/
theorem exec_peerInboundRequest_lost {d cause : Nat} (home : s.homeDie a = some d) (way : s.exitCause d s.inboundExits = some cause) :
    exec (.peerInboundRequest src a req) s = .next (s.answer [] (some cause)) := by
  simp only [exec_peerInboundRequest, execPeerInboundRequest, h, if_true, hw, State.wayIn, home, Option.bind_some, way]

theorem exec_peerInboundRequest_served (way : ∀ d, s.homeDie a = some d → s.exitCause d s.inboundExits = none) :
    exec (.peerInboundRequest src a req) s = .next (s.sliceAccess s.inboundExits w.keyid a req a) := by
  have whole : s.wayIn s.inboundExits a = none := Option.bind_eq_none_iff.mpr way
  simp only [exec_peerInboundRequest, execPeerInboundRequest, h, if_true, hw, whole]

end

theorem exec_cxlMemRequest_refused (h : s.boot.stage ≠ 4 ∨ s.port0.cxl = false) :
    exec (.cxlMemRequest a req) s = .next (s.answer [] (some 0x06)) := by
  exact if_pos (h.imp_right (by simp))

variable (h : s.boot.stage = 4) (cxl : s.port0.cxl = true)
include h cxl

theorem exec_cxlMemRequest_plain (coh : s.port0.coh = false) :
    exec (.cxlMemRequest a req) s = .next (s.sliceAccess westExits 0 a req a) := by
  exact (if_neg (by simp [h, cxl])).trans (if_pos (by simp [coh]))

theorem exec_cxlMemRequest_write (coh : s.port0.coh = true) (bs : List Byte) :
    exec (.cxlMemRequest a (.write bs)) s = .next (s.sliceWrite westExits 0 a bs a) := by
  exact (if_neg (by simp [h, cxl])).trans (if_neg (by simp [coh]))

theorem exec_cxlMemRequest_read (coh : s.port0.coh = true) {n : Nat} (served : s.serves westExits a n = true) :
    exec (.cxlMemRequest a (.read n)) s =
      .next ((s.recallForRead (memKey 0 a) n).answer ((s.recallForRead (memKey 0 a) n).peekBytes none (memKey 0 a) n) none) := by
  exact ((if_neg (by simp [h, cxl])).trans (if_neg (by simp [coh]))).trans (if_pos served)

end

/-- Settles O58: writes and reads of the registers, BAR2 windows, peers and CXL.mem, and the accesses at the home slices that they come to. -/
theorem outsideAccesses : Obligations.OutsideAccesses := by
  unfold Obligations.OutsideAccesses
  refine ⟨?_, ?_, ?_, fun s exits keyid pa index bs => State.sliceWrite_mutable, State.serves_iff⟩
  · intro s v ring off n bs
    refine ⟨fun early => ?_, fun ready => ?_, fun outside noVector => exec_registerWrite_outside outside noVector, exec_registerWrite_mailbox⟩
    · have ignored : ∀ f, s.onPort f = s := State.onPort_early early
      refine ⟨congrArg _ (ignored _), congrArg _ (ignored _), congrArg _ (State.writeQtbase_early early),
        congrArg _ (State.writePortcfg_early early), exec_registerWrite_early early off n, exec_bar2_early early⟩
    · have register := fun off page whole => exec_registerWrite_firmware (v := v) ready (off := off) page whole
      refine ⟨congrArg _ (State.onPort_ready ready _), register _ (by decide) (by decide), register _ (by decide) (by decide),
        register _ (by decide) (by decide), register _ (by decide) (by decide), register _ (by decide) (by decide),
        register _ (by decide) (by decide), ?_, fun free => congrArg _ (State.writeQtbase_free ready free),
        fun held => congrArg _ (State.writeQtbase_held held), fun cxl free => congrArg _ (State.writePortcfg_free ready cxl free),
        fun held => congrArg _ (State.writePortcfg_held held), fun w hw en => ?_, fun closed => ?_⟩
      · rw [exec_ringControlWrite, execRingControlWrite, State.onPort_ready ready, funext (fun r => Ring.control_eq r v)]
      · intro pa km
        have hit := State.bar2Window_enabled hw en
        refine ⟨fun served => ?_, fun served clear => ?_, fun missed => ?_⟩
        · rw [exec_bar2Read_hit ready hit, State.sliceRead_served served]
          rfl
        · rw [exec_bar2Write_hit ready hit, State.sliceWrite_plain served clear]
        · rw [exec_bar2Read_hit ready hit, State.sliceRead_missed missed]
          rfl
      · have miss := State.bar2Window_disabled closed
        exact ⟨exec_bar2Read_miss ready miss, exec_bar2Write_miss ready miss⟩
  · intro s off k returns
    refine ⟨State.hostRead_early, fun ready => ?_, State.hostRead_bar4 (by decide), State.hostRead_bar4 (by decide), fun hk => ?_⟩
    · have read : ∀ off n, off % 8 = 0 → s.bar0Dword off = n → returns 0 off 8 n := fun off n whole value => by
        subst value
        exact State.hostRead_bar0 ready whole
      exact ⟨read _ _ (by decide) rfl, read _ _ (by decide) rfl, read _ _ (by decide) rfl, read _ _ (by decide) rfl, read _ _ (by decide) rfl,
        fun hk => read _ _ (by omega) (s.bar0Dword_table hk),
        fun hk => ⟨read _ _ (by omega) (s.bar0Dword_formed hk), read _ _ (by omega) (s.bar0Dword_overlaps hk),
          read _ _ (by omega) (s.bar0Dword_strictFaults hk)⟩, read _ _ (by decide) rfl⟩
    · have report := State.hostRead_bar4 (s := s) (off := 0x1000 + 8 * k) (by omega)
      rw [s.mailboxDword_report hk] at report
      exact report
  · intro s src a n bs refused
    refine ⟨exec_peerInboundRequest_refused, exec_peerInboundRequest_refused, fun ready => ?_,
      fun closed => ⟨exec_cxlMemRequest_refused closed, exec_cxlMemRequest_refused closed⟩,
      fun ready cxl coh => ⟨exec_cxlMemRequest_plain ready cxl coh, exec_cxlMemRequest_plain ready cxl coh⟩, fun ready cxl coh => ?_⟩
    · intro from_ lost whole
      exact ⟨fun w hw => ⟨fun d cause home way => exec_peerInboundRequest_lost ready hw home way, exec_peerInboundRequest_served ready hw⟩,
        fun w hw => ⟨fun d cause home way => exec_peerInboundRequest_lost ready hw home way, exec_peerInboundRequest_served ready hw⟩⟩
    · have write := exec_cxlMemRequest_write (a := a) ready cxl coh bs
      refine ⟨exec_cxlMemRequest_read ready cxl coh, fun served clear => ?_, write⟩
      rw [write, State.sliceWrite_plain served clear]
      rfl

end Sys2Proof.Machine
end

section
/-! SUPPORT. Service actions: what the steps of an action do, when its timeout has passed, and the switch of a firmware update (R77, R368 to
R372, R396, R397). -/

namespace Sys2Proof.Machine

/-! ## Sections changed (R77, R369, R370) -/

section
variable (s : State) (f : Sect → Sect) (m : Nat)

theorem State.modSect_sect (n : Nat) : (s.modSect n f).sect m = (s.sect m).map (fun x => if m = n then f x else x) :=
  List.getElem?_mapIdx

@[simp] theorem State.modDie_sect (p : Nat) (g : Die → Die) : (s.modDie p g).sect m = s.sect m := rfl

@[simp] theorem State.updateTable_sect (g : State → State) : (s.updateTable g).sect m = (g s).sect m := rfl

@[simp] theorem State.updateTable_epoch (g : State → State) : (s.updateTable g).epoch = s.epoch + 2 := rfl

/-- A change that makes no difference the second time, made to each section of a list that may name one twice. -/
theorem State.foldl_modSect_sect (once : ∀ x, f (f x) = f x) (l : List Nat) :
    (l.foldl (fun s n => s.modSect n f) s).sect m = (s.sect m).map (fun x => if m ∈ l then f x else x) := by
  induction l generalizing s with
  | nil => simp
  | cons n l ih =>
    have twice (x : Sect) : (if m ∈ l then f (if m = n then f x else x) else (if m = n then f x else x)) =
        if m ∈ n :: l then f x else x := by
      by_cases here : m = n <;> by_cases later : m ∈ l <;> simp [here, later, once]
    rw [List.foldl_cons, ih, State.modSect_sect, Option.map_map]
    exact congrArg (fun g => (s.sect m).map g) (funext twice)

end

theorem fieldN_one {w : Nat} (b : BitVec w) (i : Nat) : fieldN b i 1 = 1 ↔ b.getLsbD i = true := by
  have bit : b.extractLsb' i 1 = BitVec.ofBool (b.getLsbD i) := by
    ext j hj
    obtain rfl : j = 0 := by omega
    simp
  rw [fieldN, bit, BitVec.toNat_ofBool]
  cases b.getLsbD i <;> decide

/-- The sections that an action moves are those whose bits are set in its mask (R370). -/
theorem Action.mem_sections {a : Action} (move : a.code ≠ 1) (n : Nat) : n ∈ a.sections ↔ n < 128 ∧ fieldN a.cmd (192 + n) 1 = 1 := by
  rw [Action.sections, if_neg move, List.mem_filter, List.mem_range, fieldN_one, Action.mask, BitVec.getLsbD_extractLsb',
    Bool.and_eq_true, decide_eq_true_iff]
  exact and_congr_right fun h => and_iff_right h

/-! ## What an action waits for (R369) -/

section
variable (s : State)

theorem State.movable_iff (t : Task) : s.movable t = true ↔
    t.status = .running ∧ s.isMigratable t.id.ctx t.id.region = true ∧ s.poolHolds t = true := by
  rw [State.movable, Bool.and_eq_true, Bool.and_eq_true, beq_iff_eq, and_assoc]

theorem State.actionWaits_iff (a : Action) : s.actionWaits a = true ↔
    s.actionEngines a = true ∨ ∃ t ∈ s.actionTasks a, s.movable t = false := by
  simp only [State.actionWaits, Bool.or_eq_true, List.any_eq_true, Bool.not_eq_true']

theorem State.actionWaits_empty {a : Action} (tasks : s.actionTasks a = []) (engines : s.actionEngines a = false) :
    s.actionWaits a = false := by
  rw [State.actionWaits, tasks, engines, List.any_nil, Bool.or_false]

theorem State.actionLate_iff : s.actionLate = true ↔
    ∃ a, s.action = some a ∧ a.code ≤ 2 ∧ a.step = 2 ∧ a.approved = true ∧ a.deadline ≤ s.micros ∧
      (s.actionEngines a = true ∨ ∃ t ∈ s.actionTasks a, s.movable t = false) := by
  unfold State.actionLate
  cases s.action with
  | none => simp
  | some a => simp [State.actionWaits_iff, and_assoc]

end

/-! ## The steps of an action (R369 to R371) -/

section
variable {s : State} {a : Action}

theorem State.actionStep_linkDown {l : Link} (down : a.code = 3) (hl : s.logicalLink a.target = some l) (k : Nat) :
    s.actionStep a k = .done (s.updateTable (fun s => s.modLink l.phys (fun l => { l with state := 1, replays := 0 }))) := by
  simp only [State.actionStep, down, hl]

theorem State.actionStep_linkUp {l : Link} (up : a.code = 4) (hl : s.logicalLink a.target = some l) (k : Nat) :
    s.actionStep a k =
      .done (s.updateTable (fun s => s.modLink l.phys (fun l => { l with state := 0, failed := false, replays := 0 }))) := by
  simp only [State.actionStep, up, hl]

section
variable (h : a.code = 1 ∨ a.code = 2)
include h

theorem State.actionStep_close : s.actionStep a 1 = .more (s.closeSections a) := by
  rcases h with remove | move
  · simp only [State.actionStep, remove]
  · simp only [State.actionStep, move]

theorem State.actionStep_two : s.actionStep a 2 =
    if a.timeout = 0 ∧ s.actionWaits a then .refused
    else
      let asked := (s.actionTasks a).filter (fun t => s.movable t && t.stopAsked.isNone)
      let s1 := asked.foldl (fun s t => s.modTask t.id.tid (fun t => { t with stopAsked := some 4 })) s
      if (s1.actionTasks a).isEmpty && !s1.actionEngines a then .more s1 else .wait s1 := by
  rcases h with remove | move
  · simp only [State.actionStep, remove]
  · simp only [State.actionStep, move]

theorem State.actionStep_refused (now : a.timeout = 0) (waits : s.actionWaits a = true) : s.actionStep a 2 = .refused := by
  rw [State.actionStep_two h, if_pos ⟨now, waits⟩]

theorem State.actionStep_emptied (tasks : s.actionTasks a = []) (engines : s.actionEngines a = false) : s.actionStep a 2 = .more s := by
  have waits : ¬(a.timeout = 0 ∧ s.actionWaits a = true) := fun w => by
    rw [s.actionWaits_empty tasks engines] at w
    exact Bool.false_ne_true w.2
  rw [State.actionStep_two h, if_neg waits]
  simp [tasks, engines]

end

theorem State.actionStep_flush (remove : a.code = 1) : s.actionStep a 3 = .more (s.flushLines (fun l => l.section_ == a.target)) := by
  simp only [State.actionStep, remove]

/-- The last step of a removal (R77, R369): one update of the table, which takes the section off line. -/
theorem State.actionStep_remove {x : Sect} (remove : a.code = 1) (hx : s.sect a.target = some x) : s.actionStep a 4 =
    .done (s.updateTable (fun s => (s.modSect a.target (fun x => { x with offline := true })).modDie x.pdie
      (fun d => { d with soff := d.soff ||| (1#16 <<< x.psect) }))) := by
  simp only [State.actionStep, remove, State.updateTable, hx]

/-- The last step of a move (R77, R370): one update of the table, which gives every section of the action to its partition. -/
theorem State.actionStep_move (move : a.code = 2) : s.actionStep a 3 =
    .done (s.updateTable (fun s => a.sections.foldl (fun s n => s.modSect n (fun x => { x with part := some a.to_ })) s)) := by
  simp only [State.actionStep, move]

end

/-! ## The switch of a firmware update (R372, R396, R397) -/

/-- What a firmware switch that completes makes of the boot state (R372, R396, R397). -/
def Boot.switched (b : Boot) (k : Nat) (i : Image) : Boot :=
  { b.measure i with
    updates := b.updates.filter (fun u => u.1 != k)
    flash := mapIf (fun (o : Image) => o.kind == i.kind) (fun _ => i) b.flash
    fused := b.fused.setIfInBounds i.kind (max i.svn ((b.fused[i.kind]?).getD 0)) }

theorem Boot.switched_fused (b : Boot) (k : Nat) {i : Image} (h : i.kind < 4) :
    (b.switched k i).fused[i.kind]? = some (max i.svn ((b.fused[i.kind]?).getD 0)) :=
  Vector.getElem?_setIfInBounds_self_of_lt h

section
variable {s : State} {k : Nat}

theorem State.switching_iff : s.switching k = true ↔
    ∃ a, s.action = some a ∧ a.code = 5 ∧ a.target = k ∧ a.step = 2 ∧ a.approved = true := by
  unfold State.switching
  cases s.action with
  | none => simp
  | some a => simp [and_assoc]

theorem exec_firmwareSwitchComplete_taken {u : Nat × Image} (h : s.switching k = true)
    (hu : s.boot.updates.find? (fun u => u.1 == k) = some u) :
    exec (.firmwareSwitchComplete k) s = .next (s.onBoot (fun b => b.switched k u.2)).continueActions := by
  simp only [exec_firmwareSwitchComplete, execFirmwareSwitchComplete, h, hu]
  rfl

theorem exec_firmwareSwitchComplete_ignored (h : s.switching k = false ∨ s.boot.updates.find? (fun u => u.1 == k) = none) :
    exec (.firmwareSwitchComplete k) s = .next s := by
  rw [exec_firmwareSwitchComplete, execFirmwareSwitchComplete]
  split
  · rename_i on found
    rcases h with off | absent
    · exact absurd (on.symm.trans off) Bool.noConfusion
    · exact nomatch found.symm.trans absent
  · rfl

end

/-- Settles O56: an action is queued, and its steps, its deadline and the switch of an update are those of R369 to R372. -/
theorem serviceActions : Obligations.ServiceActions := by
  unfold Obligations.ServiceActions
  refine ⟨fun s e => ⟨rfl, rfl, rfl, rfl, rfl⟩, ?_, ?_, ?_, ?_, ?_, State.movable_iff, ?_, ?_⟩
  · exact fun s a l hl => ⟨fun down => State.actionStep_linkDown down hl 1, fun up => State.actionStep_linkUp up hl 1⟩
  · intro s a x hx remove
    refine ⟨State.actionStep_close (.inl remove), State.actionStep_emptied (.inl remove), State.actionStep_flush remove,
      _, State.actionStep_remove remove hx, State.updateTable_epoch _ _, ?_⟩
    rw [State.updateTable_sect, State.modDie_sect, State.modSect_sect, hx]
    exact congrArg some (congrArg Sect.offline (if_pos rfl))
  · intro s a move
    refine ⟨State.actionStep_close (.inr move), State.actionStep_emptied (.inr move),
      _, State.actionStep_move move, State.updateTable_epoch _ _, fun n small named x hx => ?_⟩
    have mine : n ∈ a.sections := (Action.mem_sections (by omega) n).mpr ⟨small, named⟩
    rw [State.updateTable_sect, State.foldl_modSect_sect _ (fun x => { x with part := some a.to_ }) _ (fun x => rfl),
      Option.map_eq_some_iff] at hx
    obtain ⟨y, -, rfl⟩ := hx
    rw [if_pos mine]
    rfl
  · intro s late status
    rw [exec_serviceActionTimeout, execServiceActionTimeout]
    exact ⟨fun passed => by rw [if_pos (s.actionLate_iff.mpr passed)]; rfl, fun early => by rw [if_neg (mt s.actionLate_iff.mp early)]⟩
  · exact fun s a h now left => State.actionStep_refused h now ((s.actionWaits_iff a).mpr left)
  · exact fun s k => ⟨State.switching_iff, exec_firmwareSwitchComplete_ignored⟩
  · intro s k j i on found
    exact ⟨s.boot.switched k i, exec_firmwareSwitchComplete_taken on found, rfl, rfl, Boot.switched_fused s.boot k, rfl⟩

end Sys2Proof.Machine
end

section
/-! SUPPORT. Melds: the shape of a kernel and the rows of a pair (R127, R128). -/

namespace Sys2Proof.Machine

/-! ## The one word that meets a test -/

theorem findPlace_succ {α : Type} (p : α → Bool) (l : List α) (k : Nat) :
    findPlace p l (k + 1) = (findPlace p l k).map (fun q => (q.1 + 1, q.2)) := by
  induction l generalizing k with
  | nil => rfl
  | cons a as ih =>
    unfold findPlace
    split
    · rfl
    · exact ih (k + 1)

theorem only_nil (p : BitVec 32 → Bool) : only p [] = none := rfl

theorem only_cons (p : BitVec 32 → Bool) (w : BitVec 32) (ws : List (BitVec 32)) :
    only p (w :: ws) = if p w then (if ws.filter p = [] then some 0 else none) else (only p ws).map (· + 1) := by
  cases h : p w with
  | true => simp [only, findPlace, h]
  | false =>
    simp only [only, findPlace, List.filter_cons, h, Bool.false_eq_true, if_false, findPlace_succ, Option.map_map]
    split
    · rw [Option.map_map]
      rfl
    · rfl

theorem filter_eq_nil_iff_getD (p : BitVec 32 → Bool) (ws : List (BitVec 32)) :
    ws.filter p = [] ↔ ∀ i, i < ws.length → p ((ws[i]?).getD 0) = false := by
  rw [List.filter_eq_nil_iff, List.forall_mem_iff_forall_getElem]
  refine forall_congr' fun i => forall_congr' fun hi => ?_
  rw [List.getElem?_eq_getElem hi, Option.getD_some, Bool.not_eq_true]

/-- The place of the one word that meets a test: it does, and no other does. -/
theorem only_eq_some_iff (p : BitVec 32 → Bool) (ws : List (BitVec 32)) (j : Nat) :
    only p ws = some j ↔ j < ws.length ∧ p ((ws[j]?).getD 0) = true ∧ ∀ i, i < ws.length → i ≠ j → p ((ws[i]?).getD 0) = false := by
  induction ws generalizing j with
  | nil => simp [only_nil]
  | cons w ws ih =>
    rw [only_cons, List.length_cons, Nat.forall_lt_succ_left]
    cases h : p w with
    | true =>
      rw [if_pos rfl, Option.ite_none_right_eq_some, filter_eq_nil_iff_getD]
      cases j <;> simp [h]
    | false =>
      rw [if_neg Bool.false_ne_true]
      cases j <;> simp [h, ih]

theorem length_filter_of_only {p : BitVec 32 → Bool} {ws : List (BitVec 32)} {j : Nat} (h : only p ws = some j) : (ws.filter p).length = 1 := by
  unfold only at h
  split at h
  · assumption
  · cases h

/-! ## The shape of a kernel (R127) -/

theorem State.dealerWords_length {s : State} {ctx die : Nat} {n : Nat} {a : Word} {ws : List (BitVec 32)}
    (h : s.dealerWords ctx die a n = .ok ws) : ws.length = n := by
  induction n generalizing a ws with
  | zero => cases h; rfl
  | succ n ih =>
    unfold State.dealerWords at h
    split at h
    · cases h
    · split at h
      · cases h
      · rename_i hws
        cases h
        rw [List.length_cons, ih hws]

/-- What the dealer has found of a kernel in the single-block shape (R127): the tests of `State.shapeOf`, each in its words. -/
theorem State.shapeOf_ok {s : State} {g : Graph} {die : Nat} {n : Node} {k : Kernel} {m : SpliceMark} {x : Shape}
    (h : s.shapeOf g die n k m = .ok x) :
    (x.node = n ∧ x.mark = m ∧ x.kernel = k) ∧
    (only isVloop x.body = some x.loop ∧ only isVstrip x.body = some x.strip ∧ only isVlbnz x.body = some x.back) ∧
    (x.strip = m.inner ∧ x.loop < x.strip ∧ x.strip < x.back ∧ x.back = x.strip + fieldN ((x.body[x.back]?).getD 0) 15 10 ∧
      x.body.any barred = false) ∧
    (k.hasRegs = true ∧ k.uses = 0 ∧ x.h1.getLsbD x.vblk = false) ∧
    (10 ≤ x.vblk ∧ x.vblk ≤ 15 ∧ n.slotReg x.vblk = m.block) ∧ 1 ≤ x.body.length ∧ x.body.length ≤ 253 := by
  -- of each test, the branches that refuse answer a code
  unfold State.shapeOf at h
  split at h
  case h_1 => cases h
  dsimp only at h
  split at h
  case h_1 => cases h
  split at h
  case h_2 => cases h
  split at h
  case isTrue => cases h
  rename_i control
  split at h
  case h_1 => cases h
  split at h
  case h_2 => cases h
  split at h
  case isTrue => cases h
  rename_i header
  split at h
  case h_1 => cases h
  rename_i body hbody
  split at h
  case h_2 => cases h
  rename_i hloop hstrip hback
  split at h
  case isTrue => cases h
  rename_i loop
  cases h
  have len := State.dealerWords_length hbody
  simp only [Bool.not_eq_true, Bool.or_eq_false_iff, decide_eq_false_iff_not, not_not, not_lt, Bool.not_eq_false', ne_eq, Bool.and_eq_true,
    decide_eq_true_eq] at control header loop
  obtain ⟨⟨⟨-, low⟩, high⟩, slot⟩ := control
  obtain ⟨⟨⟨⟨⟨⟨⟨-, nonempty⟩, few⟩, -⟩, free⟩, -⟩, regs⟩, uses⟩ := header
  obtain ⟨⟨⟨inner, before, after⟩, target⟩, plain⟩ := loop
  exact ⟨⟨rfl, rfl, rfl⟩, ⟨hloop, hstrip, hback⟩, ⟨inner, before, after, target, plain⟩, ⟨regs, uses, free⟩, ⟨low, high, slot⟩,
    Nat.pos_of_ne_zero (len ▸ nonempty), len ▸ few⟩

/-! ## The rows of a pair (R128) -/

/-- A row of the model and one of a statement: one condition and one code. -/
def SameRow (a : Bool × Nat) (b : Prop × Nat) : Prop := (a.1 = true ↔ b.1) ∧ a.2 = b.2

theorem firstFailure_of_same {rows : List (Bool × Nat)} {ds : List (Prop × Nat)} (same : List.Forall₂ SameRow rows ds) :
    FirstFailure ds ((rows.find? (fun r => !r.1)).map (·.2)) := by
  induction same with
  | nil => rfl
  | @cons a b rows ds same _ ih =>
    obtain ⟨ok, code⟩ := a
    obtain ⟨iff, rfl⟩ := same
    cases ok with
    | true => exact ⟨fun fails => absurd (iff.mp rfl) fails, fun _ => ih⟩
    | false => exact ⟨fun _ => rfl, fun holds => Bool.noConfusion (iff.mpr holds)⟩

theorem sameTile_iff (a b : BitVec 256) : sameTile a b = true ↔ fieldN a 0 64 = fieldN b 0 64 ∧ fieldN a 80 8 = fieldN b 80 8 ∧
    fieldN a 88 8 = fieldN b 88 8 ∧ fieldN a 96 48 = fieldN b 96 48 ∧ fieldN a 160 96 = fieldN b 160 96 := by
  simp [sameTile, opBuf, opRank, opEsize, and_assoc]

theorem Shape.captured_eq_some_iff (k : Shape) (r : Nat) (v : Word) :
    k.captured r = some v ↔ 10 ≤ r ∧ r ≤ 15 ∧ k.h1.getLsbD r = true ∧ v = k.node.slotReg r := by
  unfold Shape.captured
  split <;> rename_i h
  · obtain ⟨lo, hi, bit⟩ := h
    simp only [lo, hi, bit, true_and, Option.some.injEq, eq_comm]
  · simp only [reduceCtorEq, false_iff]
    exact fun ⟨lo, hi, bit, _⟩ => h ⟨lo, hi, bit⟩

/-- The row Bases: the base is captured, and one word in the loop writes it, a BADDVL by the element's width. -/
theorem Shape.bump_eq_some_iff (k : Shape) (buf e j : Nat) :
    let r := fieldN k.matched 15 5
    let at_ (i : Nat) : BitVec 32 := (k.body[i]?).getD 0
    k.bump buf e = some j ↔ 10 ≤ r ∧ r ≤ 15 ∧ k.h1.getLsbD r = true ∧ (k.node.slotReg r).toNat = buf ∧ k.strip < j ∧ j < k.back ∧
      j < k.body.length ∧ writesX r (at_ j) = true ∧ (∀ i, i < k.body.length → i ≠ j → writesX r (at_ i) = false) ∧
      isBaddvl (at_ j) = true ∧ fieldN (at_ j) 15 3 = e := by
  have found : k.bump buf e = some j ↔ ∃ v, k.captured (fieldN k.matched 15 5) = some v ∧
      only (writesX (fieldN k.matched 15 5)) k.body = some j ∧ v.toNat = buf ∧ k.strip < j ∧ j < k.back ∧
      isBaddvl ((k.body[j]?).getD 0) = true ∧ fieldN ((k.body[j]?).getD 0) 15 3 = e := by
    unfold Shape.bump
    dsimp only
    cases k.captured (fieldN k.matched 15 5) with
    | none => simp
    | some v =>
      cases only (writesX (fieldN k.matched 15 5)) k.body with
      | none => simp
      | some i =>
        simp only [Option.ite_none_right_eq_some, Option.some.injEq, exists_eq_left']
        constructor
        · rintro ⟨tests, rfl⟩
          exact ⟨rfl, tests⟩
        · rintro ⟨rfl, tests⟩
          exact ⟨tests, rfl⟩
  simp only [found, Shape.captured_eq_some_iff, only_eq_some_iff]
  constructor
  · rintro ⟨v, ⟨low, high, bit, rfl⟩, ⟨inside, writes, others⟩, here, after, before, bump, size⟩
    exact ⟨low, high, bit, here, after, before, inside, writes, others, bump, size⟩
  · rintro ⟨low, high, bit, here, after, before, inside, writes, others, bump, size⟩
    exact ⟨_, ⟨low, high, bit, rfl⟩, ⟨inside, writes, others⟩, here, after, before, bump, size⟩

/-- The row Trip count, of one kernel. -/
theorem Shape.trips_eq_some_iff (k : Shape) (v : Word) :
    let q := fieldN ((k.body[k.loop]?).getD 0) 15 5
    k.trips = some v ↔ 10 ≤ q ∧ q ≤ 15 ∧ k.h1.getLsbD q = true ∧ v = k.node.slotReg q ∧
      ∀ w ∈ k.body.take k.loop, writesX q w = false := by
  simp only [Shape.trips, Option.ite_none_left_eq_some, Shape.captured_eq_some_iff, List.any_eq_true, not_exists, not_and, Bool.not_eq_true]
  tauto

/-- The row Trip count, of both. -/
theorem sameTrips_iff (a b : Option Word) (n : Nat) :
    (a.isSome && a == b && a.map (·.toNat) == some n) = true ↔ ∃ v, a = some v ∧ b = some v ∧ v.toNat = n := by
  cases a with
  | none => simp
  | some v => simp [eq_comm (a := some v)]

theorem any_take_drop_eq_false_iff {α : Type} (f : α → Bool) (l : List α) (i k : Nat) :
    ((l.drop (i + 1)).take (k - i - 1)).any f = false ↔ ∀ j w, i < j → j < k → l[j]? = some w → f w = false := by
  simp only [List.any_eq_false, Bool.not_eq_true, List.mem_iff_getElem?, List.getElem?_take, List.getElem?_drop]
  constructor
  · intro h j w lo hi hw
    refine h w ⟨j - i - 1, ?_⟩
    rw [if_pos (by omega), ← hw]
    congr 1
    omega
  · rintro h w ⟨d, hd⟩
    split at hd
    · exact h (i + 1 + d) w (by omega) (by omega) hd
    · cases hd

theorem any_others_eq_false_iff {α : Type} (f : α → Bool) (l : List α) (i : Nat) :
    (l.take i ++ l.drop (i + 1)).any f = false ↔ ∀ j w, j ≠ i → l[j]? = some w → f w = false := by
  simp only [List.any_eq_false, Bool.not_eq_true, List.mem_append]
  simp only [List.mem_iff_getElem?, List.getElem?_take, List.getElem?_drop]
  constructor
  · intro h j w other hw
    refine h w ?_
    rcases Nat.lt_or_gt_of_ne other with below | above
    · exact .inl ⟨j, by rw [if_pos below, hw]⟩
    · exact .inr ⟨j - (i + 1), by rw [← hw]; congr 1; omega⟩
  · rintro h w (⟨j, hj⟩ | ⟨d, hd⟩)
    · split at hj
      · exact h j w (by omega) hj
      · cases hj
    · exact h (i + 1 + d) w (by omega) hd

/-- The row Other operands. -/
theorem otherOperands_iff (ps cs : List (BitVec 256)) (k : Nat) :
    (!(ps.mapIdx (fun i r => (i, r))).any (fun q => q.1 != k && (opMode q.2 == 2 || opMode q.2 == 3) && cs.any (fun r => opBuf r == opBuf q.2)))
      = true ↔
    ∀ i r o, ps[i]? = some r → i ≠ k → fieldN r 64 8 = 2 ∨ fieldN r 64 8 = 3 → o ∈ cs → fieldN o 0 64 ≠ fieldN r 0 64 := by
  simp only [Bool.not_eq_true', List.any_eq_false, Bool.and_eq_true, bne_iff_ne, Bool.or_eq_true, beq_iff_eq, List.any_eq_true, not_and, not_exists,
    opMode, opBuf, and_imp, List.mem_mapIdx]
  constructor
  · intro h i r o hr other mode ho
    obtain ⟨hi, rfl⟩ := List.getElem?_eq_some_iff.mp hr
    exact h (i, _) ⟨i, hi, rfl⟩ other mode o ho
  · rintro h _ ⟨i, hi, rfl⟩ other mode o ho
    exact h i _ o (List.getElem?_eq_getElem hi) other mode ho

end Sys2Proof.Machine
end

section
/-! SUPPORT. Melds: the renumbering of C's registers (R131). -/

namespace Sys2Proof.Machine

/-! ## Sorted lists -/

theorem mem_insertBy {α : Type} (f : α → Nat) (x y : α) (l : List α) : y ∈ insertBy f x l ↔ y = x ∨ y ∈ l := by
  induction l with
  | nil => simp [insertBy]
  | cons a l ih =>
    unfold insertBy
    split
    · rw [List.mem_cons]
    · rw [List.mem_cons, ih, List.mem_cons]
      tauto

theorem mem_sortBy {α : Type} (f : α → Nat) (y : α) (l : List α) : y ∈ sortBy f l ↔ y ∈ l := by
  have grown : ∀ (l acc : List α), y ∈ l.foldl (fun acc x => insertBy f x acc) acc ↔ y ∈ acc ∨ y ∈ l := by
    intro l
    induction l with
    | nil => simp
    | cons x l ih =>
      intro acc
      rw [List.foldl_cons, ih, mem_insertBy, List.mem_cons]
      tauto
  exact (grown l []).trans (by simp)

/-- A place of x in a list before which only lower measures stand. -/
def Placed {α : Type} (f : α → Nat) (x : α) (l : List α) : Prop :=
  ∃ pre post, l = pre ++ x :: post ∧ ∀ a ∈ pre, f a < f x

theorem Placed.insertBy {α : Type} {f : α → Nat} {x : α} {l : List α} (h : Placed f x l) (y : α) : Placed f x (insertBy f y l) := by
  obtain ⟨pre, post, rfl, below⟩ := h
  induction pre with
  | nil =>
    rw [List.nil_append]
    unfold Machine.insertBy
    split
    · exact ⟨[y], post, rfl, by simpa⟩
    · exact ⟨[], _, rfl, below⟩
  | cons a pre ih =>
    rw [List.forall_mem_cons] at below
    rw [List.cons_append]
    unfold Machine.insertBy
    split
    · rename_i lower
      exact ⟨y :: a :: pre, post, rfl, List.forall_mem_cons.mpr ⟨lower.trans below.1, List.forall_mem_cons.mpr below⟩⟩
    · obtain ⟨pre', post', e, below'⟩ := ih below.2
      exact ⟨a :: pre', post', by rw [e]; rfl, List.forall_mem_cons.mpr ⟨below.1, below'⟩⟩

/-- Equals keep their order: once a list is sorted, only lower measures stand before what was its first element. -/
theorem placed_sortBy {α : Type} (f : α → Nat) (x : α) (l : List α) : Placed f x (sortBy f (x :: l)) := by
  have kept : ∀ (l acc : List α), Placed f x acc → Placed f x (l.foldl (fun acc y => insertBy f y acc) acc) := by
    intro l
    induction l with
    | nil => exact fun _ h => h
    | cons y l ih => exact fun acc h => ih _ (h.insertBy y)
  exact kept l [x] ⟨[], [], rfl, by simp⟩

/-! ## Groups that overlap, as one -/

/-- The last group of those joined so far keeps its first register, and grows at most. -/
theorem joinSpans_cons (gs : List Span) (a : Span) (acc : List Span) :
    ∃ h rest, joinSpans gs (a :: acc) = acc.reverse ++ h :: rest ∧ h.first = a.first ∧ a.size ≤ h.size := by
  induction gs generalizing a acc with
  | nil => exact ⟨a, [], by simp [joinSpans], rfl, le_rfl⟩
  | cons g gs ih =>
    unfold joinSpans
    split
    · obtain ⟨h, rest, e, first, size⟩ := ih (a.with g) acc
      refine ⟨h, rest, e, first, le_trans ?_ size⟩
      simp only [Span.with]
      omega
    · obtain ⟨h, rest, e, -, -⟩ := ih g (a :: acc)
      exact ⟨a, h :: rest, by simp [e], rfl, le_rfl⟩

/-- A group x in a list of groups to join, behind groups that start lower: it is joined into one that starts with it, or into one that
starts lower. -/
theorem joinSpans_placed (x : Span) (post : List Span) (pre acc : List Span) (lower : ∀ a ∈ pre, a.first < x.first)
    (before : ∀ a ∈ acc, a.first < x.first) :
    ∃ front h rest, joinSpans (pre ++ x :: post) acc = front ++ h :: rest ∧ (∀ a ∈ front, a.first < x.first) ∧
      h.first ≤ x.first ∧ x.first + x.size ≤ h.first + h.size := by
  induction pre generalizing acc with
  | nil =>
    cases acc with
    | nil =>
      obtain ⟨h, rest, e, first, size⟩ := joinSpans_cons post x []
      exact ⟨[], h, rest, e, by simp, first.le, by omega⟩
    | cons a acc =>
      have ha := before a List.mem_cons_self
      rw [List.nil_append]
      unfold joinSpans
      split
      · obtain ⟨h, rest, e, first, size⟩ := joinSpans_cons post (a.with x) acc
        simp only [Span.with] at first size
        exact ⟨acc.reverse, h, rest, e, fun b hb => before b (List.mem_cons_of_mem _ (List.mem_reverse.mp hb)), by omega, by omega⟩
      · obtain ⟨h, rest, e, first, size⟩ := joinSpans_cons post x (a :: acc)
        exact ⟨(a :: acc).reverse, h, rest, e, fun b hb => before b (List.mem_reverse.mp hb), first.le, by omega⟩
  | cons g pre ih =>
    rw [List.forall_mem_cons] at lower
    rw [List.cons_append]
    cases acc with
    | nil => exact ih [g] lower.2 (by simpa using lower.1)
    | cons a acc =>
      have tail : ∀ b ∈ acc, b.first < x.first := fun b hb => before b (List.mem_cons_of_mem _ hb)
      unfold joinSpans
      split
      · exact ih (a.with g :: acc) lower.2 (List.forall_mem_cons.mpr ⟨before a List.mem_cons_self, tail⟩)
      · exact ih (g :: a :: acc) lower.2 (List.forall_mem_cons.mpr ⟨lower.1, before⟩)

/-- Where no group that some words name starts below a further one and runs into it, the group that starts with it holds all of it. -/
theorem groupsNamed_find {l top : Nat} {plans : Nat → Nat} {ws : List (BitVec 32)} {x : Span} (pos : 1 ≤ x.size)
    (clear : (groupsNamed l top plans ws [x]).any (fun g => g.first < x.first && x.first < g.first + g.size) = false) :
    ∃ g, (groupsNamed l top plans ws [x]).find? (fun g => g.first == x.first) = some g ∧ x.size ≤ g.size := by
  obtain ⟨pre, post, sorted, lower⟩ := placed_sortBy (fun (g : Span) => g.first) x (ws.flatMap (spansOf l top plans))
  obtain ⟨front, h, rest, e, before, first, covers⟩ := joinSpans_placed x post pre [] lower (by simp)
  have joined : groupsNamed l top plans ws [x] = front ++ h :: rest := by
    rw [← e, ← sorted]
    rfl
  rw [joined] at clear ⊢
  have same : h.first = x.first := by
    by_contra apart
    have := List.any_eq_false.mp clear h (by simp)
    simp only [Bool.and_eq_true, decide_eq_true_eq] at this
    omega
  refine ⟨h, ?_, by omega⟩
  rw [List.find?_append, List.find?_eq_none.mpr (fun a ha => by have := before a ha; simp; omega)]
  simp [same]

/-! ## New places -/

theorem meets_eq_false_iff (first n : Nat) (gs : List (Nat × Nat)) :
    meets first n gs = false ↔ ∀ q ∈ gs, first + n ≤ q.1 ∨ q.1 + q.2 ≤ first := by
  simp only [meets, List.any_eq_false, Bool.and_eq_true, decide_eq_true_eq]
  exact forall₂_congr fun q _ => by omega

/-- A group's new place: in range, and clear of what is taken. -/
def FreshGroup (top : Nat) (taken : List (Nat × Nat)) (g : Nat × Nat × Nat) : Prop :=
  1 ≤ g.2.2 ∧ g.2.2 + g.2.1 ≤ top ∧ ∀ q ∈ taken, g.2.2 + g.2.1 ≤ q.1 ∨ q.1 + q.2 ≤ g.2.2

/-- The new places of groups. -/
def newPlaces (vs : List (Nat × Nat × Nat)) : List (Nat × Nat) := vs.map (fun o => (o.2.2, o.2.1))

/-- Groups placed one after another: each is in range, and clear of what was taken and of those placed before it. -/
theorem placeGroups_fresh {l top : Nat} {gs : List Span} {taken : List (Nat × Nat)} {acc vs : List (Nat × Nat × Nat)}
    (h : placeGroups l top gs taken acc = some vs) :
    ∃ new, vs = acc ++ new ∧ (∀ g ∈ new, ∃ a ∈ gs, g.1 = a.first) ∧
      ∀ (i : Nat) (g : Nat × Nat × Nat), new[i]? = some g → FreshGroup top (taken ++ newPlaces (new.take i)) g := by
  induction gs generalizing taken acc with
  | nil =>
    cases h
    exact ⟨[], by simp, by simp, by simp⟩
  | cons a gs ih =>
    unfold placeGroups at h
    dsimp only at h
    split at h
    · cases h
    · rename_i k found
      obtain ⟨new, rfl, from_, fresh⟩ := ih h
      have range := (mem_rangeFrom _ _ _).mp (List.mem_of_find?_eq_some found)
      have fits := List.find?_some found
      simp only [Bool.and_eq_true, beq_iff_eq, decide_eq_true_eq, Bool.not_eq_true', meets_eq_false_iff] at fits
      obtain ⟨⟨-, inRange⟩, clear⟩ := fits
      refine ⟨(a.first, a.size, k) :: new, by simp, ?_, ?_⟩
      · rw [List.forall_mem_cons]
        exact ⟨⟨a, List.mem_cons_self, rfl⟩, fun g hg => (from_ g hg).imp fun b hb => ⟨List.mem_cons_of_mem _ hb.1, hb.2⟩⟩
      · intro i g hg
        cases i with
        | zero =>
          cases hg
          exact ⟨range.1, inRange, fun q hq => clear q (by simpa [newPlaces] using hq)⟩
        | succ i =>
          obtain ⟨lo, hi, apart⟩ := fresh i g hg
          refine ⟨lo, hi, fun q hq => apart q ?_⟩
          simp only [newPlaces, List.take_succ_cons, List.map_cons, List.mem_append, List.mem_cons] at hq ⊢
          tauto

theorem placeLow_some {old free : List Nat} {ms : List (Nat × Nat)} (h : placeLow old free = some ms) :
    ms.map (·.1) = old ∧ (ms.map (·.2)).Sublist free := by
  unfold placeLow at h
  split at h
  · rename_i enough
    cases h
    refine ⟨List.map_fst_zip enough, ?_⟩
    rw [List.zip_eq_zip_take_min, List.map_snd_zip (by simp)]
    exact List.take_sublist _ _
  · cases h

theorem mem_regsNamed (k : RegKind) (ws : List (BitVec 32)) (r : Nat) : r ∈ regsNamed k ws ↔ ∃ w ∈ ws, r ∈ namesOf k w := by
  rw [regsNamed, mem_sortBy, List.mem_eraseDups, List.mem_flatMap]

/-! ## The renumbering -/

/-- The registers that P's VDECL gives (R131). -/
def Shape.top (p : Shape) : Nat :=
  match p.decl with
  | none => 32
  | some d => if fieldN d 20 5 = 1 then 12 else if fieldN d 20 5 = 2 then 6 else 32

/-- The groups that P's block names. -/
def Shape.groups (p : Shape) : List (Nat × Nat) := p.body.flatMap (groupsOf p.lmul p.top p.plans)

theorem Shape.one_le_lmul (p : Shape) : 1 ≤ p.lmul := Nat.one_le_two_pow

/-- The destination group of C's matched VLE. -/
def destination (p c : Shape) : Span := { first := fieldN c.matched 7 5, size := p.lmul, align := p.lmul }

/-- C's groups, and the one of them that starts with the matched VLE's destination. -/
def groupsOfC (p c : Shape) (rest : List (BitVec 32)) : List Span := groupsNamed p.lmul p.top c.plans rest [destination p c]
def wideGroup (p c : Shape) (rest : List (BitVec 32)) : Span :=
  ((groupsOfC p c rest).find? (fun g => g.first == fieldN c.matched 7 5)).getD (destination p c)

/-- C's groups at v0, where its matched VLE does not load there. -/
def lowGroups (p c : Shape) (rest : List (BitVec 32)) : List Span :=
  if fieldN c.matched 7 5 = 0 then [] else (groupsOfC p c rest).filter (fun g => g.first == 0)

/-- The groups whose new places R131 fixes. -/
def fixedGroups (p c : Shape) (rest : List (BitVec 32)) : List (Nat × Nat × Nat) :=
  (fieldN c.matched 7 5, (wideGroup p c rest).size, fieldN p.matched 7 5) :: (lowGroups p c rest).map (fun g => (0, g.size, 0))

/-- Whether C names v0; whether a group of it runs into the matched VLE's destination from below; whether the groups whose places are fixed have
no room beside P's. -/
def namesV0 (p c : Shape) (rest : List (BitVec 32)) : Bool :=
  if fieldN c.matched 7 5 = 0 then rest.any masked else !(lowGroups p c rest).isEmpty
def straddled (p c : Shape) (rest : List (BitVec 32)) : Bool :=
  (groupsOfC p c rest).any (fun g => g.first < fieldN c.matched 7 5 && fieldN c.matched 7 5 < g.first + g.size)
def crowded (p c : Shape) (rest : List (BitVec 32)) : Bool :=
  let w := wideGroup p c rest
  let vse := fieldN p.matched 7 5
  (p.lmul < w.size && (vse % w.align != fieldN c.matched 7 5 % w.align || p.top < vse + w.size || meets (vse + p.lmul) (w.size - p.lmul) p.groups))
    || (lowGroups p c rest).any (fun g => p.top < g.size || meets 1 (g.size - 1) ((vse, w.size) :: p.groups))

/-- C's groups whose new places are to be found, and those found. -/
def freeGroups (p c : Shape) (rest : List (BitVec 32)) : List Span :=
  (groupsOfC p c rest).filter (fun g => !(fixedGroups p c rest).any (fun f => f.1 == g.first))
def placedGroups (p c : Shape) (rest : List (BitVec 32)) : Option (List (Nat × Nat × Nat)) :=
  placeGroups p.lmul p.top (freeGroups p c rest) (p.groups ++ newPlaces (fixedGroups p c rest)) (fixedGroups p c rest)

/-- C's scalars and plans, placed on registers that P does not name. -/
def placedScalars (p : Shape) (rest : List (BitVec 32)) : Option (List (Nat × Nat)) :=
  placeLow (regsNamed .x rest) ((rangeFrom 1 32).filter (fun r => !(p.vblk :: regsNamed .x p.body).contains r))
def placedPlans (p : Shape) (rest : List (BitVec 32)) : Option (List (Nat × Nat)) :=
  placeLow (regsNamed .fl rest) ((List.range 4).filter (fun r => !(regsNamed .fl p.body).contains r))

theorem renumbering_eq (p c : Shape) (rest : List (BitVec 32)) : renumbering p c rest =
    if namesV0 p c rest = true ∧ p.groups.any (fun g => g.1 == 0) = true then .error 0x07
    else if (straddled p c rest || crowded p c rest) = true then .error 0x06
    else
      match placedGroups p c rest with
      | none => .error 0x06
      | some vs =>
        match placedScalars p rest, placedPlans p rest with
        | some xs, some fls => .ok { vs := vs, xs := xs, fls := fls }
        | _, _ => .error 0x07 := by
  rw [straddled, crowded, ← Bool.or_assoc]
  rfl

/-- What a renumbering has passed and placed. -/
theorem renumbering_ok {p c : Shape} {rest : List (BitVec 32)} {m : Renumbering} (h : renumbering p c rest = .ok m) :
    (namesV0 p c rest = true → ∀ q ∈ p.groups, q.1 ≠ 0) ∧ straddled p c rest = false ∧ placedGroups p c rest = some m.vs ∧
    placedScalars p rest = some m.xs ∧ placedPlans p rest = some m.fls := by
  rw [renumbering_eq] at h
  split at h
  · cases h
  rename_i v0
  split at h
  · cases h
  rename_i clear
  split at h
  · cases h
  rename_i vs placed
  split at h
  case h_2 => cases h
  rename_i xs fls hxs hfls
  cases h
  rw [Bool.not_eq_true, Bool.or_eq_false_iff] at clear
  exact ⟨fun named q hq zero => v0 ⟨named, List.any_eq_true.mpr ⟨q, hq, beq_iff_eq.mpr zero⟩⟩, clear.1, placed, hxs, hfls⟩

section
variable {p c : Shape} {rest : List (BitVec 32)} {m : Renumbering} (h : renumbering p c rest = .ok m)
include h

/-- The matched VLE's destination comes to lie on the matched VSE's data (R131). -/
theorem renumbering_matched (i : Nat) (hi : i < p.lmul) : m.v (fieldN c.matched 7 5 + i) = some (fieldN p.matched 7 5 + i) := by
  obtain ⟨-, clear, placed, -⟩ := renumbering_ok h
  obtain ⟨new, e, -⟩ := placeGroups_fresh placed
  obtain ⟨g, found, size⟩ := groupsNamed_find (x := destination p c) p.one_le_lmul clear
  have wide : wideGroup p c rest = g := congrArg (Option.getD · (destination p c)) found
  have inside : i < g.size := lt_of_lt_of_le hi size
  rw [Renumbering.v, e, fixedGroups, wide]
  simp [inside]

/-- The groups of a renumbering: those that R131 fixes, then others, each at a fresh place. -/
theorem renumbering_groups : ∃ new, m.vs = fixedGroups p c rest ++ new ∧ (∀ g ∈ new, ∃ a ∈ freeGroups p c rest, g.1 = a.first) ∧
    ∀ (i : Nat) (g : Nat × Nat × Nat), m.vs[i]? = some g → (fixedGroups p c rest).length ≤ i →
      FreshGroup p.top (p.groups ++ newPlaces (m.vs.take i)) g := by
  obtain ⟨-, -, placed, -⟩ := renumbering_ok h
  obtain ⟨new, e, from_, fresh⟩ := placeGroups_fresh placed
  refine ⟨new, e, from_, fun i g hg later => ?_⟩
  obtain ⟨d, rfl⟩ := Nat.exists_eq_add_of_le later
  have place := fresh d g (by rwa [e, List.getElem?_append_right later, Nat.add_sub_cancel_left] at hg)
  rwa [e, List.take_length_add_append, newPlaces, List.map_append, ← List.append_assoc]

/-- What stands at v0 stays there, and P names none of it (R131). -/
theorem renumbering_low (g : Nat × Nat × Nat) (hg : g ∈ m.vs) (low : g.1 = 0) (apart : fieldN c.matched 7 5 ≠ 0) :
    g.2.2 = 0 ∧ ∀ q ∈ p.groups, q.1 ≠ 0 := by
  obtain ⟨v0, -⟩ := renumbering_ok h
  obtain ⟨new, e, from_, -⟩ := renumbering_groups h
  -- a group at v0 is among those that are fixed
  have named (a : Span) (ha : a ∈ groupsOfC p c rest) (zero : a.first = 0) : a ∈ lowGroups p c rest := by
    rw [lowGroups, if_neg apart]
    exact List.mem_filter.mpr ⟨ha, beq_iff_eq.mpr zero⟩
  have here : ∃ a ∈ lowGroups p c rest, g = (0, a.size, 0) := by
    rw [e, fixedGroups, List.mem_append, List.mem_cons, List.mem_map] at hg
    rcases hg with (rfl | ⟨a, ha, rfl⟩) | hg
    · exact absurd low apart
    · exact ⟨a, ha, rfl⟩
    · obtain ⟨a, ha, first⟩ := from_ g hg
      obtain ⟨mine, other⟩ := List.mem_filter.mp ha
      have := named a mine (first.symm.trans low)
      rw [Bool.not_eq_true', List.any_eq_false] at other
      exact absurd (by simp [← first, low]) (other (0, a.size, 0) (List.mem_cons_of_mem _ (List.mem_map.mpr ⟨a, this, rfl⟩)))
  obtain ⟨a, ha, rfl⟩ := here
  refine ⟨rfl, v0 ?_⟩
  rw [namesV0, if_neg apart, Bool.not_eq_true', List.isEmpty_eq_false_iff]
  exact List.ne_nil_of_mem ha

/-- Every other group's new place (R131). -/
theorem renumbering_others (i : Nat) (g : Nat × Nat × Nat) (hg : m.vs[i]? = some g) (apart : g.1 ≠ fieldN c.matched 7 5) (high : g.1 ≠ 0) :
    FreshGroup p.top (p.groups ++ newPlaces (m.vs.take i)) g := by
  obtain ⟨new, e, -, fresh⟩ := renumbering_groups h
  refine fresh i g hg (Nat.le_of_not_lt fun early => ?_)
  rw [e, List.getElem?_append_left early] at hg
  have := List.mem_of_getElem? hg
  rw [fixedGroups, List.mem_cons, List.mem_map] at this
  rcases this with rfl | ⟨a, -, rfl⟩
  · exact apart rfl
  · exact high rfl

end

/-- New numbers of registers of a kind: rising, in range, and of none that some words name. -/
def FreshNumbers (k : RegKind) (rest body : List (BitVec 32)) (lo hi : Nat) (ms : List (Nat × Nat)) : Prop :=
  ms.map (·.1) = regsNamed k rest ∧ ms.Pairwise (fun a b => a.2 < b.2) ∧
    ∀ q ∈ ms, lo ≤ q.2 ∧ q.2 < hi ∧ ∀ w ∈ body, q.2 ∉ namesOf k w

theorem placeLow_fresh {k : RegKind} {rest body : List (BitVec 32)} {lo hi : Nat} {used : List Nat} {ms : List (Nat × Nat)}
    (h : placeLow (regsNamed k rest) ((rangeFrom lo hi).filter (fun r => !used.contains r)) = some ms)
    (names : ∀ r ∈ regsNamed k body, r ∈ used) : FreshNumbers k rest body lo hi ms ∧ ∀ q ∈ ms, q.2 ∉ used := by
  obtain ⟨old, new⟩ := placeLow_some h
  have free (q : Nat × Nat) (hq : q ∈ ms) : (lo ≤ q.2 ∧ q.2 < hi) ∧ q.2 ∉ used := by
    have := new.subset (List.mem_map_of_mem hq)
    simpa [mem_rangeFrom] using this
  refine ⟨⟨old, ?_, fun q hq => ⟨(free q hq).1.1, (free q hq).1.2, fun w hw named => ?_⟩⟩, fun q hq => (free q hq).2⟩
  · exact List.pairwise_map.mp (((pairwise_rangeFrom lo hi).filter _).sublist new)
  · exact (free q hq).2 (names _ ((mem_regsNamed k body _).mpr ⟨w, hw, named⟩))

section
variable {p c : Shape} {rest : List (BitVec 32)} {m : Renumbering} (h : renumbering p c rest = .ok m)
include h

theorem renumbering_scalars : FreshNumbers .x rest p.body 1 32 m.xs ∧ ∀ q ∈ m.xs, q.2 ≠ p.vblk := by
  obtain ⟨-, -, -, scalars, -⟩ := renumbering_ok h
  obtain ⟨fresh, unused⟩ := placeLow_fresh (body := p.body) scalars (fun r hr => List.mem_cons_of_mem _ hr)
  exact ⟨fresh, fun q hq same => unused q hq (same ▸ List.mem_cons_self)⟩

theorem renumbering_plans : FreshNumbers .fl rest p.body 0 4 m.fls := by
  obtain ⟨-, -, -, -, plans⟩ := renumbering_ok h
  exact (placeLow_fresh (body := p.body) (lo := 0) (hi := 4) plans (fun r hr => hr)).1

end

end Sys2Proof.Machine
end

section
/-! SUPPORT. Melds: their words and the registers at their start (R130, R132 to R134), their dispatch, and refused pairs (R126, R139). -/

namespace Sys2Proof.Machine

/-! ## Registers set one after another -/

section
variable (f : Nat × Nat → Word)

/-- Registers of a list set in order, each to what its old number says. -/
def setRegs (x : Vector Word 32) (qs : List (Nat × Nat)) : Vector Word 32 := qs.foldl (fun x q => x.setIfInBounds q.2 (f q)) x

theorem setRegs_other {r : Nat} (qs : List (Nat × Nat)) (x : Vector Word 32) (h : ∀ q ∈ qs, q.2 ≠ r) : (setRegs f x qs)[r]? = x[r]? := by
  induction qs generalizing x with
  | nil => rfl
  | cons q qs ih =>
    rw [List.forall_mem_cons] at h
    rw [setRegs, List.foldl_cons, ← setRegs, ih _ h.2, Vector.getElem?_setIfInBounds_ne h.1]

theorem setRegs_mem {q : Nat × Nat} {qs : List (Nat × Nat)} (rising : qs.Pairwise (fun a b => a.2 < b.2)) (hq : q ∈ qs) (small : q.2 < 32)
    (x : Vector Word 32) : (setRegs f x qs)[q.2]? = some (f q) := by
  induction qs generalizing x with
  | nil => cases hq
  | cons a qs ih =>
    obtain ⟨later, rising⟩ := List.pairwise_cons.mp rising
    rw [setRegs, List.foldl_cons, ← setRegs]
    rcases List.mem_cons.mp hq with rfl | hq
    · rw [setRegs_other f qs _ (fun b hb => (later b hb).ne'), Vector.getElem?_setIfInBounds_self_of_lt small]
    · exact ih rising hq _

end

/-! ## The words of a meld (R130, R132 to R134) -/

/-- The offset of the BADDVL that C's matched VLE takes with it. -/
def bumpFor (c : Shape) (po co : BitVec 256) : Nat := (c.bump (fieldN co 0 64) (fieldN po 88 8)).getD 0

/-- The offsets of the words that remain of C: of its prologue, of its loop, of its epilogue. -/
def Shape.head (c : Shape) : List Nat := (List.range c.strip).filter (fun j => j != c.loop)
def Shape.loopOfC (c : Shape) (bump : Nat) : List Nat := (rangeFrom (c.strip + 1) c.back).filter (fun j => j != c.mark.word && j != bump)
def Shape.tail (k : Shape) : List Nat := rangeFrom (k.back + 1) k.body.length

/-- The words that remain of C, before they are renumbered. -/
def Shape.rest (c : Shape) (bump : Nat) : List (BitVec 32) :=
  (c.head ++ c.loopOfC bump ++ c.tail).map (fun j => (c.body[j]?).getD 0)

/-- The offsets of P's loop, less its matched store where that is elided. -/
def Shape.loopOfP (p : Shape) (elided : Bool) : List Nat := (rangeFrom (p.strip + 1) p.back).filter (fun j => !(elided && j == p.mark.word))

/-- The words of a meld, each with its origin. -/
def meldItems (p c : Shape) (m : Renumbering) (elided : Bool) (bump : Nat) : List (BitVec 32 × Origin) :=
  p.items 1 (fun w => w) (List.range p.strip) ++ c.items 2 (m.word p.lmul) c.head ++ p.items 1 (fun w => w) [p.strip]
    ++ p.items 1 (fun w => w) (p.loopOfP elided) ++ c.items 2 (m.word p.lmul) (c.loopOfC bump)
    ++ p.items 1 (fun w => setFieldN w 15 10 (1 + (p.loopOfP elided).length + (c.loopOfC bump).length)) [p.back]
    ++ p.items 1 (fun w => w) p.tail ++ c.items 2 (m.word p.lmul) c.tail

/-- The registers at the start of a meld but for its VBLK register: P's slots, and over them what C's scalars hold at C's start. -/
def Node.startRegs (n : Node) : Vector Word 32 := setRegs (fun q => n.slot q.1) (Vector.replicate 32 0) ((List.range 6).map (fun i => (i, 10 + i)))
def meldStarts (p c : Node) (xs : List (Nat × Nat)) : Vector Word 32 :=
  setRegs (fun q => if 10 ≤ q.1 ∧ q.1 ≤ 15 then c.slotReg q.1 else 0) p.startRegs xs

theorem Node.startRegs_get (n : Node) (r : Nat) (hr : r < 32) : n.startRegs[r]? = some (if 10 ≤ r ∧ r ≤ 15 then n.slotReg r else 0) := by
  by_cases launch : 10 ≤ r ∧ r ≤ 15
  · rw [if_pos launch]
    have here : (r - 10, r) ∈ (List.range 6).map (fun i => (i, 10 + i)) :=
      List.mem_map.mpr ⟨r - 10, List.mem_range.mpr (by omega), Prod.ext rfl (by omega)⟩
    have rising : ((List.range 6).map (fun i => (i, 10 + i))).Pairwise (fun a b => a.2 < b.2) := by decide
    exact setRegs_mem (fun q => n.slot q.1) rising here hr _
  · rw [if_neg launch, Node.startRegs, setRegs_other, Vector.getElem?_replicate, if_pos hr]
    simp only [List.forall_mem_map, List.mem_range]
    omega

/-- The meld of two kernels, once its words are found. -/
def meldDraft (g : Graph) (p c : Shape) (m : Renumbering) (elided : Bool) (items : List (BitVec 32 × Origin)) : Draft :=
  { elided := elided
    meld :=
      { slot := 0, gid := g.gid, p := p.node.index, c := c.node.index, it := p.node.it, pKernel := p.node.code,
        cKernel := c.node.code, cCtrbase := c.node.ctrbase, cCtrlen := c.node.ctrlen, control := p.control,
        controlOrigin := p.control.mapIdx (fun i _ => { who := 1, pc := p.node.code + BitVec.ofNat 64 (4 * i) }),
        h0 := BitVec.ofNat 32 (items.length + 0x100 + 0xB1000000),
        h1 := p.h1 ||| maskOf (fun r => (m.xs.find? (fun q => q.1 == r)).map (·.2)) c.h1, h2 := p.h2 ||| maskOf m.v c.h2,
        body := items.map (·.1), bodyOrigin := items.map (·.2), starts := meldStarts p.node c.node m.xs, vblk := p.vblk, poisoned := false } }

theorem meldDraft_h0 (g : Graph) (p c : Shape) (m : Renumbering) (elided : Bool) (items : List (BitVec 32 × Origin)) :
    (meldDraft g p c m elided items).meld.h0 = BitVec.ofNat 32 (0xB1000100 + items.length) :=
  congrArg (BitVec.ofNat 32) (by omega)

theorem buildMeld_eq (g : Graph) (det : Bool) (p c : Shape) (po co : BitVec 256) : buildMeld g det p c po co =
    match renumbering p c (c.rest (bumpFor c po co)) with
    | .error code => .error (code, 0)
    | .ok m =>
      let items := meldItems p c m (opTransient co && !det) (bumpFor c po co)
      if 253 < items.length then .error (0x08, items.length) else .ok (meldDraft g p c m (opTransient co && !det) items) := by
  have slots (n : Node) : (List.range 6).foldl (fun (x : Vector Word 32) i => x.set! (10 + i) (n.slot i)) (Vector.replicate 32 0) = n.startRegs := by
    rw [Node.startRegs, setRegs, List.foldl_map]
    rfl
  simp only [buildMeld, slots] <;> rfl

section
variable {g : Graph} {det : Bool} {p c : Shape} {po co : BitVec 256}

theorem buildMeld_refused {code : Nat} (h : renumbering p c (c.rest (bumpFor c po co)) = .error code) :
    buildMeld g det p c po co = .error (code, 0) := by
  rw [buildMeld_eq, h]

variable {m : Renumbering} (h : renumbering p c (c.rest (bumpFor c po co)) = .ok m)
include h

theorem buildMeld_long (long : 253 < (meldItems p c m (opTransient co && !det) (bumpFor c po co)).length) :
    buildMeld g det p c po co = .error (0x08, (meldItems p c m (opTransient co && !det) (bumpFor c po co)).length) := by
  rw [buildMeld_eq, h]
  exact if_pos long

theorem buildMeld_ok (short : (meldItems p c m (opTransient co && !det) (bumpFor c po co)).length ≤ 253) : buildMeld g det p c po co =
    .ok (meldDraft g p c m (opTransient co && !det) (meldItems p c m (opTransient co && !det) (bumpFor c po co))) := by
  rw [buildMeld_eq, h]
  exact if_neg (Nat.not_lt.mpr short)

end

theorem meldItems_words (p c : Shape) (m : Renumbering) (elided : Bool) (bump : Nat) :
    let word (k : Shape) (j : Nat) : BitVec 32 := (k.body[j]?).getD 0
    let mine (js : List Nat) : List (BitVec 32) := js.map (word p)
    let theirs (js : List Nat) : List (BitVec 32) := js.map (fun j => m.word p.lmul (word c j))
    (meldItems p c m elided bump).map (·.1) =
      mine (List.range p.strip) ++ theirs c.head ++ mine [p.strip] ++ mine (p.loopOfP elided) ++ theirs (c.loopOfC bump) ++
        [setFieldN (word p p.back) 15 10 (1 + (p.loopOfP elided).length + (c.loopOfC bump).length)] ++ mine p.tail ++ theirs c.tail := by
  simp [meldItems, Shape.items, Function.comp_def]

theorem meldItems_origins (p c : Shape) (m : Renumbering) (elided : Bool) (bump : Nat) :
    let from_ (k : Shape) (who : Nat) (js : List Nat) : List Origin :=
      js.map (fun j => { who := who, pc := k.mark.block + 12 + BitVec.ofNat 64 (4 * j) })
    (meldItems p c m elided bump).map (·.2) =
      from_ p 1 (List.range p.strip) ++ from_ c 2 c.head ++ from_ p 1 [p.strip] ++ from_ p 1 (p.loopOfP elided) ++ from_ c 2 (c.loopOfC bump) ++
        from_ p 1 [p.back] ++ from_ p 1 p.tail ++ from_ c 2 c.tail := by
  simp [meldItems, Shape.items, Function.comp_def]

/-- What R133 says of the registers at the start of a meld. -/
theorem meldStarts_scalar (p c : Node) {xs : List (Nat × Nat)} (rising : xs.Pairwise (fun a b => a.2 < b.2)) {q : Nat × Nat} (hq : q ∈ xs)
    (small : q.2 < 32) : (meldStarts p c xs)[q.2]? = some (if 10 ≤ q.1 ∧ q.1 ≤ 15 then c.slotReg q.1 else 0) :=
  setRegs_mem (fun q => if 10 ≤ q.1 ∧ q.1 ≤ 15 then c.slotReg q.1 else 0) rising hq small _

theorem meldStarts_other (p c : Node) {xs : List (Nat × Nat)} {r : Nat} (hr : r < 32) (h : ∀ q ∈ xs, q.2 ≠ r) :
    (meldStarts p c xs)[r]? = some (if 10 ≤ r ∧ r ≤ 15 then p.slotReg r else 0) := by
  rw [meldStarts, setRegs_other _ _ _ h, Node.startRegs_get p r hr]

/-! ## Candidates and dispatch (R126, R129, R133, R139) -/

section
variable (s : State)

theorem State.foldl_dies {α : Type} (f : State → α → State) (l : List α) (h : ∀ s a, (f s a).dies = s.dies) :
    (l.foldl f s).dies = s.dies := by
  induction l generalizing s with
  | nil => rfl
  | cons a l ih => rw [List.foldl_cons, ih, h]

@[simp] theorem State.countBypasses_dies (blocked : List Want) (w : Want) (n : Nat) : (s.countBypasses blocked w n).dies = s.dies := by
  refine State.foldl_dies s _ _ fun u b => ?_
  split <;> rfl

@[simp] theorem State.reserveAll_dies (die : Nat) : (s.reserveAll die).dies = s.dies := by
  refine State.foldl_dies s _ _ fun u w => ?_
  split
  · rfl
  · split
    · split <;> rfl
    · rfl

/-- A die's count of melds at the dispatch of one (R140). -/
def Die.dispatched (d : Die) (m : Meld) (elided : Bool) : Die :=
  { d with melds := d.melds ++ [m], formed := d.formed + 1, elided := if elided then d.elided + 1 else d.elided,
           kept := if elided then d.kept else d.kept + 1 }

/-- A die whose pre-emption for a node, if it is for that one, is over (R89). -/
def Die.freed (d : Die) (gid n : Nat) : Die := if d.preempting == some (gid, n) then { d with preempting := none } else d

section
variable {s} {w : Want} {m : Meld} {g : Graph} {p c : Node} (hg : s.graph w.gid = some g) (hp : s.node w.gid m.p = some p)
  (hc : s.node w.gid m.c = some c) (apartP : s.lapsOf w.die g p = []) (apartC : s.lapsOf w.die g c = []) (elided : Bool) (sec : Nat)
include hg hp hc apartP apartC

theorem State.dispatchMeld_parked : ∃ t : Task, (s.dispatchMeld w m elided sec).parked = s.parked ++ [t] ∧ t.status = .running ∧
    t.id.node = p.index ∧ t.id.meld = some m.slot ∧ t.pc = meldAddr m.slot ∧ t.x = meldRegs m ∧ t.second.isSome = true := by
  simp only [State.dispatchMeld, hg, hp, hc, apartP, apartC, State.countOverlaps_nil, State.reserveAll_parked, State.countBypasses_parked,
    State.endReservation_parked, State.modNode_parked]
  exact ⟨_, rfl, rfl, rfl, rfl, rfl, rfl, rfl⟩

theorem State.dispatchMeld_die {d : Die} (hd : s.dies[(s.physDie w.die).getD 0]? = some d) :
    (s.dispatchMeld w m elided sec).dies[(s.physDie w.die).getD 0]? = some ((d.dispatched m elided).freed w.gid m.p) := by
  have dies : (s.dispatchMeld w m elided sec).dies =
      (s.modDie ((s.physDie w.die).getD 0) (fun d => d.dispatched m elided)).dies.map (fun d => d.freed w.gid m.p) := by
    simp only [State.dispatchMeld, hg, hp, hc, apartP, apartC, State.countOverlaps_nil, State.reserveAll_dies, State.countBypasses_dies]
    rfl
  rw [dies, Vector.getElem?_map, State.modDie, Vector.getElem?_mapIdx, hd, Option.map_some, if_pos rfl, Option.map_some]

end

theorem Die.freed_counts (d : Die) (gid n : Nat) : (d.freed gid n).melds = d.melds ∧ (d.freed gid n).formed = d.formed ∧
    (d.freed gid n).elided = d.elided ∧ (d.freed gid n).kept = d.kept := by
  unfold Die.freed
  split <;> exact ⟨rfl, rfl, rfl, rfl⟩

/-- A kernel without an eligible mark of role 1 (R128). -/
theorem State.evaluate_unmarked (g : Graph) (die : Nat) (p c : Node)
    (h : ∀ k, s.kernelOf g.ctx p = some k → ∀ m ∈ k.marks, m.role = 1 → m.eligible = false) : s.evaluate g die p c = .error (0x01, 0) := by
  have unmarked : Kernel.eligible (s.kernelOf g.ctx p) 1 = [] := by
    cases hk : s.kernelOf g.ctx p with
    | none => rfl
    | some k => simpa [Kernel.eligible] using h k hk
  simp [State.evaluate, unmarked]

theorem State.tryPartners_ok {g : Graph} {die : Nat} {p c : Node} {d : Draft} (h : s.evaluate g die p c = .ok d) (cs : List Node)
    (rs : List Refused) : s.tryPartners g die p (c :: cs) rs = .pair rs c.index d := by
  rw [State.tryPartners, h]

theorem State.tryPartners_error {g : Graph} {die : Nat} {p c : Node} {code words : Nat} (h : s.evaluate g die p c = .error (code, words))
    (cs : List Node) (rs : List Refused) :
    s.tryPartners g die p (c :: cs) rs = s.tryPartners g die p cs (rs ++ [{ c := c.index, code := code, words := words }]) := by
  rw [State.tryPartners, h]

end

theorem meldRegs_vblk (m : Meld) (h : m.vblk < 32) : (meldRegs m)[m.vblk]? = some (meldAddr m.slot + 0x40) :=
  Vector.getElem?_setIfInBounds_self_of_lt h

theorem meldRegs_other (m : Meld) (r : Nat) (h : r ≠ m.vblk) : (meldRegs m)[r]? = m.starts[r]? :=
  Vector.getElem?_setIfInBounds_ne h.symm

theorem State.retireNodes_single {s : State} {t : Task} (h : s.meldOf t = none) (st : NodeStatus) :
    s.retireNodes t st = s.retire t.id.gid t.id.node st := by
  rw [State.retireNodes, h]

theorem State.retireNodes_meld {s : State} {t : Task} {m : Meld} (h : s.meldOf t = some m) (st : NodeStatus) :
    s.retireNodes t st = ((s.modDie (s.graphDie t.id.gid) (fun d =>
      { d with melds := d.melds.filter (fun x => x.slot != m.slot) })).retire m.gid m.p st).retire m.gid m.c st := by
  rw [State.retireNodes, h]

end Sys2Proof.Machine
end

section
/-! SUPPORT. Melds: the statement O18, clause by clause. -/

namespace Sys2Proof.Machine

/-- Settles O18: each clause is one of the lemmas on shapes, on the rows of a pair, on the renumbering, on the meld's words or on its dispatch. -/
theorem melds : Obligations.Melds := by
  unfold Obligations.Melds
  refine ⟨?shape, ?rows, fun k buf e j => ⟨k.bump_eq_some_iff buf e j, k.trips_eq_some_iff⟩, ?renumbering, ?words, ?partners,
    ?dispatch, fun m h => ⟨meldRegs_vblk m h, meldRegs_other m⟩, fun s t st => ⟨fun h => State.retireNodes_single h st,
    fun m h => State.retireNodes_meld h st⟩, ?refused⟩
  case shape =>
    intro s g die n k m x h
    obtain ⟨⟨node, mark, kernel⟩, ⟨loop, strip, back⟩, ⟨inner, before, after, target, plain⟩, ⟨regs, uses, free⟩,
      ⟨low, high, slot⟩, len⟩ := State.shapeOf_ok h
    exact ⟨node, mark, kernel, length_filter_of_only loop, length_filter_of_only strip, length_filter_of_only back, inner, before, after, target,
      fun w hw => Bool.eq_false_of_not_eq_true (List.any_eq_false.mp plain w hw), regs, uses, low, high, free, slot, len⟩
  case rows =>
    intro p c po co
    refine firstFailure_of_same (.cons ⟨sameTile_iff po co, rfl⟩ (.cons ⟨?modes, rfl⟩ (.cons ⟨?walk, rfl⟩ (.cons ⟨?widths, rfl⟩
      (.cons ⟨?masks, rfl⟩ (.cons ⟨?placement, rfl⟩ (.cons ⟨?bases, rfl⟩ (.cons ⟨sameTrips_iff _ _ _, rfl⟩ (.cons ⟨?forwarding, rfl⟩
      (.cons ⟨otherOperands_iff _ _ _, rfl⟩ (.cons ⟨?configuration, rfl⟩ (.cons ⟨?grant, rfl⟩ .nil))))))))))))
    case modes => simp [opMode]
    case walk => simp [opRank, opStride0, opEsize]
    case widths => simp [opEsize, and_assoc]
    case masks => simp
    case placement => simp
    case bases => simp [opBuf, opEsize, Option.isSome_iff_ne_none]
    case forwarding =>
      rw [Bool.and_eq_true, Bool.not_eq_true', Bool.not_eq_true', any_take_drop_eq_false_iff, any_others_eq_false_iff]
    case configuration => simp [and_assoc]
    case grant => simp
  case renumbering =>
    intro p c rest m h
    refine ⟨renumbering_matched h, renumbering_low h, fun i g hg apart high => ?_, (renumbering_scalars h).1, (renumbering_scalars h).2,
      renumbering_plans h⟩
    obtain ⟨lo, hi, clear⟩ := renumbering_others h i g hg apart high
    refine ⟨lo, hi, fun q hq => clear q (List.mem_append_left _ hq), fun j o before ho => ?_⟩
    have earlier : o ∈ m.vs.take i := List.mem_of_getElem? (by rwa [List.getElem?_take, if_pos before])
    exact clear (o.2.2, o.2.1) (List.mem_append_right _ (List.mem_map.mpr ⟨o, earlier, rfl⟩))
  case words =>
    intro g det p c po co
    refine ⟨fun code h => buildMeld_refused h, fun m h => ?_⟩
    have words := meldItems_words p c m (opTransient co && !det) (bumpFor c po co)
    have len := congrArg List.length words
    rw [List.length_map] at len
    refine ⟨fun long => ?_, fun short => ⟨_, buildMeld_ok h (len.trans_le short), rfl, words, meldItems_origins p c m _ _, rfl, ?_,
      rfl, rfl, rfl, rfl, rfl, rfl, rfl, fun q hq => ?_, fun r hr others => meldStarts_other _ _ hr others⟩⟩
    · exact (buildMeld_long h (long.trans_eq len.symm)).trans (congrArg (fun n => Except.error (0x08, n)) len)
    · exact (meldDraft_h0 _ _ _ _ _ _).trans (congrArg (fun n => BitVec.ofNat 32 (0xB1000100 + n)) len)
    · obtain ⟨⟨-, rising, range⟩, -⟩ := renumbering_scalars h
      exact meldStarts_scalar _ _ rising hq (range q hq).2.1
  case partners =>
    exact fun s g die p c cs rs => ⟨rfl, fun d h => s.tryPartners_ok h cs rs, fun code words h => s.tryPartners_error h cs rs,
      s.evaluate_unmarked g die p c⟩
  case dispatch =>
    intro s w m elided sec g p c d hg hp hc apartP apartC hd
    obtain ⟨t, parked, running⟩ := State.dispatchMeld_parked hg hp hc apartP apartC elided sec
    refine ⟨⟨t, parked ▸ List.mem_append_right _ List.mem_cons_self, running⟩, _,
      State.dispatchMeld_die hg hp hc apartP apartC elided sec hd, ?_⟩
    obtain ⟨melds, formed, elided', kept⟩ := (d.dispatched m elided).freed_counts w.gid m.p
    rw [melds, formed, elided', kept]
    refine ⟨rfl, List.mem_append_right _ List.mem_cons_self, ?_⟩
    cases elided <;> simp [Die.dispatched]
  case refused =>
    intro s g n r _ _
    refine ⟨fun zero => if_neg ?_, fun one => if_pos one⟩
    rw [zero]
    exact Nat.not_succ_le_zero 0

end Sys2Proof.Machine
end

section
/-! SUPPORT. Integer and floating comparisons, picks, reductions and mask counts: the shared lemmas of Laws/Vector.lean in the terms of the
statements O10, O26, O29 and O31. -/

namespace Sys2Proof.Machine

/-! ## Where a word issues -/

theorem State.AtWord.mayIssue {s : State} {b : Block} (h : s.AtWord b) : s.mayIssue .l = true := by
  rcases h.party with p | ⟨e, p⟩ <;> simp [State.mayIssue, p]

theorem State.AtBlock.mayIssue {s : State} {b : Block} (h : s.AtBlock b) : s.mayIssue .b = true := by
  simp [State.mayIssue, h.party]

theorem State.mayIssue_b_eq_false {s : State} (h : s.cur ≠ .vector) : s.mayIssue .b = false := by
  unfold State.mayIssue
  cases hc : s.cur <;> simp_all

/-! ## The second operand of a VA word -/

/-- The register group that is the second operand of a comparison, if it is one. -/
def Src.group : Src → Option (BitVec 5)
  | .vv vs1 => some vs1
  | _ => none

theorem Src.value_vi (imm : BitVec 5) (s : State) (w i : Nat) : (Src.vi imm).value s w i = wrapN imm.toInt w := by
  have : sextN imm.toNat 5 = imm.toInt := by
    rw [sextN, Nat.mod_eq_of_lt imm.isLt, BitVec.toInt_eq_toNat_cond]
    simp only [OfNat.ofNat_ne_zero, if_false]
    split <;> split <;> omega
  rw [Src.value, this]

/-- R158: with LMUL above 1 the destination of a comparison lies outside the source groups. -/
theorem Task.cmpDstOk_iff (t : Task) (vd vs2 : BitVec 5) (src : Src) : t.cmpDstOk vd vs2 src = true ↔
    t.lmul = 1 ∨ (overlap vd.toNat 1 vs2.toNat t.lmul = false ∧
      ∀ v, src.group = some v → overlap vd.toNat 1 v.toNat t.lmul = false) := by
  cases src <;> simp [Task.cmpDstOk, Src.group]

/-! ## Comparisons and picks -/

section
variable {s : State} {b : Block} {i : Instr} {a : Attr} {vd vs2 : BitVec 5} {vm : BitVec 1}

/-- A comparison of integers: its mask bits, and its fault where the destination lies inside a source group. -/
theorem State.AtWord.compares (h : s.AtWord b) (ha : s.mayIssue a = true) (src : Src) {f : Nat → Nat → Nat → Bool}
    (e : exec i s = s.issue a true (fun s => s.cmpWord vd vs2 src vm f)) {second : Nat → Nat}
    (hs : ∀ k, second k = src.value s s.task.sew k) {apart : Prop} (hd : s.task.cmpDstOk vd vs2 src = true ↔ apart) :
    (apart → s.task.groupsOk { srcs := (vs2.toNat, s.task.lmul) :: src.groups s.task.lmul, dsts := [(vd.toNat, 1)] } vm = true →
      s.WritesBits i vd.toNat (forBits (s.actives vm) (fun k => f s.task.sew (s.task.elem s.task.sew vs2.toNat k) (second k)))) ∧
    (¬apart → exec i s = .next (s.takeFault { cause := 0x01 })) := by
  rw [s.issue_of a _ ha] at e
  obtain rfl : second = src.value s s.task.sew := funext hs
  refine ⟨fun ap hg => State.cmpWord_writes h (hd.mpr ap) hg e, fun ap => e.trans (State.cmpWord_bad s ?_)⟩
  rwa [← hd, Bool.not_eq_true] at ap

/-- A comparison of floating values. -/
theorem State.AtWord.floatCompares (h : s.AtWord b) (ha : s.mayIssue a = true) {f : Fmt} (hf : fmtOf s.task.sew s.task.fk = some f)
    (src : Src) {op : Fmt → Nat → Nat → Bool} (e : exec i s = s.issue a true (fun s => s.floatCmp vd vs2 src vm op))
    {apart : Prop} (hd : s.task.cmpDstOk vd vs2 src = true ↔ apart) :
    (apart → s.task.groupsOk { srcs := (vs2.toNat, s.task.lmul) :: src.groups s.task.lmul, dsts := [(vd.toNat, 1)] } vm = true →
      s.WritesBits i vd.toNat (forBits (s.actives vm) (fun k =>
        op f (s.task.elem s.task.sew vs2.toNat k) (src.value s s.task.sew k)))) ∧
    (¬apart → exec i s = .next (s.takeFault { cause := 0x01 })) := by
  rw [s.issue_of a _ ha] at e
  refine ⟨fun ap hg => State.floatCmp_writes h hf (hd.mpr ap) hg e, fun ap => e.trans (State.floatCmp_bad s hf ?_)⟩
  rwa [← hd, Bool.not_eq_true] at ap

/-- A word that picks a pattern for each element without a rounding. -/
theorem State.AtWord.picks (h : s.AtWord b) (ha : s.mayIssue a = true) {f : Fmt} (hf : fmtOf s.task.sew s.task.fk = some f)
    (src : Src) {op : Fmt → Nat → Nat → Nat} (e : exec i s = s.issue a true (fun s => s.floatPick vd vs2 src vm op))
    (hg : s.task.groupsOk { srcs := (vs2.toNat, s.task.lmul) :: src.groups s.task.lmul, dsts := [(vd.toNat, s.task.lmul)] } vm = true) :
    s.Writes i s.task.sew vd.toNat s.task.lmul (forElems (s.actives vm) (fun k =>
      op f (s.task.elem s.task.sew vs2.toNat k) (src.value s s.task.sew k))) :=
  State.floatPick_writes h hf hg (e.trans (s.issue_of a _ ha))

end

/-- Settles O26: each word is the shared comparison over its second operand, with the destination that R158 lets it have. -/
theorem integerCompares : Obligations.IntegerCompares := by
  unfold Obligations.IntegerCompares
  intro s b vd vs2 vs1 xs imm rsz c2 c1 vm w m vv vx vi vr apart asserts
  have group (v : BitVec 5) := s.task.cmpDstOk_iff vd vs2 (.vv v)
  have alone (src : Src) := s.task.cmpDstOk_iff vd vs2 src
  refine ⟨fun h => ⟨?_, ?_, ?_, ?_, ?_, ?_, ?_, ?_, ?_⟩, fun h => ⟨?_, ?_, ?_⟩⟩
  · exact h.compares h.mayIssue (.vv vs1) (exec_vmseqVV ..) (fun _ => rfl) (group vs1)
  · exact h.compares h.mayIssue (.vx xs) (exec_vmseqVX ..) (fun _ => rfl) (alone _)
  · exact h.compares h.mayIssue (.vi imm) (exec_vmseqVI ..) (fun k => (Src.value_vi imm s w k).symm) (alone _)
  · exact h.compares h.mayIssue (.vv vs1) (exec_vmsltVV ..) (fun _ => rfl) (group vs1)
  · exact h.compares h.mayIssue (.vx xs) (exec_vmsltVX ..) (fun _ => rfl) (alone _)
  · exact h.compares h.mayIssue (.vi imm) (exec_vmsltVI ..) (fun k => (Src.value_vi imm s w k).symm) (alone _)
  · exact h.compares h.mayIssue (.vv vs1) (exec_vmsltuVV ..) (fun _ => rfl) (group vs1)
  · exact h.compares h.mayIssue (.vx xs) (exec_vmsltuVX ..) (fun _ => rfl) (alone _)
  · exact h.compares h.mayIssue (.vi imm) (exec_vmsltuVI ..) (fun k => (Src.value_vi imm s w k).symm) (alone _)
  · exact h.word.compares h.mayIssue (.vr vs1 rsz) (exec_vmseqVR ..) (fun _ => rfl) (alone _)
  · exact h.word.compares h.mayIssue (.vr vs1 rsz) (exec_vmsltVR ..) (fun _ => rfl) (alone _)
  · exact h.word.compares h.mayIssue (.vr vs1 rsz) (exec_vmsltuVR ..) (fun _ => rfl) (alone _)

/-- Settles O31: each word is the shared pick or comparison, neither of which draws or counts. -/
theorem floatPicksAndCompares : Obligations.FloatPicksAndCompares := by
  unfold Obligations.FloatPicksAndCompares
  intro s b f vd vs2 vs1 xs rsz c2 c1 vm hf w m vv vx vr pick apart cmp
  have dst (src : Src) := s.task.cmpDstOk_iff vd vs2 src
  refine ⟨fun h => ⟨?_, ?_, ?_, ?_, ?_, ?_, ?_, ?_, ?_, ?_, ?_, ?_, ?_, ?_, ?_, ?_⟩, fun h => ⟨?_, ?_, ?_, ?_, ?_, ?_, ?_, ?_⟩⟩
  · exact h.picks h.mayIssue hf (.vv vs1) (exec_vfminFVV ..)
  · exact h.picks h.mayIssue hf (.vx xs) (exec_vfminFVX ..)
  · exact h.picks h.mayIssue hf (.vv vs1) (exec_vfmaxFVV ..)
  · exact h.picks h.mayIssue hf (.vx xs) (exec_vfmaxFVX ..)
  · exact h.picks h.mayIssue hf (.vv vs1) (exec_vfsgnjFVV ..)
  · exact h.picks h.mayIssue hf (.vx xs) (exec_vfsgnjFVX ..)
  · exact h.picks h.mayIssue hf (.vv vs1) (exec_vfsgnjnFVV ..)
  · exact h.picks h.mayIssue hf (.vx xs) (exec_vfsgnjnFVX ..)
  · exact h.picks h.mayIssue hf (.vv vs1) (exec_vfsgnjxFVV ..)
  · exact h.picks h.mayIssue hf (.vx xs) (exec_vfsgnjxFVX ..)
  · exact h.floatCompares h.mayIssue hf (.vv vs1) (exec_vfmfeqFVV ..) (dst _)
  · exact h.floatCompares h.mayIssue hf (.vx xs) (exec_vfmfeqFVX ..) (dst _)
  · exact h.floatCompares h.mayIssue hf (.vv vs1) (exec_vfmfltFVV ..) (dst _)
  · exact h.floatCompares h.mayIssue hf (.vx xs) (exec_vfmfltFVX ..) (dst _)
  · exact h.floatCompares h.mayIssue hf (.vv vs1) (exec_vfmfleFVV ..) (dst _)
  · exact h.floatCompares h.mayIssue hf (.vx xs) (exec_vfmfleFVX ..) (dst _)
  · exact h.word.picks h.mayIssue hf (.vr vs1 rsz) (exec_vfminFVR ..)
  · exact h.word.picks h.mayIssue hf (.vr vs1 rsz) (exec_vfmaxFVR ..)
  · exact h.word.picks h.mayIssue hf (.vr vs1 rsz) (exec_vfsgnjFVR ..)
  · exact h.word.picks h.mayIssue hf (.vr vs1 rsz) (exec_vfsgnjnFVR ..)
  · exact h.word.picks h.mayIssue hf (.vr vs1 rsz) (exec_vfsgnjxFVR ..)
  · exact h.word.floatCompares h.mayIssue hf (.vr vs1 rsz) (exec_vfmfeqFVR ..) (dst _)
  · exact h.word.floatCompares h.mayIssue hf (.vr vs1 rsz) (exec_vfmfltFVR ..) (dst _)
  · exact h.word.floatCompares h.mayIssue hf (.vr vs1 rsz) (exec_vfmfleFVR ..) (dst _)

/-! ## Mask counts, reductions, VCOMPRESS -/

section
variable {s : State} {b : Block} {i : Instr} {vd vs2 : BitVec 5} {vm : BitVec 1}

theorem forElems_nil (f : Nat → Nat) : forElems [] f = fun _ => none := by
  funext k
  simp [forElems]

theorem forElems_singleton (j : Nat) (f : Nat → Nat) : forElems [j] f = fun k => if k = j then some (f k) else none := by
  funext k
  simp [forElems]

/-- A mask count writes element 0 where vl is above 0, and nothing where it is 0 (R163). -/
theorem State.AtBlock.counts (h : s.AtBlock b) {f : State → Nat} (e : exec i s = s.issue .b true (fun s => s.countWord vd vs2 vm f))
    (hg : s.task.groupsOk { srcs := [(vs2.toNat, 1)], dsts := [(vd.toNat, s.task.lmul)] } vm = true) :
    (0 < s.task.vl → s.Writes i s.task.sew vd.toNat 1 (fun k => if k = 0 then some (f s) else none)) ∧
    (s.task.vl = 0 → s.Writes i s.task.sew vd.toNat 1 (fun _ => none)) := by
  have w := State.countWord_writes h.word hg (e.trans (h.issue _))
  refine ⟨fun pos => ?_, fun zero => ?_⟩
  · rwa [if_neg (Nat.ne_of_gt pos), forElems_singleton] at w
  · rwa [if_pos zero, forElems_nil] at w

theorem State.AtBlock.countWord_bad (h : s.AtBlock b) {f : State → Nat}
    (e : exec i s = s.issue .b true (fun s => s.countWord vd vs2 vm f))
    (hg : s.task.groupsOk { srcs := [(vs2.toNat, 1)], dsts := [(vd.toNat, s.task.lmul)] } vm = false) :
    exec i s = .next (s.takeFault { cause := 0x01 }) := by
  rw [e, h.issue, State.countWord, State.vectorWord_bad s hg]
  rfl

theorem State.AtBlock.reduces (h : s.AtBlock b) {op : Nat → Nat → Nat → Nat}
    (e : exec i s = s.issue .b true (fun s => s.reduceWord vd vs2 vm op))
    (hg : s.task.groupsOk { srcs := [(vs2.toNat, s.task.lmul)], dsts := [(vd.toNat, 1)] } vm = true) :
    s.Writes i s.task.sew vd.toNat 1 (forElems (if s.task.vl = 0 then [] else [0]) (fun _ => s.reduceValue vd vs2 vm op)) :=
  State.reduceWord_writes h.word hg (e.trans (h.issue _))

theorem State.length_activesFrom0_le (s : State) (vm : BitVec 1) : (s.activesFrom0 vm).length ≤ s.task.vlmax :=
  (List.length_filter_le _ _).trans (by rw [List.length_range]; exact Nat.min_le_right _ _)

/-- A list of values numbered from 0, as a value for each number below its length. -/
theorem mapIdx_eq_map_range (l : List Nat) (v : Nat → Nat) :
    l.mapIdx (fun k i => (k, v i)) = (List.range l.length).map (fun k => (k, v ((l[k]?).getD 0))) := by
  refine List.ext_getElem (by simp) (fun k hk _ => ?_)
  have : k < l.length := by simpa using hk
  simp [this]

theorem forElems_range_length (l : List Nat) (v : Nat → Nat) :
    forElems (List.range l.length) (fun k => v ((l[k]?).getD 0)) = fun k => (l[k]?).map v := by
  funext k
  by_cases hk : k < l.length <;> simp [forElems, hk]

/-- VCOMPRESS packs the elements whose bit of v0 is 1 from element 0 on (R164). -/
theorem State.AtBlock.vcompress_writes (h : s.AtBlock b) (c2 : BitVec 1)
    (ho : overlap vd.toNat s.task.lmul vs2.toNat s.task.lmul = false)
    (hg : s.task.groupsOk { srcs := [(vs2.toNat, s.task.lmul)], dsts := [(vd.toNat, s.task.lmul)] } 0 = true) :
    s.Writes (.vcompress vd vs2 c2) s.task.sew vd.toNat s.task.lmul
      (fun k => ((s.activesFrom0 0)[k]?).map (fun i => s.task.elem s.task.sew vs2.toNat i)) := by
  rw [← forElems_range_length]
  refine ⟨_, ?_, Task.setElems_wrote s.task s.task.sew vd.toNat s.task.lmul (List.range (s.activesFrom0 0).length) _ h.runs.registers
    s.task.sew_pos (Task.groupsOk_dst hg (by simp)) (fun k hk => ?_) List.nodup_range⟩
  · rw [exec_vcompress, execVcompress, h.issue]
    simp only [ho, Bool.false_eq_true, if_false, State.vectorWord_of h.runs hg, mapIdx_eq_map_range]
    rfl
  · rw [← Task.vlmax_eq]
    exact (List.mem_range.mp hk).trans_le (s.length_activesFrom0_le 0)

end

/-- Settles O10: both words are the shared mask count, which R95 lets vector mode alone issue. -/
theorem maskCounts : Obligations.MaskCounts := by
  unfold Obligations.MaskCounts
  refine ⟨?block, fun s vd vs2 c2 vm h => ⟨?_, ?_⟩⟩
  case block =>
    intro s b vd vs2 c2 vm h hg marked first
    exact ⟨h.counts (exec_vmpopc ..) hg, h.counts (exec_vmfirst ..) hg⟩
  · exact (exec_vmpopc ..).trans (s.issue_bad .b true _ (State.mayIssue_b_eq_false h))
  · exact (exec_vmfirst ..).trans (s.issue_bad .b true _ (State.mayIssue_b_eq_false h))

/-- Settles O29: the reductions are one shared fold, VMPOPC and VMFIRST the shared mask count. -/
theorem integerReductions : Obligations.IntegerReductions := by
  unfold Obligations.IntegerReductions
  intro s b vd vs2 c2 vm h w m zero red count picked
  refine ⟨h.reduces (exec_vredsum ..), h.reduces (exec_vredmin ..), h.reduces (exec_vredmax ..), h.reduces (exec_vredand ..),
    h.reduces (exec_vredor ..), h.reduces (exec_vredxor ..), h.countWord_bad (exec_vmpopc ..), h.countWord_bad (exec_vmfirst ..),
    h.vcompress_writes c2, fun ho => ?_⟩
  rw [exec_vcompress, execVcompress, h.issue]
  exact congrArg Act.outcome (if_pos ho)

end Sys2Proof.Machine
end

section
/-! SUPPORT. Vector memory: the load, the store and the read-modify-write of Laws/VectorMemory.lean in the terms of the statements O35, O36
and O37. -/

namespace Sys2Proof.Machine

/-! ## Where a memory word issues -/

section
variable {s : State} {b : Block} {i : Instr} {a : Attr} {eew : BitVec 3} {g : Groups} {vm : BitVec 1} {xs : List (BitVec 5)}
  {k : State → Act}

/-- A memory word whose width field names SEW and whose groups are legal runs. -/
theorem State.AtWord.memoryIssue (h : s.AtWord b) (ha : s.mayIssue a = true) (he : eew.toNat = s.task.sewCode) (h4 : eew.toNat < 4)
    (hg : s.task.groupsOk g vm = true) {q : State → Act} (e : exec i s = s.issue a (eew.toNat < 4) q)
    (hq : q s = s.memoryWord eew g vm xs k) : exec i s = (k s).outcome := by
  rw [e, decide_eq_true h4, s.issue_of a _ ha, hq, State.memoryWord_of h he hg]

theorem State.memoryWord_width (s : State) (he : eew.toNat ≠ s.task.sewCode) : s.memoryWord eew g vm xs k = .trap s illegal :=
  if_pos (by simp [he])

/-- A word that answers 0x01 where it runs answers 0x01 where its fields are ill-formed too (R94). -/
theorem State.issue_illegal (s : State) (a : Attr) (wf : Bool) {k : State → Act} (hk : k s = .trap s illegal) :
    s.issue a wf k = .next (s.takeFault { cause := 0x01 }) := by
  unfold State.issue
  split
  · rw [hk]; rfl
  · rfl

end

/-! ## Read-modify-writes -/

/-- Whether memory is plain is a matter of the task's names, its block and its windows alone. -/
theorem State.Plain.ofTask {s : State} (h : s.Plain) {u : Task} (hid : u.id = s.task.id) (hb : u.block = s.task.block)
    (hw : u.windows = s.task.windows) : ({ s with task := u } : State).Plain := by
  refine ⟨?_, h.stash, fun va => ?_, h.poison⟩
  · have region := h.region
    unfold State.det State.isDet State.effFlags State.effField State.chain at region ⊢
    have same (c : Nat) (r : Word) : ({ s with task := u } : State).lineage c r 9 = s.lineage c r 9 := State.lineage_congr rfl c r 9
    rwa [same, hid]
  · have window := h.windows va
    unfold State.inWindow at window ⊢
    rwa [hb, hw]

/-- The commit of a VAMO where memory is plain. -/
theorem State.commitAmo_of {s : State} (hp : s.Plain) (vd : BitVec 5) (n : Nat) (op : Nat → Nat → Nat → Nat) (ps : List (Nat × Place)) :
    ∃ t, s.commitAmo vd n op ps = .ok t ∧ s.AmoAll t vd.toNat n (op (8 * n)) ps := by
  induction ps generalizing s with
  | nil => exact ⟨s, rfl, rfl⟩
  | cons p ps ih =>
    obtain ⟨x, q⟩ := p
    let old := leVal ((List.range n).map (fun j => s.readPlain q.km (q.key + j)))
    obtain ⟨u, hu, stored⟩ := hp.storeAt q (bytesOf (op (8 * n) old (s.task.elem (8 * n) vd.toNat x)) n) 0
    obtain ⟨t, ht, rest⟩ := ih ((stored.plain hp).ofTask (u := u.task.setElem (8 * n) vd.toNat x old) rfl rfl rfl)
    refine ⟨t, ?_, u, stored, rest⟩
    simp only [State.commitAmo, hp.afterRead, hp.viewNat]
    rw [hu]
    exact ht

section
variable {s : State} {b : Block} {i : Instr} {vd vs2 rs1 : BitVec 5} {eew : BitVec 3} {vm : BitVec 1} {op : Nat → Nat → Nat → Nat}

/-- A VAMO whose active elements all find their places. -/
theorem State.AtWord.vamo_done (h : s.AtWord b) (hp : s.Plain) (hw : 32 ≤ s.task.sew)
    (ho : overlap vd.toNat s.task.lmul vs2.toNat s.task.lmul = false) (he : eew.toNat = s.task.sewCode) (h4 : eew.toNat < 4)
    (hg : s.task.groupsOk { srcs := [(vs2.toNat, s.task.lmul)], dsts := [(vd.toNat, s.task.lmul)] } vm = true)
    (e : exec i s = s.issue .l (eew.toNat < 4) (fun s => s.vamo vd vs2 rs1 eew vm op)) (pl : Nat → Place)
    (found : ∀ x ∈ s.actives vm, (s.indexedAddr rs1 vs2 x).toNat % (s.task.sew / 8) = 0 ∧
      s.placeFor .atomic (s.indexedAddr rs1 vs2 x) (s.task.sew / 8) = .ok (pl x)) :
    ∃ t, exec i s = .next t.advance ∧
      s.AmoAll t vd.toNat (s.task.sew / 8) (op s.task.sew) ((s.actives vm).map (fun x => (x, pl x))) := by
  obtain ⟨t, ht, all⟩ := State.commitAmo_of hp vd (s.task.sew / 8) op ((s.actives vm).map (fun x => (x, pl x)))
  rw [s.task.sew_bytes] at all
  refine ⟨t, ?_, all⟩
  have wide : ¬(decide (s.task.sew < 32) || overlap vd.toNat s.task.lmul vs2.toNat s.task.lmul) = true := by simp [ho, hw]
  rw [e, decide_eq_true h4, h.issue]
  unfold State.vamo
  rw [if_neg wide, State.memoryWord_of h he hg]
  simp only [State.probeActive_all h.runs .atomic (s.task.sew / 8) vm _ (s.indexedAddr rs1 vs2) pl found, ht]
  rfl

/-- A VAMO of narrow elements, or whose groups overlap, raises 0x01 (R305). -/
theorem State.vamo_bad (hb : s.task.sew < 32 ∨ overlap vd.toNat s.task.lmul vs2.toNat s.task.lmul = true)
    (e : exec i s = s.issue .l (eew.toNat < 4) (fun s => s.vamo vd vs2 rs1 eew vm op)) :
    exec i s = .next (s.takeFault { cause := 0x01 }) := by
  refine e.trans (s.issue_illegal .l _ ?_)
  unfold State.vamo
  rw [if_pos (by simpa using hb)]

end

/-- Settles O37: the five words are one read-modify-write, each with its own operation. -/
theorem vectorAtomics : Obligations.VectorAtomics := by
  unfold Obligations.VectorAtomics
  intro s b vd vs2 rs1 eew vm hp h w n m addr asserts
  have word {i : Instr} (op : Nat → Nat → Nat → Nat) (e : exec i s = s.issue .l (eew.toNat < 4) (fun s => s.vamo vd vs2 rs1 eew vm op))
      {result : Nat → Nat → Nat} (hr : op w = result) : asserts i result :=
    hr ▸ ⟨fun hw ho he h4 hg pl found => h.vamo_done hp hw ho he h4 hg e pl found, fun hb => State.vamo_bad hb e⟩
  have bytes : 8 * (w / 8) = w := s.task.sew_bytes
  refine ⟨word amoAdd (exec_vamoadd ..) rfl, word amoMin (exec_vamomin ..) ?_, word amoMax (exec_vamomax ..) ?_,
    word amoSwap (exec_vamoswap ..) rfl, word amoXor (exec_vamoxor ..) rfl⟩
  · funext a x
    rw [amoMin, minS, bytes]
  · funext a x
    rw [amoMax, maxS, bytes]

/-- Settles O35: the three words are one load, over three rules of the address. -/
theorem vectorLoads : Obligations.VectorLoads := by
  unfold Obligations.VectorLoads
  intro s b vd vs2 rs1 rs2 pol eew c vm hp n m unit strided indexed value found fails asserts
  have load {i : Instr} (h : s.AtWord b) (hn : vd.toNat + s.task.lmul ≤ 32) (rs : List Reading) (addr : Nat → Word)
      (e : exec i s = (s.loadWord vd pol vm rs addr).outcome) : asserts i addr :=
    ⟨fun pl => (State.loadWord_of h hp hn pol vm rs addr i e pl).1, fun pl => (State.loadWord_of h hp hn pol vm rs addr i e pl).2⟩
  refine ⟨fun h he h4 hg => ?_, fun h he h4 ho hg => ?_, fun h he => ⟨?_, ?_, ?_⟩⟩
  · have hn := Task.groupsOk_dst hg (List.mem_singleton_self _)
    exact ⟨load h.word hn [] unit (h.word.memoryIssue h.mayIssue he h4 hg (exec_vle ..) rfl),
      load h.word hn [] strided (h.word.memoryIssue h.mayIssue he h4 hg (exec_vlse ..) rfl)⟩
  · exact load h (Task.groupsOk_dst hg (List.mem_singleton_self _)) _ indexed
      (h.memoryIssue h.mayIssue he h4 hg (exec_vlxe ..) (if_neg (Bool.eq_false_iff.mp ho)))
  · exact (exec_vle ..).trans (s.issue_illegal .b _ (s.memoryWord_width he))
  · exact (exec_vlse ..).trans (s.issue_illegal .b _ (s.memoryWord_width he))
  · refine (exec_vlxe ..).trans (s.issue_illegal .l _ ?_)
    simp only [s.memoryWord_width he, ite_self]

/-- Settles O36: the three words are one store, over three rules of the address. -/
theorem vectorStores : Obligations.VectorStores := by
  unfold Obligations.VectorStores
  intro s b vs3 vs2 rs1 rs2 pol eew c vm hp n m unit strided indexed found fails stores asserts
  have store {i : Instr} (h : s.AtWord b) (rs : List Reading) (addr : Nat → Word)
      (e : exec i s = (s.storeWord vs3 pol vm rs addr).outcome) : asserts i addr :=
    ⟨fun pl => (State.storeWord_of h hp vs3 pol vm rs addr i e pl).1, fun pl => (State.storeWord_of h hp vs3 pol vm rs addr i e pl).2⟩
  refine ⟨fun h he h4 hg => ⟨?_, ?_⟩, fun h he h4 hg => ?_⟩
  · exact store h.word [] unit (h.word.memoryIssue h.mayIssue he h4 hg (exec_vse ..) rfl)
  · exact store h.word [] strided (h.word.memoryIssue h.mayIssue he h4 hg (exec_vsse ..) rfl)
  · exact store h _ indexed (h.memoryIssue h.mayIssue he h4 hg (exec_vsxe ..) rfl)

end Sys2Proof.Machine
end

section
/-! SUPPORT. Packed products and the guard test (R211 to R219): the shared product, once for VPMUL, VPMACC and VPCONV, and the statement O39. -/

namespace Sys2Proof.Machine

/-! ## Words with a plan -/

/-- A word whose groups are legal runs under a plan that keeps its checks, and raises 0x08 under one that breaks them (R211). -/
theorem State.vectorWord_plan {s : State} {b : Block} (h : s.task.Runs b) {g : Groups} {vm : BitVec 1} (hg : s.task.groupsOk g vm = true)
    (rs : State → List Reading) (k : State → Act) (planOk : Bool) :
    s.vectorWord g vm rs k planOk = if planOk then k s else .trap s (cause 0x08) := by
  have free : ((g.srcs ++ g.loose) ++ g.dsts).any s.task.anyBound = false := by simp [h.anyBound]
  rw [State.vectorWord, State.vectorForm, hg]
  simp only [Bool.not_true, Bool.false_eq_true, if_false, State.withStreams, free, Bool.not_false, if_true, h.needClean, h.noteLatent]

/-- A register holds twice as many 64-bit elements as 128-bit ones (R143). -/
theorem Task.perReg_64 (t : Task) : t.perReg 64 = 2 * t.perReg 128 := by
  have : t.vlenb = 512 * (t.id.grant * t.fold) := by
    rw [Task.vlenb, Nat.mul_assoc, Nat.mul_left_comm]
  rw [Task.perReg, Task.perReg, this]
  omega

theorem State.actives_lt_64 {s : State} (h64 : s.task.sew = 64) {vm : BitVec 1} {i : Nat} (hi : i ∈ s.actives vm) :
    i < s.task.lmul * s.task.perReg 64 := by
  rw [← h64, ← Task.vlmax_eq]
  exact s.actives_lt vm i hi

theorem State.actives_lt_128 {s : State} (h64 : s.task.sew = 64) {vm : BitVec 1} {i : Nat} (hi : i ∈ s.actives vm) :
    i < 2 * s.task.lmul * s.task.perReg 128 := by
  have := s.actives_lt_64 h64 hi
  rwa [Task.perReg_64, Nat.mul_left_comm, ← Nat.mul_assoc] at this

/-! ## The guard test (R214) -/

section
variable {s : State} {p : Plan} {vs2 vs1 : BitVec 5} {c : Option Nat} {vm : BitVec 1}

theorem Plan.fails_eq_true {x y : Nat} (h : 2 ^ (p.s - 1) ≤ p.bound x y) : p.fails x y = true := decide_eq_true h

theorem Plan.fails_eq_false {x y : Nat} (h : p.bound x y < 2 ^ (p.s - 1)) : p.fails x y = false :=
  decide_eq_false (Nat.not_le.mpr h)

theorem State.guardFailure_none
    (h : ∀ e ∈ s.actives vm, p.bound (s.task.elem 64 vs2.toNat e) (s.packedB vs1 c e) < 2 ^ (p.s - 1)) :
    s.guardFailure p vs2 vs1 c vm = none := by
  refine List.findSome?_eq_none_iff.mpr (fun e he => ?_)
  simp only [Plan.fails_eq_false (h e he), Bool.false_eq_true, if_false]

/-- The test names the lowest active element that fails it. -/
theorem State.guardFailure_some {e : Nat} (he : e ∈ s.actives vm)
    (high : 2 ^ (p.s - 1) ≤ p.bound (s.task.elem 64 vs2.toNat e) (s.packedB vs1 c e))
    (low : ∀ f ∈ s.actives vm, f < e → p.bound (s.task.elem 64 vs2.toNat f) (s.packedB vs1 c f) < 2 ^ (p.s - 1)) :
    s.guardFailure p vs2 vs1 c vm = some (e, p.bound (s.task.elem 64 vs2.toNat e) (s.packedB vs1 c e)) := by
  obtain ⟨rest, split⟩ := ascending_split (s.pairwise_actives vm) he
  refine List.findSome?_eq_some_iff.mpr ⟨_, e, rest, split, ?_, fun f hf => ?_⟩
  · simp only [Plan.fails_eq_true high, if_true]
  · obtain ⟨active, less⟩ := List.mem_filter.mp hf
    simp only [Plan.fails_eq_false (low f active (of_decide_eq_true less)), Bool.false_eq_true, if_false]

/-- A ternary code read in either operand (R212). -/
theorem State.ternaryRead_eq : s.ternaryRead p vs2 vs1 c vm =
    ((s.actives vm).any (fun i => p.ternary (s.task.elem 64 vs2.toNat i) p.sa) ||
      ((s.actives vm).map (s.packedB vs1 c)).any (fun y => p.ternary y p.sb)) := by
  rw [State.ternaryRead, List.any_map, Bool.eq_iff_iff]
  simp only [Bool.or_eq_true, List.any_eq_true, Function.comp_apply, and_or_left, exists_or]

/-- ternl set in the task on stage (R212). -/
def State.markTernl (t : State) (hit : Bool) : State := if hit then t.onTask (fun u => { u with astat := u.astat ||| 2 }) else t

theorem State.setTernl_eq (u : Task) (hit : Bool) :
    ({ s with task := u.setTernl hit } : State) = ({ s with task := u } : State).markTernl hit := by
  cases hit <;> rfl

end

/-! ## The product (R217, R219) -/

/-- The checks of a packed product that come before those of its plan: SEW, LMUL, and groups apart and legal. -/
structure State.ProductForm (s : State) (vd vs2 vs1 : BitVec 5) (c : Option Nat) (vm : BitVec 1) (adds : Bool) : Prop where
  sew : s.task.sew = 64
  lmul : s.task.lmul ≠ 8
  apart2 : overlap vd.toNat (2 * s.task.lmul) vs2.toNat s.task.lmul = false
  apart1 : overlap vd.toNat (2 * s.task.lmul) vs1.toNat (if c.isSome then 1 else s.task.lmul) = false
  groups : s.task.groupsOk
    { srcs := (vs2.toNat, s.task.lmul) :: (vs1.toNat, if c.isSome then 1 else s.task.lmul) ::
        (if adds then [(vd.toNat, 2 * s.task.lmul)] else []), dsts := [(vd.toNat, 2 * s.task.lmul)] } vm = true

section
variable {s : State} {b : Block} {i : Instr} {vd vs2 vs1 : BitVec 5} {fl : BitVec 2} {c : Option Nat} {vm : BitVec 1} {adds : Bool}
variable (h : s.AtBlock b) (form : s.ProductForm vd vs2 vs1 c vm adds)
  (e : exec i s = s.issue .b true (fun s => s.packedProduct vd fl vs2 vs1 c vm adds))
include h form e

/-- A product whose encoding is in order, under its plan and then under the guard test. -/
theorem State.AtBlock.packedProduct_of : exec i s =
    (if ((s.task.plan fl).laneOk && (c.isNone || (s.task.plan fl).kind == 2)) = true then
      match s.guardFailure (s.task.plan fl) vs2 vs1 c vm with
      | some (x, y) => Act.trap s { cause := 0x07, elem := some x, info := BitVec.ofNat 32 (min y 0xFFFFFFFF) }
      | none => .go (s.onTask (fun t => (t.setElems 128 vd.toNat ((s.actives vm).map (fun x =>
          let y := (s.task.plan fl).valA (s.task.elem 64 vs2.toNat x) * (s.task.plan fl).valB (s.packedB vs1 c x)
          (x, wrapN (if adds then sextN (s.task.elem 128 vd.toNat x) 128 + y else y) 128)))).setTernl
            (s.ternaryRead (s.task.plan fl) vs2 vs1 c vm)))
    else .trap s (cause 0x08)).outcome := by
  obtain ⟨sew, lmul, apart2, apart1, groups⟩ := form
  rw [e, h.issue, State.packedProduct]
  simp only [sew, lmul, apart2, apart1, ne_eq, not_true, Bool.false_eq_true, or_self, if_false, State.vectorWord_plan h.runs groups] <;> rfl

theorem State.AtBlock.packedProduct_badPlan (bad : (s.task.plan fl).laneOk = false ∨ (c.isNone || (s.task.plan fl).kind == 2) = false) :
    exec i s = .next (s.takeFault { cause := 0x08 }) := by
  rw [h.packedProduct_of form e, if_neg (by rcases bad with q | q <;> simp [q])]
  rfl

theorem State.AtBlock.packedProduct_guard (ok : (s.task.plan fl).laneOk = true) (kind : (c.isNone || (s.task.plan fl).kind == 2) = true)
    {x y : Nat} (fails : s.guardFailure (s.task.plan fl) vs2 vs1 c vm = some (x, y)) :
    exec i s = .next (s.takeFault { cause := 0x07, elem := some x, info := BitVec.ofNat 32 (min y 0xFFFFFFFF) }) := by
  rw [h.packedProduct_of form e, if_pos (by rw [ok, kind]; rfl), fails]
  rfl

theorem State.AtBlock.packedProduct_writes (ok : (s.task.plan fl).laneOk = true) (kind : (c.isNone || (s.task.plan fl).kind == 2) = true)
    (passes : s.guardFailure (s.task.plan fl) vs2 vs1 c vm = none) :
    s.Writes i 128 vd.toNat (2 * s.task.lmul) (forElems (s.actives vm) (fun x =>
      wrapN ((if adds then sextN (s.task.elem 128 vd.toNat x) 128 else 0) +
        (s.task.plan fl).valA (s.task.elem 64 vs2.toNat x) * (s.task.plan fl).valB (s.packedB vs1 c x)) 128))
      (fun t => t.markTernl (s.ternaryRead (s.task.plan fl) vs2 vs1 c vm)) := by
  refine ⟨_, ?_, Task.setElems_wrote s.task 128 vd.toNat (2 * s.task.lmul) (s.actives vm) _ h.runs.registers (by decide)
    (Task.groupsOk_dst form.groups (List.mem_singleton_self _)) (fun x hx => s.actives_lt_128 form.sew hx) (s.nodup_actives vm)⟩
  rw [h.packedProduct_of form e, if_pos (by rw [ok, kind]; rfl), passes]
  refine Eq.trans ?_ (congrArg (fun t : State => Host.Outcome.next t.advance) (s.setTernl_eq _ _))
  cases adds
  · simp only [Bool.false_eq_true, if_false, zero_add]
    rfl
  · rfl

end

/-! ## VPGUARD (R218) -/

section
variable {s : State} {b : Block} {vd vs2 vs1 : BitVec 5} {vm : BitVec 1}

theorem State.AtBlock.vpguard_writes (h : s.AtBlock b) (fl : BitVec 2) (c2 c1 : BitVec 1) (h64 : s.task.sew = 64)
    (hd : s.task.cmpDstOk vd vs2 (.vv vs1) = true)
    (hg : s.task.groupsOk { srcs := [(vs2.toNat, s.task.lmul), (vs1.toNat, s.task.lmul)], dsts := [(vd.toNat, 1)] } vm = true)
    (ok : (s.task.plan fl).laneOk = true) :
    ∃ u, exec (.vpguard vd fl vs2 vs1 c2 c1 vm) s =
        .next ({ s with task := u.setTernl (s.ternaryRead (s.task.plan fl) vs2 vs1 none vm) } : State).advance ∧
      WroteBits s.task u vd.toNat (forBits (s.actives vm) (fun x =>
        (s.task.plan fl).fails (s.task.elem 64 vs2.toNat x) (s.task.elem 64 vs1.toNat x))) := by
  have hn := Task.groupsOk_dst hg (List.mem_singleton_self _)
  refine ⟨_, ?_, Task.setMaskBits_wrote s.task vd.toNat (s.actives vm) _ h.runs.registers (by omega)⟩
  rw [exec_vpguard, execVpguard, h.issue]
  simp only [h64, hd, ne_eq, not_true, Bool.not_true, Bool.false_eq_true, or_self, if_false, State.vectorWord_plan h.runs hg, ok, if_true]
  rfl

end

/-- Settles O39: the three products are one word, and VPGUARD is its guard test alone. -/
theorem packedProducts : Obligations.PackedProducts := by
  unfold Obligations.PackedProducts
  intro s b vd vs2 vs1 fl c2 c1 vm h h64 lm p x bound ternl asserts pair
  have product {i : Instr} (c : Option Nat) (adds : Bool)
      (e : exec i s = s.issue .b true (fun s => s.packedProduct vd fl vs2 vs1 c vm adds)) {kindOk : Prop}
      (hk : (c.isNone || p.kind == 2) = true ↔ kindOk) : asserts i (if c.isSome then 1 else lm) kindOk (s.packedB vs1 c) adds := by
    intro h8 apart2 apart1 hg
    have form : s.ProductForm vd vs2 vs1 c vm adds := ⟨h64, h8, apart2, apart1, hg⟩
    refine ⟨fun ok kind low => ?_, fun ok kind y hy high low => ?_, fun bad => ?_⟩
    · have w := h.packedProduct_writes form e ok (hk.mpr kind) (State.guardFailure_none low)
      rwa [State.ternaryRead_eq] at w
    · exact h.packedProduct_guard form e ok (hk.mpr kind) (State.guardFailure_some hy high low)
    · refine h.packedProduct_badPlan form e (bad.imp_right (fun kind => ?_))
      rwa [← hk, Bool.not_eq_true] at kind
  refine ⟨product none false (exec_vpmul ..) ?_, product none true (exec_vpmacc ..) ?_,
    product (some (if c2 = 1 then 32 else 16)) true (exec_vpconv ..) ?_, fun apart hg ok => ?_⟩
  · simp
  · simp
  · simp
  · obtain ⟨u, he, hu⟩ := h.vpguard_writes fl c2 c1 h64 ((s.task.cmpDstOk_iff vd vs2 (.vv vs1)).mpr (apart.imp_right
      (fun q => ⟨q.1, fun v hv => Option.some.inj hv ▸ q.2⟩))) hg ok
    rw [State.ternaryRead_eq, State.setTernl_eq] at he
    exact ⟨u, he, hu⟩

end Sys2Proof.Machine
end

section
/-! SUPPORT. Packing, unpacking and extraction (R220 to R223): the columns of containers, the checks of VPACK and VUNPACK, and the
statement O40. -/

namespace Sys2Proof.Machine

/-! ## Columns -/

/-- An element depends on its register alone. -/
theorem Task.elem_congr {t u : Task} {bits n i : Nat} (hp : u.perReg bits = t.perReg bits)
    (hv : ∀ r : Fin 32, r.val = n + i / t.perReg bits → u.v[r] = t.v[r]) : u.elem bits n i = t.elem bits n i := by
  have reg : u.v[n + i / t.perReg bits]? = t.v[n + i / t.perReg bits]? := by
    by_cases hr : n + i / t.perReg bits < 32
    · rw [Vector.getElem?_eq_getElem hr, Vector.getElem?_eq_getElem hr]
      exact congrArg some (hv ⟨_, hr⟩ rfl)
    · rw [Vector.getElem?_eq_none (Nat.le_of_not_lt hr), Vector.getElem?_eq_none (Nat.le_of_not_lt hr)]
  simp only [Task.elem, hp, reg]

/-- The first k columns of elements written: column j, a group of LMUL registers, holds f j (R222). -/
def Task.setColumns (t : Task) (bits n : Nat) (is : List Nat) (f : Nat → Nat → Nat) (k : Nat) : Task :=
  (List.range k).foldl (fun t j => t.setElems bits (n + j * t.lmul) (is.map (fun i => (i, f j i)))) t

/-- What k columns written leave: element i of column q is f q i where f gives a value, and as before elsewhere. -/
structure WroteColumns (t u : Task) (bits n k : Nat) (f : Nat → Nat → Option Nat) : Prop where
  rest : u = { t with v := u.v }
  others : ∀ r : Fin 32, ¬(n ≤ r.val ∧ r.val < n + k * t.lmul) → u.v[r] = t.v[r]
  elems : ∀ q i, q < k → i < t.lmul * t.perReg bits → (i % t.perReg bits + 1) * bits ≤ 262144 →
    u.elem bits (n + q * t.lmul) i = ((f q i).map (· % 2 ^ bits)).getD (t.elem bits (n + q * t.lmul) i)

/-- A column written beyond the first k ones. -/
theorem WroteColumns.succ {t u w : Task} {bits n k : Nat} {f : Nat → Nat → Option Nat} (h : WroteColumns t u bits n k f)
    (hw : WroteElems u w bits (n + k * t.lmul) t.lmul (f k)) : WroteColumns t w bits n (k + 1) f := by
  obtain ⟨rest, others, elems⟩ := h
  obtain ⟨rest', others', elems'⟩ := hw
  have per : u.perReg bits = t.perReg bits := by rw [rest]; rfl
  have size : (k + 1) * t.lmul = k * t.lmul + t.lmul := Nat.succ_mul k t.lmul
  refine ⟨by rw [rest', rest], fun r hr => ?_, fun q i hq hi hb => ?_⟩
  · rw [others' r (by omega), others r (by omega)]
  have register : i / t.perReg bits < t.lmul := Nat.div_lt_of_lt_mul (by rwa [Nat.mul_comm])
  rcases Nat.lt_succ_iff_lt_or_eq.mp hq with before | rfl
  · have column : q * t.lmul + t.lmul ≤ k * t.lmul := by
      rw [← Nat.succ_mul]
      exact Nat.mul_le_mul_right _ before
    rw [← elems q i before hi hb]
    refine Task.elem_congr (by rw [rest']; rfl) (fun r hr => others' r ?_)
    rw [hr, per]
    omega
  · rw [← per] at hi hb
    rw [elems' i hi hb]
    refine congrArg _ (Task.elem_congr per (fun r hr => others r (fun within => ?_)))
    exact absurd within.2 (Nat.not_lt.mpr (hr ▸ Nat.le_add_right _ _))

theorem Task.setColumns_wrote (t : Task) {bits n : Nat} {is : List Nat} (f : Nat → Nat → Nat) {k : Nat} (hp : t.vPoison = [])
    (hb : 0 < bits) (hn : n + k * t.lmul ≤ 32) (hs : ∀ i ∈ is, i < t.lmul * t.perReg bits) (nd : is.Nodup) :
    WroteColumns t (t.setColumns bits n is f k) bits n k (fun q => forElems is (f q)) := by
  induction k with
  | zero => exact ⟨rfl, fun _ _ => rfl, fun _ _ hq => absurd hq (Nat.not_lt_zero _)⟩
  | succ k ih =>
    have size : (k + 1) * t.lmul = k * t.lmul + t.lmul := Nat.succ_mul k t.lmul
    have h := ih (by omega)
    have same : (t.setColumns bits n is f k).lmul = t.lmul ∧ (t.setColumns bits n is f k).perReg bits = t.perReg bits ∧
        (t.setColumns bits n is f k).vPoison = [] := by
      rw [h.rest]
      exact ⟨rfl, rfl, hp⟩
    obtain ⟨lmul, per, clean⟩ := same
    have step : t.setColumns bits n is f (k + 1) =
        (t.setColumns bits n is f k).setElems bits (n + k * t.lmul) (is.map (fun i => (i, f k i))) := by
      conv => lhs; rw [Task.setColumns, List.range_succ, List.foldl_append]
      rw [← lmul]
      rfl
    rw [step]
    exact h.succ (Task.setElems_wrote _ bits _ _ is (f k) clean hb (by omega) (fun i hi => by rw [per]; exact hs i hi) nd)

/-! ## The checks (R221, R222) -/

section
variable {s : State} {b : Block} {first words : BitVec 5} {vm : BitVec 1}

theorem State.packWord_of {dst : BitVec 5} (h64 : s.task.sew = 64)
    (apart : overlap first.toNat s.task.lmul words.toNat s.task.lmul = false ∧ s.task.groupOk first.toNat s.task.lmul = true ∧
      s.task.groupOk words.toNat s.task.lmul = true) (hd : vm = 1 ∨ dst ≠ 0) (k : Act) :
    s.packWord first words vm dst.toNat k = k := by
  obtain ⟨clear, ok1, ok2⟩ := apart
  refine if_neg ?_
  simp only [h64, clear, ok1, ok2, ne_eq, not_true, decide_false, Bool.not_true, Bool.or_self, Bool.false_or, Bool.and_eq_true, beq_iff_eq]
  rintro ⟨masked, zero⟩
  rcases hd with plain | hd
  · exact absurd (masked.symm.trans plain) (by decide)
  · exact BitVec.toNat_ne.mp hd zero

theorem Task.packOk_iff (t : Task) (p : Plan) (first words : BitVec 5) : t.packOk p first words = true ↔
    p.laneOk = true ∧ first.toNat + p.k * t.lmul ≤ t.regCount ∧
      ∀ q, q < p.k → q ≠ 0 → overlap words.toNat t.lmul (first.toNat + q * t.lmul) t.lmul = false := by
  simp [Task.packOk, Task.furtherOk, or_iff_not_imp_left]

/-- The groups of containers of a plan, whether they lie within the registers or not. -/
def Task.containerColumns (t : Task) (p : Plan) (first : BitVec 5) : List (Nat × Nat) :=
  (List.range p.k).map (fun q => (first.toNat + q * t.lmul, t.lmul))

theorem Task.containerGroups_eq {t : Task} {p : Plan} {first : BitVec 5}
    (h : ∀ g ∈ t.containerColumns p first, t.groupOk g.1 g.2 = true) : t.containerGroups p first = t.containerColumns p first :=
  List.filter_eq_self.mpr h

theorem Task.groupOk_containerGroups {t : Task} {p : Plan} {first : BitVec 5} {g : Nat × Nat} (h : g ∈ t.containerGroups p first) :
    t.groupOk g.1 g.2 = true := (List.mem_filter.mp h).2

theorem Task.groupsOk_iff (t : Task) (srcs dsts : List (Nat × Nat)) (vm : BitVec 1) :
    t.groupsOk { srcs := srcs, dsts := dsts } vm = true ↔
      (∀ g ∈ srcs, t.groupOk g.1 g.2 = true) ∧ (∀ g ∈ dsts, t.groupOk g.1 g.2 = true) ∧ (vm = 1 ∨ ∀ g ∈ dsts, g.1 ≠ 0) := by
  simp [Task.groupsOk, and_assoc]

end

/-! ## The words -/

section
variable {s : State} {b : Block} {vd vs2 : BitVec 5} {fl : BitVec 2} {vm : BitVec 1}

/-- The word that VPACK makes of the containers of element i (R221). -/
def State.packed (s : State) (p : Plan) (vs2 : BitVec 5) (i : Nat) : Nat :=
  (List.range p.k).foldl (fun acc j =>
    acc ||| (s.task.elem p.container (vs2.toNat + j * s.task.lmul) i % 2 ^ p.w * 2 ^ (p.s * p.pos j))) 0

theorem State.AtBlock.vpack_of (h : s.AtBlock b) (c2 : BitVec 1) (h64 : s.task.sew = 64)
    (apart : overlap vs2.toNat s.task.lmul vd.toNat s.task.lmul = false ∧ s.task.groupOk vs2.toNat s.task.lmul = true ∧
      s.task.groupOk vd.toNat s.task.lmul = true) (hd : vm = 1 ∨ vd ≠ 0) :
    exec (.vpack vd fl vs2 c2 vm) s = (if s.task.packOk (s.task.plan fl) vs2 vd then
      Act.go (s.onTask (fun t => t.setElems 64 vd.toNat ((s.actives vm).map (fun i => (i, s.packed (s.task.plan fl) vs2 i)))))
      else .trap s (cause 0x08)).outcome := by
  have groups : s.task.groupsOk { srcs := s.task.containerGroups (s.task.plan fl) vs2, dsts := [(vd.toNat, s.task.lmul)] } vm = true :=
    (s.task.groupsOk_iff _ _ _).mpr ⟨fun _ hg => Task.groupOk_containerGroups hg, by simpa using apart.2.2,
      hd.imp_right (fun hd => by simpa using BitVec.toNat_ne.mp hd)⟩
  rw [exec_vpack, execVpack, h.issue]
  simp only [State.packWord_of h64 apart hd, State.vectorWord_plan h.runs groups]
  rfl

theorem State.AtBlock.vpack_writes (h : s.AtBlock b) (c2 : BitVec 1) (h64 : s.task.sew = 64)
    (apart : overlap vs2.toNat s.task.lmul vd.toNat s.task.lmul = false ∧ s.task.groupOk vs2.toNat s.task.lmul = true ∧
      s.task.groupOk vd.toNat s.task.lmul = true) (hd : vm = 1 ∨ vd ≠ 0) (fits : s.task.packOk (s.task.plan fl) vs2 vd = true)
    (hn : vd.toNat + s.task.lmul ≤ 32) :
    s.Writes (.vpack vd fl vs2 c2 vm) 64 vd.toNat s.task.lmul (forElems (s.actives vm) (s.packed (s.task.plan fl) vs2)) := by
  refine ⟨_, ?_, Task.setElems_wrote s.task 64 vd.toNat s.task.lmul (s.actives vm) _ h.runs.registers (by decide) hn
    (fun i hi => s.actives_lt_64 h64 hi) (s.nodup_actives vm)⟩
  rw [h.vpack_of c2 h64 apart hd, if_pos fits]
  rfl

/-- A 64-bit element's number names a container too (R222). -/
theorem State.actives_lt_container (h64 : s.task.sew = 64) (p : Plan) {i : Nat} (hi : i ∈ s.actives vm) :
    i < s.task.lmul * s.task.perReg p.container := by
  refine (s.actives_lt_64 h64 hi).trans_le (Nat.mul_le_mul_left _ (Nat.div_le_div_left ?_ ?_))
  all_goals
    unfold Plan.container
    split <;> omega

theorem State.AtBlock.vunpack_of (h : s.AtBlock b) (c2 : BitVec 1) (h64 : s.task.sew = 64)
    (apart : overlap vd.toNat s.task.lmul vs2.toNat s.task.lmul = false ∧ s.task.groupOk vd.toNat s.task.lmul = true ∧
      s.task.groupOk vs2.toNat s.task.lmul = true) (hd : vm = 1 ∨ vd ≠ 0) :
    exec (.vunpack vd fl vs2 c2 vm) s = (if s.task.packOk (s.task.plan fl) vd vs2 then
      Act.go (s.onTask (fun t => (t.setColumns (s.task.plan fl).container vd.toNat (s.actives vm) (fun j i =>
          wrapN ((s.task.plan fl).fv (s.task.elem 64 vs2.toNat i) j (s.task.plan fl).sa) (s.task.plan fl).container)
          (s.task.plan fl).k).setTernl
        ((s.actives vm).any (fun i => (s.task.plan fl).ternary (s.task.elem 64 vs2.toNat i) (s.task.plan fl).sa))))
      else .trap s (cause 0x08)).outcome := by
  have groups : s.task.groupsOk { srcs := [(vs2.toNat, s.task.lmul)], dsts := s.task.containerGroups (s.task.plan fl) vd } vm = true := by
    refine (s.task.groupsOk_iff _ _ _).mpr ⟨by simpa using apart.2.2, fun _ hg => Task.groupOk_containerGroups hg,
      hd.imp_right (fun hd g hg => ?_)⟩
    obtain ⟨q, -, rfl⟩ := List.mem_map.mp (List.mem_filter.mp hg).1
    have : vd.toNat ≠ 0 := BitVec.toNat_ne.mp hd
    omega
  rw [exec_vunpack, execVunpack, h.issue]
  simp only [State.packWord_of h64 apart hd, State.vectorWord_plan h.runs groups]
  rfl

theorem State.AtBlock.vpext_of (h : s.AtBlock b) {j : BitVec 3} (c2 : BitVec 1) (h64 : s.task.sew = 64) (hj : j.toNat < 7)
    (h8 : s.task.lmul ≠ 8) (ho : overlap vd.toNat s.task.lmul vs2.toNat (2 * s.task.lmul) = false)
    (hg : s.task.groupsOk { srcs := [(vs2.toNat, 2 * s.task.lmul)], dsts := [(vd.toNat, s.task.lmul)] } vm = true) :
    exec (.vpext vd fl vs2 j c2 vm) s = (if ((s.task.plan fl).laneOk && decide (j.toNat < (s.task.plan fl).results)) = true then
      Act.go (s.onTask (fun t => t.setElems 64 vd.toNat ((s.actives vm).map (fun i =>
        (i, wrapN ((s.task.plan fl).extract (s.task.elem 128 vs2.toNat i) ((s.task.plan fl).slot j.toNat)) 64)))))
      else .trap s (cause 0x08)).outcome := by
  rw [exec_vpext, execVpext, decide_eq_true hj, h.issue]
  simp only [h64, h8, ho, ne_eq, not_true, Bool.false_eq_true, or_self, if_false, State.vectorWord_plan h.runs hg]

end

/-- Settles O40: each word runs under its plan's checks, and writes the elements of its group or of its columns. -/
theorem packingAndExtraction : Obligations.PackingAndExtraction := by
  unfold Obligations.PackingAndExtraction
  intro s b vd vs2 fl j c2 vm h h64 lm p cw columns apart fits ternl
  refine ⟨fun hap hd => ⟨fun hf hg => ?_, fun hf => ?_⟩, fun hap hd => ⟨fun hf hg => ?_, fun hf => ?_⟩,
    fun hj h8 ho hg => ⟨fun ok hr => ?_, fun bad => ?_⟩⟩
  · exact h.vpack_writes c2 h64 hap hd ((s.task.packOk_iff p vs2 vd).mpr hf) (Task.groupsOk_dst hg (List.mem_singleton_self _))
  · rw [h.vpack_of c2 h64 hap hd, if_neg (fun ok => hf ((s.task.packOk_iff p vs2 vd).mp ok))]
    rfl
  · obtain ⟨rest, others, elems⟩ := s.task.setColumns_wrote (bits := cw) (n := vd.toNat) (is := s.actives vm)
      (fun q i => wrapN (p.fv (s.task.elem 64 vs2.toNat i) q p.sa) cw) (k := p.k) h.runs.registers (by show 0 < ite _ _ _; split <;> omega)
      (hf.2.1.trans s.task.regCount_le) (fun i hi => s.actives_lt_container h64 p hi) (s.nodup_actives vm)
    refine ⟨_, rest, ?_, others, elems⟩
    rw [h.vunpack_of c2 h64 hap hd, if_pos ((s.task.packOk_iff p vd vs2).mpr hf)]
    rfl
  · rw [h.vunpack_of c2 h64 hap hd, if_neg (fun ok => hf ((s.task.packOk_iff p vd vs2).mp ok))]
    rfl
  · refine ⟨_, ?_, Task.setElems_wrote s.task 64 vd.toNat s.task.lmul (s.actives vm) _ h.runs.registers (by decide)
      (Task.groupsOk_dst hg (List.mem_singleton_self _)) (fun i hi => s.actives_lt_64 h64 hi) (s.nodup_actives vm)⟩
    rw [h.vpext_of c2 h64 hj h8 ho hg, if_pos (by rw [ok, decide_eq_true hr]; rfl)]
    rfl
  · rw [h.vpext_of c2 h64 hj h8 ho hg, if_neg ?_]
    · rfl
    · rintro ok
      obtain ⟨lane, few⟩ := Bool.and_eq_true_iff.mp ok
      rcases bad with bad | bad
      · exact absurd lane (Bool.eq_false_iff.mp bad)
      · exact absurd (of_decide_eq_true few) (Nat.not_lt.mpr bad)

end Sys2Proof.Machine
end

section
/-! SUPPORT. The order of the trump chain (R287): a rank of accumulators, the best column of a row, and MBEST. -/

namespace Sys2Proof.Machine

/-! ## The order of exact values -/

/-- A value whose unit is at least 2^e. -/
def Num.UnitsFrom (e : Int) : Num → Prop
  | .fin _ _ exp _ => e ≤ exp
  | _ => True

/-- The place of a value in the order of values whose units are at least 2^e: infinities around the finite values, those in units of 2^e. -/
def Num.place (e : Int) : Num → ℤ ×ₗ ℤ
  | .nan => toLex (0, 0)
  | .inf neg => toLex (if neg then -1 else 1, 0)
  | .fin neg sig exp _ => toLex (0, alignTo neg sig exp e)

/-- A significand at a smaller exponent. -/
theorem alignTo_of_le (neg : Bool) (sig : Nat) {exp m e : Int} (h1 : e ≤ m) (h2 : m ≤ exp) :
    alignTo neg sig exp e = alignTo neg sig exp m * 2 ^ (m - e).toNat := by
  have units : (exp - e).toNat = (exp - m).toNat + (m - e).toNat := by omega
  have scaled : ((sig : Int) * 2 ^ (exp - e).toNat) = sig * 2 ^ (exp - m).toNat * 2 ^ (m - e).toNat := by
    rw [units, pow_add, mul_assoc]
  cases neg <;> simp only [alignTo, scaled, Bool.false_eq_true, if_false, if_true, neg_mul]

/-- The comparison of two values that are not NaN is that of their places (R192). -/
theorem Num.cmp_place {e : Int} {a b : Num} (ha : a ≠ .nan) (hb : b ≠ .nan) (ua : a.UnitsFrom e) (ub : b.UnitsFrom e) :
    (a.cmp b < 0 ↔ a.place e < b.place e) ∧ (a.cmp b = 0 ↔ a.place e = b.place e) := by
  cases a with
  | nan => exact absurd rfl ha
  | inf p =>
    cases b with
    | nan => exact absurd rfl hb
    | inf q => cases p <;> cases q <;> simp [Num.cmp, Num.place, Prod.Lex.toLex_lt_toLex]
    | fin nb sb eb rb => cases p <;> simp [Num.cmp, Num.place, Prod.Lex.toLex_lt_toLex]
  | fin na sa ea ra =>
    cases b with
    | nan => exact absurd rfl hb
    | inf q => cases q <;> simp [Num.cmp, Num.place, Prod.Lex.toLex_lt_toLex]
    | fin nb sb eb rb =>
      have low : e ≤ min ea eb := le_min ua ub
      have pos : (0 : Int) < 2 ^ (min ea eb - e).toNat := by positivity
      simp only [Num.cmp, Num.place, Prod.Lex.toLex_lt_toLex, lt_irrefl, false_or, true_and, EmbeddingLike.apply_eq_iff_eq, Prod.mk.injEq]
      rw [alignTo_of_le na sa low (min_le_left ..), alignTo_of_le nb sb low (min_le_right ..), mul_lt_mul_iff_left₀ pos,
        mul_left_inj' pos.ne', sub_neg, sub_eq_zero]
      exact ⟨Iff.rfl, Iff.rfl⟩

/-- The smallest unit of binary32 is 2^(−149) (R180). -/
theorem decode_binary32_units (x : Nat) : (binary32.decode x).UnitsFrom (-149) := by
  unfold Fmt.decode
  dsimp only
  split
  · split <;> trivial
  · split
    · exact le_refl (-149 : Int)
    · rename_i h
      show (-149 : Int) ≤ _ - _ - _
      simp only [binary32] at h ⊢
      omega

/-! ## The rank of an accumulator (R287) -/

/-- A place turned to the direction of a metric: the largest accumulator is the best under metric 0, the smallest under the others. -/
def turned (metric : Nat) (p : ℤ ×ₗ ℤ) : ℤ ×ₗ ℤ := if metric = 0 then p else toLex (-(ofLex p).1, -(ofLex p).2)

theorem turned_lt (metric : Nat) (p q : ℤ ×ₗ ℤ) : turned metric p < turned metric q ↔ if metric = 0 then p < q else q < p := by
  unfold turned
  split
  · rfl
  · simp only [Prod.Lex.lt_iff, ofLex_toLex, neg_lt_neg_iff, neg_inj, eq_comm]

theorem turned_inj (metric : Nat) {p q : ℤ ×ₗ ℤ} : turned metric p = turned metric q ↔ p = q := by
  unfold turned
  split
  · rfl
  · rw [EmbeddingLike.apply_eq_iff_eq, Prod.mk.injEq, neg_inj, neg_inj, ← Prod.ext_iff, EmbeddingLike.apply_eq_iff_eq]

/-- The rank of an accumulator in the trump chain: the higher is the better, and NaN is below every number. -/
def trumpRank (num : Bool) (metric x : Nat) : ℤ ×ₗ ℤ :=
  if num then
    if binary32.isNan x then toLex (-2, 0) else turned metric ((binary32.decode x).place (-149))
  else turned metric (toLex (0, sextN x 32))

/-- NaN is below every number. -/
theorem nan_lt_turned (metric : Nat) (e : Int) (a : Num) : toLex ((-2 : ℤ), (0 : ℤ)) < turned metric (a.place e) := by
  refine Prod.Lex.lt_iff.mpr (.inl ?_)
  unfold turned
  cases a with
  | nan => split <;> simp [Num.place]
  | inf neg => cases neg <;> split <;> simp [Num.place]
  | fin neg sig exp more => split <;> simp [Num.place]

section
variable {num : Bool} {metric x y : Nat}

/-- Numbers of binary32 compare as their places do (R192). -/
theorem binary32_cmp_place (hx : binary32.isNan x = false) (hy : binary32.isNan y = false) :
    (binary32.lt x y = true ↔ (binary32.decode x).place (-149) < (binary32.decode y).place (-149)) ∧
    (binary32.eq x y = true ↔ (binary32.decode x).place (-149) = (binary32.decode y).place (-149)) := by
  have number {z : Nat} (hz : binary32.isNan z = false) : binary32.decode z ≠ .nan := by simpa [Fmt.isNan] using hz
  obtain ⟨less, same⟩ := Num.cmp_place (number hx) (number hy) (decode_binary32_units x) (decode_binary32_units y)
  exact ⟨by simp [Fmt.lt, hx, hy, ← less], by simp [Fmt.eq, hx, hy, ← same]⟩

/-- Better is above in rank. -/
theorem trumpBetter_iff : trumpBetter num metric x y = true ↔ trumpRank num metric y < trumpRank num metric x := by
  cases num
  · have line (a b : Int) : toLex ((0 : ℤ), a) < toLex ((0 : ℤ), b) ↔ a < b := by simp [Prod.Lex.toLex_lt_toLex]
    simp only [trumpBetter, trumpRank, turned_lt, line, Bool.false_and, Bool.false_eq_true, if_false]
    split <;> rw [decide_eq_true_iff]
  · cases hx : binary32.isNan x <;> cases hy : binary32.isNan y
    · simp only [trumpBetter, trumpRank, hx, hy, turned_lt, Bool.and_false, Bool.false_eq_true, if_false, if_true]
      split
      · exact (binary32_cmp_place hy hx).1
      · exact (binary32_cmp_place hx hy).1
    · simp [trumpBetter, trumpRank, hx, hy, nan_lt_turned]
    · simp [trumpBetter, trumpRank, hx, hy, (nan_lt_turned _ _ _).le]
    · simp [trumpBetter, trumpRank, hx, hy]

theorem sextN_32_inj (hx : x < 2 ^ 32) (hy : y < 2 ^ 32) : sextN x 32 = sextN y 32 ↔ x = y := by
  refine ⟨fun h => ?_, fun h => by rw [h]⟩
  simp only [sextN, Nat.mod_eq_of_lt hx, Nat.mod_eq_of_lt hy] at h
  norm_num at h hx hy
  split at h <;> split at h <;> omega

/-- The same is equal in rank. -/
theorem trumpSame_iff (hx : x < 2 ^ 32) (hy : y < 2 ^ 32) :
    trumpSame num x y = true ↔ trumpRank num metric x = trumpRank num metric y := by
  cases num
  · simp [trumpSame, trumpRank, turned_inj, sextN_32_inj hx hy]
  · cases hx : binary32.isNan x <;> cases hy : binary32.isNan y
    · simp [trumpSame, trumpRank, hx, hy, turned_inj, (binary32_cmp_place hx hy).2]
    · simp [trumpSame, trumpRank, hx, hy, (nan_lt_turned _ _ _).ne']
    · simp [trumpSame, trumpRank, hx, hy, (nan_lt_turned _ _ _).ne]
    · simp [trumpSame, trumpRank, hx, hy]

end

/-! ## The best column of a row -/

/-- Column j of a row is the best of some columns: none ranks above it, and of those of its rank it is the last under tieHigh, else the first. -/
structure Task.BestColumn (t : Task) (md row : Nat) (cols : List Nat) (j : Nat) : Prop where
  mem : j ∈ cols
  above : ∀ k ∈ cols, trumpRank t.num t.metric (t.acc md (64 * row + k)) ≤ trumpRank t.num t.metric (t.acc md (64 * row + j))
  ties : ∀ k ∈ cols, trumpRank t.num t.metric (t.acc md (64 * row + k)) = trumpRank t.num t.metric (t.acc md (64 * row + j)) →
    if t.tieHigh then k ≤ j else j ≤ k

theorem Task.acc_lt (t : Task) (md n : Nat) : t.acc md n < 2 ^ 32 := BitVec.isLt _

section
variable {t : Task} {md row c j : Nat} {cols : List Nat}

theorem Task.trump_concat_none (h : t.trump md row cols = none) :
    t.trump md row (cols ++ [c]) = some (c, t.acc md (64 * row + c)) := by
  unfold Task.trump at h ⊢
  rw [List.foldl_append, h]
  rfl

theorem Task.trump_concat_some {x : Nat} (h : t.trump md row cols = some (j, x)) : t.trump md row (cols ++ [c]) =
    if trumpBetter t.num t.metric (t.acc md (64 * row + c)) x || (trumpSame t.num (t.acc md (64 * row + c)) x && t.tieHigh) then
      some (c, t.acc md (64 * row + c)) else some (j, x) := by
  unfold Task.trump at h ⊢
  rw [List.foldl_append, h]
  rfl

/-- A column beyond the best one that takes its place. -/
theorem Task.BestColumn.replaced (h : t.BestColumn md row cols j) (last : ∀ k ∈ cols, k < c)
    (hc : trumpRank t.num t.metric (t.acc md (64 * row + j)) < trumpRank t.num t.metric (t.acc md (64 * row + c)) ∨
      (trumpRank t.num t.metric (t.acc md (64 * row + c)) = trumpRank t.num t.metric (t.acc md (64 * row + j)) ∧ t.tieHigh = true)) :
    t.BestColumn md row (cols ++ [c]) c := by
  have rise := hc.elim le_of_lt (fun q => q.1.ge)
  refine ⟨List.mem_append_right _ (List.mem_singleton_self c), fun k hk => ?_, fun k hk same => ?_⟩
  · rcases List.mem_append.mp hk with hk | hk
    · exact (h.above k hk).trans rise
    · rw [List.mem_singleton.mp hk]
  · rcases List.mem_append.mp hk with hk | hk
    · rcases hc with higher | ⟨-, high⟩
      · exact absurd same ((h.above k hk).trans_lt higher).ne
      · rw [if_pos high]
        exact (last k hk).le
    · rw [List.mem_singleton.mp hk]
      split <;> exact le_rfl

/-- A column beyond the best one that does not take its place. -/
theorem Task.BestColumn.kept (h : t.BestColumn md row cols j) (last : ∀ k ∈ cols, k < c)
    (hc : ¬(trumpRank t.num t.metric (t.acc md (64 * row + j)) < trumpRank t.num t.metric (t.acc md (64 * row + c)) ∨
      (trumpRank t.num t.metric (t.acc md (64 * row + c)) = trumpRank t.num t.metric (t.acc md (64 * row + j)) ∧ t.tieHigh = true))) :
    t.BestColumn md row (cols ++ [c]) j := by
  obtain ⟨lower, untied⟩ := not_or.mp hc
  refine ⟨List.mem_append_left _ h.mem, fun k hk => ?_, fun k hk same => ?_⟩
  · rcases List.mem_append.mp hk with hk | hk
    · exact h.above k hk
    · rw [List.mem_singleton.mp hk]
      exact le_of_not_gt lower
  · rcases List.mem_append.mp hk with hk | hk
    · exact h.ties k hk same
    · rw [List.mem_singleton.mp hk] at same ⊢
      rw [if_neg (fun high => untied ⟨same, high⟩)]
      exact (last j h.mem).le

end

/-- The chain over columns in ascending order ends with the best one, and that accumulator. -/
theorem Task.trump_best (t : Task) (md row : Nat) (cols : List Nat) (asc : cols.Pairwise (· < ·)) :
    (t.trump md row cols = none ∧ cols = []) ∨
      ∃ j, t.trump md row cols = some (j, t.acc md (64 * row + j)) ∧ t.BestColumn md row cols j := by
  induction cols using List.reverseRecOn with
  | nil => exact .inl ⟨rfl, rfl⟩
  | append_singleton cols c ih =>
    obtain ⟨asc', -, last⟩ := List.pairwise_append.mp asc
    have last (k : Nat) (hk : k ∈ cols) : k < c := last k hk c (List.mem_singleton_self c)
    rcases ih asc' with ⟨none, rfl⟩ | ⟨j, some, best⟩
    · refine .inr ⟨c, Task.trump_concat_none none, List.mem_singleton_self c, fun k hk => ?_, fun k hk _ => ?_⟩
      · rw [List.mem_singleton.mp hk]
      · rw [List.mem_singleton.mp hk]
        split <;> exact le_rfl
    · rw [Task.trump_concat_some some]
      simp only [Bool.or_eq_true, Bool.and_eq_true, trumpBetter_iff, trumpSame_iff (metric := t.metric) (t.acc_lt md _) (t.acc_lt md _)]
      split
      · rename_i hc
        exact .inr ⟨c, rfl, best.replaced last hc⟩
      · rename_i hc
        exact .inr ⟨j, rfl, best.kept last hc⟩

/-! ## MBEST -/

/-- Where a register holds no element of a width, elements written one after another stay in the first register of their group. -/
theorem Task.setElems_wrote_zero (t : Task) (bits n : Nat) (vals : List (Nat × Nat)) (hp : t.vPoison = []) (h0 : t.perReg bits = 0)
    (f : Nat → Option Nat) : WroteElems t (t.setElems bits n vals) bits n 1 f := by
  have empty (i : Nat) (hi : i < 1 * t.perReg bits) : False := by rw [h0] at hi; omega
  induction vals generalizing t with
  | nil => exact ⟨rfl, fun _ _ => rfl, fun i hi => (empty i hi).elim⟩
  | cons p ps ih =>
    obtain ⟨rest, others, -⟩ := ih (t.setElem bits n p.1 p.2) (by simp [Task.setElem, hp]) h0 empty
    refine ⟨?_, fun r hr => ?_, fun i hi => (empty i hi).elim⟩
    · rw [Task.setElems_cons, rest, Task.setElem_rest t bits n p.1 p.2 hp]
    · rw [Task.setElems_cons, others r hr, Task.setElem_others]
      rw [h0, Nat.div_zero]
      omega

theorem Task.rows_le (t : Task) : t.rows ≤ 64 := Nat.succ_le_of_lt (BitVec.isLt _)

/-- The rows of a window, one element of a single register for each (R287): they fit it, unless it holds none. -/
theorem Task.setRows_wrote (t : Task) {n rows : Nat} (hp : t.vPoison = []) (hn : n + 1 ≤ 32) (hr : rows ≤ 64) (f : Nat → Nat) :
    WroteElems t (t.setElems 32 n ((List.range rows).map (fun i => (i, f i)))) 32 n 1 (fun i => if i < rows then some (f i) else none) := by
  have per : t.perReg 32 = 128 * (t.id.grant * t.fold) := by
    have : t.vlenb = 512 * (t.id.grant * t.fold) := by rw [Task.vlenb, Nat.mul_assoc, Nat.mul_left_comm]
    rw [Task.perReg, this]
    omega
  rcases Nat.eq_zero_or_pos (t.id.grant * t.fold) with zero | pos
  · exact Task.setElems_wrote_zero t 32 n _ hp (by rw [per, zero]) _
  · have w := Task.setElems_wrote t 32 n 1 (List.range rows) f hp (by decide) hn
      (fun i hi => by have := List.mem_range.mp hi; omega) List.nodup_range
    have listed : (fun i => if i < rows then some (f i) else none) = forElems (List.range rows) f := by
      funext i
      simp [forElems]
    rwa [listed]

section
variable {s : State} {b : Block}

theorem State.AtArray.arrayWord (h : s.AtArray b) (k : Act) : s.arrayWord k = k := by
  rw [State.arrayWord, if_neg (not_not.mpr h.kind)]
  exact State.needFlag_of h.block.runs.block h.header h.record k

/-- The columns of the window that the mask admits (R287). -/
def State.admittedColumns (s : State) (vm : BitVec 1) : List Nat :=
  (List.range s.task.cols).filter (fun j => vm == 1 || s.task.maskBit 0 j)

/-- The best column of a row among those that the mask admits. -/
def State.bestOf (s : State) (md : BitVec 3) (vm : BitVec 1) (i : Nat) : Option Nat :=
  (s.task.trump md.toNat i (s.admittedColumns vm)).map (·.1)

theorem State.pairwise_admittedColumns (s : State) (vm : BitVec 1) : (s.admittedColumns vm).Pairwise (· < ·) :=
  List.pairwise_lt_range.filter _

theorem State.bestOf_eq_none_iff (s : State) (md : BitVec 3) (vm : BitVec 1) (i : Nat) :
    s.bestOf md vm i = none ↔ s.admittedColumns vm = [] := by
  unfold State.bestOf
  rcases s.task.trump_best md.toNat i _ (s.pairwise_admittedColumns vm) with ⟨none, empty⟩ | ⟨j, some, best⟩
  · rw [none, Option.map_none]
    exact iff_of_true rfl empty
  · simp [some, List.ne_nil_of_mem best.mem]

theorem State.bestOf_best (s : State) (md : BitVec 3) (vm : BitVec 1) (i : Nat) {j : Nat} (hj : s.bestOf md vm i = some j) :
    s.task.BestColumn md.toNat i (s.admittedColumns vm) j := by
  unfold State.bestOf at hj
  rcases s.task.trump_best md.toNat i _ (s.pairwise_admittedColumns vm) with ⟨none, -⟩ | ⟨k, some, best⟩
  · simp [none] at hj
  · rw [some, Option.map_some, Option.some_inj] at hj
    exact hj ▸ best

/-- The task after MBEST: for each row the number of the best column in vd, and that accumulator in vd + 1. -/
def State.mbestTask (s : State) (md : BitVec 3) (vd : BitVec 5) (vm : BitVec 1) : Task :=
  let columns := (List.range s.task.vl).map (fun i => (i, (s.bestOf md vm i).getD 0xFFFFFFFF))
  let values := (List.range s.task.vl).map (fun i =>
    (i, ((s.bestOf md vm i).map (fun j => s.task.acc md.toNat (64 * i + j))).getD s.task.trumpEmpty))
  (s.task.setElems 32 vd.toNat columns).setElems 32 (vd.toNat + 1) values

theorem State.AtArray.mbest_of (h : s.AtArray b) {md : BitVec 3} {vd : BitVec 5} {vm : BitVec 1} (hw : s.task.sew = 32) (hl : s.task.lmul = 1)
    (hd : vd.toNat % 2 = 0) (hg : s.task.groupsOk { srcs := [], dsts := [(vd.toNat, 1), (vd.toNat + 1, 1)] } vm = true)
    (hr : s.task.vl ≤ s.task.rows) : exec (.mbest vd md vm) s = .next ({ s with task := s.mbestTask md vd vm } : State).advance := by
  have runs := h.block.runs
  have column (i : Nat) : (match s.task.trump md.toNat i (s.admittedColumns vm) with
      | some b => b.1
      | none => 0xFFFFFFFF) = (s.bestOf md vm i).getD 0xFFFFFFFF := by
    unfold State.bestOf
    cases s.task.trump md.toNat i (s.admittedColumns vm) <;> rfl
  have value (i : Nat) : (match s.task.trump md.toNat i (s.admittedColumns vm) with
      | some b => b.2
      | none => s.task.trumpEmpty) = ((s.bestOf md vm i).map (fun j => s.task.acc md.toNat (64 * i + j))).getD s.task.trumpEmpty := by
    unfold State.bestOf
    rcases s.task.trump_best md.toNat i _ (s.pairwise_admittedColumns vm) with ⟨none, -⟩ | ⟨j, some, -⟩
    · rw [none]; rfl
    · rw [some]; rfl
  rw [exec_mbest, execMbest, h.block.issue, h.arrayWord]
  simp only [hw, hl, hd, hg, Nat.not_lt.mpr hr, ne_eq, not_true, Nat.zero_ne_one, or_self, if_false, Bool.not_true, Bool.false_eq_true,
    runs.withStreams, runs.needClean, runs.needTile]
  simp only [State.mbestTask, ← column, ← value] <;> rfl

end

end Sys2Proof.Machine
end

section
/-! SUPPORT. Drains (R284 to R286): the shared drain, the update of the absmax word, and the statement O43. -/

namespace Sys2Proof.Machine

/-! ## The absmax word (R286) -/

section
variable {s t : State} {va : Word} {n : Nat} {acc : Access} {p : Place} {bs : List Byte}

/-- A read that finds its place has located it. -/
theorem State.locate_of_locateRead (h : s.locateRead va n acc = .ok p) : s.locate va n acc = .ok p := by
  unfold State.locateRead State.unpoisoned at h
  cases hl : s.locate va n acc with
  | error r =>
    rw [hl] at h
    cases h
  | ok q =>
    simp only [hl] at h
    split at h
    · cases h
    · cases h
      rfl

theorem State.Plain.cleanDirect (h : s.Plain) (p : Place) (n : Nat) : s.cleanDirect p n = .ok p := by
  simp [State.cleanDirect, State.poisoned, h.poison]

/-- A direct read sees memory. -/
theorem State.Plain.readDirect (h : s.Plain) (p : Place) (n : Nat) :
    s.readDirect p n = leVal ((List.range n).map (fun j => s.readPlain p.km (p.key + j))) := by
  simp [State.readDirect, State.peekBytes, State.peekByte, h.stash]

/-- A direct write goes to memory. -/
theorem State.Plain.writeDirect (h : s.Plain) (p : Place) (bs : List Byte) : s.Stored (s.writeDirect p bs) p bs := by
  obtain ⟨t, store, stored⟩ := h.storeAt p bs 0
  have served : s.stashServed p 0 = false := by simp [State.stashServed]
  simp only [State.storeAt, h.region, served, Bool.false_eq_true, if_false, Except.ok.injEq] at store
  rw [State.writeDirect, h.region, store]
  exact stored

/-- A store leaves what decides a word's rounding. -/
theorem State.Stored.vcfg_vl (st : s.Stored t p bs) : t.task.vcfg = s.task.vcfg ∧ t.task.vl = s.task.vl := by
  obtain ⟨r, hr⟩ := s.breakReservations_rest p.key bs.length
  rw [st.rest, hr]
  exact ⟨rfl, rfl⟩

end

/-! ## The shared drain -/

/-- A word that rounds and then goes on counts itself (R188), whatever else it has changed. -/
theorem State.rounding_counts {s r : State} {k : State → Act} (hk : k s = .go r) (hm : s.MayRound)
    (hv : r.task.vcfg = s.task.vcfg ∧ r.task.vl = s.task.vl) : s.rounding k = .go r.countRounding := by
  have same : (r.task.rm = 5 ∧ 0 < r.task.vl) ↔ (s.task.rm = 5 ∧ 0 < s.task.vl) := by
    simp only [Task.rm, hv.1, hv.2]
  unfold State.rounding State.countRounding
  by_cases hc : s.task.rm = 5 ∧ 0 < s.task.vl
  · rw [if_pos hc, if_neg (hm hc.1 hc.2), if_pos (same.mpr hc), hk]
    cases hr : r.cur <;> simp only [hr]
  · rw [if_neg hc, if_neg (mt same.mp hc), hk]

/-- What a drain does beside its elements: it goes on to a state that is related to the one with the elements written. -/
def State.DrainGoes (s : State) (k : State → Act) (leaves : State → State → Prop) : Prop :=
  ∀ u : Task, u = { s.task with v := u.v } → ∃ r : State, k { s with task := u } = .go r ∧ leaves { s with task := u } r ∧
    r.task.vcfg = s.task.vcfg ∧ r.task.vl = s.task.vl

/-- A word that writes the elements that the mask admits, stays in a relation to that, and then is changed by g. -/
def State.Drains (s : State) (i : Instr) (vd : BitVec 5) (vm : BitVec 1) (leaves : State → State → Prop) (f : Nat → Nat)
    (g : State → State) : Prop :=
  ∃ u r, WroteElems s.task u s.task.sew vd.toNat s.task.lmul (forElems (s.activesFrom0 vm) f) ∧ leaves { s with task := u } r ∧
    exec i s = .next (g r).advance

section
variable {s : State} {b : Block} {i : Instr} {vd xs : BitVec 5} {md : BitVec 3} {vm : BitVec 1} {k : State → Act}
  {leaves : State → State → Prop}

theorem State.activesFrom0_lt {j : Nat} (h : j ∈ s.activesFrom0 vm) : j < s.task.vlmax :=
  (List.mem_range.mp (List.mem_filter.mp h).1).trans_le (Nat.min_le_right _ _)

theorem State.drained_wrote (runs : s.task.Runs b) (hn : vd.toNat + s.task.lmul ≤ 32) (f : Nat → Nat) :
    WroteElems s.task (s.task.setElems s.task.sew vd.toNat ((s.activesFrom0 vm).map (fun j => (j, f j)))) s.task.sew vd.toNat s.task.lmul
      (forElems (s.activesFrom0 vm) f) :=
  Task.setElems_wrote s.task _ _ _ _ f runs.registers s.task.sew_pos hn
    (fun j hj => by rw [← Task.vlmax_eq]; exact State.activesFrom0_lt hj) (List.nodup_range.filter _)

/-- The elements of a drain written, then what follows. -/
def State.drainRun (s : State) (vd : BitVec 5) (md : BitVec 3) (c : Word) (vm : BitVec 1) (k : State → Act) : Act :=
  k (s.onTask (fun t => t.setElems t.sew vd.toNat ((s.activesFrom0 vm).map (fun j => (j, s.drainElem md c j)))))

theorem State.drainWord_of (runs : s.task.Runs b) (hg : s.task.groupsOk { srcs := [], dsts := [(vd.toNat, s.task.lmul)] } vm = true)
    (checks : s.task.drainTrap (s.x xs) = none) : s.drainWord vd md xs vm k =
      if s.task.dsc = 0 then s.drainRun vd md (s.x xs) vm k else s.rounding (fun s' => s'.drainRun vd md (s.x xs) vm k) := by
  simp only [State.drainWord, State.vectorForm, hg, Bool.not_true, Bool.false_eq_true, if_false, runs.withStreams, checks, runs.needClean,
    runs.needTile]
  rfl

section
variable (runs : s.task.Runs b) (hg : s.task.groupsOk { srcs := [], dsts := [(vd.toNat, s.task.lmul)] } vm = true)
  (checks : s.task.drainTrap (s.x xs) = none) (goes : s.DrainGoes k leaves) (e : exec i s = (s.drainWord vd md xs vm k).outcome)
include runs hg checks goes e

/-- A raw drain counts no rounding. -/
theorem State.drainWord_raw (h0 : s.task.dsc = 0) : s.Drains i vd vm leaves (s.drainElem md (s.x xs)) id := by
  have wrote := State.drained_wrote runs (Task.groupsOk_dst hg (List.mem_singleton_self _)) (s.drainElem md (s.x xs)) (vm := vm)
  obtain ⟨r, hr, left, -⟩ := goes _ wrote.rest
  refine ⟨_, r, wrote, left, ?_⟩
  rw [e, State.drainWord_of runs hg checks, if_pos h0]
  exact congrArg Act.outcome hr

/-- A scaled drain counts itself as a word that rounds (R188). -/
theorem State.drainWord_rounds (h0 : s.task.dsc ≠ 0) (hm : s.MayRound) :
    s.Drains i vd vm leaves (s.drainElem md (s.x xs)) State.countRounding := by
  have wrote := State.drained_wrote runs (Task.groupsOk_dst hg (List.mem_singleton_self _)) (s.drainElem md (s.x xs)) (vm := vm)
  obtain ⟨r, hr, left, same⟩ := goes _ wrote.rest
  refine ⟨_, r, wrote, left, ?_⟩
  rw [e, State.drainWord_of runs hg checks, if_neg h0,
    State.rounding_counts (s := s) (k := fun s' => s'.drainRun vd md (s.x xs) vm k) hr hm same]
  rfl

end

/-! ## The values of a drain (R284) -/

theorem State.drainElem_raw (h : s.task.dsc = 0) (md : BitVec 3) (c : Word) (j : Nat) :
    s.drainElem md c j = s.task.acc md.toNat (64 * (fieldN c 0 6 + j / s.task.cols) + j % s.task.cols) := by
  rw [State.drainElem, h]
  rfl

theorem State.drainElem_float (h : s.task.dsc = 1) {f : Fmt} (hf : fmtOf s.task.sew s.task.fk = some f) (md : BitVec 3) (c : Word)
    (j : Nat) : s.drainElem md c j = f.round s.task.rm (s.roundDraw j) (s.scaled md c j) := by
  simp only [State.drainElem, h, hf]
  rfl

theorem State.drainElem_integer (h : 2 ≤ s.task.dsc) (md : BitVec 3) (c : Word) (j : Nat) : s.drainElem md c j =
    match s.scaled md c j with
    | .nan => 0
    | .inf neg => if neg then 2 ^ (s.task.sew - 1) else 2 ^ (s.task.sew - 1) - 1
    | .fin neg sig exp _ => wrapN (clampS (roundInt s.task.rm (s.roundDraw j) neg sig exp) s.task.sew) s.task.sew := by
  obtain ⟨d, hd⟩ := Nat.exists_eq_add_of_le' h
  cases hv : s.scaled md c j <;> simp only [State.drainElem, hd, hv]

/-- The checks of a drain whose window fits, under its scaling (R284). -/
theorem Task.drainTrap_none {t : Task} {c : Word} (fits : fieldN c 6 26 = 0 ∧ fieldN c 0 6 < t.rows ∧ t.vl ≤ (t.rows - fieldN c 0 6) * t.cols)
    (raw : t.dsc = 0 → t.sew = 32) (float : t.dsc = 1 → (fmtOf t.sew t.fk).isSome = true) : t.drainTrap c = none := by
  obtain ⟨reserved, row, len⟩ := fits
  unfold Task.drainTrap
  rw [if_neg (by omega), if_neg (fun q => q.2 (raw q.1)), if_neg]
  rintro ⟨one, none⟩
  rw [Option.isNone_iff_eq_none] at none
  simpa [none] using float one

end

/-! ## The words -/

section
variable {s : State} {b : Block} {vd xs : BitVec 5} {md : BitVec 3} {vm : BitVec 1}

theorem State.AtArray.mdrain_of (h : s.AtArray b) :
    exec (.mdrain vd md xs vm) s = (s.drainWord vd md xs vm (fun s => .go s)).outcome := by
  rw [exec_mdrain, execMdrain, h.block.issue, h.arrayWord, h.block.word.needX]

/-- The update of the absmax word that follows a drain of s (R286). -/
def State.raiseAbsmax (s : State) (md : BitVec 3) (xs : BitVec 5) (vm : BitVec 1) (p : Place) (t : State) : Act :=
  match s.absmax md (s.x xs) vm with
  | none => .go t
  | some x => orTrap s (s.cleanDirect p 4) (fun p => .go (t.writeDirect p (bytesOf (binary32.maxNum (t.readDirect p 4) x) 4)))

theorem State.AtArray.mdrainq_of (h : s.AtArray b) (h0 : xs ≠ 0) (h31 : xs ≠ 31) (aligned : (s.x (xs + 1)).toNat % 4 = 0) {p : Place}
    (hp : s.locateRead (s.x (xs + 1)) 4 .atomic = .ok p) :
    exec (.mdrainq vd md xs vm) s = (s.drainWord vd md xs vm (s.raiseAbsmax md xs vm p)).outcome := by
  rw [exec_mdrainq, execMdrainq, h.block.issue, h.arrayWord]
  simp only [h0, h31, or_self, if_false, h.block.word.needX, aligned, ne_eq, not_true, State.locate_of_locateRead hp, orTrap] <;> rfl

/-- What the update of the absmax word leaves (R286). -/
theorem State.Plain.raiseAbsmax_goes (hp : s.Plain) (md : BitVec 3) (xs : BitVec 5) (vm : BitVec 1) (p : Place) :
    s.DrainGoes (s.raiseAbsmax md xs vm p) (fun a r =>
      match s.absmax md (s.x xs) vm with
      | none => r = a
      | some x => a.Stored r p (bytesOf (binary32.maxNum (leVal ((List.range 4).map (fun j => s.readPlain p.km (p.key + j)))) x) 4)) := by
  intro u hu
  have plain : ({ s with task := u } : State).Plain := hp.ofTask (by rw [hu]) (by rw [hu]) (by rw [hu])
  have kept : u.vcfg = s.task.vcfg ∧ u.vl = s.task.vl := by rw [hu]; exact ⟨rfl, rfl⟩
  unfold State.raiseAbsmax
  cases s.absmax md (s.x xs) vm with
  | none => exact ⟨_, rfl, rfl, kept⟩
  | some x =>
    have stored := plain.writeDirect p (bytesOf (binary32.maxNum (({ s with task := u } : State).readDirect p 4) x) 4)
    obtain ⟨vcfg, vl⟩ := stored.vcfg_vl
    refine ⟨_, ?_, ?_, vcfg.trans kept.1, vl.trans kept.2⟩
    · simp only [hp.cleanDirect, orTrap]
    · have old : ({ s with task := u } : State).readDirect p 4 = leVal ((List.range 4).map (fun j => s.readPlain p.km (p.key + j))) :=
        plain.readDirect p 4
      simp only [← old]
      exact stored

end

/-- Settles O43: the two drains are one word, apart from the absmax word; MBEST is the trump chain of each row. -/
theorem arrayDrains : Obligations.ArrayDrains := by
  unfold Obligations.ArrayDrains
  intro s b md vd xs vm h t w m n c row0 raw scaled fits admitted integer drains
  have runs := h.block.runs
  have word {i : Instr} {k : State → Act} {leaves : State → State → Prop} (goes : s.DrainGoes k leaves)
      (e : exec i s = (s.drainWord vd md xs vm k).outcome)
      (hg : t.groupsOk { srcs := [], dsts := [(vd.toNat, t.lmul)] } vm = true) (fit : fits) : drains i leaves := by
    refine ⟨fun h0 hw => ?_, fun h1 hm f hf => ?_, fun h2 hm => ?_⟩
    · have d := State.drainWord_raw runs hg (Task.drainTrap_none fit (fun _ => hw) (fun h1 => absurd (h0.symm.trans h1) (by decide)))
        goes e h0
      rwa [funext (State.drainElem_raw h0 md (s.x xs))] at d
    · have d := State.drainWord_rounds runs hg
        (Task.drainTrap_none fit (fun h0 => absurd (h0.symm.trans h1) (by decide)) (fun _ => Option.isSome_of_eq_some hf))
        goes e (fun h0 => absurd (h0.symm.trans h1) (by decide)) hm
      rwa [funext (State.drainElem_float h1 hf md (s.x xs))] at d
    · have d := State.drainWord_rounds runs hg
        (Task.drainTrap_none fit (fun h0 => absurd (h2.trans_eq h0) (by decide)) (fun h1 => absurd (h2.trans_eq h1) (by decide)))
        goes e (fun h0 => absurd (h2.trans_eq h0) (by decide)) hm
      rwa [funext (State.drainElem_integer h2 md (s.x xs))] at d
  refine ⟨fun hg fit => ⟨word (leaves := fun a r => r = a) (fun u hu => ?_) h.mdrain_of hg fit, fun hp h0 h31 aligned p found => ?_⟩, fun hw hl hd hg hr => ?_⟩
  · exact ⟨_, rfl, rfl, by rw [hu], by rw [hu]⟩
  · exact word (hp.raiseAbsmax_goes md xs vm p) (h.mdrainq_of h0 h31 aligned found) hg fit
  · have narrow : s.task.vl ≤ 64 := hr.trans s.task.rows_le
    have first := s.task.setRows_wrote runs.registers (Task.groupsOk_dst hg List.mem_cons_self) narrow
      (fun i => (s.bestOf md vm i).getD 0xFFFFFFFF)
    have second := Task.groupsOk_dst hg (List.mem_cons_of_mem _ (List.mem_singleton_self _))
    refine ⟨s.bestOf md vm, _, _, h.mbest_of hw hl hd hg hr, first, Task.setRows_wrote _ ?_ second narrow _,
      fun i => ⟨s.bestOf_eq_none_iff md vm i, fun j hj => ?_⟩⟩
    · rw [first.rest]
      exact runs.registers
    · obtain ⟨mem, above, ties⟩ := s.bestOf_best md vm i hj
      refine ⟨mem, fun k hk => ⟨?_, fun same => ?_⟩⟩
      · rw [← Bool.not_eq_true, trumpBetter_iff]
        exact not_lt_of_ge (above k hk)
      · exact ties k hk ((trumpSame_iff (t.acc_lt _ _) (t.acc_lt _ _)).mp same)

end Sys2Proof.Machine
end

section
/-! SUPPORT. Floating words (R190 to R208): arithmetic, maps, reductions, conversions between widths and MXFP4 blocks, and the statements
O30, O32, O33 and O34. -/

namespace Sys2Proof.Machine

/-! ## Formats (R179, R205) -/

section
variable {s : State}

/-- A floating word whose SEW and fk name no format raises 0x01 (R179). -/
theorem State.withFmt_none (hf : fmtOf s.task.sew s.task.fk = none) (k : Fmt → Act) : s.withFmt k = .trap s illegal := by
  rw [State.withFmt, hf]

theorem State.withPartner_of {n x : Fmt} (hn : fmtOf s.task.sew s.task.fk = some n) (hx : widePartner s.task.sew s.task.fk = some x)
    (k : Fmt → Fmt → Act) : s.withPartner k = k n x := by
  rw [State.withPartner, hn, hx]

theorem State.withPartner_none (h : fmtOf s.task.sew s.task.fk = none ∨ widePartner s.task.sew s.task.fk = none)
    (k : Fmt → Fmt → Act) : s.withPartner k = .trap s illegal := by
  rcases h with h | h
  · rw [State.withPartner, h]
  · rw [State.withPartner, h]
    cases fmtOf s.task.sew s.task.fk <;> rfl

/-- A conversion that traps under each pair of formats raises 0x01, whether or not the pair exists. -/
theorem State.withPartner_illegal {k : Fmt → Fmt → Act} (hk : ∀ n x, (k n x).outcome = .next (s.takeFault { cause := 0x01 })) :
    (s.withPartner k).outcome = .next (s.takeFault { cause := 0x01 }) := by
  unfold State.withPartner
  split
  · exact hk _ _
  · rfl

end

/-! ## Arithmetic and maps -/

section
variable {s : State} {b : Block} {i : Instr} {a : Attr} {vd vs2 : BitVec 5} {vm : BitVec 1} {f : Fmt}

/-- An arithmetic word: its one rounding of each element, and its fault where mode 5 has no counters (R188, R190). -/
theorem State.AtWord.floats (h : s.AtWord b) (ha : s.mayIssue a = true) (hf : fmtOf s.task.sew s.task.fk = some f) (src : Src)
    {fused : Bool} {op : FloatOp} (e : exec i s = s.issue a true (fun s => s.floatWord vd vs2 src vm fused op))
    (hg : s.task.groupsOk { srcs := (vs2.toNat, s.task.lmul) :: src.groups s.task.lmul, dsts := [(vd.toNat, s.task.lmul)] } vm = true) :
    (s.MayRound → s.Writes i s.task.sew vd.toNat s.task.lmul (forElems (s.actives vm) (fun i =>
      f.round s.task.rm (s.roundDraw i) (op s.task.rm (f.decode (s.task.elem s.task.sew vs2.toNat i))
        (f.decode (src.value s s.task.sew i)) (f.decode (s.task.elem s.task.sew vd.toNat i)) (src.value s s.task.sew i) s.task.sew)))
      State.countRounding) ∧
    (¬s.MayRound → exec i s = .next (s.takeFault { cause := 0x0B })) := by
  rw [s.issue_of a _ ha] at e
  exact ⟨fun hm => State.floatWord_writes h hf hg hm e, fun hm => e.trans (State.floatWord_uncounted h hf hg hm)⟩

theorem State.floatWord_noFormat (ha : s.mayIssue a = true) (hf : fmtOf s.task.sew s.task.fk = none) {src : Src} {fused : Bool}
    {op : FloatOp} (e : exec i s = s.issue a true (fun s => s.floatWord vd vs2 src vm fused op)) :
    exec i s = .next (s.takeFault { cause := 0x01 }) := by
  rw [e, s.issue_of a _ ha, State.floatWord, State.withFmt_none hf]
  rfl

section
variable (h : s.AtWord b) (hf : fmtOf s.task.sew s.task.fk = some f)
  (hg : s.task.groupsOk { srcs := [(vs2.toNat, s.task.lmul)], dsts := [(vd.toNat, s.task.lmul)] } vm = true)
include h hf hg

/-- A word over one source that never rounds under the task's mode. -/
theorem State.AtWord.maps {op : State → Fmt → Nat → Nat → Nat}
    (e : exec i s = s.issue .l true (fun s => s.floatMap vd vs2 vm false op)) :
    s.Writes i s.task.sew vd.toNat s.task.lmul (forElems (s.actives vm) (fun i => op s f i (s.task.elem s.task.sew vs2.toNat i))) :=
  State.floatMap_writes h hf hg (e.trans (h.issue _))

/-- A word over one source that rounds each element once, and its fault where mode 5 has no counters (R188). -/
theorem State.AtWord.roundsMap {op : State → Fmt → Nat → Nat → Nat}
    (e : exec i s = s.issue .l true (fun s => s.floatMap vd vs2 vm true op)) :
    (s.MayRound → s.Writes i s.task.sew vd.toNat s.task.lmul
      (forElems (s.actives vm) (fun i => op s f i (s.task.elem s.task.sew vs2.toNat i))) State.countRounding) ∧
    (¬s.MayRound → exec i s = .next (s.takeFault { cause := 0x0B })) :=
  have issued := e.trans (h.issue _)
  ⟨fun hm => State.floatMap_rounds h hf hg hm issued, fun hm => issued.trans (State.floatMap_uncounted h hf hg hm)⟩

end

end

/-- Settles O30: the seven operations are one arithmetic word over three kinds of second operand. -/
theorem floatArithmetic : Obligations.FloatArithmetic := by
  unfold Obligations.FloatArithmetic
  refine ⟨?format, ?none⟩
  case format =>
    intro s b f vd vs2 vs1 xs rsz c2 c1 vm hf w m vv vx vr asserts
    refine ⟨fun h => ⟨?_, ?_, ?_, ?_, ?_, ?_, ?_, ?_, ?_, ?_, ?_, ?_, ?_, ?_⟩, fun h => ⟨?_, ?_, ?_, ?_, ?_, ?_, ?_⟩⟩
    · exact h.floats h.mayIssue hf (.vv vs1) (exec_vfaddFVV ..)
    · exact h.floats h.mayIssue hf (.vx xs) (exec_vfaddFVX ..)
    · exact h.floats h.mayIssue hf (.vv vs1) (exec_vfsubFVV ..)
    · exact h.floats h.mayIssue hf (.vx xs) (exec_vfsubFVX ..)
    · exact h.floats h.mayIssue hf (.vv vs1) (exec_vfmulFVV ..)
    · exact h.floats h.mayIssue hf (.vx xs) (exec_vfmulFVX ..)
    · exact h.floats h.mayIssue hf (.vv vs1) (exec_vfdivFVV ..)
    · exact h.floats h.mayIssue hf (.vx xs) (exec_vfdivFVX ..)
    · exact h.floats h.mayIssue hf (.vv vs1) (exec_vfmaccFVV ..)
    · exact h.floats h.mayIssue hf (.vx xs) (exec_vfmaccFVX ..)
    · exact h.floats h.mayIssue hf (.vv vs1) (exec_vfnmsacFVV ..)
    · exact h.floats h.mayIssue hf (.vx xs) (exec_vfnmsacFVX ..)
    · exact h.floats h.mayIssue hf (.vv vs1) (exec_vfscaleFVV ..)
    · exact h.floats h.mayIssue hf (.vx xs) (exec_vfscaleFVX ..)
    · exact h.word.floats h.mayIssue hf (.vr vs1 rsz) (exec_vfaddFVR ..)
    · exact h.word.floats h.mayIssue hf (.vr vs1 rsz) (exec_vfsubFVR ..)
    · exact h.word.floats h.mayIssue hf (.vr vs1 rsz) (exec_vfmulFVR ..)
    · exact h.word.floats h.mayIssue hf (.vr vs1 rsz) (exec_vfdivFVR ..)
    · exact h.word.floats h.mayIssue hf (.vr vs1 rsz) (exec_vfmaccFVR ..)
    · exact h.word.floats h.mayIssue hf (.vr vs1 rsz) (exec_vfnmsacFVR ..)
    · exact h.word.floats h.mayIssue hf (.vr vs1 rsz) (exec_vfscaleFVR ..)
  case none =>
    intro s b vd vs2 vs1 xs rsz c2 c1 vm hf bad
    have word {a : Attr} {i : Instr} {src : Src} {fused : Bool} {op : FloatOp} (ha : s.mayIssue a = true)
        (e : exec i s = s.issue a true (fun s => s.floatWord vd vs2 src vm fused op)) : bad i :=
      State.floatWord_noFormat ha hf e
    refine ⟨fun h => ?_, fun h => ?_⟩
    · have may := h.mayIssue
      exact ⟨word may (exec_vfaddFVV ..), word may (exec_vfaddFVX ..), word may (exec_vfsubFVV ..), word may (exec_vfsubFVX ..),
        word may (exec_vfmulFVV ..), word may (exec_vfmulFVX ..), word may (exec_vfdivFVV ..), word may (exec_vfdivFVX ..),
        word may (exec_vfmaccFVV ..), word may (exec_vfmaccFVX ..), word may (exec_vfnmsacFVV ..), word may (exec_vfnmsacFVX ..),
        word may (exec_vfscaleFVV ..), word may (exec_vfscaleFVX ..)⟩
    · have may := h.mayIssue
      exact ⟨word may (exec_vfaddFVR ..), word may (exec_vfsubFVR ..), word may (exec_vfmulFVR ..), word may (exec_vfdivFVR ..),
        word may (exec_vfmaccFVR ..), word may (exec_vfnmsacFVR ..), word may (exec_vfscaleFVR ..)⟩

/-- Settles O32: each word is the shared map over one source, which counts itself where it rounds under the task's mode. -/
theorem floatMaps : Obligations.FloatMaps := by
  unfold Obligations.FloatMaps
  intro s b f vd vs2 c2 vm h hf hg w map rounds
  refine ⟨h.maps hf hg (exec_vfrecip ..), h.maps hf hg (exec_vfrsqrt ..), h.maps hf hg (exec_vfexp2 ..), h.maps hf hg (exec_vflog2 ..),
    h.maps hf hg (exec_vfclass ..), h.roundsMap hf hg (exec_vfsqrt ..), h.roundsMap hf hg (exec_vcvtif ..),
    h.roundsMap hf hg (exec_vcvtfi ..)⟩

/-! ## Reductions (R202 to R204) -/

section
variable {s : State} {b : Block} {i : Instr} {vd vs2 : BitVec 5} {vm : BitVec 1} {res : State → Fmt → Nat}

theorem State.AtBlock.floatReduce_noFormat (h : s.AtBlock b) (hf : fmtOf s.task.sew s.task.fk = none) {rounds : Bool}
    (e : exec i s = s.issue .b true (fun s => s.floatReduce vd vs2 vm rounds res)) :
    exec i s = .next (s.takeFault { cause := 0x01 }) := by
  rw [e, h.issue, State.floatReduce, State.withFmt_none hf]
  rfl

section
variable {f : Fmt} (h : s.AtBlock b) (hf : fmtOf s.task.sew s.task.fk = some f)
  (hg : s.task.groupsOk { srcs := [(vs2.toNat, s.task.lmul)], dsts := [(vd.toNat, 1)] } vm = true)
include h hf hg

theorem State.AtBlock.picksOne (e : exec i s = s.issue .b true (fun s => s.floatReduce vd vs2 vm false res)) :
    s.Writes i s.task.sew vd.toNat 1 (forElems (if s.task.vl = 0 then [] else [0]) (fun _ => res s f)) :=
  State.floatReduce_writes h.word hf hg (e.trans (h.issue _))

theorem State.AtBlock.sums (hm : s.MayRound) (e : exec i s = s.issue .b true (fun s => s.floatReduce vd vs2 vm true res)) :
    s.Writes i s.task.sew vd.toNat 1 (forElems (if s.task.vl = 0 then [] else [0]) (fun _ => res s f)) State.countRounding :=
  State.floatReduce_rounds h.word hf hg hm (e.trans (h.issue _))

theorem State.AtBlock.sums_uncounted (hm : ¬s.MayRound) (e : exec i s = s.issue .b true (fun s => s.floatReduce vd vs2 vm true res)) :
    exec i s = .next (s.takeFault { cause := 0x0B }) := by
  rw [e, h.issue, State.floatReduce, State.withFmt_of hf, State.vectorWord_of h.runs hg, if_pos rfl, State.rounding_none _ hm]
  rfl

end

end

/-! ## Conversions between widths (R205, R206) -/

/-- A register is a whole number of 512-byte parts (R143). -/
theorem Task.vlenb_eq (t : Task) : t.vlenb = 512 * (t.id.grant * t.fold) := by
  rw [Task.vlenb, Nat.mul_assoc, Nat.mul_left_comm]

/-- A register holds half as many elements of twice the width that SEW gives (R143). -/
theorem Task.perReg_sew (t : Task) : t.perReg t.sew = 2 * t.perReg (2 * t.sew) := by
  have code : t.sewCode ≤ 7 := Nat.le_of_lt_succ (BitVec.isLt _)
  obtain ⟨k, hk⟩ : 2 ^ t.sewCode ∣ 2 ^ 8 := pow_dvd_pow 2 (code.trans (by decide))
  have bits : t.vlenb * 8 = 2 * t.sew * (k * (t.id.grant * t.fold)) := by
    rw [t.vlenb_eq, Task.sew]
    calc _ = 2 ^ 8 * (16 * (t.id.grant * t.fold)) := by ring
      _ = _ := by rw [hk]; ring
  have pos := t.sew_pos
  rw [Task.perReg, Task.perReg, bits, Nat.mul_div_cancel_left _ (by omega), Nat.mul_assoc, Nat.mul_left_comm,
    Nat.mul_div_cancel_left _ pos]

section
variable {s : State} {b : Block} {i : Instr} {vd vs2 : BitVec 5} {vm : BitVec 1} {op : State → Nat → Nat → Nat}

theorem State.actives_lt_sew {j : Nat} (hj : j ∈ s.actives vm) : j < s.task.lmul * s.task.perReg s.task.sew := by
  rw [← Task.vlmax_eq]
  exact s.actives_lt vm j hj

theorem State.actives_lt_wide {j : Nat} (hj : j ∈ s.actives vm) : j < 2 * s.task.lmul * s.task.perReg (2 * s.task.sew) := by
  have := State.actives_lt_sew hj
  rwa [Task.perReg_sew, Nat.mul_left_comm, ← Nat.mul_assoc] at this

section
variable (h : s.AtBlock b) (ho : overlap vd.toNat s.task.lmul vs2.toNat (2 * s.task.lmul) = false) (h8 : s.task.lmul ≠ 8)
  (h64 : s.task.sew ≠ 64) (hg : s.task.groupsOk { srcs := [(vs2.toNat, 2 * s.task.lmul)], dsts := [(vd.toNat, s.task.lmul)] } vm = true)
include h ho h8 h64 hg

/-- A narrowing word, without and with a rounding under the task's mode. -/
theorem State.AtBlock.narrows :
    (exec i s = (s.resizeWord vd vs2 vm true false op).outcome → s.Writes i s.task.sew vd.toNat s.task.lmul
      (forElems (s.actives vm) (fun i => op s i (s.task.elem (2 * s.task.sew) vs2.toNat i)))) ∧
    (s.MayRound → exec i s = (s.resizeWord vd vs2 vm true true op).outcome → s.Writes i s.task.sew vd.toNat s.task.lmul
      (forElems (s.actives vm) (fun i => op s i (s.task.elem (2 * s.task.sew) vs2.toNat i))) State.countRounding) :=
  State.resizeWord_writes h.word (narrowing := true) rfl rfl rfl rfl ho h8 h64 hg (fun _ => State.actives_lt_sew)

theorem State.AtBlock.narrows_uncounted (hm : ¬s.MayRound) :
    (s.resizeWord vd vs2 vm true true op).outcome = .next (s.takeFault { cause := 0x0B }) := by
  simp only [State.resizeWord, if_true, ho, h8, h64, Bool.false_eq_true, or_self, if_false]
  rw [State.vectorWord_of h.runs hg, State.rounding_none _ hm]
  rfl

end

/-- A widening word. -/
theorem State.AtBlock.widens (h : s.AtBlock b) (ho : overlap vd.toNat (2 * s.task.lmul) vs2.toNat s.task.lmul = false)
    (h8 : s.task.lmul ≠ 8) (h64 : s.task.sew ≠ 64)
    (hg : s.task.groupsOk { srcs := [(vs2.toNat, s.task.lmul)], dsts := [(vd.toNat, 2 * s.task.lmul)] } vm = true)
    (e : exec i s = (s.resizeWord vd vs2 vm false false op).outcome) :
    s.Writes i (2 * s.task.sew) vd.toNat (2 * s.task.lmul)
      (forElems (s.actives vm) (fun i => op s i (s.task.elem s.task.sew vs2.toNat i))) :=
  (State.resizeWord_writes h.word (narrowing := false) rfl rfl rfl rfl ho h8 h64 hg (fun _ => State.actives_lt_wide)).1 e

end

/-- Settles O33: the reductions are one shared fold into element 0; the conversions are one word between widths, under a pair of formats
where they are floating. -/
theorem floatReductionsAndResizes : Obligations.FloatReductionsAndResizes := by
  unfold Obligations.FloatReductionsAndResizes
  intro s b vd vs2 c2 vm h w m zero narrow widen
  have vncvt : exec (.vncvt vd vs2 c2 vm) s = _ := (exec_vncvt ..).trans (h.issue _)
  have vwcvt : exec (.vwcvt vd vs2 c2 vm) s = _ := (exec_vwcvt ..).trans (h.issue _)
  have vncvti : exec (.vncvti vd vs2 c2 vm) s = _ := (exec_vncvti ..).trans (h.issue _)
  have vwcvti : exec (.vwcvti vd vs2 c2 vm) s = _ := (exec_vwcvti ..).trans (h.issue _)
  have vwcvtn : exec (.vwcvtn vd vs2 c2 vm) s = _ := (exec_vwcvtn ..).trans (h.issue _)
  refine ⟨fun f hf hg => ⟨?_, ?_, fun hm => ⟨?_, ?_⟩⟩, fun n x hn hx => ⟨fun hm ho h8 h64 hg => ?_, fun ho h8 h64 hg => ?_⟩,
    fun ho h8 h64 hg => ?_, fun ho h8 h64 hg => ?_, fun ho h8 h64 hg => ?_, fun hb => ⟨?_, ?_⟩, fun hb => ⟨?_, ?_, ?_⟩,
    fun hb => ⟨?_, ?_⟩, fun hf => ⟨?_, ?_, ?_, ?_⟩, fun hm f hf => ⟨fun hg => ⟨?_, ?_⟩, fun hx ho h8 h64 hg => ?_⟩⟩
  · exact h.picksOne hf hg (exec_vfredmin ..)
  · exact h.picksOne hf hg (exec_vfredmax ..)
  · exact h.sums hf hg hm (exec_vfredsum ..)
  · exact h.sums hf hg hm (exec_vfredosum ..)
  · rw [State.withPartner_of hn hx] at vncvt
    exact (h.narrows ho h8 h64 hg).2 hm vncvt
  · rw [State.withPartner_of hn hx] at vwcvt
    exact h.widens ho h8 h64 hg vwcvt
  · exact (h.narrows ho h8 h64 hg).1 vncvti
  · exact h.widens ho h8 h64 hg vwcvti
  · exact h.widens ho h8 h64 hg vwcvtn
  · exact vncvti.trans (State.resizeWord_bad s (or_rotate.mp hb))
  · exact vncvt.trans (State.withPartner_illegal (fun _ _ => State.resizeWord_bad s (or_rotate.mp hb)))
  · exact vwcvti.trans (State.resizeWord_bad s (or_rotate.mp hb))
  · exact vwcvtn.trans (State.resizeWord_bad s (or_rotate.mp hb))
  · exact vwcvt.trans (State.withPartner_illegal (fun _ _ => State.resizeWord_bad s (or_rotate.mp hb)))
  · exact vncvt.trans (congrArg Act.outcome (State.withPartner_none hb _))
  · exact vwcvt.trans (congrArg Act.outcome (State.withPartner_none hb _))
  · exact h.floatReduce_noFormat hf (exec_vfredsum ..)
  · exact h.floatReduce_noFormat hf (exec_vfredosum ..)
  · exact h.floatReduce_noFormat hf (exec_vfredmin ..)
  · exact h.floatReduce_noFormat hf (exec_vfredmax ..)
  · exact h.sums_uncounted hf hg hm (exec_vfredsum ..)
  · exact h.sums_uncounted hf hg hm (exec_vfredosum ..)
  · obtain ⟨x, hx⟩ := Option.isSome_iff_exists.mp hx
    rw [State.withPartner_of hf hx] at vncvt
    exact vncvt.trans (h.narrows_uncounted ho h8 h64 hg hm)

/-! ## MXFP4 blocks (R208) -/

section
variable {s : State} {b : Block} {vd vs2 vs1 : BitVec 5} {vm : BitVec 1}

theorem State.mxWord_of (hw : s.task.sew = 32) (hk : s.task.fk = 0) (hl : s.task.vl % 32 = 0) (k : Act) : s.mxWord k = k := by
  simp [State.mxWord, hw, hk, hl]

theorem State.mxWord_format (hf : s.task.sew ≠ 32 ∨ s.task.fk ≠ 0) (k : Act) : s.mxWord k = .trap s illegal := if_pos hf

theorem State.mxWord_length (hw : s.task.sew = 32) (hk : s.task.fk = 0) (hl : s.task.vl % 32 ≠ 0) (k : Act) :
    s.mxWord k = .trap s (cause 0x08) := by
  simp [State.mxWord, hw, hk, hl]

/-- LMUL is at most 8 (R146). -/
theorem Task.lmul_le (t : Task) : t.lmul ≤ 8 := by
  have code : fieldN t.vcfg 3 2 ≤ 3 := Nat.le_of_lt_succ (BitVec.isLt _)
  exact Nat.pow_le_pow_right Nat.two_pos code

/-- A group of 32-bit elements has at most a byte's scale for each block, and a nibble for each element, in one register. -/
theorem Task.vlmax_le_mx {t : Task} (hw : t.sew = 32) : t.vlmax / 32 ≤ t.perReg 8 ∧ t.vlmax ≤ t.perReg 4 := by
  have len : t.vlmax ≤ t.perReg 32 * 8 := by
    rw [Task.vlmax, hw]
    exact Nat.mul_le_mul_left _ t.lmul_le
  simp only [Task.perReg] at len ⊢
  omega

/-- The values of the active elements of block k (R208). -/
def State.blockNums (s : State) (vs2 : BitVec 5) (vm : BitVec 1) (k : Nat) : List Num :=
  ((List.range 32).map (fun j => 32 * k + j)).filterMap (fun i =>
    if s.task.vstart ≤ i ∧ (vm = 1 ∨ s.task.maskBit 0 i = true) then some (binary32.decode (s.task.elem 32 vs2.toNat i)) else none)

/-- VBSCALE writes the scale of each block. -/
theorem State.AtBlock.vbscale_writes (h : s.AtBlock b) (c2 : BitVec 1) (hw : s.task.sew = 32) (hk : s.task.fk = 0)
    (hl : s.task.vl % 32 = 0) (hg : s.task.groupsOk { srcs := [(vs2.toNat, s.task.lmul)], dsts := [(vd.toNat, 1)] } vm = true) :
    s.Writes (.vbscale vd vs2 c2 vm) 8 vd.toNat 1
      (forElems (List.range (min s.task.vl s.task.vlmax / 32)) (fun k => blockScale (s.blockNums vs2 vm k))) := by
  refine ⟨_, ?_, Task.setElems_wrote s.task 8 vd.toNat 1 _ _ h.runs.registers (by decide) (Task.groupsOk_dst hg (by simp))
    (fun k hk => ?_) List.nodup_range⟩
  · rw [exec_vbscale, execVbscale, h.issue, State.mxWord_of hw hk hl, State.unaryWord, State.vectorWord_of h.runs hg]
    simp only [State.isActive, Bool.and_eq_true, decide_eq_true_eq, Bool.or_eq_true, beq_iff_eq]
    rfl
  · have scales := (Task.vlmax_le_mx hw).1
    have below := List.mem_range.mp hk
    omega

/-- Where no register is poisoned nibbles are written as elements of 4 bits. -/
theorem Task.setNibbles_of {t : Task} (hp : t.vPoison = []) (n : Nat) (vals : List (Nat × Nat)) :
    t.setNibbles n vals = t.setElems 4 n vals := by
  simp [Task.setNibbles, hp]

/-- VCVTQ4 writes the code of each active element. -/
theorem State.AtBlock.vcvtq4_writes (h : s.AtBlock b) (c2 c1 : BitVec 1) (hw : s.task.sew = 32) (hk : s.task.fk = 0)
    (hl : s.task.vl % 32 = 0)
    (hg : s.task.groupsOk { srcs := [(vs2.toNat, s.task.lmul), (vs1.toNat, 1)], dsts := [(vd.toNat, 1)] } vm = true)
    (ho : overlap vd.toNat 1 vs2.toNat s.task.lmul = false) (hd : vd ≠ vs1) (hm : s.MayRound) :
    s.Writes (.vcvtq4 vd vs2 vs1 c2 c1 vm) 4 vd.toNat 1
      (forElems (s.actives vm) (fun i => s.toQ4 i (s.task.elem 8 vs1.toNat (i / 32)) (s.task.elem 32 vs2.toNat i)))
      State.countRounding := by
  have apart : (overlap vd.toNat 1 vs2.toNat s.task.lmul || vd == vs1) = false := by simp [ho, hd]
  have e := (exec_vcvtq4 vd vs2 vs1 c2 c1 vm s).trans (h.issue _)
  rw [State.mxWord_of hw hk hl, apart, if_neg Bool.false_ne_true, State.vectorWord_of h.runs hg] at e
  refine State.writes_rounding h.runs (by decide) (Task.groupsOk_dst hg (by simp)) (fun j hj => ?_) (s.nodup_actives vm) hm e ?_
  · rw [Nat.one_mul]
    exact (s.actives_lt vm j hj).trans_le (Task.vlmax_le_mx hw).2
  · simp only [State.onTask, Task.setNibbles_of h.runs.registers]

end

/-- Settles O34: both words pass the checks of MXFP4 blocks in their order, then write within one register. -/
theorem blockScaledFour : Obligations.BlockScaledFour := by
  unfold Obligations.BlockScaledFour
  intro s b vd vs2 vs1 c2 c1 vm h m block
  have vbscale : exec (.vbscale vd vs2 c2 vm) s = _ := (exec_vbscale ..).trans (h.issue _)
  have vcvtq4 : exec (.vcvtq4 vd vs2 vs1 c2 c1 vm) s = _ := (exec_vcvtq4 ..).trans (h.issue _)
  refine ⟨fun hw hk hl => ⟨h.vbscale_writes c2 hw hk hl, h.vcvtq4_writes c2 c1 hw hk hl⟩, fun hf => ⟨?_, ?_⟩, fun hw hk hl => ⟨?_, ?_⟩⟩
  · exact vbscale.trans (congrArg Act.outcome (State.mxWord_format hf _))
  · exact vcvtq4.trans (congrArg Act.outcome (State.mxWord_format hf _))
  · exact vbscale.trans (congrArg Act.outcome (State.mxWord_length hw hk hl _))
  · exact vcvtq4.trans (congrArg Act.outcome (State.mxWord_length hw hk hl _))

end Sys2Proof.Machine
end

section
/-! SUPPORT. Plan registers, the array's configuration words, and array words outside ARRAY tasks (R210, R269 to R273, R282, R347). -/

namespace Sys2Proof.Machine

/-! ## What a saved array word had put aside (R290, R347) -/

/-- A word of the block's own has nothing put aside to write. -/
theorem Task.putAside_own {t : Task} (h : t.entrySave = none) (f : EntrySave → EntrySave) : t.putAside f = t := by
  have empty : t.entrySave.map f = t.entrySave := by rw [h, Option.map_none]
  rw [Task.putAside, empty]

theorem Task.setMshape_own {t : Task} (h : t.entrySave = none) (v : Word) : t.setMshape v = { t with mshape := v } :=
  Task.putAside_own (t := { t with mshape := v }) h _

theorem Task.setMcfg_own {t : Task} (h : t.entrySave = none) (v : Word) : t.setMcfg v = { t with mcfg := v } :=
  Task.putAside_own (t := { t with mcfg := v }) h _

theorem Task.setMshape_entrySave {t : Task} {a : EntrySave} (h : t.entrySave = some a) (v : Word) :
    (t.setMshape v).entrySave = some { a with mshape := v } := by
  simp only [Task.setMshape, Task.putAside, h, Option.map_some]

theorem Task.setMcfg_entrySave {t : Task} {a : EntrySave} (h : t.entrySave = some a) (v : Word) :
    (t.setMcfg v).entrySave = some { a with mcfg := v } := by
  simp only [Task.setMcfg, Task.putAside, h, Option.map_some]

theorem Task.putScalar_entrySave {t : Task} {a : EntrySave} {o : Block} {r : BitVec 5} (h : t.entrySave = some a) (ho : a.block = some o)
    (hr : r ≠ 0) (v : Word) : (t.putScalar r v).entrySave = some { a with
      block := some { o with xs := o.xs.setIfInBounds r.toNat v, poison := o.poison &&& ~~~(1#32 <<< r.toNat) } } := by
  have set : o.xs.set r.toNat v = o.xs.setIfInBounds r.toNat v := by
    ext i hi
    rw [Vector.getElem_set, Vector.getElem_setIfInBounds]
  simp only [Task.putScalar, Task.putAside, h, ho, Option.map_some, if_neg hr, set]

/-- What a saved array word had put aside is taken back as it moves on, and its entry leaves the queue (R347). -/
theorem State.advance_saved {s : State} {a : EntrySave} (h : s.cur = .vector) (ha : s.task.entrySave = some a) : s.advance =
    { s with task := { s.task with block := a.block, vl := a.vl, vcfg := a.vcfg, mshape := a.mshape, mcfg := a.mcfg, fl := a.fl,
                                   entrySave := none, aqueue := s.task.aqueue.drop 1, progressAt := s.micros } } := by
  simp only [State.advance, h, Task.passVector, ha, Option.isSome_some, if_true, Task.leaveEntry]

/-! ## Values of mcfg (R270, R273) -/

theorem mcfgOk_iff (v : Word) : mcfgOk v = true ↔
    fieldN v 23 41 = 0 ∧ fieldN v 0 2 ≠ 3 ∧ fieldN v 3 2 ≠ 3 ∧ fieldN v 6 3 ≤ 4 ∧ fieldN v 20 3 ≠ 7 := by
  simp only [mcfgOk, Bool.and_eq_true, beq_iff_eq, bne_iff_ne, ne_eq, decide_eq_true_eq, and_assoc]

theorem mcfgOk_eq_false_iff (v : Word) : mcfgOk v = false ↔
    fieldN v 23 41 ≠ 0 ∨ fieldN v 0 2 = 3 ∨ fieldN v 3 2 = 3 ∨ 4 < fieldN v 6 3 ∨ fieldN v 20 3 = 7 := by
  rw [← Bool.not_eq_true, mcfgOk_iff]
  simp only [not_and_or, ne_eq, not_not, Nat.not_le]

section
variable {s : State} {b : Block}

/-! ## Words of every block (R210, R271) -/

theorem State.AtBlock.flset (h : s.AtBlock b) (fl : BitVec 2) (xs : BitVec 5) : exec (.flset fl xs) s =
    (if fieldN (s.x xs) 47 17 ≠ 0 then .trap s illegal
     else .go (s.onTask (fun t => { t with fl := t.fl.setIfInBounds fl.toNat (s.x xs) })) : Act).outcome := by
  rw [exec_flset, execFlset, h.issue, h.word.needX]

theorem State.AtBlock.flget (h : s.AtBlock b) (xd : BitVec 5) (fl : BitVec 2) :
    exec (.flget xd fl) s = .next (s.setX xd ((s.task.fl[fl.toNat]?).getD 0)).advance := by
  rw [exec_flget, execFlget, h.issue, h.word.needX]; rfl

theorem State.AtBlock.mgetstat (h : s.AtBlock b) (xd : BitVec 5) : exec (.mgetstat xd) s =
    .next ((s.setX xd s.task.astat).onTask (fun t => t.putScalar xd s.task.astat)).advance := by
  rw [exec_mgetstat, execMgetstat, h.issue, h.word.needX]; rfl

theorem State.AtBlock.mclrstat (h : s.AtBlock b) :
    exec .mclrstat s = .next (s.onTask (fun t => { t with astat := 0 })).advance := by
  rw [exec_mclrstat, execMclrstat, h.issue]; rfl

theorem State.AtBlock.mgetstat_own (h : s.AtBlock b) (own : s.task.entrySave = none) (xd : BitVec 5) :
    exec (.mgetstat xd) s = .next (s.setX xd s.task.astat).advance := by
  have stays : (s.setX xd s.task.astat).task.putScalar xd s.task.astat = (s.setX xd s.task.astat).task :=
    Task.putAside_own ((s.setX_task_entrySave ..).trans own) _
  rw [h.mgetstat, State.onTask, stays]

/-- The block put aside gets the scalar too, so that it is there once the block is taken back (R347). -/
theorem State.AtBlock.mgetstat_saved (h : s.AtBlock b) {xd : BitVec 5} (hx : xd ≠ 0) {a : EntrySave} {o : Block}
    (ha : s.task.entrySave = some a) (ho : a.block = some o) :
    exec (.mgetstat xd) s = .next { s with task := { s.task with
      block := some { o with xs := o.xs.setIfInBounds xd.toNat s.task.astat, poison := o.poison &&& ~~~(1#32 <<< xd.toNat) },
      vl := a.vl, vcfg := a.vcfg, mshape := a.mshape, mcfg := a.mcfg, fl := a.fl, entrySave := none,
      aqueue := s.task.aqueue.drop 1, progressAt := s.micros } } := by
  rw [h.mgetstat, State.advance_saved (s := (s.setX xd s.task.astat).onTask (fun t => t.putScalar xd s.task.astat))
    ((s.setX_cur ..).trans h.party) (Task.putScalar_entrySave ((s.setX_task_entrySave ..).trans ha) ho hx _)]
  simp only [State.setX, if_neg hx, h.party, h.runs.block] <;> rfl

/-! ## Array words (R269 to R273, R282) -/

theorem State.AtArray.msetshape (h : s.AtArray b) (xs : BitVec 5) : exec (.msetshape xs) s =
    (if fieldN (s.x xs) 12 52 ≠ 0 then .trap s illegal else .go (s.onTask (fun t => t.setMshape (s.x xs))) : Act).outcome := by
  rw [exec_msetshape, execMsetshape, h.block.issue, h.arrayWord, h.block.word.needX]

theorem State.AtArray.msetcfg (h : s.AtArray b) (xs : BitVec 5) : exec (.msetcfg xs) s =
    (if !mcfgOk (s.x xs) then .trap s illegal else .go (s.onTask (fun t => t.setMcfg (s.x xs))) : Act).outcome := by
  rw [exec_msetcfg, execMsetcfg, h.block.issue, h.arrayWord, h.block.word.needX]

theorem State.AtArray.msetshape_ok (h : s.AtArray b) {xs : BitVec 5} (ok : fieldN (s.x xs) 12 52 = 0) :
    exec (.msetshape xs) s = .next (s.onTask (fun t => t.setMshape (s.x xs))).advance := by
  rw [h.msetshape, if_neg (not_not.mpr ok)]; rfl

theorem State.AtArray.msetcfg_ok (h : s.AtArray b) {xs : BitVec 5} (ok : mcfgOk (s.x xs) = true) :
    exec (.msetcfg xs) s = .next (s.onTask (fun t => t.setMcfg (s.x xs))).advance := by
  rw [h.msetcfg, ok]; rfl

/-- No tile is poisoned, so that MZERO leaves the marks as they are. -/
theorem State.AtArray.mzero (h : s.AtArray b) (md : BitVec 3) :
    exec (.mzero md) s = .next (s.onTask (fun t => { t with m := t.m.setIfInBounds md.toNat 0 })).advance := by
  have marks : s.task.mPoison.filter (fun p => p.1 != md.toNat) = s.task.mPoison := by
    rw [h.block.runs.tiles, List.filter_nil]
  rw [exec_mzero, execMzero, h.block.issue, h.arrayWord]
  simp only [Act.outcome, State.onTask, marks]

/-- The test of R272 comes before everything that an array word reads. -/
theorem State.AtBlock.outsideArray (h : s.AtBlock b) (kind : s.task.id.kind ≠ 2) {i : Instr} {k : State → Act}
    (e : exec i s = s.issue .b true (fun s => s.arrayWord (k s))) : exec i s = .next (s.takeFault { cause := 0x08 }) := by
  rw [e, h.issue, State.arrayWord, if_pos kind]; rfl

end

/-- Settles O41: each word issues undisturbed and comes to its own check; what a saved array word writes is also written where its turn had
put the old value aside, and every array word tests the task's kind first. -/
theorem configurationWords : Obligations.ConfigurationWords := by
  unfold Obligations.ConfigurationWords
  intro s b xs xd r2 fl md c2 c1 vm bad
  refine ⟨fun h => ⟨fun ok => ?_, fun reserved => ?_, h.flget xd fl, fun own => h.mgetstat_own own xd, h.mclrstat⟩,
    fun h => ⟨fun ok own => ?_, fun reserved => ?_, fun h0 h1 h2 h3 h4 own => ?_, fun reserved => ?_, h.mzero md,
      fun a ha => ?_⟩,
    fun h kind => ⟨h.outsideArray kind (exec_msetshape ..), h.outsideArray kind (exec_msetcfg ..), h.outsideArray kind (exec_mzero ..),
      h.outsideArray kind (exec_mopa ..), h.outsideArray kind (exec_mopd ..), h.outsideArray kind (exec_mfetch ..),
      h.outsideArray kind (exec_mdrain ..), h.outsideArray kind (exec_mdrainq ..), h.outsideArray kind (exec_mbest ..),
      h.outsideArray kind (exec_mld ..), h.outsideArray kind (exec_mst ..), h.outsideArray kind (exec_mcupd ..)⟩⟩
  · rw [h.flset, if_neg (not_not.mpr ok)]; rfl
  · exact (h.flset fl xs).trans (congrArg Act.outcome (if_pos reserved))
  · rw [h.msetshape_ok ok, State.onTask, Task.setMshape_own own]; rfl
  · exact (h.msetshape xs).trans (congrArg Act.outcome (if_pos reserved))
  · rw [h.msetcfg_ok ((mcfgOk_iff _).mpr ⟨h0, h1, h2, h3, h4⟩), State.onTask, Task.setMcfg_own own]; rfl
  · refine (h.msetcfg xs).trans (congrArg Act.outcome (if_pos ?_))
    rw [(mcfgOk_eq_false_iff _).mpr reserved, Bool.not_false]
  · intro leaves
    refine ⟨fun ok => ?_, fun ok => ?_, fun o ho hx => ⟨_, h.block.mgetstat_saved hx ha ho⟩⟩
    · exact (h.msetshape_ok ok).trans (congrArg _ (State.advance_saved (s := s.onTask (fun t => t.setMshape (s.x xs)))
        h.block.party (Task.setMshape_entrySave ha _)))
    · exact (h.msetcfg_ok ok).trans (congrArg _ (State.advance_saved (s := s.onTask (fun t => t.setMcfg (s.x xs)))
        h.block.party (Task.setMcfg_entrySave ha _)))

end Sys2Proof.Machine
end

section
/-! SUPPORT. Lines of the stash written back, cleaned and dropped: what memory, poison and the stash hold then (R230, R239, R241, R353). -/

namespace Sys2Proof.Machine

/-! ## Cells written one after another -/

/-- What reads and tags hang on in a state: memory and its key tags. -/
theorem State.readPlain_congr {s t : State} (mem : t.mem = s.mem) (tags : t.tags = s.tags) (km : Option (BitVec 512)) (k : Nat) :
    t.readPlain km k = s.readPlain km k := by
  have tag : t.tagOf k = s.tagOf k := by rw [State.tagOf, State.tagOf, tags]
  have raw : t.rawBlock k = s.rawBlock k := by rw [State.rawBlock, State.rawBlock, mem]
  rw [State.readPlain, State.readPlain, tag, raw, mem]

/-- The cells of a line's unwritten bytes stored under a key, in their order. -/
def State.writeCells (s : State) (km : Option (BitVec 512)) (cs : List Host.Cell) : State := cs.foldl (fun s c => s.writePlain km c.1 c.2) s

theorem State.writeCells_some (s : State) (km : Option (BitVec 512)) (cs : List Host.Cell) :
    ∃ m g, s.writeCells km cs = { s with mem := m, tags := g } := by
  induction cs generalizing s with
  | nil => exact ⟨_, _, rfl⟩
  | cons c cs ih =>
    obtain ⟨m, g, whole⟩ := ih (s.writePlain km c.1 c.2)
    refine ⟨m, g, whole.trans ?_⟩
    rw [s.writePlain_rest km c.1 c.2]

theorem State.readPlain_writeCells_other (s : State) (km : Option (BitVec 512)) (cs : List Host.Cell) {k : Nat} (h : ∀ c ∈ cs, k ≠ c.1) :
    (s.writeCells km cs).readPlain km k = s.readPlain km k := by
  induction cs generalizing s with
  | nil => rfl
  | cons c cs ih =>
    rw [List.forall_mem_cons] at h
    exact (ih _ h.2).trans ((s.readPlain_writePlain km c.1 c.2 k).trans (if_neg h.1))

theorem State.readPlain_writeCells (s : State) (km : Option (BitVec 512)) {cs : List Host.Cell} (apart : cs.Pairwise (fun c d => c.1 ≠ d.1))
    {c : Host.Cell} (hc : c ∈ cs) : (s.writeCells km cs).readPlain km c.1 = c.2 := by
  induction cs generalizing s with
  | nil => cases hc
  | cons d cs ih =>
    obtain ⟨later, apart⟩ := List.pairwise_cons.mp apart
    rcases List.mem_cons.mp hc with rfl | hc
    · exact (State.readPlain_writeCells_other _ km cs later).trans ((s.readPlain_writePlain km c.1 c.2 c.1).trans (if_pos rfl))
    · exact ih _ apart hc

theorem State.writeCells_others (s : State) (km : Option (BitVec 512)) (cs : List Host.Cell) {k : Nat} (h : ∀ c ∈ cs, k / 16 ≠ c.1 / 16) :
    Memory.get (s.writeCells km cs).mem k = Memory.get s.mem k ∧ (s.writeCells km cs).tagOf k = s.tagOf k := by
  induction cs generalizing s with
  | nil => exact ⟨rfl, rfl⟩
  | cons c cs ih =>
    rw [List.forall_mem_cons] at h
    obtain ⟨cell, tag⟩ := ih (s.writePlain km c.1 c.2) h.2
    obtain ⟨cell', tag'⟩ := s.writePlain_others km c.1 c.2 k h.1
    exact ⟨cell.trans cell', tag.trans tag'⟩

/-! ## Lines written back -/

theorem State.writeBackLine_some (s : State) (l : StashLine) :
    ∃ m g, s.writeBackLine l = { s with mem := m, tags := g, poison := s.poison.filter (fun x => !l.cleared.contains x) } := by
  obtain ⟨m, g, whole⟩ := s.writeCells_some l.km l.dirty
  refine ⟨m, g, ?_⟩
  rw [State.writeBackLine, ← State.writeCells, whole]

/-- Lines written back one after another. -/
def State.writeBack (s : State) (ls : List StashLine) : State := ls.foldl State.writeBackLine s

theorem State.writeBack_some (s : State) (ls : List StashLine) : ∃ m g, s.writeBack ls =
    { s with mem := m, tags := g, poison := s.poison.filter (fun x => !ls.any (fun l => l.cleared.contains x)) } := by
  induction ls generalizing s with
  | nil => exact ⟨s.mem, s.tags, by simp [State.writeBack]⟩
  | cons l ls ih =>
    obtain ⟨m, g, first⟩ := s.writeBackLine_some l
    obtain ⟨m', g', rest⟩ := ih (s.writeBackLine l)
    refine ⟨m', g', rest.trans ?_⟩
    rw [first]
    simp only [List.filter_filter, List.any_cons, Bool.not_or, Bool.and_comm]

theorem State.writeBack_others (s : State) (ls : List StashLine) {k : Nat} (h : ∀ l ∈ ls, ∀ c ∈ l.dirty, k / 16 ≠ c.1 / 16) :
    Memory.get (s.writeBack ls).mem k = Memory.get s.mem k ∧ (s.writeBack ls).tagOf k = s.tagOf k := by
  induction ls generalizing s with
  | nil => exact ⟨rfl, rfl⟩
  | cons l ls ih =>
    rw [List.forall_mem_cons] at h
    obtain ⟨cell, tag⟩ := ih (s.writeBackLine l) h.2
    obtain ⟨cell', tag'⟩ := s.writeCells_others l.km l.dirty h.1
    exact ⟨cell.trans cell', tag.trans tag'⟩

/-- The lines that meet a test, written back, leave in memory what `WroteBack` says. -/
theorem State.writeBack_wroteBack (s : State) (p : StashLine → Bool) : s.WroteBack (s.writeBack (s.stash.filter p)) p where
  poison := by
    obtain ⟨m, g, whole⟩ := s.writeBack_some (s.stash.filter p)
    rw [whole]
    simp only [List.any_filter]
  form wf := State.memoryOk.foldl (s.stash.filter p) wf fun _ _ => State.memoryOk.writeBackLine
  bytes l one apart := by
    rw [one]
    exact ⟨fun c hc => s.readPlain_writeCells l.km apart hc, fun k away => s.readPlain_writeCells_other l.km l.dirty away⟩
  others k away := s.writeBack_others _ fun l hl => away l (List.mem_of_mem_filter hl) (List.of_mem_filter hl)

/-- `WroteBack` is a matter of memory, key tags and poison alone. -/
theorem State.WroteBack.congr {s t u : State} {p : StashLine → Bool} (h : s.WroteBack t p) (mem : u.mem = t.mem) (tags : u.tags = t.tags)
    (poison : u.poison = t.poison) : s.WroteBack u p where
  poison := poison.trans h.poison
  form wf := by simpa only [mem] using h.form wf
  bytes l one apart := by simpa only [State.readPlain_congr mem tags] using h.bytes l one apart
  others k away := by simpa only [State.tagOf, mem, tags] using h.others k away

/-! ## Lines cleaned, and lines flushed -/

/-- A line without unwritten bytes (R239). -/
def StashLine.clean (l : StashLine) : StashLine := { l with dirty := [], writers := [], cleared := [] }

section
variable (s : State) (p : StashLine → Bool)

theorem State.cleanLines_eq : s.cleanLines p =
    { s with mem := (s.cleanLines p).mem, tags := (s.cleanLines p).tags, poison := (s.cleanLines p).poison,
             stash := mapIf p StashLine.clean s.stash } := by
  obtain ⟨m, g, whole⟩ := s.writeBack_some (s.stash.filter p)
  rw [State.cleanLines, ← State.writeBack, whole]
  rfl

theorem State.cleanLines_wroteBack : s.WroteBack (s.cleanLines p) p := (s.writeBack_wroteBack p).congr rfl rfl rfl

theorem State.flushLines_wroteBack : s.WroteBack (s.flushLines p) p := (s.cleanLines_wroteBack p).congr rfl rfl rfl

end

section
variable {p : StashLine → Bool} (same : ∀ l, p l.clean = p l)
include same

/-- A test that does not look at unwritten bytes picks the same lines when they are clean. -/
theorem filter_mapIf_clean (ls : List StashLine) : (mapIf p StashLine.clean ls).filter p = (ls.filter p).map StashLine.clean := by
  induction ls with
  | nil => rfl
  | cons l ls ih =>
    cases h : p l <;> simp [mapIf, h, same] at ih ⊢ <;> exact ih

theorem filter_not_mapIf_clean (ls : List StashLine) : (mapIf p StashLine.clean ls).filter (fun l => !p l) = ls.filter (fun l => !p l) := by
  induction ls with
  | nil => rfl
  | cons l ls ih =>
    cases h : p l <;> simp [mapIf, h, same] at ih ⊢ <;> exact ih

theorem State.flushLines_eq (s : State) : s.flushLines p =
    { s with mem := (s.flushLines p).mem, tags := (s.flushLines p).tags, poison := (s.flushLines p).poison,
             stash := s.stash.filter (fun l => !p l) } := by
  have clean := s.cleanLines_eq p
  rw [State.flushLines, State.dropLines, clean, filter_not_mapIf_clean same]

end

end Sys2Proof.Machine
end

section
/-! SUPPORT. What the stash serves, fills, recalls and takes: its lines under the accesses of a task and of other parties (R237, R239, R240, R293),
and the statement O14. -/

namespace Sys2Proof.Machine

/-! ## Which accesses the stash serves (R226, R239, R240) -/

section
variable {s : State}

theorem State.inWindow_iff (va : Nat) : s.inWindow va = true ↔
    ∃ w, some w ∈ s.task.windows.toList ∧ w.base ≤ va ∧ va < w.base + w.size ∧ w.since ≤ (s.task.block.map (·.serial)).getD 0 := by
  rw [State.inWindow, List.any_eq_true]
  constructor
  · rintro ⟨_ | w, mem, covers⟩
    · cases covers
    · exact ⟨w, mem, by simpa [and_assoc] using covers⟩
  · rintro ⟨w, mem, covers⟩
    exact ⟨some w, mem, by simpa [and_assoc] using covers⟩

theorem State.stashServed_iff (p : Place) (pol : Nat) :
    s.stashServed p pol = true ↔ pol = 3 ∧ s.cached p.page = true ∧ s.det = false ∧ s.inWindow p.va = true := by
  simp only [State.stashServed, Bool.and_eq_true, beq_iff_eq, Bool.not_eq_true', and_assoc]

theorem State.cached_home {p : Page} (home : p.home = 0) : s.cached p = true ↔ p.uncached = false := by
  simp [State.cached, home]

/-- Policy st alone is served from the stash. -/
theorem State.stashServed_other (p : Place) {pol : Nat} (h : pol ≠ 3) : s.stashServed p pol = false := by
  simp [State.stashServed, h]

/-! ## Recalls (R239, R293) -/

variable {k n : Nat}

theorem State.recallForRead_clean (h : ∀ l ∈ s.stash, l.holds k n = true → l.dirty = []) : s.recallForRead k n = s := by
  refine if_neg ?_
  rw [List.any_eq_true]
  rintro ⟨l, hl, dirty⟩
  obtain ⟨holds, unwritten⟩ := Bool.and_eq_true_iff.mp dirty
  simp [h l hl holds] at unwritten

theorem State.recallForRead_dirty (h : ∃ l ∈ s.stash, l.holds k n = true ∧ l.dirty ≠ []) :
    s.recallForRead k n = s.cleanLines (StashLine.holds k n) := by
  obtain ⟨l, hl, holds, dirty⟩ := h
  exact if_pos (List.any_eq_true.mpr ⟨l, hl, by simp [holds, dirty]⟩)

theorem State.recallForWrite_none (h : ∀ l ∈ s.stash, l.holds k n = false) : s.recallForWrite k n = s :=
  if_neg (by simpa [List.any_eq_true] using h)

theorem State.recallForWrite_some (h : ∃ l ∈ s.stash, l.holds k n = true) : s.recallForWrite k n = s.flushLines (StashLine.holds k n) :=
  if_pos (List.any_eq_true.mpr h)

end

theorem StashLine.holds_clean (k n : Nat) (l : StashLine) : l.clean.holds k n = l.holds k n := rfl

/-! ## Lines by section and place -/

/-- Whether a line is that of a section for 256 bytes. -/
def StashLine.isAt (sec line : Nat) (l : StashLine) : Bool := l.section_ == sec && l.line == line

theorem StashLine.isAt_clean (sec line : Nat) (l : StashLine) : l.clean.isAt sec line = l.isAt sec line := rfl

/-- The line that a fill puts into a section (R239). -/
def StashLine.filled (sec : Nat) (owner : Nat × Nat) (km : Option (BitVec 512)) (k : Nat) : StashLine :=
  { section_ := sec, owners := [owner], line := k / 256 * 256, km := km, dirty := [], writers := [], cleared := [] }

theorem StashLine.filled_isAt (sec : Nat) (owner : Nat × Nat) (km : Option (BitVec 512)) (k : Nat) :
    (StashLine.filled sec owner km k).isAt sec (k / 256 * 256) = true := by
  simp [StashLine.isAt, StashLine.filled]

/-- The state with another list of stash lines. -/
def State.withStash (s : State) (ls : List StashLine) : State := { s with stash := ls }

/-! ## Fills and evictions (R237, R239) -/

section
variable {s : State} {sec k : Nat} {owner : Nat × Nat} {km : Option (BitVec 512)}

section
variable (clear : ∀ l ∈ s.stash, l.holds (k / 256 * 256) 256 = false)
include clear

theorem State.recallForRead_clear : s.recallForRead (k / 256 * 256) 256 = s :=
  State.recallForRead_clean fun l hl holds => by rw [clear l hl] at holds; cases holds

theorem State.fillLine_room (room : (s.stash.filter (fun l => l.section_ == sec)).length < 7936) :
    s.fillLine sec owner km k = s.withStash (StashLine.filled sec owner km k :: s.stash) := by
  simp only [State.fillLine, State.recallForRead_clear clear, stashLines, room, if_true]
  split <;> rfl

/-- In a full stash the last line of the section makes room. -/
theorem State.fillLine_full (full : 7936 ≤ (s.stash.filter (fun l => l.section_ == sec)).length) {v : StashLine}
    (last : (s.stash.filter (fun l => l.section_ == sec)).getLast? = some v) :
    s.fillLine sec owner km k = (s.flushLines (StashLine.isAt sec v.line)).withStash
      (StashLine.filled sec owner km k :: (s.flushLines (StashLine.isAt sec v.line)).stash) := by
  simp only [State.fillLine, State.recallForRead_clear clear, last, stashLines, Nat.not_lt.mpr full, if_false]
  rfl

end

/-! ## Accesses to a line (R230, R239, R293) -/

variable {tid va e : Nat} {wr : Bool}

/-- A line after an access, its task's window among its owners. -/
def StashLine.ownedBy (l : StashLine) (owner : Nat × Nat) : StashLine := { l with owners := owner :: l.owners.filter (· != owner) }

theorem State.touchLine_miss (bare : s.stash.filter (StashLine.isAt sec (k / 256 * 256)) = []) :
    s.touchLine sec tid va km k wr e = s.fillLine sec (tid, va / 256 * 256) km k := by
  have found : s.stash.find? (StashLine.isAt sec (k / 256 * 256)) = none := by rw [← List.head?_filter, bare, List.head?_nil]
  unfold StashLine.isAt at found
  simp only [State.touchLine, found]

variable {l : StashLine} (one : s.stash.filter (StashLine.isAt sec (k / 256 * 256)) = [l])
include one

/-- An access to a line that is there: taken from another key or, by a store, from another task; else moved to most recent, after a
write-back where another party has stored into it. -/
theorem State.touchLine_one : s.touchLine sec tid va km k wr e =
    if (l.km != km || (wr && !l.owners.all (fun o => o.1 == tid))) = true then
      (s.flushLines (StashLine.isAt sec (k / 256 * 256))).fillLine sec (tid, va / 256 * 256) km k
    else if (l.owners.all (fun o => o.1 == tid) && (wr || l.writers.all (· == e))) = true then
      s.withStash (l.ownedBy (tid, va / 256 * 256) :: s.stash.filter (fun o => !o.isAt sec (k / 256 * 256)))
    else (s.cleanLines (StashLine.isAt sec (k / 256 * 256))).withStash
      ((l.ownedBy (tid, va / 256 * 256)).clean :: s.stash.filter (fun o => !o.isAt sec (k / 256 * 256))) := by
  have found : s.stash.find? (StashLine.isAt sec (k / 256 * 256)) = some l := by rw [← List.head?_filter, one, List.head?_cons]
  have cleaned : (s.cleanLines (StashLine.isAt sec (k / 256 * 256))).stash = mapIf (StashLine.isAt sec (k / 256 * 256)) StashLine.clean s.stash := by
    rw [State.cleanLines_eq]
  have hits := filter_mapIf_clean (StashLine.isAt_clean sec (k / 256 * 256)) s.stash
  have others := filter_not_mapIf_clean (StashLine.isAt_clean sec (k / 256 * 256)) s.stash
  unfold StashLine.isAt at found cleaned hits others one ⊢
  simp only [State.touchLine, found]
  refine if_congr Iff.rfl rfl ?_
  split
  · rw [one]; rfl
  · rw [cleaned, hits, others, one]; rfl

theorem State.touchLine_taken (other : l.km ≠ km ∨ (wr = true ∧ ¬∀ o ∈ l.owners, o.1 = tid)) : s.touchLine sec tid va km k wr e =
    (s.flushLines (StashLine.isAt sec (k / 256 * 256))).fillLine sec (tid, va / 256 * 256) km k := by
  rw [State.touchLine_one one, if_pos]
  simpa using other

variable (key : l.km = km)
include key

/-- A hit by the task and the element that wrote leaves the line as it is. -/
theorem State.touchLine_hit (alone : ∀ o ∈ l.owners, o.1 = tid) (same : wr = true ∨ ∀ w ∈ l.writers, w = e) :
    s.touchLine sec tid va km k wr e =
      s.withStash (l.ownedBy (tid, va / 256 * 256) :: s.stash.filter (fun o => !o.isAt sec (k / 256 * 256))) := by
  have all : l.owners.all (fun o => o.1 == tid) = true := by simpa using alone
  rw [State.touchLine_one one, if_neg (by simp [key, all]), if_pos]
  simpa [all] using same

/-- A read by another party has the unwritten bytes written first. -/
theorem State.touchLine_cleaned (other : (¬∀ o ∈ l.owners, o.1 = tid) ∨ ∃ w ∈ l.writers, w ≠ e) :
    s.touchLine sec tid va km k false e = (s.cleanLines (StashLine.isAt sec (k / 256 * 256))).withStash
      ((l.ownedBy (tid, va / 256 * 256)).clean :: s.stash.filter (fun o => !o.isAt sec (k / 256 * 256))) := by
  rw [State.touchLine_one one, if_neg (by simp [key]), if_neg]
  simpa [not_and_or, imp_iff_not_or] using other

end

/-! ## What an access to the stash leaves elsewhere -/

section
variable (s : State)

theorem State.withStash_rest (ls : List StashLine) : s.withStash ls =
    { s with mem := (s.withStash ls).mem, tags := (s.withStash ls).tags, poison := (s.withStash ls).poison, stash := (s.withStash ls).stash } := rfl

/-- A fill changes memory, key tags, poison and the stash alone. -/
theorem State.fillLine_rest (sec : Nat) (owner : Nat × Nat) (km : Option (BitVec 512)) (k : Nat) :
    s.fillLine sec owner km k = { s with
      mem := (s.fillLine sec owner km k).mem, tags := (s.fillLine sec owner km k).tags,
      poison := (s.fillLine sec owner km k).poison, stash := (s.fillLine sec owner km k).stash } := by
  have recalled := s.recallForRead_rest (k / 256 * 256) 256
  unfold State.fillLine
  dsimp only
  split
  · split
    · exact State.recalled_trans recalled rfl
    · exact State.recalled_trans (State.recalled_trans recalled (State.flushLines_rest _ _)) rfl
  · exact State.recalled_trans recalled rfl

/-- So does an access to a line. -/
theorem State.touchLine_rest (sec tid va : Nat) (km : Option (BitVec 512)) (k : Nat) (wr : Bool) (e : Nat) :
    s.touchLine sec tid va km k wr e = { s with
      mem := (s.touchLine sec tid va km k wr e).mem, tags := (s.touchLine sec tid va km k wr e).tags,
      poison := (s.touchLine sec tid va km k wr e).poison, stash := (s.touchLine sec tid va km k wr e).stash } := by
  unfold State.touchLine
  dsimp only
  split
  · exact s.fillLine_rest _ _ _ _
  · split
    · exact State.recalled_trans (s.flushLines_rest _) (State.fillLine_rest _ _ _ _ _)
    · split
      · rfl
      · exact State.recalled_trans (s.cleanLines_rest _) rfl

end

section
variable {s : State} (clean : s.poison = [])
include clean

theorem State.cleanLines_noPoison (p : StashLine → Bool) : (s.cleanLines p).poison = [] := by
  rw [(s.cleanLines_wroteBack p).poison, clean, List.filter_nil]

theorem State.flushLines_noPoison (p : StashLine → Bool) : (s.flushLines p).poison = [] := State.cleanLines_noPoison clean p

theorem State.recallForRead_noPoison (k n : Nat) : (s.recallForRead k n).poison = [] := by
  unfold State.recallForRead
  split
  · exact State.cleanLines_noPoison clean _
  · exact clean

theorem State.recallForWrite_noPoison (k n : Nat) : (s.recallForWrite k n).poison = [] := by
  unfold State.recallForWrite
  split
  · exact State.flushLines_noPoison clean _
  · exact clean

theorem State.fillLine_noPoison (sec : Nat) (owner : Nat × Nat) (km : Option (BitVec 512)) (k : Nat) :
    (s.fillLine sec owner km k).poison = [] := by
  have recalled := State.recallForRead_noPoison clean (k / 256 * 256) 256
  unfold State.fillLine
  dsimp only
  split
  · split
    · exact recalled
    · exact State.flushLines_noPoison recalled _
  · exact recalled

theorem State.touchLine_noPoison (sec tid va : Nat) (km : Option (BitVec 512)) (k : Nat) (wr : Bool) (e : Nat) :
    (s.touchLine sec tid va km k wr e).poison = [] := by
  unfold State.touchLine
  dsimp only
  split
  · exact State.fillLine_noPoison clean _ _ _ _
  · split
    · exact State.fillLine_noPoison (State.flushLines_noPoison clean _) _ _ _ _
    · split
      · exact clean
      · exact State.cleanLines_noPoison clean _

end

/-! ## The line of a store (R239) -/

/-- A stash whose first line is that of a section for 256 bytes, and whose only such line. -/
def State.Heads (s : State) (sec line : Nat) (l : StashLine) (rest : List StashLine) : Prop :=
  s.stash = l :: rest ∧ l.isAt sec line = true ∧ ∀ o ∈ rest, o.isAt sec line = false

section
variable {s : State} {sec line : Nat} (bare : ∀ o ∈ s.stash, o.isAt sec line = false)
include bare

theorem State.cleanLines_bare (p : StashLine → Bool) : ∀ o ∈ (s.cleanLines p).stash, o.isAt sec line = false := by
  rw [State.cleanLines_eq]
  intro o ho
  obtain ⟨l, hl, rfl⟩ := List.mem_map.mp ho
  split
  · exact bare l hl
  · exact bare l hl

theorem State.flushLines_bare (p : StashLine → Bool) : ∀ o ∈ (s.flushLines p).stash, o.isAt sec line = false :=
  fun o ho => State.cleanLines_bare bare p o (List.mem_of_mem_filter ho)

theorem State.recallForRead_bare (k n : Nat) : ∀ o ∈ (s.recallForRead k n).stash, o.isAt sec line = false := by
  unfold State.recallForRead
  split
  · exact State.cleanLines_bare bare _
  · exact bare

end

section
variable {s : State} {sec k : Nat} {km : Option (BitVec 512)}

theorem State.fillLine_heads (owner : Nat × Nat) (bare : ∀ o ∈ s.stash, o.isAt sec (k / 256 * 256) = false) :
    ∃ l rest, (s.fillLine sec owner km k).Heads sec (k / 256 * 256) l rest := by
  have recalled := State.recallForRead_bare bare (k / 256 * 256) 256
  refine ⟨StashLine.filled sec owner km k, _, rfl, StashLine.filled_isAt sec owner km k, ?_⟩
  split
  · split
    · exact recalled
    · exact State.flushLines_bare recalled _
  · exact recalled

/-- A store's access leaves its line first. -/
theorem State.touchLine_heads (tid va e : Nat) (most : (s.stash.filter (StashLine.isAt sec (k / 256 * 256))).length ≤ 1) :
    ∃ l rest, (s.touchLine sec tid va km k true e).Heads sec (k / 256 * 256) l rest := by
  have others : ∀ o ∈ s.stash.filter (fun o => !o.isAt sec (k / 256 * 256)), o.isAt sec (k / 256 * 256) = false :=
    fun o ho => by simpa using List.of_mem_filter ho
  match found : s.stash.filter (StashLine.isAt sec (k / 256 * 256)) with
  | [] =>
    rw [State.touchLine_miss found]
    exact State.fillLine_heads _ fun o ho => by simpa using List.filter_eq_nil_iff.mp found o ho
  | [l] =>
    by_cases taken : l.km ≠ km ∨ (true = true ∧ ¬∀ o ∈ l.owners, o.1 = tid)
    · rw [State.touchLine_taken found taken]
      refine State.fillLine_heads _ ?_
      rwa [State.flushLines_eq (StashLine.isAt_clean sec (k / 256 * 256))]
    · rw [not_or, not_not, not_and, not_not] at taken
      rw [State.touchLine_hit found taken.1 (taken.2 rfl) (.inl rfl)]
      have mem : l ∈ s.stash.filter (StashLine.isAt sec (k / 256 * 256)) := by rw [found]; exact List.mem_singleton_self l
      have here : l.isAt sec (k / 256 * 256) = true := (List.mem_filter.mp mem).2
      exact ⟨_, _, rfl, here, others⟩
  | _ :: _ :: _ =>
    rw [found] at most
    simp at most

end

/-! ## Bytes stored into a line (R239, R293) -/

theorem overlayGet_overlaySet (o : List Host.Cell) (a : Nat) (b : Byte) (k : Nat) :
    overlayGet (overlaySet o a b) k = if k = a then some b else overlayGet o k := by
  by_cases h : k = a
  · simp [overlayGet, overlaySet, h]
  · have kept : (o.filter (fun c => c.1 != a)).find? (fun c => c.1 == k) = o.find? (fun c => c.1 == k) := by
      rw [List.find?_filter]
      congr 1
      funext c
      by_cases e : c.1 = k
      · simp [e, h]
      · simp [e]
    simp [overlayGet, overlaySet, h, Ne.symm h, kept]

/-- The writers of a line after a store by an element. -/
def StashLine.writersWith (l : StashLine) (e : Nat) : List Nat := if l.writers.contains e then l.writers else e :: l.writers

/-- A line with a byte stored into it by an element. -/
def StashLine.stored (l : StashLine) (k : Nat) (b : Byte) (e : Nat) : StashLine :=
  { l with dirty := overlaySet l.dirty k b, writers := l.writersWith e }

theorem StashLine.writersWith_twice (l : StashLine) (e : Nat) (d : List Host.Cell) :
    ({ l with dirty := d, writers := l.writersWith e } : StashLine).writersWith e = l.writersWith e := by
  have there : (l.writersWith e).contains e = true := by
    unfold StashLine.writersWith
    split
    · assumption
    · simp
  exact if_pos there

section
variable {s : State} {sec k e : Nat} {l : StashLine} {rest : List StashLine} (h : s.Heads sec (k / 256 * 256) l rest)
include h

/-- A byte of a line that stands first goes into that line alone. -/
theorem State.stashStore_head (b : Byte) : s.stashStore sec k b e = s.withStash (l.stored k b e :: rest) := by
  obtain ⟨stash, here, others⟩ := h
  have kept : mapIf (StashLine.isAt sec (k / 256 * 256)) (fun l => l.stored k b e) rest = rest := by
    refine (List.map_congr_left fun o ho => ?_).trans (List.map_id rest)
    rw [others o ho]
    rfl
  rw [State.stashStore, stash]
  change s.withStash (mapIf (StashLine.isAt sec (k / 256 * 256)) (fun l => l.stored k b e) (l :: rest)) = _
  rw [mapIf, List.map_cons, here, if_pos rfl]
  exact congrArg (fun r => s.withStash (_ :: r)) kept

/-- Bytes of one line, stored from an offset of it on, stand in that line alone, unwritten. -/
theorem State.stashStores_head (bs : List Byte) : ∀ n, k % 256 + (n + 1) ≤ 256 → n + 1 ≤ bs.length → ∃ l',
      (List.range (n + 1)).foldl (fun s i => s.stashStore sec (k + i) (bs[i]?.getD 0) e) s = s.withStash (l' :: rest) ∧
      l' = { l with dirty := l'.dirty, writers := l.writersWith e } ∧
      ∀ j, overlayGet l'.dirty j = if k ≤ j ∧ j < k + (n + 1) then bs[j - k]? else overlayGet l.dirty j := by
  intro n
  induction n with
  | zero =>
    intro within long
    refine ⟨_, State.stashStore_head h _, rfl, fun j => ?_⟩
    rw [StashLine.stored, overlayGet_overlaySet]
    by_cases hj : j = k
    · subst hj
      rw [if_pos rfl, if_pos (by omega), Nat.sub_self, List.getElem?_eq_getElem (show 0 < bs.length from long), Option.getD_some]
    · rw [if_neg hj, if_neg (by omega)]
  | succ n ih =>
    intro within long
    obtain ⟨l', fold, same, bytes⟩ := ih (by omega) (by omega)
    have line : (k + (n + 1)) / 256 * 256 = k / 256 * 256 := by omega
    have head : (s.withStash (l' :: rest)).Heads sec ((k + (n + 1)) / 256 * 256) l' rest := by
      rw [line]
      refine ⟨rfl, ?_, h.2.2⟩
      rw [same]
      exact h.2.1
    refine ⟨l'.stored (k + (n + 1)) (bs[n + 1]?.getD 0) e, ?_, ?_, fun j => ?_⟩
    · rw [List.range_succ, List.foldl_append, fold]
      exact State.stashStore_head head _
    · rw [StashLine.stored, same, StashLine.writersWith_twice]
    · rw [StashLine.stored, overlayGet_overlaySet, bytes]
      by_cases hj : j = k + (n + 1)
      · subst hj
        rw [if_pos rfl, if_pos (by omega), Nat.add_sub_cancel_left, List.getElem?_eq_getElem (by omega), Option.getD_some]
      · rw [if_neg hj]
        exact if_congr (by omega) rfl rfl

end

/-! ## Reads and stores of a task -/

/-- What the access of a store served from the stash leaves before its bytes are stored. -/
def State.openedLine (s : State) (p : Place) (n e : Nat) : State :=
  ((s.breakReservations p.key n).flushLines (fun l => l.section_ != s.task.id.section_ && l.line == p.key / 256 * 256)).touchLine
    s.task.id.section_ s.task.id.tid p.va p.km p.key true e

section
variable {s : State} (det : s.det = false)
include det

/-- Outside deterministic regions a task reads what a coherent reader sees. -/
theorem State.viewNat_shared (p : Place) (n : Nat) : s.viewNat p n = leVal (s.peekBytes p.km p.key n) := by
  simp only [State.viewNat, State.viewBytes, det, Bool.false_eq_true, if_false, State.peekBytes]

theorem State.afterRead_served {p : Place} {pol : Nat} (served : s.stashServed p pol = true) (n e : Nat) :
    s.afterRead p n pol e = s.touchLine s.task.id.section_ s.task.id.tid p.va p.km p.key false e := by
  simp only [State.afterRead, det, served, Bool.false_eq_true, if_false, if_true]

theorem State.afterRead_recalled {p : Place} {pol : Nat} (other : s.stashServed p pol = false) (n e : Nat) :
    s.afterRead p n pol e = s.recallForRead p.key n := by
  simp only [State.afterRead, det, other, Bool.false_eq_true, if_false]

theorem State.storeAt_recalled {p : Place} {pol : Nat} (other : s.stashServed p pol = false) (bs : List Byte) (e : Nat) :
    s.storeAt p bs pol e = .ok ((s.breakReservations p.key bs.length).writeCoherent p.km p.key bs) := by
  simp only [State.storeAt, det, other, Bool.false_eq_true, if_false]

theorem State.storeAt_served {p : Place} {pol : Nat} (served : s.stashServed p pol = true) (bs : List Byte) (e : Nat) :
    s.storeAt p bs pol e = .ok ((List.range bs.length).foldl (fun u i => u.stashStore s.task.id.section_ (p.key + i) (bs[i]?.getD 0) e)
      (s.openedLine p bs.length e)) := by
  simp only [State.storeAt, det, served, Bool.false_eq_true, if_false, if_true]
  rfl

end

/-- The lines of other sections recalled leave those of the task's own. -/
theorem State.openedLine_heads (s : State) (p : Place) (n e : Nat)
    (most : (s.stash.filter (StashLine.isAt s.task.id.section_ (p.key / 256 * 256))).length ≤ 1) :
    ∃ l rest, (s.openedLine p n e).Heads s.task.id.section_ (p.key / 256 * 256) l rest := by
  refine State.touchLine_heads _ _ _ ?_
  rw [State.flushLines_eq (fun _ => rfl)]
  refine Nat.le_trans (List.Sublist.length_le ?_) most
  exact List.filter_sublist.filter _

theorem State.openedLine_noPoison {s : State} (clean : s.poison = []) (p : Place) (n e : Nat) : (s.openedLine p n e).poison = [] :=
  State.touchLine_noPoison (State.flushLines_noPoison (s := s.breakReservations p.key n) clean _) ..

theorem State.cleanStored_clean {s : State} (clean : s.poison = []) (ks : List Nat) : s.cleanStored ks = s := by
  simp [State.cleanStored, State.clearPoison, State.curePoison, clean]

theorem State.coverPoison_clean {s : State} (clean : s.poison = []) (k n : Nat) : s.coverPoison k n = s := by
  simp [State.coverPoison, State.curePoison, clean]

/-- A coherent write where nothing is poisoned writes the bytes to memory, after a recall. -/
theorem State.writeCoherent_clean {s : State} (clean : s.poison = []) (km : Option (BitVec 512)) (k : Nat) (bs : List Byte) :
    s.writeCoherent km k bs = (s.recallForWrite k bs.length).writePlainMany km k bs := by
  refine State.coverPoison_clean ?_ k bs.length
  rw [State.writePlainMany_rest]
  exact State.recallForWrite_noPoison clean k bs.length

/-! ## Words whose accesses meet the stash -/

/-- SEW names its code (R146). -/
theorem Task.sewCode_of_sew {t : Task} {n : Nat} (h : t.sew = 8 * 2 ^ n) : n = t.sewCode :=
  (Nat.pow_right_injective (Nat.le_refl 2) (Nat.eq_of_mul_eq_mul_left (by decide) h)).symm

section
variable {s : State} {b : Block} (h : s.AtBlock b) {vd rs1 : BitVec 5} {eew : BitVec 3} {c vm : BitVec 1} {i : Nat} {p : Place}
  (det : s.det = false) (one : s.actives vm = [i]) (width : s.task.sew = 8 * 2 ^ eew.toNat) (h4 : eew.toNat < 4)
  (aligned : (s.unitAddr rs1 i).toNat % (s.task.sew / 8) = 0) (served : s.stashServed p 3 = true)
include h det one width h4 aligned served

/-- VLE of one active element that the stash serves reads what stands in the line, and touches the line. -/
theorem State.AtBlock.vle_served (hg : s.task.groupsOk { srcs := [], dsts := [(vd.toNat, s.task.lmul)] } vm = true)
    (found : s.locateRead (s.unitAddr rs1 i) (s.task.sew / 8) = .ok p) :
    exec (.vle vd rs1 3 eew vm) s =
      .next ({ s.touchLine s.task.id.section_ s.task.id.tid p.va p.km p.key false i with
        task := s.task.setElems s.task.sew vd.toNat [(i, leVal (s.peekBytes p.km p.key (s.task.sew / 8)))] } : State).advance := by
  have probe := State.probeActive_all h.runs .read (s.task.sew / 8) vm [] (s.unitAddr rs1) (fun _ => p) (by
    rw [one, List.forall_mem_singleton]
    exact ⟨aligned, found⟩)
  have task : (s.touchLine s.task.id.section_ s.task.id.tid p.va p.km p.key false i).task = s.task := by rw [State.touchLine_rest]
  rw [h.word.memoryIssue h.mayIssue (Task.sewCode_of_sew width) h4 hg (exec_vle ..) rfl, State.loadWord]
  dsimp only
  rw [probe, one, State.endMemory, Act.outcome, State.commitLoad, s.task.sew_bytes]
  simp only [List.map_cons, List.map_nil, State.afterReads, List.foldl_cons, List.foldl_nil, State.viewNat_shared det, State.onTask]
  rw [State.afterRead_served (pol := (3 : BitVec 2).toNat) det served, task]

/-- VSE of one active element that the stash serves leaves its bytes in the line, unwritten. -/
theorem State.AtBlock.vse_served (clean : s.poison = []) (hg : s.task.groupsOk { srcs := [(vd.toNat, s.task.lmul)], dsts := [] } vm = true)
    (found : s.locate (s.unitAddr rs1 i) (s.task.sew / 8) .write = .ok p) (within : p.key % 256 + s.task.sew / 8 ≤ 256)
    (most : (s.stash.filter (StashLine.isAt s.task.id.section_ (p.key / 256 * 256))).length ≤ 1) :
    ∃ l0 l rest, exec (.vse vd rs1 3 eew c vm) s = .next ((s.openedLine p (s.task.sew / 8) i).withStash (l :: rest)).advance ∧
      (s.openedLine p (s.task.sew / 8) i).stash = l0 :: rest ∧ l = { l0 with dirty := l.dirty, writers := l0.writersWith i } ∧
      ∀ k, overlayGet l.dirty k =
        if p.key ≤ k ∧ k < p.key + s.task.sew / 8 then (bytesOf (s.task.elem s.task.sew vd.toNat i) (s.task.sew / 8))[k - p.key]?
        else overlayGet l0.dirty k := by
  have probe (rs : List Reading) := State.probeActive_all h.runs .write (s.task.sew / 8) vm rs (s.unitAddr rs1) (fun _ => p) (by
    rw [one, List.forall_mem_singleton]
    exact ⟨aligned, found⟩)
  obtain ⟨m, hm⟩ : ∃ m, s.task.sew / 8 = m + 1 := by
    have pos := s.task.sew_pos
    have bytes := s.task.sew_bytes
    exact ⟨s.task.sew / 8 - 1, by omega⟩
  obtain ⟨l0, rest, head⟩ := s.openedLine_heads p (s.task.sew / 8) i most
  obtain ⟨l, stored, same, bytes⟩ := State.stashStores_head head (e := i) (bytesOf (s.task.elem s.task.sew vd.toNat i) (s.task.sew / 8)) m
    (by omega) (by rw [bytesOf_length]; omega)
  rw [← hm] at stored bytes
  have unpoisoned : ((s.openedLine p (s.task.sew / 8) i).withStash (l :: rest)).poison = [] := State.openedLine_noPoison clean ..
  refine ⟨l0, l, rest, ?_, head.1, same, bytes⟩
  rw [h.word.memoryIssue h.mayIssue (Task.sewCode_of_sew width) h4 hg (exec_vse ..) rfl, State.storeWord, probe, one]
  simp only [List.map_cons, List.map_nil, State.commitStore, State.storeAt_served (pol := (3 : BitVec 2).toNat) det served, bytesOf_length, stored,
    orTrap]
  rw [State.cleanStored_clean unpoisoned]
  rfl

end

section
variable {s : State} (h : s.AtControl) {rd rs1 rs2 : BitVec 5} {imm : BitVec 12} {p : Place} (det : s.det = false)
  (aligned : (s.baseAddr rs1 imm).toNat % 8 = 0)
include h det aligned

/-- LD has the unwritten bytes of the lines that it meets written first. -/
theorem State.AtControl.ld_recalls (found : s.locateRead (s.baseAddr rs1 imm) 8 = .ok p) :
    exec (.ld rd rs1 imm) s = .next ((s.recallForRead p.key 8).setX rd (BitVec.ofNat 64 (leVal (s.peekBytes p.km p.key 8)))).advance := by
  rw [exec_ld, execLd, h.issue, State.load]
  simp only [h.notBad, Bool.false_eq_true, if_false, aligned, ne_eq, not_true, found, orTrap, State.viewNat_shared det,
    State.afterRead_recalled det (s.stashServed_other p (by decide : (0 : Nat) ≠ 3))]
  rfl

/-- SD writes the lines that it meets, drops them, and stores. -/
theorem State.AtControl.sd_recalls (clean : s.poison = []) (found : s.locate (s.baseAddr rs1 imm) 8 .write = .ok p) :
    exec (.sd rs1 rs2 imm) s = .next (((s.breakReservations p.key 8).recallForWrite p.key 8).writePlainMany p.km p.key
      (bytesOf (s.x rs2).toNat 8)).advance := by
  rw [exec_sd, execSd, h.issue, State.store]
  simp only [h.notBad, Bool.false_eq_true, if_false, aligned, ne_eq, not_true, found, orTrap,
    State.storeAt_recalled det (s.stashServed_other p (by decide : (0 : Nat) ≠ 3)), bytesOf_length]
  rw [State.writeCoherent_clean (s := s.breakReservations p.key 8) clean, bytesOf_length]
  rfl

end

/-! ## What a coherent reader sees (R230, R239) -/

section
variable {s : State} {km : Option (BitVec 512)} {k : Nat}

theorem State.peekByte_memory (bare : ∀ l ∈ s.stash, overlayGet l.dirty k = none) : s.peekByte km k = s.readPlain km k := by
  have found : s.stash.find? (fun l => (overlayGet l.dirty k).isSome) = none :=
    List.find?_eq_none.mpr fun l hl => by rw [bare l hl]; decide
  simp only [State.peekByte, found]

theorem State.peekByte_line {l : StashLine} {x : Byte} (found : s.stash.find? (fun l => (overlayGet l.dirty k).isSome) = some l)
    (byte : overlayGet l.dirty k = some x) (key : l.km = km) : s.peekByte km k = x := by
  simp only [State.peekByte, found, key, if_true, byte, Option.getD_some]

end

/-- Settles O14: fills, hits, evictions and recalls by what they come to, each with what its write-back leaves; the words by the access that they
make. -/
theorem stashAccesses : Obligations.StashAccesses := by
  unfold Obligations.StashAccesses
  refine ⟨fun s p pol va => ⟨s.stashServed_iff p pol, s.inWindow_iff va, State.cached_home⟩, fun s sec owner km k clear => ?_,
    fun s sec tid va k e km wr => ?_, fun s b vd rs1 c vm i p h det clean one => ?_, fun s rd rs1 rs2 imm p h det => ?_, fun s k n => ?_,
    fun s km k => ⟨State.peekByte_memory, fun l x => State.peekByte_line⟩⟩
  · intro new mine
    refine ⟨fun room => State.fillLine_room clear room, fun v full last => ⟨_, State.fillLine_full clear full last, ?_, ?_⟩⟩
    · exact (s.flushLines_wroteBack _).congr rfl rfl rfl
    · have flushed := State.flushLines_eq (StashLine.isAt_clean sec v.line) s
      rw [flushed]
      rfl
  · intro here rest owner
    refine ⟨State.touchLine_miss, fun l one => ⟨fun key alone same => State.touchLine_hit one key alone same, fun key read other => ?_,
      fun other => ⟨_, s.flushLines_wroteBack here, State.flushLines_eq (fun _ => rfl) s, State.touchLine_taken one other⟩⟩⟩
    subst read
    refine ⟨_, State.touchLine_cleaned one key other, (s.cleanLines_wroteBack here).congr rfl rfl rfl, ?_⟩
    exact State.recalled_trans (s.cleanLines_rest here) (State.withStash_rest _ _)
  · intro w n a here eew h4 width aligned served
    refine ⟨fun hg found => ⟨_, h.vle_served det one width h4 aligned served hg found, ?_⟩, fun hg found within most => ?_⟩
    · have wrote := Task.setElems_wrote s.task s.task.sew vd.toNat s.task.lmul [i] (fun _ => leVal (s.peekBytes p.km p.key n)) h.runs.registers
        s.task.sew_pos (Task.groupsOk_dst hg (List.mem_singleton_self _))
        (fun j hj => by rw [← Task.vlmax_eq]; exact s.actives_lt vm j (one ▸ hj)) (List.nodup_singleton i)
      have only : forElems [i] (fun _ => leVal (s.peekBytes p.km p.key n)) =
          fun k => if k = i then some (leVal (s.peekBytes p.km p.key n)) else none := by
        funext k
        simp only [forElems, List.mem_singleton]
      exact only ▸ wrote
    · obtain ⟨l0, l, rest, stores, first, same, bytes⟩ := h.vse_served (c := c) det one width h4 aligned served clean hg found within most
      exact ⟨_, l0, l, rest, stores, rfl, first, same, bytes⟩
  · intro a aligned
    refine ⟨fun found => h.ld_recalls det aligned found, fun found clean => ⟨_, h.sd_recalls det aligned clean found, ?_, fun k => ?_⟩⟩
    · exact State.writePlainMany_rest _ _ _ _
    · rw [State.readPlain_writePlainMany, bytesOf_length]
  · refine ⟨State.recallForRead_clean, fun dirty => ⟨_, State.recallForRead_dirty dirty, s.cleanLines_wroteBack _, s.cleanLines_eq _⟩,
      State.recallForWrite_none, fun some => ⟨_, State.recallForWrite_some some, s.flushLines_wroteBack _, ?_⟩⟩
    exact State.flushLines_eq (StashLine.holds_clean k n) s

end Sys2Proof.Machine
end

section
/-! SUPPORT. Stash windows, the words on a task's stash lines, retention registers and stream bindings (R237 to R241, R263 to R265), and the
statement O50. -/

namespace Sys2Proof.Machine

/-! ## Words of both parties (R95) -/

section
variable {s : State} (h : s.AtEither)
include h

theorem State.AtEither.issueCb (k : State → Act) : s.issue .cb true k = (k s).outcome := by
  rcases h with h | ⟨b, h⟩
  · exact h.issueCb k
  · exact h.issueCb k

theorem State.AtEither.needX (rs ws : List (BitVec 5)) (k : State → Act) : s.needX rs ws k = k s := by
  rcases h with h | ⟨b, h⟩
  · exact h.needX rs ws k
  · exact h.word.needX rs ws k

end

/-! ## Windows (R240) -/

theorem rangeOk_iff (g z : Nat) :
    rangeOk g z = true ↔ g % 256 = 0 ∧ z % 256 = 0 ∧ z ≠ 0 ∧ z ≤ 2 ^ 30 ∧ g + z ≤ 2 ^ 48 := by
  simp only [rangeOk, Bool.and_eq_true, beq_iff_eq, bne_iff_ne, decide_eq_true_eq, and_assoc]

theorem Task.blocksLeft_iff (t : Task) : t.blocksLeft = true ↔ t.block.isSome = true ∨ t.vq ≠ [] ∨ t.aqueue ≠ [] := by
  simp [Task.blocksLeft, or_assoc]

theorem Task.ownsLine_clean (t : Task) (at_ : Nat → Bool) (l : StashLine) : t.ownsLine at_ l.clean = t.ownsLine at_ l := rfl

/-- The task on stage with one of its windows set. -/
def State.withWindow (s : State) (n : Nat) (w : Option Window) : State :=
  s.onTask (fun t => { t with windows := t.windows.setIfInBounds n w })

section
variable {s : State} {n : Nat}

theorem State.unmapWindow_none (hw : (s.task.windows[n]?).getD none = none) : s.unmapWindow n = s := by
  simp only [State.unmapWindow, hw]

/-- An unmapped window leaves its lines written back and gone. -/
theorem State.unmapWindow_some {w : Window} (hw : (s.task.windows[n]?).getD none = some w) : s.unmapWindow n =
    (s.flushLines (s.linesIn w.base w.size)).withWindow n none := by
  simp only [State.unmapWindow, hw, State.linesIn, State.withWindow]

/-- Without a stash line there is nothing to write back. -/
theorem State.flushLines_noLine (hs : s.stash = []) (p : StashLine → Bool) : s.flushLines p = s := by
  obtain ⟨⟩ := s
  cases hs
  rfl

end

/-! ## What the words come to -/

section
variable {s : State} (h : s.AtEither) {r1 r2 r3 : BitVec 5}
include h

/-- The checks of STMAP, in their order (R240). -/
theorem State.AtEither.stmap : exec (.stmap r1 r2 r3) s =
    (if 7 < (s.x r1).toNat then .trap s (cause 0x08)
     else if !rangeOk (s.x r2).toNat (s.x r3).toNat then .trap s (cause 0x03)
     else if ((s.task.windows[(s.x r1).toNat]?).getD none).isSome || s.task.overlapsWindow (s.x r2).toNat (s.x r3).toNat then
       .trap s (cause 0x08)
     else if !s.stashRoom s.task.id.ctx s.task.id.region (s.x r3).toNat then .trap s (cause 0x0C)
     else .go (s.withWindow (s.x r1).toNat (some { base := (s.x r2).toNat, size := (s.x r3).toNat, since := s.windowSince })) : Act).outcome := by
  rw [exec_stmap, execStmap, h.issueCb, h.needX]
  rfl

section
variable (hn : (s.x r1).toNat ≤ 7)
include hn

theorem State.AtEither.stmap_badRange (hr : ¬rangeOk (s.x r2).toNat (s.x r3).toNat = true) :
    exec (.stmap r1 r2 r3) s = .next (s.takeFault { cause := 0x03 }) := by
  rw [h.stmap, if_neg (Nat.not_lt.mpr hn), if_pos (by rwa [Bool.not_eq_true', ← Bool.not_eq_true])]
  rfl

variable (hr : rangeOk (s.x r2).toNat (s.x r3).toNat = true)
include hr

theorem State.AtEither.stmap_taken
    (used : (((s.task.windows[(s.x r1).toNat]?).getD none).isSome || s.task.overlapsWindow (s.x r2).toNat (s.x r3).toNat) = true) :
    exec (.stmap r1 r2 r3) s = .next (s.takeFault { cause := 0x08 }) := by
  rw [h.stmap, if_neg (Nat.not_lt.mpr hn), hr, if_neg (by decide), if_pos used]
  rfl

variable (free : ¬(((s.task.windows[(s.x r1).toNat]?).getD none).isSome || s.task.overlapsWindow (s.x r2).toNat (s.x r3).toNat) = true)
include free

theorem State.AtEither.stmap_full (full : s.stashRoom s.task.id.ctx s.task.id.region (s.x r3).toNat = false) :
    exec (.stmap r1 r2 r3) s = .next (s.takeFault { cause := 0x0C }) := by
  rw [h.stmap, if_neg (Nat.not_lt.mpr hn), hr, if_neg (by decide), if_neg free, full]
  rfl

theorem State.AtEither.stmap_maps (room : s.stashRoom s.task.id.ctx s.task.id.region (s.x r3).toNat = true) : exec (.stmap r1 r2 r3) s =
    .next (s.withWindow (s.x r1).toNat (some { base := (s.x r2).toNat, size := (s.x r3).toNat, since := s.windowSince })).advance := by
  rw [h.stmap, if_neg (Nat.not_lt.mpr hn), hr, if_neg (by decide), if_neg free, room]
  rfl

end

theorem State.AtEither.stunmap : exec (.stunmap r1) s =
    (if 7 < (s.x r1).toNat then .trap s (cause 0x08)
     else if s.cur == .control && s.task.blocksLeft then .wait s
     else .go (s.unmapWindow (s.x r1).toNat) : Act).outcome := by
  rw [exec_stunmap, execStunmap, h.issueCb, h.needX]

/-- On the control core STUNMAP waits for the blocks before it (R240). -/
theorem State.AtEither.stunmap_waits (hn : (s.x r1).toNat ≤ 7) (party : s.cur = .control) (left : s.task.blocksLeft = true) :
    exec (.stunmap r1) s = .next s := by
  rw [h.stunmap, if_neg (Nat.not_lt.mpr hn), party, left]
  rfl

/-- STUNMAP unmaps once no earlier block is left before the control core (R240). -/
theorem State.AtEither.stunmap_ready (hn : (s.x r1).toNat ≤ 7)
    (ready : s.cur = .control → s.task.block = none ∧ s.task.vq = [] ∧ s.task.aqueue = []) :
    exec (.stunmap r1) s = .next (s.unmapWindow (s.x r1).toNat).advance := by
  have none : ¬(s.cur == .control && s.task.blocksLeft) = true := fun waits => by
    obtain ⟨party, left⟩ := Bool.and_eq_true_iff.mp waits
    obtain ⟨hb, hv, ha⟩ := ready (by simpa using party)
    simp [Task.blocksLeft, hb, hv, ha] at left
  rw [h.stunmap, if_neg (Nat.not_lt.mpr hn), if_neg none]
  rfl

theorem State.AtEither.stwb : exec (.stwb r1 r2) s =
    (if (s.x r1).toNat % 256 ≠ 0 ∨ (s.x r2).toNat % 256 ≠ 0 then .trap s (cause 0x03)
     else .go (s.cleanLines (s.linesIn (s.x r1).toNat (s.x r2).toNat)) : Act).outcome := by
  rw [exec_stwb, execStwb, h.issueCb, h.needX]

theorem State.AtEither.stdrop : exec (.stdrop r1 r2) s =
    (if (s.x r1).toNat % 256 ≠ 0 ∨ (s.x r2).toNat % 256 ≠ 0 then .trap s (cause 0x03)
     else if s.det then .trap s (cause 0x08)
     else .go (s.dropLines (s.linesIn (s.x r1).toNat (s.x r2).toNat)) : Act).outcome := by
  rw [exec_stdrop, execStdrop, h.issueCb, h.needX]

end

/-! ## Retention registers (R238) -/

theorem Die.heldByOther_eq_false_iff (d : Die) (n ctx : Nat) :
    d.heldByOther n ctx = false ↔ ∀ r, (d.retention[n]?).getD none = some r → r.ctx = ctx := by
  unfold Die.heldByOther Die.retained
  cases (d.retention[n]?).getD none <;> simp

/-- The die of the task on stage with one of its retention registers set. -/
def State.retaining (s : State) (k : Nat) (r : Option Retention) : State :=
  s.modDie (s.dieOf s.task) (fun d => { d with retention := d.retention.setIfInBounds k r })

section
variable {s : State} (h : s.AtControl) (k : BitVec 3)
include h

theorem State.AtControl.l2pin {ways : BitVec 5} (low : 1 ≤ ways.toNat) (high : ways.toNat ≤ 8) (r1 r2 : BitVec 5) : exec (.l2pin k r1 r2 ways) s =
    (if (s.x r1).toNat % 128 ≠ 0 ∨ (s.x r2).toNat % 128 ≠ 0 ∨ (s.x r2).toNat = 0 ∨ (s.x r1).toNat + (s.x r2).toNat > 2 ^ 48 then
       .trap s (cause 0x03)
     else if (s.die (s.dieOf s.task)).heldByOther k.toNat s.task.id.ctx then .trap s (cause 0x06)
     else if (s.die (s.dieOf s.task)).otherWays k.toNat + ways.toNat > 8 then .trap s (cause 0x08)
     else .go (s.retaining k.toNat
       (some { base := (s.x r1).toNat, size := (s.x r2).toNat, ways := ways.toNat, ctx := s.task.id.ctx })) : Act).outcome := by
  have ok : (decide (1 ≤ ways.toNat) && decide (ways.toNat ≤ 8)) = true := by simp [low, high]
  rw [exec_l2pin, execL2pin, ok, h.issue, h.needX]
  rfl

theorem State.AtControl.l2unpin : exec (.l2unpin k) s =
    (if (s.die (s.dieOf s.task)).heldByOther k.toNat s.task.id.ctx then .trap s (cause 0x06)
     else .go (s.retaining k.toNat none) : Act).outcome := by
  rw [exec_l2unpin, execL2unpin, h.issue]
  rfl

end

/-- A number of ways that no register can hold is an ill-formed field (R94, R238). -/
theorem exec_l2pin_illFormed {ways : BitVec 5} (bad : ways.toNat = 0 ∨ 8 < ways.toNat) (k : BitVec 3) (r1 r2 : BitVec 5) (s : State) :
    exec (.l2pin k r1 r2 ways) s = .next (s.takeFault { cause := 0x01 }) := by
  have outside : (decide (1 ≤ ways.toNat) && decide (ways.toNat ≤ 8)) = false := by
    rw [Bool.and_eq_false_iff, decide_eq_false_iff_not, decide_eq_false_iff_not]
    omega
  rw [exec_l2pin, execL2pin, outside, s.issue_illFormed]
  rfl

/-! ## Stream bindings (R263, R264) -/

section
variable {s : State} {b : Block} {vd : BitVec 5} (hv : 24 ≤ vd.toNat) (fold : s.task.fold = 1) (hdr : b.h0.getLsbD 12 = true)
  (record : s.regsAllow 1 = true)
include hv fold hdr record

theorem State.AtBlock.sbind (h : s.AtBlock b) (r1 : BitVec 5) : exec (.sbind vd r1) s =
    (if (s.x r1).toNat % 64 ≠ 0 then .trap s { cause := 0x03, addr := some (s.x r1) }
     else orTrap s (s.locateRead (s.x r1) 64) (fun p =>
       if !streamOk (BitVec.ofNat 512 (s.viewNat p 64)) then .trap s (cause 0x08)
       else .go ((s.afterRead p 64 0).onTask (fun t =>
         t.setBinding vd.toNat (some { desc := BitVec.ofNat 512 (s.viewNat p 64), cursor := 0 })))) : Act).outcome := by
  rw [exec_sbind, execSbind, decide_eq_true hv, h.issue, State.needFlag_of h.runs.block hdr record, if_neg (not_not.mpr fold), h.word.needX]

theorem State.exec_sunbind_vector (party : s.cur = .vector) (hb : s.task.block = some b) : exec (.sunbind vd) s =
    (if (s.task.binding vd.toNat).isNone then .go s
     else .go (s.onTask (fun t => { t.setBinding vd.toNat none with
       v := t.v.setIfInBounds vd.toNat 0, vPoison := t.vPoison.filter (fun m => m.1 != vd.toNat) })) : Act).outcome := by
  rw [exec_sunbind, execSunbind, decide_eq_true hv, s.issue_of .b _ (by simp [State.mayIssue, party]), State.needFlag_of hb hdr record,
    if_neg (not_not.mpr fold)]

end

/-- Settles O50: each word issues undisturbed and comes to its own checks; what STUNMAP and STWB leave in memory is what a flush and a cleaning
of the task's lines leave. -/
theorem stashAndStreams : Obligations.StashAndStreams := by
  unfold Obligations.StashAndStreams
  refine ⟨fun s r1 r2 r3 h => ?_, fun s k r1 r2 ways h => ?_, fun s b vd r1 p h hdr record hv fold m => ?_,
    fun s b vd st party hb hdr record hv fold bound clean => ?_, fun s tid vd => rfl⟩
  · dsimp only
    refine ⟨fun hn hr hu room => ?_, fun hn => ⟨?_, ?_⟩, fun hn hr => ?_, fun hn hr hu => ?_, fun hn hr hu full => ?_, fun hn hc hb => ?_,
      fun hn hc => ⟨fun hw => ?_, fun w hw hs => ?_, fun w hw => ?_⟩, fun ha hz => ⟨?_, fun det => ?_, fun det => ?_⟩,
      fun hm => ⟨?_, ?_⟩⟩
    · exact h.stmap_maps hn ((rangeOk_iff _ _).mpr hr) (mt Bool.or_eq_true_iff.mp hu) room
    · rw [h.stmap, if_pos hn]; rfl
    · rw [h.stunmap, if_pos hn]; rfl
    · exact h.stmap_badRange hn (mt (rangeOk_iff _ _).mp hr)
    · exact h.stmap_taken hn ((rangeOk_iff _ _).mpr hr) (Bool.or_eq_true_iff.mpr hu)
    · exact h.stmap_full hn ((rangeOk_iff _ _).mpr hr) (mt Bool.or_eq_true_iff.mp hu) full
    · exact h.stunmap_waits hn hc (s.task.blocksLeft_iff.mpr hb)
    · rw [h.stunmap_ready hn hc, State.unmapWindow_none hw]
    · rw [h.stunmap_ready hn hc, State.unmapWindow_some hw, State.flushLines_noLine hs]; rfl
    · refine ⟨_, h.stunmap_ready hn hc, ?_, ?_⟩
      · rw [State.unmapWindow_some hw]
        exact (s.flushLines_wroteBack _).congr rfl rfl rfl
      · have whole := State.flushLines_eq (p := s.linesIn w.base w.size) (s.task.ownsLine_clean _) s
        rw [State.unmapWindow_some hw, whole]
        rfl
    · refine ⟨_, ?_, s.cleanLines_wroteBack (s.linesIn (s.x r1).toNat (s.x r2).toNat), s.cleanLines_eq _⟩
      rw [h.stwb, if_neg (by omega)]; rfl
    · rw [h.stdrop, if_neg (by omega), det]; rfl
    · rw [h.stdrop, if_neg (by omega), det]; rfl
    · rw [h.stwb, if_pos hm]; rfl
    · rw [h.stdrop, if_pos hm]; rfl
  · dsimp only
    have held := (s.die (s.dieOf s.task)).heldByOther_eq_false_iff k.toNat s.task.id.ctx
    have taken := fun other => Bool.eq_true_of_not_eq_false (mt held.mp other)
    refine ⟨fun low high hr hf => ⟨fun room => ?_, fun full => ?_⟩, fun low high hr => ?_, fun low high hr hf => ?_,
      fun bad => exec_l2pin_illFormed bad k r1 r2 s, fun hf => ?_, fun hf => ?_⟩
    · rw [h.l2pin k low high, if_neg (by omega), held.mpr hf, if_neg Bool.false_ne_true, if_neg (by omega)]; rfl
    · rw [h.l2pin k low high, if_neg (by omega), held.mpr hf, if_neg Bool.false_ne_true, if_pos full]; rfl
    · rw [h.l2pin k low high, if_pos (by omega)]; rfl
    · rw [h.l2pin k low high, if_neg (by omega), if_pos (taken hf)]; rfl
    · rw [h.l2unpin k, held.mpr hf, if_neg Bool.false_ne_true]; rfl
    · rw [h.l2unpin k, if_pos (taken hf)]; rfl
  · dsimp only
    have word := State.AtBlock.sbind hv fold hdr record h r1
    refine ⟨fun aligned found => ⟨fun ok => ?_, fun bad => ?_⟩, fun misaligned => ?_, ?_⟩
    · rw [← m.viewNat] at ok ⊢
      rw [word, if_neg (not_not.mpr aligned)]
      simp only [found, orTrap, m.afterRead, ok]
      rfl
    · rw [← m.viewNat] at bad
      rw [word, if_neg (not_not.mpr aligned)]
      simp only [found, orTrap, bad]
      rfl
    · rw [word, if_pos misaligned]; rfl
    · rw [State.exec_sunbind_vector hv fold hdr record h.party h.runs.block, h.runs.streams]; rfl
  · rw [State.exec_sunbind_vector hv fold hdr record party hb, bound]
    simp only [Option.isNone_some, Bool.false_eq_true, if_false, Act.outcome, State.onTask, Task.setBinding, clean, List.filter_nil]

end Sys2Proof.Machine
end

section
/-! SUPPORT. Address translation: one step of the walk, the checks of a page, the selector of double-backed ranges, the memory behind a page
(R224 to R231, R266, R371), and the statement O23. -/

namespace Sys2Proof.Machine

/-! ## Entries of page tables (R227 to R229) -/

/-- The tables of a walk lie in this Brynter, plain. -/
theorem State.pageEntry_eq (s : State) (table i : Nat) :
    s.pageEntry table i = BitVec.ofNat 128 (leVal (s.peekBytes none (table + 16 * i) 16)) := by
  rw [State.pageEntry, memKey, Nat.zero_mul, Nat.zero_add]

theorem leafSize_eq (level : Nat) (big : Bool) : leafSize level big =
    if level = 0 then (if big = true then 2 ^ 16 else 2 ^ 12) else if level = 1 then 2 ^ 21 else 2 ^ 30 := by
  match level with
  | 0 => rfl
  | 1 => rfl
  | _ + 2 => simp [leafSize]

section
variable {s : State} {issuer : Option Nat} {va level table idx : Nat} {e : BitVec 128}

/-- What makes a leaf malformed (R229). -/
theorem State.malformed_leaf (leaf : e.getLsbD 1 = true) : s.malformed table idx level e = true ↔
    fieldN e 52 12 ≠ 0 ∨ fieldN e 92 36 ≠ 0 ∨ level = 3 ∨ (level ≠ 0 ∧ e.getLsbD 5 = true) ∨ 2 ≤ fieldN e 6 2 ∨
      4095 < fieldN e 64 16 ∨ fieldN e 12 40 * 4096 % leafSize level (e.getLsbD 5) ≠ 0 ∨
      (level = 0 ∧ e.getLsbD 5 = true ∧ ∃ j, j < 16 ∧ s.pageEntry table (idx / 16 * 16 + j) ≠ e) := by
  simp only [State.malformed, leaf, if_true, Bool.or_eq_true, Bool.and_eq_true, bne_iff_ne, beq_iff_eq, decide_eq_true_eq, ge_iff_le,
    gt_iff_lt, Bool.not_eq_true', ← Bool.not_eq_true, List.all_eq_true, List.mem_range, not_forall, or_assoc, and_assoc, exists_prop]

/-- What makes an entry that points to a table malformed (R229). -/
theorem State.malformed_node (node : e.getLsbD 1 = false) : s.malformed table idx (level + 1) e = true ↔
    fieldN e 2 10 ≠ 0 ∨ fieldN e 52 12 ≠ 0 ∨ fieldN e 64 64 ≠ 0 ∨ fieldN e 12 40 * 4096 % 8192 ≠ 0 ∨
      s.rangeDie (fieldN e 12 40 * 4096) = none := by
  simp only [State.malformed, node, Bool.false_eq_true, if_false, Bool.or_eq_true, bne_iff_ne, beq_iff_eq, Nat.succ_ne_zero, false_or,
    Option.isNone_iff_eq_none, or_assoc]

/-! ## One step of the walk (R227, R229, R371) -/

theorem State.walk_lost {c : Nat} (way : s.homeCause issuer table = some c) : s.walk issuer va level table = .error (.lost c) := by
  rw [State.walk.eq_def]
  simp only [way]

variable (way : s.homeCause issuer table = none) (entry : s.pageEntry table (va / 2 ^ (12 + 9 * level) % 512) = e)
include way entry

theorem State.walk_absent (v : e.getLsbD 0 = false) : s.walk issuer va level table = .error .absent := by
  rw [State.walk.eq_def]
  simp only [way, entry, v, Bool.not_false, if_true]

theorem State.walk_malformed (v : e.getLsbD 0 = true) (bad : s.malformed table (va / 2 ^ (12 + 9 * level) % 512) level e = true) :
    s.walk issuer va level table = .error .malformed := by
  rw [State.walk.eq_def]
  simp only [way, entry, v, bad, Bool.not_true, Bool.false_eq_true, if_false, if_true]

/-- A leaf gives its page (R228). -/
theorem State.walk_leaf (v : e.getLsbD 0 = true) (leaf : e.getLsbD 1 = true)
    (sound : s.malformed table (va / 2 ^ (12 + 9 * level) % 512) level e = false) :
    s.walk issuer va level table = .ok
      { base := fieldN e 12 40 * 0x1000, size := leafSize level (e.getLsbD 5), rd := e.getLsbD 2, wr := e.getLsbD 3, ex := e.getLsbD 4,
        uncached := fieldN e 6 2 == 1, dbl := e.getLsbD 8, owner := fieldN e 9 3, keyid := fieldN e 64 16, home := fieldN e 80 12 } := by
  rw [State.walk.eq_def]
  simp only [way, entry, v, sound, leaf, Bool.not_true, Bool.false_eq_true, if_false, if_true]

end

/-- An entry that is no leaf sends the walk to the table of the level below (R227). -/
theorem State.walk_node {s : State} {issuer : Option Nat} {va level table : Nat} {e : BitVec 128} (way : s.homeCause issuer table = none)
    (entry : s.pageEntry table (va / 2 ^ (12 + 9 * (level + 1)) % 512) = e) (v : e.getLsbD 0 = true) (node : e.getLsbD 1 = false)
    (sound : s.malformed table (va / 2 ^ (12 + 9 * (level + 1)) % 512) (level + 1) e = false) :
    s.walk issuer va (level + 1) table = s.walk issuer va level (fieldN e 12 40 * 0x1000) := by
  rw [State.walk.eq_def]
  simp only [way, entry, v, sound, node, Bool.not_true, Bool.false_eq_true, if_false]

/-! ## The checks of a page (R229, R297) -/

theorem fieldN_top_eq_zero_iff (va : Word) : fieldN va 48 16 = 0 ↔ va.toNat < 2 ^ 48 := by
  have := va.isLt
  rw [fieldN, BitVec.extractLsb'_toNat, Nat.shiftRight_eq_div_pow]
  omega

theorem walkInfo_intact (acc : Access) :
    walkInfo acc false = if acc = .write ∨ acc = .atomic ∨ acc = .update then 1 else 0 := by
  cases acc <;> rfl

theorem walkInfo_malformed (acc : Access) : walkInfo acc true = walkInfo acc false + 2 := by
  cases acc <;> rfl

theorem walkInfo_writes (acc : Access) : (walkInfo acc false == 1) = acc.writes := by
  cases acc <;> rfl

section
variable {s : State} {ctx : Nat} {issuer : Option Nat} {va : Word} {n : Nat} {acc : Access} {hidden : Bool} {c : Context} {p : Page}

/-- An address with a bit above 47 set is no address (R224). -/
theorem State.translate_far (far : 2 ^ 48 ≤ va.toNat) : s.translate ctx issuer va n acc hidden =
    .error { cause := if acc = .fetch then 0x04 else 0x06, info := walkInfo acc false, addr := some va } := by
  have top : fieldN va 48 16 ≠ 0 := fun h => absurd ((fieldN_top_eq_zero_iff va).mp h) (Nat.not_lt.mpr far)
  simp only [State.translate, State.translatePage, top, ne_eq, not_false_eq_true, if_true, beq_iff_eq]

variable (near : va.toNat < 2 ^ 48) (hc : s.context ctx = some c)
include near hc

theorem State.translate_lost {why : Nat} (hp : s.pageOf issuer c va.toNat = .error (.lost why)) :
    s.translate ctx issuer va n acc hidden = .error { cause := why, info := walkInfo acc false, addr := some va } := by
  have top := (fieldN_top_eq_zero_iff va).mpr near
  simp only [State.translate, State.translatePage, top, hc, hp, ne_eq, not_true, if_false]

theorem State.translate_absent (hp : s.pageOf issuer c va.toNat = .error .absent) : s.translate ctx issuer va n acc hidden =
    .error { cause := if acc = .fetch then 0x04 else 0x05, info := walkInfo acc false, addr := some va } := by
  have top := (fieldN_top_eq_zero_iff va).mpr near
  simp only [State.translate, State.translatePage, top, hc, hp, ne_eq, not_true, if_false, beq_iff_eq]
  rfl

theorem State.translate_malformed (hp : s.pageOf issuer c va.toNat = .error .malformed) : s.translate ctx issuer va n acc hidden =
    .error { cause := if acc = .fetch then 0x04 else 0x05, info := walkInfo acc false + 2, addr := some va } := by
  have top := (fieldN_top_eq_zero_iff va).mpr near
  rw [← walkInfo_malformed]
  simp only [State.translate, State.translatePage, top, hc, hp, ne_eq, not_true, if_false, beq_iff_eq]
  rfl

variable (hp : s.pageOf issuer c va.toNat = .ok p)
include hp

/-- A page without the right, of another partition or, for an atomic, of another device refuses the access (R229, R297). -/
theorem State.translate_refused (bad : p.grants acc = false ∨ p.owner ≠ c.part ∨ (acc = .atomic ∧ p.home ≠ 0)) :
    s.translate ctx issuer va n acc hidden = .error { cause := 0x06, info := walkInfo acc false, addr := some va } := by
  have top := (fieldN_top_eq_zero_iff va).mpr near
  have refused : (!p.grants acc || p.owner != c.part || (acc == .atomic && p.home != 0)) = true := by
    simpa only [Bool.or_eq_true, Bool.not_eq_true', bne_iff_ne, Bool.and_eq_true, beq_iff_eq, or_assoc] using bad
  simp only [State.translate, State.translatePage, top, hc, hp, refused, ne_eq, not_true, if_false, if_true]

variable (grants : p.grants acc = true) (owned : p.owner = c.part) (here : acc = .atomic → p.home = 0)
include grants owned here

/-- An access that its page allows comes to the memory behind the page. -/
theorem State.translate_granted : s.translate ctx issuer va n acc hidden =
    s.reach issuer { key := s.backedKey c p va.toNat hidden, km := s.pageKm p, va := va.toNat, page := p } n acc := by
  have top := (fieldN_top_eq_zero_iff va).mpr near
  have allowed : (!p.grants acc || p.owner != c.part || (acc == .atomic && p.home != 0)) = false := by
    simpa [grants, owned] using here
  simp only [State.translate, State.translatePage, top, hc, hp, allowed, ne_eq, not_true, Bool.false_eq_true, if_false]

theorem State.translate_unreached {why : Nat}
    (lost : s.reachCause issuer p.home (s.backedKey c p va.toNat hidden % 2 ^ 52) n acc.writes = some why) :
    s.translate ctx issuer va n acc hidden = .error { cause := why, info := walkInfo acc false, addr := some va } := by
  rw [State.translate_granted near hc hp grants owned here, State.reach, lost]
  simp only [BitVec.ofNat_toNat, BitVec.setWidth_eq]

theorem State.translate_reached (whole : s.reachCause issuer p.home (s.backedKey c p va.toNat hidden % 2 ^ 52) n acc.writes = none) :
    s.translate ctx issuer va n acc hidden =
      .ok { key := s.backedKey c p va.toNat hidden, km := s.pageKm p, va := va.toNat, page := p } := by
  rw [State.translate_granted near hc hp grants owned here, State.reach, whole]

end

/-- The place of an access keeps its address. -/
theorem State.locate_va {s : State} {va : Word} {n : Nat} {acc : Access} {p : Place} (h : s.locate va n acc = .ok p) : p.va = va.toNat := by
  have page {q : Place} (hq : s.translatePage s.task.id.ctx (some (s.dieOf s.task)) va acc = .ok q) : q.va = va.toNat := by
    unfold State.translatePage at hq
    dsimp only at hq
    split at hq
    · cases hq
    · split at hq
      · cases hq
      · split at hq
        · cases hq
        · cases hq
        · split at hq
          · cases hq
          · cases hq; rfl
  unfold State.locate State.translate State.reach at h
  split at h
  · cases h
  · next q hq =>
    split at h
    · cases h
    · cases h
      exact page hq

/-! ## Backings (R231, R266) -/

theorem Page.keyAt_home {p : Page} (home : p.home = 0) (va : Nat) : p.keyAt va = p.base + va % p.size := by
  rw [Page.keyAt, memKey, home, Nat.zero_mul, Nat.zero_add]

/-- The key of a byte of a page without a second backing: its home device and physical address. -/
theorem State.backedKey_single {s : State} {p : Page} (single : p.dbl = false) (c : Context) (va : Nat) (hidden : Bool) :
    s.backedKey c p va hidden = s.plainKey p va := by
  simp only [State.backedKey, single, Bool.false_and, Bool.false_eq_true, if_false]

/-- The key of a byte of a double-backed page: the second backing follows the first. -/
theorem State.backedKey_double {s : State} {p : Page} (dbl : p.dbl = true) (home : p.home = 0) (c : Context) (va : Nat) (hidden : Bool) :
    s.backedKey c p va hidden =
      if (match s.selector c va with | none => false | some sel => sel != hidden) = true then p.base + va % p.size + p.size
      else p.base + va % p.size := by
  simp only [State.backedKey, dbl, home, beq_self_eq_true, Bool.and_self, if_true, Page.keyAt_home home]
  cases s.selector c va <;> rfl

/-! ## The selector (R266, R298) -/

theorem argLeast_least {α : Type} {f : α → Nat} {l : List α} {b : α} (h : argLeast f l = some b) : b ∈ l ∧ ∀ a ∈ l, f b ≤ f a := by
  induction l generalizing b with
  | nil => cases h
  | cons a as ih =>
    rw [argLeast] at h
    cases hl : argLeast f as with
    | none =>
      have none : as = [] := by
        cases as with
        | nil => rfl
        | cons x xs =>
          rw [argLeast] at hl
          split at hl
          · cases hl
          · split at hl <;> cases hl
      rw [hl] at h
      cases h
      simp [none]
    | some m =>
      obtain ⟨mem, least⟩ := ih hl
      rw [hl] at h
      dsimp only at h
      split at h <;> cases h
      · next lt => exact ⟨List.mem_cons_of_mem _ mem, List.forall_mem_cons.mpr ⟨Nat.le_of_lt lt, least⟩⟩
      · next ge =>
        exact ⟨List.mem_cons_self, List.forall_mem_cons.mpr ⟨Nat.le_refl _, fun x hx => Nat.le_trans (Nat.not_lt.mp ge) (least x hx)⟩⟩

theorem argLeast_eq_none {α : Type} {f : α → Nat} {l : List α} (h : argLeast f l = none) : l = [] := by
  cases l with
  | nil => rfl
  | cons a as =>
    rw [argLeast] at h
    split at h
    · cases h
    · split at h <;> cases h

/-- A byte of a sync object as the selector reads it. -/
def State.boundByte (s : State) (c : Context) (n a : Nat) : Option Byte :=
  match s.pageOf none c a with
  | .error _ => none
  | .ok p =>
    let hidden := p.dbl && p.home == 0 && s.selectorFrom c n a == some true
    let k := if hidden then p.keyAt a + p.size else p.keyAt a
    if p.home == 0 && (s.homeCause none k).isNone then some (s.peekByte (s.pageKm p) k) else none

/-- A field of eight bytes of a sync object. -/
def State.boundField (s : State) (c : Context) (n a : Nat) : Option Nat := ((List.range 8).mapM (fun i => s.boundByte c n (a + i))).map leVal

/-- Whether the range of a bound object covers an address (R298). -/
def State.boundCovers (s : State) (c : Context) (n va : Nat) (b : Bound) : Bool :=
  match s.boundField c n b.obj, s.boundField c n (b.obj + 0x10) with
  | some base, some size => base ≤ va && va < base + size
  | _, _ => false

theorem State.selectorFrom_succ (s : State) (c : Context) (n va : Nat) : s.selectorFrom c (n + 1) va =
    (argLeast (fun b => b.obj) ((s.bounds.filter (fun b => b.ctx == c.id)).filter (s.boundCovers c n va))).bind (fun b =>
      (s.boundField c n (b.obj + 8)).map (fun v => v % 2 == 1)) := by
  rw [State.selectorFrom]
  change (match argLeast _ ((s.bounds.filter (fun b => b.ctx == c.id)).filter (s.boundCovers c n va)) with
    | none => none
    | some b => (s.boundField c n (b.obj + 8)).map (fun v => v % 2 == 1)) = _
  cases argLeast (fun b => b.obj) ((s.bounds.filter (fun b => b.ctx == c.id)).filter (s.boundCovers c n va)) <;> rfl

theorem mapM_eq_some {α β : Type} {g : α → Option β} {f : α → β} {l : List α} (h : ∀ a ∈ l, g a = some (f a)) :
    l.mapM g = some (l.map f) := by
  induction l with
  | nil => rfl
  | cons a as ih =>
    rw [List.forall_mem_cons] at h
    simp only [List.mapM_cons, h.1, ih h.2, List.map_cons]
    rfl

section
variable {s : State} {c : Context} {page : Nat → Page}

/-- Pages homed here, with one backing and whole ways to them, from an address for some bytes. -/
def State.Flat (s : State) (c : Context) (page : Nat → Page) (lo n : Nat) : Prop :=
  ∀ a, lo ≤ a → a < lo + n → s.pageOf none c a = .ok (page a) ∧ (page a).dbl = false ∧ (page a).home = 0 ∧
    s.homeCause none ((page a).base + a % (page a).size) = none

/-- The field of eight bytes at an address of flat pages. -/
def State.flatField (s : State) (page : Nat → Page) (lo : Nat) : Nat := leVal ((List.range 8).map (fun i =>
  s.peekByte (s.keyMaterial (page (lo + i)).keyid) ((page (lo + i)).base + (lo + i) % (page (lo + i)).size)))

theorem State.Flat.boundField {lo n : Nat} (flat : s.Flat c page lo n) {off : Nat} (within : off + 8 ≤ n) (fuel : Nat) :
    s.boundField c fuel (lo + off) = some (s.flatField page (lo + off)) := by
  have byte : ∀ i ∈ List.range 8, s.boundByte c fuel (lo + off + i) = some (s.peekByte (s.keyMaterial (page (lo + off + i)).keyid)
      ((page (lo + off + i)).base + (lo + off + i) % (page (lo + off + i)).size)) := fun i hi => by
    have := List.mem_range.mp hi
    obtain ⟨found, single, home, way⟩ := flat (lo + off + i) (by omega) (by omega)
    simp only [State.boundByte, found, single, home, Page.keyAt_home home, way, State.pageKm, Bool.false_and, Bool.false_eq_true, if_false,
      beq_self_eq_true, Option.isNone_none, Bool.and_self, if_true]
  rw [State.boundField, mapM_eq_some byte]
  rfl

/-- Whether the range of a bound object of flat pages covers an address. -/
def State.flatCovers (s : State) (c : Context) (page : Nat → Page) (va : Nat) (b : Bound) : Prop :=
  b ∈ s.bounds ∧ b.ctx = c.id ∧ s.flatField page b.obj ≤ va ∧ va < s.flatField page b.obj + s.flatField page (b.obj + 0x10)

section
variable {va : Nat} (flat : ∀ b ∈ s.bounds, b.ctx = c.id → s.Flat c page b.obj 24)
include flat

/-- The objects that the selector picks from are those whose range covers the address. -/
theorem State.mem_covering (fuel : Nat) (b : Bound) :
    b ∈ (s.bounds.filter (fun b => b.ctx == c.id)).filter (s.boundCovers c fuel va) ↔ s.flatCovers c page va b := by
  rw [List.mem_filter, List.mem_filter, beq_iff_eq, State.flatCovers, and_assoc]
  refine and_congr_right fun mem => and_congr_right fun ctx => ?_
  have base := (flat b mem ctx).boundField (off := 0) (by decide) fuel
  have size := (flat b mem ctx).boundField (off := 0x10) (by decide) fuel
  rw [Nat.add_zero] at base
  simp only [State.boundCovers, base, size, Bool.and_eq_true, decide_eq_true_eq]

/-- The selector is that of the lowest covering object (R266). -/
theorem State.selector_lowest {b : Bound} (hb : s.flatCovers c page va b) (least : ∀ o, s.flatCovers c page va o → b.obj ≤ o.obj) :
    s.selector c va = some (s.flatField page (b.obj + 8) % 2 == 1) := by
  rw [State.selector, State.selectorFrom_succ]
  cases found : argLeast (fun b => b.obj) ((s.bounds.filter (fun b => b.ctx == c.id)).filter (s.boundCovers c s.bounds.length va)) with
  | none =>
    have mem := (State.mem_covering flat s.bounds.length b).mpr hb
    rw [argLeast_eq_none found] at mem
    cases mem
  | some o =>
    obtain ⟨mem, lowest⟩ := argLeast_least found
    have ho := (State.mem_covering flat s.bounds.length o).mp mem
    have same : o.obj = b.obj := Nat.le_antisymm (lowest b ((State.mem_covering flat s.bounds.length b).mpr hb)) (least o ho)
    have sel := (flat o ho.1 ho.2.1).boundField (off := 8) (by decide) s.bounds.length
    rw [Option.bind_some, sel, same]
    rfl

theorem State.selector_uncovered (bare : ∀ b, ¬s.flatCovers c page va b) : s.selector c va = none := by
  have empty : (s.bounds.filter (fun b => b.ctx == c.id)).filter (s.boundCovers c s.bounds.length va) = [] :=
    List.eq_nil_iff_forall_not_mem.mpr fun b mem => bare b ((State.mem_covering flat s.bounds.length b).mp mem)
  rw [State.selector, State.selectorFrom_succ, empty]
  rfl

end

end

/-! ## The memory behind a page (R225, R371) -/

section
variable {s : State} {pa n : Nat}

/-- Bytes that do not all lie in one range are not reached. -/
theorem State.reachCause_outside (issuer : Option Nat) (wr : Bool) (hn : 0 < n)
    (h : ∀ d, s.homeDie pa = some d → s.homeDie (pa + n - 1) ≠ some d) : s.reachCause issuer 0 pa n wr = some 0x06 := by
  have none : (s.homeDie pa).filter (fun _ => s.inRange pa n) = none := by
    cases hd : s.homeDie pa with
    | none => rfl
    | some d => simp [State.inRange, hd, Nat.ne_of_gt hn, h d hd]
  simp only [State.reachCause, none, if_true]

/-- Bytes of one range are reached as the way to its die is (R371). -/
theorem State.reachCause_within (issuer : Option Nat) (wr : Bool) {d : Nat} (first : s.homeDie pa = some d)
    (last : s.homeDie (pa + n - 1) = some d) : s.reachCause issuer 0 pa n wr = s.wayFrom issuer d := by
  have here : (s.homeDie pa).filter (fun _ => s.inRange pa n) = some d := by simp [State.inRange, first, last]
  simp only [State.reachCause, here, if_true]

end

/-- What the poison check of a read makes of its place (R353). -/
theorem State.locateRead_eq {s : State} {va : Word} {n : Nat} {acc : Access} {p : Place} (h : s.locate va n acc = .ok p) (det : s.det = false) :
    s.locateRead va n acc = if s.poisoned p.key n = true then .error { cause := 0x0E, addr := some va } else .ok p := by
  have va_eq : BitVec.ofNat 64 p.va = va := by rw [State.locate_va h, BitVec.ofNat_toNat, BitVec.setWidth_eq]
  simp only [State.locateRead, h, State.unpoisoned, State.readPoisoned, det, Bool.not_false, Bool.true_or, Bool.and_true, va_eq]

/-- Whether a page gives an access its right, as R229 words it. -/
theorem Page.grants_here_iff (p : Page) (acc : Access) :
    (match acc with
      | .read => p.rd = true
      | .write => p.wr = true
      | .atomic => p.rd = true ∧ p.wr = true ∧ p.home = 0
      | .fetch => p.ex = true
      | .update => p.rd = true ∧ p.wr = true) ↔ p.grants acc = true ∧ (acc = .atomic → p.home = 0) := by
  cases acc <;> simp [Page.grants, and_assoc]

/-- Settles O23: each check of an access ends it with its own lemma, the walk goes by what one entry says, and the selector by the lowest object
that covers the address. -/
theorem translation : Obligations.Translation := by
  unfold Obligations.Translation
  refine ⟨fun s ctx issuer va n acc => ?_, fun s ctx issuer va n acc hidden c p near hc hp dbl home owned grants => ?_,
    fun s c va page flat => ?_, fun s issuer pa n wr hn => ?_, fun s c issuer va level table top => ?_, fun s va n acc => ?_⟩
  · intro wr absent bad
    have info : walkInfo acc false = wr := walkInfo_intact acc
    have writes : (wr == 1) = acc.writes := info ▸ walkInfo_writes acc
    refine ⟨fun far => ?_, fun c near hc => ⟨fun hp => ?_, fun hp => ?_, fun cause hp => ?_, fun p hp => ?_⟩⟩
    · exact info ▸ State.translate_far far
    · exact info ▸ State.translate_absent near hc hp
    · exact info ▸ State.translate_malformed near hc hp
    · exact info ▸ State.translate_lost near hc hp
    · intro right
      have rights : right ↔ p.grants acc = true ∧ (acc = .atomic → p.home = 0) := p.grants_here_iff acc
      refine ⟨fun refused => ?_, fun allowed owned single => ?_⟩
      · refine info ▸ State.translate_refused near hc hp ?_
        rw [rights] at refused
        rcases refused with h | h
        · by_cases g : p.grants acc = true
          · exact .inr (.inr (by simpa [g] using h))
          · exact .inl (by simpa using g)
        · exact .inr (.inl h)
      · obtain ⟨grants, here⟩ := rights.mp allowed
        intro fab device k
        have key : s.backedKey c p va.toNat false = k := State.backedKey_single single c va.toNat false
        refine ⟨fun cause lost => ?_, fun whole => ?_⟩
        · exact info ▸ State.translate_unreached near hc hp grants owned here (by rw [key, ← writes]; exact lost)
        · exact key ▸ State.translate_reached near hc hp grants owned here (by rw [key, ← writes]; exact whole)
  · intro plain second k whole
    have key : s.backedKey c p va.toNat hidden = k := State.backedKey_double dbl home c va.toNat hidden
    have km : s.pageKm p = s.keyMaterial p.keyid := if_pos home
    have reached := State.translate_reached near hc hp (n := n) (hidden := hidden) grants owned (fun _ => home) (by rw [key, home]; exact whole)
    rwa [key, km] at reached
  · intro field covers
    exact ⟨fun b hb least => State.selector_lowest flat hb least, fun none => State.selector_uncovered flat none⟩
  · refine ⟨fun split => State.reachCause_outside issuer wr hn split, fun d first last => ?_⟩
    rw [State.reachCause_within issuer wr first last]
    cases issuer <;> rfl
  · intro entry i e ppn size badLeaf badNode way walk
    have here : s.pageEntry table i = e := s.pageEntry_eq table i
    have ways : s.homeCause issuer table = way := by
      cases issuer <;> cases h : s.homeDie table <;> simp [way, h, State.homeCause, State.wayFrom]
    refine ⟨fun cause lost => State.walk_lost (ways.trans lost), fun whole v => State.walk_absent (ways.trans whole) here v,
      fun whole v leaf => ?_, fun whole v node l hl => ?_, fun root => ?_⟩
    · have bad : s.malformed table i level e = true ↔ badLeaf := by
        rw [State.malformed_leaf leaf, leafSize_eq]
        simp only [State.pageEntry_eq]
        exact Iff.rfl
      refine ⟨fun h => State.walk_malformed (ways.trans whole) here v (bad.mpr h), fun h => ?_⟩
      have found := State.walk_leaf (ways.trans whole) here v leaf (by rw [← Bool.not_eq_true]; exact fun x => h (bad.mp x))
      rwa [leafSize_eq] at found
    · subst hl
      have bad : s.malformed table i (l + 1) e = true ↔ badNode := State.malformed_node node
      exact ⟨fun h => State.walk_malformed (ways.trans whole) here v (bad.mpr h),
        fun h => State.walk_node (ways.trans whole) here v node (by rw [← Bool.not_eq_true]; exact fun x => h (bad.mp x))⟩
    · rw [State.pageOf, if_neg]
      simpa [Option.isSome_iff_ne_none] using root
  · refine ⟨fun t lost => ?_, fun p found det => ?_⟩
    · rw [State.locateRead, lost]
    · rw [State.locateRead_eq found det]
      exact ⟨fun bad => if_pos bad, fun clean => if_neg (by rw [clean]; decide)⟩

end Sys2Proof.Machine
end
